-- ==== Sys2Proof/Word.lean ====
section
/-! DEFINITION. Words of the die: bytes, 32-bit registers (R9), 64-bit counters (R13), and the sparse table every
indexed piece of state is held in. -/

namespace Sys2Proof

abbrev Byte := BitVec 8
abbrev W32 := BitVec 32
abbrev W64 := BitVec 64

/-- A sparse table: keys strictly rising, no entry equal to what an unlisted key reads as. -/
abbrev Tab (α : Type) := List (Nat × α)

/-- A count of a 64-bit counter. -/
def inc64 (w : W64) (n : Nat) : W64 := w + BitVec.ofNat 64 n

end Sys2Proof
end

