-- ==== Sys2Proof/Syntax.lean ====
section
/-! DEFINITION. The commands of the die: one constructor per row of spec/opcode_table.json, in the table's order.
What a row's command takes from outside the die (a message's bytes, a register value, a physical outcome) is its operand;
what the die itself holds (the issuing bundle, the head of a FIFO) is read from State. -/

namespace Sys2Proof

/-- A word in error that the check code of R230 finds: `store` is the index of R594 (0 to 10). -/
structure EccWord where
  uncorr : Bool
  store  : Nat
  off    : Nat
deriving DecidableEq, Repr

/-- What the check code finds in the words a step reads or merges: every word in error, in the order they are met. -/
abbrev Ecc := List EccWord

abbrev Ecc.ok : Ecc := []
abbrev Ecc.corr (store off : Nat) : Ecc := [{ uncorr := false, store := store, off := off }]
abbrev Ecc.uncorr (store off : Nat) : Ecc := [{ uncorr := true, store := store, off := off }]

/-- What the HBM4 accesses that a command stands for met; an address names the block that failed. A failure at an address
that the command does not touch is none. -/
inductive Access where
  | ok
  /-- words in error (R230), of any store that the command reads or merges -/
  | ecc (e : Ecc)
  /-- eight retries ended in CRC errors (R232, R236) -/
  | crcFail (phys : Nat)
  /-- the stacks deliver this cipher text and this tag for a block, in place of those they took of it (R494, R495) -/
  | delivered (block : Nat) (cipher : List Byte) (tag : BitVec 64)
deriving DecidableEq, Repr

/-- The three transports of R520. -/
inductive Path where
  | mgmtPort | i3c | host
deriving DecidableEq, Repr

/-- What the port receives besides MCTP (R520). -/
inductive Frame520 where
  | neighbourDiscovery | echo | other
deriving DecidableEq, Repr

/-- What a Creholt instruction of the debug port asks of the units it reaches (R531): a register of theirs, or a byte of an on-die
store, by the index of R594. The codes of these instructions are not given. -/
inductive DebugOp where
  | readReg (off : BitVec 24)
  | writeReg (off : BitVec 24) (val : W32)
  | readStore (store addr : Nat)
  | writeStore (store addr : Nat) (val : Byte)
deriving DecidableEq, Repr

/-- JTAG instructions (R627). -/
inductive DebugInstr where
  | bypass | idcode | samplePreload
  | extest (pins : W64)
  | creholt (op : DebugOp)
  | unknown (op : W32)
deriving DecidableEq, Repr

/-- What the checks on an image, package or configuration found (FW_AUTH_FAIL codes of R596). -/
inductive Verdict where
  | good | signature | signer | svn | digest | format
deriving DecidableEq, Repr

/-- What a firmware slot holds (R571): the manifest's fields in their order, its two signatures, and the two stages that follow it. -/
structure Manifest where
  magic      : W32 := 0x46545A52
  version    : BitVec 16 := 1
  svn        : Byte
  rsvd       : Byte := 0
  dawnBytes  : W32
  mainBytes  : W32
  buildId    : BitVec 128
  dawnDigest : BitVec 384
  mainDigest : BitVec 384
  signer     : BitVec 384
  tail       : BitVec 640 := 0
  /-- the signatures over bytes 0x000–0x0FF: ECDSA P-384, and ML-DSA-87 -/
  ecdsa      : BitVec 768
  mldsa      : BitVec 37016
  dawn       : List Byte
  main       : List Byte
deriving DecidableEq, Repr

/-- One listed loop of the board configuration (R402, R577). -/
structure LoopConf where
  loop     : Nat
  port     : BitVec 2
  chan     : BitVec 4
  period   : W32
  phase    : W32
  deadline : W32
  guard    : W32
  dawn     : Bool
deriving DecidableEq, Repr

/-- The board configuration of R577. -/
structure BoardConf where
  seq        : Nat
  /-- both signatures verify, by keys that chain to the operator root with this digest -/
  sigOk      : Bool
  root       : BitVec 384
  safe       : Tab W32
  loops      : List LoopConf
  ports      : List (Nat × BitVec 3)
  /-- the Dawn weights -/
  weights    : List Byte
  nwtCtrl    : W32
  mgmtAddr   : BitVec 144
  poolPages  : Nat
  exclOnFail : Bool
  exclGroups : BitVec 16
  digest     : BitVec 384
deriving DecidableEq, Repr

/-- What SET_JOB_KEY does with a key slot of a job (R472). -/
inductive JobKeyOp where
  | install (key : BitVec 256)
  | clear
  /-- the die's senders go over to the slot -/
  | useSlot
deriving DecidableEq, Repr

/-- A management command on its way (R525). `flashOk` says whether the flash access that the command makes succeeds (R526). -/
inductive MgmtCmd where
  | setFabAddr (addr : W32)
  | setRoute (index : Nat) (pfx ctl : W32)
  | setChannel (index : Nat) (words : List W32)
  | setJobKey (job : W32) (epoch : Bool) (op : JobKeyOp)
  | setPort (p : Nat) (enable : Bool) (timeout : W32)
  | rotateSlot (slot : Nat)
  | stageFirmware (img : Manifest)
  | setNwtPackage (bytes : List Byte) (sigOk flashOk : Bool)
  | setBoardConfig (conf : BoardConf) (flashOk : Bool)
  | readFaults
  | burnFuse (lifecycleRow : Bool) (row : Nat) (value : BitVec 384)
  | unlockDebug
  | rollbackFirmware (flashOk : Bool)
  | eraseKeys
deriving DecidableEq, Repr

/-- A request that the pieces of CHUNK_SEND spell (R522): one that may be longer than a transport carries at once. -/
inductive LargeReq where
  | deliver (sid : Nat) (chain : List (BitVec 384)) (selfSigned sigOk validNow : Bool)
  | finish (sid : Nat) (macOk : Bool)
  | kemMix (sid : Nat) (ct : BitVec 12544)
  | manage (sid : Nat) (cmd : MgmtCmd)
  /-- none that the die supports -/
  | other
deriving DecidableEq, Repr

/-- A transmitter of `txFrameStart`: field ports 0 to 3, and 4 for the class-0x3 loop messages (R393). -/
abbrev TxPort := Fin 5

/-- The commands, one for each row of the opcode table. Where an operand has a default, it is what the event most often brings. -/
inductive Instr where
  -- bundle issue
  | bundleIssue (fetch : Ecc)
  | loopBegin
  | loopEnd
  | exit
  | tallyWaitRelease
  | tallyTimeout
  -- tensor engines
  | enop (te : Fin 2)
  | wload (te : Fin 2) (ecc : Ecc)
  | stream (te : Fin 2) (ecc : Ecc)
  | streamRowComplete (te : Fin 2) (ecc : Ecc)
  -- vector units
  | vnop
  | vadd (ecc : Ecc)
  | vmul (ecc : Ecc)
  | vfma (ecc : Ecc)
  | vmax (ecc : Ecc)
  | vmin (ecc : Ecc)
  | vcmpgt (ecc : Ecc)
  | vexp (ecc : Ecc)
  | vrecip (ecc : Ecc)
  | vrsqrt (ecc : Ecc)
  | vcvt (ecc : Ecc)
  | vrmax (ecc : Ecc)
  | vrsum (ecc : Ecc)
  | vamax (ecc : Ecc)
  | vmerge (ecc : Ecc)
  | vhad (ecc : Ecc)
  | vectorResult (ecc : Ecc := .ok)
  -- slot 3
  | launch
  | stop
  | threadLaunchArrive
  | threadStopArrive
  -- slot 4
  | fwload (ecc : Ecc)
  | fstream (ecc : Ecc)
  | flintRowComplete (ecc : Ecc)
  | fft (ecc : Ecc)
  | ifft (ecc : Ecc)
  | cmul (ecc : Ecc)
  | wht (ecc : Ecc)
  | micaResult (ecc : Ecc := .ok)
  -- slot 5
  | pnop
  | maxpool (ecc : Ecc)
  | avgpoolInc (ecc : Ecc)
  | avgpoolExc (ecc : Ecc)
  | cropBilinear (ecc : Ecc)
  | cropNearest (ecc : Ecc)
  | argmax (ecc : Ecc)
  | postResult (ecc : Ecc := .ok)
  -- slot 6
  | snop
  | tinc
  | cmd (ecc : Ecc)
  | sense (ecc : Ecc := .ok)
  | mark
  -- transfer threads and memory
  | requestIssue (t : Fin 4096) (room readNow : Bool) (walk : Access := .ok)
  | requestComplete (t : Fin 4096) (which portWait : Nat) (res : Access) (picks : List Nat := [])
  | hbmPhyLockLoss (channel : Fin 128)
  | patrolRead (found : Ecc)
  | hbmRefresh (site : Fin 4)
  | move (t : Fin 4096) (ecc : Ecc)
  | stride (t : Fin 4096) (ecc : Ecc)
  | gather (t : Fin 4096) (ecc : Ecc) (walk : Access := .ok)
  | scatter (t : Fin 4096) (ecc : Ecc) (walk : Access := .ok)
  | signal (t : Fin 4096) (ecc : Ecc)
  | wait (t : Fin 4096) (ecc : Ecc)
  | threadWaitRelease (t : Fin 4096)
  | loop (t : Fin 4096) (ecc : Ecc)
  | endStep (t : Fin 4096) (ecc : Ecc)
  | threadFail (t : Fin 4096)
  | passClose (t : Fin 4096)
  -- ingress
  | reservedClassMessage (cls : BitVec 4)
  | sof (m : Fin 16) (frame : W32) (sensorTs : W64) (width height : BitVec 16) (fmt : Byte) (fifoFull : Bool)
  | line (m : Fin 16) (row offset : Nat) (payload : List Byte) (fifoFull : Bool)
  | eof (m : Fin 16) (fifoFull : Bool)
  | timesync (timeNs : W64)
  | slewEnd
  | voidStripeHandover (m : Fin 16)
  | stripeFree (m : Fin 16)
  | ingStreamEnable (fn : Fin 64) (m : Fin 16) (val : W32)
  | ingStreamDisable (fn : Fin 64) (m : Fin 16) (val : W32)
  -- KV page manager
  | allocate (fn s : Fin 64)
  | share (fn s : Fin 64)
  | cow (fn s : Fin 64)
  | free (fn s : Fin 64)
  | publish (fn s : Fin 64) (len : BitVec 17)
  | query (fn s : Fin 64)
  | kvpQueueHead (acc : Access)
  | retire (acc : Access)
  -- field ports and loops
  | sensor (p : Fin 4) (frame : List Byte)
  | status (p : Fin 4) (frame : List Byte)
  | loopMessage (mch : Byte) (frame : List Byte)
  | frameAbort (p : Fin 4)
  | alignGain (p : Fin 4)
  | alignLoss (p : Fin 4) (inFrame : Bool)
  | fldPortEnable (fn : Fin 64) (p : Fin 4) (val : W32)
  | fldPortDisable (fn : Fin 64) (p : Fin 4) (val : W32)
  | loopEnable (fn : Fin 64) (n : Fin 8) (val : W32)
  | loopDisable (fn : Fin 64) (n : Fin 8) (val : W32)
  | commandArrival (n : Fin 8)
  | periodStart (n : Fin 8)
  | deadline (n : Fin 8)
  | txFrameStart (p : TxPort) (credits : Nat := 0)
  | heartbeatDue (p : Fin 4)
  | hbPeriodWrite (fn : Fin 64) (val : W32)
  | rxstat0Read (fn : Fin 64) (tag : BitVec 16) (n : Fin 8)
  -- Nightwatch
  | watchSof (number : W32)
  | watchData (info : BitVec 16) (data : W64)
  | watchEof
  | nwtEnable (fn : Fin 64) (val : W32)
  | nwtFrameResult (ecc : Ecc)
  -- host messages
  | regRd (fn : Fin 64) (tag : BitVec 16) (off : BitVec 24) (bytes : Nat)
  | regWr (fn : Fin 64) (off : BitVec 24) (bytes : Nat) (val : W32)
  | memRd (fn : Fin 64) (tag : BitVec 16) (addr : BitVec 40) (len : BitVec 8) (res : Access)
  | memWr (fn : Fin 64) (addr : BitVec 40) (data : List Byte) (res : Access)
  | reservedHostKind (kind : BitVec 4)
  -- slots and the calendar
  | grant (fn s : Fin 64)
  | load (fn s : Fin 64)
  | loadComplete (s : Fin 64) (acc : Access)
  | arm (fn s : Fin 64) (runs : W32)
  | disarm (fn s : Fin 64)
  | abort (fn s : Fin 64)
  | unload (fn s : Fin 64)
  | release (fn s : Fin 64)
  | unloadReleaseDone (s : Fin 64)
  | calEntryDue
  | dispatchStart
  | runEnd
  | calSwap (fn : Fin 64) (val : W32)
  | calSwapEffect
  | calEnable (fn : Fin 64) (val : W32)
  | calDisable (fn : Fin 64) (val : W32)
  -- the Tirca fabric
  | dataCell (p : Fin 8) (cell : List Byte)
  | cellForward (p : Fin 8)
  | linkCell (p : Fin 8) (cell : List Byte)
  | helloCell (p : Fin 8) (cell : List Byte)
  | topoCell (p : Fin 8) (cell : List Byte)
  | helloSend (p : Fin 8) (nonce : W64)
  | linkAck (p : Fin 8)
  | replayTimer (p : Fin 8)
  | fabTimeout (cause : BitVec 4) (p : Fin 8) (chan : Fin 4096) (t : Fin 4096)
  | portSleep (p : Fin 8)
  | fabWake (p : Fin 8)
  | wakeResend (p : Fin 8)
  -- confidential contexts
  | lockInterfaceRequest (s : Fin 64) (path : Path := .host)
  | lockInitDone (s : Fin 64)
  | startInterfaceRequest (s : Fin 64) (path : Path := .host)
  | stopInterfaceRequest (s : Fin 64) (path : Path := .host)
  | ideStreamInsecure (s : Fin 64)
  | scrubDone (s : Fin 64)
  | prologuePiece (acc : Access := .ok)
  | rotate (fn s : Fin 64)
  | sweepComplete (s : Fin 64)
  | nfpOpen (fn s : Fin 64)
  | nfpOpenDone (s : Fin 64) (acc : Access)
  -- management: MCTP control
  | setEndpointId (path : Path) (eid : Byte)
  | getEndpointId (path : Path)
  | getMctpVersionSupport (path : Path) (mtype : Byte)
  | getMessageTypeSupport (path : Path)
  | getVendorDefinedMessageSupport (path : Path) (sel : Byte)
  | unsupportedMctpCommand (path : Path) (code : Byte)
  | icmpv6Message (kind : Frame520)
  -- SPDM
  | getVersion (path : Path)
  | getCapabilities (path : Path) (flags : W32) (transferSize : Nat := 0)
  | negotiateAlgorithms (path : Path) (offersAll : Bool)
  | getDigests (path : Path)
  | getCertificate (path : Path) (slot : Byte) (off len : Nat)
  | challenge (path : Path) (slot : Byte) (nonce : BitVec 256)
  | getMeasurements (path : Path) (index : Byte) (nonce : Option (BitVec 256))
  | keyExchange (path : Path) (slot : Byte) (pub : BitVec 768)
  | finish (path : Path) (sid : Nat) (macOk : Bool)
  | getEncapsulatedRequest (path : Path) (sid : Nat)
  | deliverEncapsulatedResponse (path : Path) (sid : Nat) (chain : List (BitVec 384)) (sigOk validNow : Bool) (selfSigned : Bool := true)
  | heartbeat (path : Path) (sid : Nat)
  | keyUpdate (path : Path) (sid : Nat)
  | endSession (path : Path) (sid : Nat)
  | chunkSend (path : Path) (handle : Byte) (seqno : BitVec 16) (last : Option LargeReq) (data : List Byte)
  | chunkGet (path : Path) (handle : Byte) (seqno : BitVec 16)
  | hybridSig (path : Path)
  | kemMix (path : Path) (sid : Nat) (ct : BitVec 12544)
  | unsupportedSpdmRequest (path : Path) (code : Byte)
  -- management commands
  | setFabAddr (sid : Nat) (addr : W32)
  | setRoute (sid : Nat) (index : Nat) (pfx ctl : W32)
  | setChannel (sid : Nat) (index : Nat) (words : List W32)
  | setJobKey (sid : Nat) (job : W32) (epoch : Bool) (op : JobKeyOp)
  | setPort (sid : Nat) (p : Nat) (enable : Bool) (timeout : W32)
  | rotateSlot (sid : Nat) (s : Fin 64)
  | stageFirmware (sid : Nat) (img : Manifest)
  | setNwtPackage (sid : Nat) (bytes : List Byte) (sigOk : Bool) (flashOk : Bool := true)
  | setBoardConfig (sid : Nat) (conf : BoardConf) (flashOk : Bool)
  | readFaults (sid : Nat)
  | burnFuse (sid : Nat) (lifecycleRow : Bool) (row : Nat) (value : BitVec 384)
  | unlockDebug (sid : Nat)
  | rollbackFirmware (sid : Nat) (flashOk : Bool := true)
  | eraseKeys (sid : Nat)
  -- presence and the seal loop
  | presenceAssert
  | presenceRelease
  | sealSample (sealIn : Bool)
  -- power
  | plevelWrite (fn : Fin 64) (val : W32)
  | thermalSample (temps : List Int)
  | voteSet (fn : Fin 64) (val : W32)
  | voteClr (fn : Fin 64) (val : W32)
  | sleepEntryStart
  | entryWindowClose
  | sleepStateReached
  | hostWake
  | wakeNAssert
  | pwrTimerMatch
  | sleepExitStart
  | sleepExitDone
  -- bring-up, reset and firmware
  | pwrgoodRise (straps : BitVec 3)
  | pwrgoodFall
  | resetNFall
  | resetNRise (straps : BitVec 3) (certs : Verdict) (certsPq : Verdict := .good)
  | dawnServiceStart (board nwt : Verdict)
  | hbmTrainingDone (at80 at64 : BitVec 4)
  | fullService
  | warmReset (fn : Fin 64) (val : W32)
  | warmResetMsg
  | warmResetDone (at80 at64 : BitVec 4)
  | engineReset (fn : Fin 64) (val : W32)
  | engineResetDone (n : Fin 2)
  | fwConfirm (fn : Fin 64) (val : W32)
  -- records and registers
  | errRecordClear (fn : Fin 64) (i : Fin 73)
  | errHdrRead (fn : Fin 64) (tag : BitVec 16) (i : Fin 73)
  | fatalFlashWrite (i : Fin 73) (flashOk : Bool)
  | peerFailWindowEnd (job peer : W32)
  | reg64LoRead (fn : Fin 64) (tag : BitVec 16) (off : BitVec 24)
  | regionLockSet (fn : Fin 64) (off : BitVec 24) (val : W32)
  | registerWrite (fn : Fin 64) (off : BitVec 24) (val : W32)
  | fieldFrameDiscard (p : Fin 4) (frame : List Byte)
  | sweepBlockRewrite (s : Fin 64) (acc : Access)
  | levelTransitionComplete
  | wakeNRise
  | referenceClockStop
  | powerLoss
  | mainStageChecked (v : Verdict)
  | dawnWeightsChecked (v : Verdict)
  | updateStaged (ok : Bool)
  | fuseRowCommit (ok : Bool)
  | ideKm (path : Path) (sid : Nat)
  | mctpOtherMessageType (path : Path) (mtype : Byte)
  | debugPortInstruction (i : DebugInstr)
  | managementPortLink (up : Bool)
  | dynamicAddressAssign (addr : BitVec 7)
  | entropyHealthTestFail
deriving DecidableEq, Repr

end Sys2Proof
end

