-- ==== Sys2Proof/Config.lean ====
section
/-! DEFINITION. What the spec leaves open. Every constant here is opaque: no proof can see its value. Each has a row in
the assumption log (entry 13 lists them all). -/

namespace Sys2Proof

/-- The syndrome that names a corrected bit of the 72 (R230); the check matrix is not published. -/
opaque Config.bitSyndrome : Nat → BitVec 8

/-- The bit that a correctable word has in error; by store, offset and event number. -/
opaque Config.errorBit : Nat → Nat → Nat → Nat

/-- The syndrome of an uncorrectable word, before it is set apart from 0 and from the corrected bits' (R230). -/
opaque Config.syndrome : Nat → Nat → Nat → BitVec 8

/-- Bank of a store whose address map the spec does not give (R228 gives the working stores' and line buffers'). -/
opaque Config.storeBank : Nat → Nat → BitVec 16

/-- What a lane gives for VEXP, VRECIP and VRSQRT, by opcode, VFMT code and operand: used where it lies within the bound
of R141. -/
opaque Config.lanePick : Nat → Nat → Nat → W32

/-- VRSUM under INT32: the sum of two lanes that leaves the INT32 range; the spec states no result. -/
opaque Config.vrsumOverflow : Int → W32

/-- VAMAX under INT32: the absolute value of −2^31; the spec states no result. -/
opaque Config.vamaxLeast : W32

/-- Mica's FFT decimates in frequency rather than in time; the spec gives the radices and their order, not this (R316). -/
opaque Config.fftFrequency : Bool

/-- The COMMAND block that the Dawn loop's controller gives a loop, by its weights and the SENSOR frames of the loops it serves;
its model is not the spec's (R402). -/
opaque Config.dawnBlock : List Byte → List (Nat × List Byte) → Nat → List Byte

/-- Byte `i` of the AES-256-GCM key stream, by key and IV (R471, R509); the cipher is outside the spec. -/
opaque Config.gcmStream : BitVec 256 → List Byte → Nat → Byte

/-- The AES-256-GCM tag, by key, IV, additional data and ciphertext (R471, R509). -/
opaque Config.gcmTag : BitVec 256 → List Byte → List Byte → List Byte → BitVec 128

/-- Request `i` of the random bit generator (R516). -/
opaque Config.drbg : Nat → BitVec 256

/-- AES-256-XTS of a data unit, by the key's halves, the tweak and the bytes (R493); the cipher is outside the spec. -/
opaque Config.xts : BitVec 256 → BitVec 256 → BitVec 128 → List Byte → List Byte

/-- What AES-256-XTS deciphers a data unit to that the die did not encipher (R493). -/
opaque Config.xtsOpen : BitVec 256 → BitVec 256 → BitVec 128 → List Byte → List Byte

/-- AES-256-CMAC (R494). -/
opaque Config.cmac : BitVec 256 → List Byte → BitVec 128

/-- The UDS row (R514): a secret of 32 bytes, burned at test. -/
opaque Config.uds : Nat → Byte

/-- Byte `i` of HKDF-SHA384, by salt, input and info (R509, R515, R523); the function is outside the spec. -/
opaque Config.hkdf : List Byte → List Byte → List Byte → Nat → Byte

/-- Byte `i` of the ML-KEM-1024 encapsulation key that (d, z) give, and of the secret that a ciphertext opens to (R508, R509). -/
opaque Config.mlkemPub : List Byte → Nat → Byte
opaque Config.mlkemDecaps : List Byte → List Byte → Nat → Byte

/-- Byte `i` of the uncompressed P-384 point of a scalar, and of the ECDH x coordinate with a point (R508, R509). -/
opaque Config.p384Point : Nat → Nat → Byte
opaque Config.ecdhX : Nat → List Byte → Nat → Byte

/-- Byte `i` of the ML-DSA-87 public key of a seed, and of its signature over a message (R515, R523). -/
opaque Config.mldsaPub : List Byte → Nat → Byte
opaque Config.mldsaSign : List Byte → List Byte → Nat → Byte

/-- Byte `i` of the ECDSA P-384 signature by a scalar over a message (R522). -/
opaque Config.ecdsaSign : Nat → List Byte → Nat → Byte

/-- Byte `i` of the hash of SPDM transcript `n` (R523), which covers the two nonces, the requester's first (R538); what else SPDM puts
into it is outside the spec. -/
opaque Config.transcript : Nat → List Byte → Nat → Byte

/-- The die's nonce of SPDM transcript `n`, a number of the random bit generator (R516, R538). -/
opaque Config.dieNonce : Nat → BitVec 256

/-- Byte `i` of an SPDM session's master secret, by the die's scalar and the requester's point (R522, R523), and of the session keys that
KEY_UPDATE makes of others; the schedule is SPDM's. -/
opaque Config.spdmMaster : Nat → List Byte → Nat → Byte
opaque Config.spdmUpdate : List Byte → Nat → Byte

/-- The certificates of the root CA and the manufacturing CA, and the DeviceID certificate that flash holds from test on: signed with
ECDSA P-384 (0) and with ML-DSA-87 (1) (R517). -/
opaque Config.caCerts : Nat → List Byte
opaque Config.deviceCert : Nat → List Byte

/-- The SHA-384 that the boot ROM holds of the two keys that sign firmware (R571). -/
opaque Config.firmwareSigner : BitVec 384

/-- The pairs of signatures, ECDSA P-384 and ML-DSA-87, that verify over some bytes under the keys of `firmwareSigner` (R571): the
pair that signing gives, and what others verify too. -/
opaque Config.fwSignatures : List Byte → (BitVec 768 × BitVec 37016) × List (BitVec 768 × BitVec 37016)

/-- An X.509 v3 certificate, by leaf key, serial number, notAfter, extension and signature (R517); the encoding is X.509's. -/
opaque Config.certificate : List Byte → List Byte → List Byte → List Byte → List Byte → List Byte

/-- Both signatures of a Nafin package verify under the keys its SIGNER names (R507, R509). -/
opaque Config.nfpVerify : List Byte → Bool

/-- SHA-384, which the spec names and does not define; the Nightwatch digest (R421). -/
opaque Config.sha384 : List Byte → BitVec 384

/-- The boot ROM's digest (measurement block 1, R532). -/
opaque Config.bootRomDigest : BitVec 384

/-- The step of the SEAL loop's 32-bit maximal LFSR, whose polynomial the spec does not give (R529). -/
opaque Config.lfsrStep : W32 → W32

/-- What site `i` reports of its stack's temperature, as HBM_TEMPi has it: VALID and TEMP (R266). No command carries it. -/
opaque Config.stackTemp : Nat → Nat → BitVec 9

end Sys2Proof
end

