-- ==== Sys2Proof/Machine/Bytes.lean ====
section
/-! DEFINITION. Numbers as bytes, and the signed part of a firmware manifest (R571), which the state after reset needs. -/

namespace Sys2Proof.Machine

/-- The `n` bytes of a value, little-endian. -/
def leBytes : Nat → Nat → List Byte
  | 0, _ => []
  | n + 1, v => BitVec.ofNat 8 v :: leBytes n (v / 256)

/-- Bytes 0x000–0x0FF of a manifest (R571). -/
def imageHeader (m : Manifest) : List Byte :=
  leBytes 4 m.magic.toNat ++ leBytes 2 m.version.toNat ++ [m.svn, m.rsvd] ++ leBytes 4 m.dawnBytes.toNat ++ leBytes 4 m.mainBytes.toNat ++
    leBytes 16 m.buildId.toNat ++ leBytes 48 m.dawnDigest.toNat ++ leBytes 48 m.mainDigest.toNat ++ leBytes 48 m.signer.toNat ++
    leBytes 80 m.tail.toNat

end Sys2Proof.Machine
end

