-- ==== Sys2Proof/Machine/State.lean ====
section
/-! DEFINITION. The state of the Ruzor N2 die as plain data, unit by unit, with the queue of waiting commands.
Indexed state is a `Tab`: a key that is not listed holds the default record. -/

namespace Sys2Proof.Machine

/-- No row of the table stops the die (R593: faults are records and aborts), so no meaning answers a fault. -/
inductive Fault where
  /-- raised by no command; kept so that the type is not empty. Safe. -/
  | none
deriving DecidableEq, Repr

inductive Refusal where
  /-- an instruction with no meaning yet; raised by no arm. Safe. -/
  | notModelled (mnemonic : String)
deriving DecidableEq, Repr

/-- The three parts of R1, told apart by fuses. -/
inductive Variant where
  | crz2240 | crz2232 | crz2214
deriving DecidableEq, Repr

/-- R431. -/
inductive SlotState where
  | free | granted | loading | loaded | armed | aborted
deriving DecidableEq, Repr

/-- R484, coded as SEC_CTXs_STATE.TDI. -/
inductive TdiState where
  | unlocked | locked | run | error
deriving DecidableEq, Repr

/-- R550, coded as PWR_STATUS.STATE. -/
inductive Sleep where
  | active | dusk | night | midnight
deriving DecidableEq, Repr

/-- FAB_PORTp_STATUS.STATE of R481. -/
inductive PortState where
  | disabled | training | up | asleep | failed
deriving DecidableEq, Repr

/-! ### Identity and time -/

/-- GLB registers (R28 to R35). -/
structure Glb where
  lock        : Bool := false
  boardId     : W32 := 0
  scratch     : W32 := 0
  hbmPop      : BitVec 4 := 0
  fwSlot      : Bool := false
  hbmExcluded : Bool := false
  service     : BitVec 2 := 0
  aclkCycles  : W64 := 0
deriving DecidableEq, Repr

/-- Die time (R281), in units of 2^-20 ns so that the slew is exact, and the time bases. -/
structure Time where
  tq         : Int := 0
  slew       : Int := 0
  slewLeft   : Nat := 0
  valid      : Bool := false
  /-- the time has been set since it was last 0 (R33): from then on it counts -/
  everSet    : Bool := false
  refRunning : Bool := true
  /-- FLD_TIMEBASE in ns (R395) -/
  timebase   : W64 := 0
  /-- PWR_AON (R567) with the fraction of an AONCLK cycle in 1/1000 -/
  aon        : W64 := 0
  aonFrac    : Nat := 0
deriving DecidableEq, Repr

/-! ### Bundle issue -/

structure Tally where
  value : BitVec 24 := 0
  err   : Bool := false
  /-- cause code of the source that set the error bit (R55, R260) -/
  cause : Nat := 0
deriving DecidableEq, Repr

structure LoopEntry where
  start     : Nat
  remaining : Nat
deriving DecidableEq, Repr

/-- Where bundle issue stands with the bundle at `pc` (R41). -/
inductive Phase where
  /-- the bundle at `pc` is due -/
  | due
  /-- its wait has stalled for so many cycles, against the timeout taken when the wait began (R71) -/
  | stalled (cycles limit : Nat)
  /-- issuing: cycles still to issue counting this one, and the slots that have yet to act in this cycle -/
  | issuing (left : Nat) (todo : List Nat)
  /-- the last issue cycle is over and loop control is to act (R41 step 3) -/
  | control
  /-- EXIT has issued; the run drains (R60) -/
  | drain
deriving DecidableEq, Repr

structure Run where
  slot       : Nat
  pc         : Nat := 0
  phase      : Phase := .due
  bundle     : BitVec 512 := 0
  firstCycle : Bool := true
  loops      : List LoopEntry := []
  /-- issue and stall cycles since the run's first bundle issued (R113, R448) -/
  cycles     : Nat := 0
  started    : Bool := false
  /-- cycles the run has held issue (R450) -/
  held       : Nat := 0
  /-- FORCE_EXACT of TE0 and TE1, sampled at the start (R187) -/
  force0     : Bool := false
  force1     : Bool := false
  /-- engines that have reported the last row of their elastic range (R180), and rows consumed -/
  reported   : List Nat := []
  consumed0  : Nat := 0
  consumed1  : Nat := 0
  entered0   : Bool := false
  entered1   : Bool := false
  /-- a second presentation of an INT16 row is due (R123) -/
  second0    : Bool := false
  second1    : Bool := false
  /-- a slot action of this issue cycle had an access refused (R58) -/
  refused    : Bool := false
  /-- its context was aborted in this issue cycle: the cycle's other slots act, and issue stops in the next (R78) -/
  ended      : Bool := false
deriving DecidableEq, Repr

/-- A slot-3 action between issue and the transfer engine (R100, R102). -/
structure LaunchEntry where
  stop   : Bool
  slot   : Nat
  first  : Nat
  count  : Nat
  entry  : Nat
  arg    : W32
  /-- its context was aborted after the issue (R78) -/
  dead   : Bool := false
deriving DecidableEq, Repr

structure Issue where
  run          : Option Run := none
  /-- ACLK cycles of issue, the clock that latencies count in -/
  cyc          : Nat := 0
  /-- ACLK cycles that the reference has given and bundle issue has not yet taken; below 0 where commands have taken theirs
  ahead of the reference -/
  owed         : Int := 0
  stallCycles  : W64 := 0
  tallyTimeout : W32 := 0x00432380
  tallies      : Tab Tally := []
  sat          : BitVec 256 := 0
  fifo         : List LaunchEntry := []
  launchDrop   : W32 := 0
  agEmpty      : BitVec 7 := 0
  /-- cursors by unit × 8,192 + program (R300) -/
  cursors      : Tab Nat := []
  /-- increments of completion tallies on their way: the cycle in which each is made, and its tally (R180) -/
  incs         : List (Nat × Nat) := []
  /-- slots aborted in the present issue cycle, oldest first, each with the lowest cause that has met it (R601) -/
  aborts       : List (Nat × Nat) := []
deriving DecidableEq, Repr

/-! ### Stores -/

/-- The byte memories (R227, R292, R322, R363). An unlisted byte reads 0x00. -/
structure Stores where
  ws0   : Tab Byte := []
  ws1   : Tab Byte := []
  lb    : Tab Byte := []
  hbm   : Tab Byte := []
  instr : Tab Byte := []
  xprog : Tab Byte := []
  /-- program memories: unit × 524,288 + 64 × program -/
  ag    : Tab Byte := []
  desc  : Tab Byte := []
  tmpl  : Tab Byte := []
deriving DecidableEq, Repr

/-! ### Tensor engines -/

/-- The reads of a WLOAD's statistics entry that are still to come (R172): its slot, its first issue cycle, and where the entry lies. -/
structure StatRead where
  slot  : Nat
  start : Nat
  space : Nat
  addr  : Nat
  len   : Nat
deriving DecidableEq, Repr

/-- A weight plane (R118) with its statistics copy (R172) and scales (R203). -/
structure Plane where
  fmt     : BitVec 3 := 0
  rows    : Tab (List Byte) := []
  stats   : List Byte := []
  statRead : Option StatRead := none
  /-- E8M0 scales by weight row piece × 512 + output; unlisted: X = 127 stored as 0 offset -/
  scales  : Tab Nat := []
  blocked : Bool := false
  loaded  : Bool := false
  /-- the row the running WLOAD writes next (R90) -/
  next    : Nat := 0
deriving DecidableEq, Repr

/-- Every row marked unwritten; the FMT of the last WLOAD stays (R126, R148). -/
def Plane.unwritten (p : Plane) : Plane := { fmt := p.fmt }

/-- A row inside an engine or Flint between entry and completion (R128). -/
structure RowFlight where
  entry    : Nat
  slot     : Nat
  conf     : Bool
  word     : W64
  bundle   : Nat
  force    : Bool
  /-- the activation bytes of the array rows, and for block-scaled rows one E8M0 code a block -/
  act      : List Byte
  actScale : List Nat
  blocked  : Bool
  plane    : Plane
  /-- destination: store, address, EFMT, COL0, NCOL, sidecar address -/
  dstSpace : Nat
  dstAddr  : Nat
  dstFmt   : BitVec 4
  col0     : Nat
  ncol     : Nat
  sideAddr : Option Nat
  dstOk    : Bool
  /-- SCALE of the source's scale record, read in the entry cycle (R216) -/
  recScale : Option W32
  /-- elastic completion: this row is the last that entered of its bundle (R180) -/
  ctally   : Option Nat
  /-- Flint column records (R314) -/
  colrec   : List Byte := []
  /-- partials and sidecar values at the destination, once read: the row reads them five cycles before it writes (R128) -/
  part     : Option (List Byte × List Byte) := none
deriving DecidableEq, Repr

/-- A result that lands later (R85): bytes, or an increment, or a fold of a scale record. -/
structure Landing where
  ready : Nat
  /-- the issue cycle of its slot action: what one action writes is one write (R231) -/
  entry : Nat
  slot  : Nat
  space : Nat
  addr  : Nat
  data  : List Byte
deriving DecidableEq, Repr

structure Engine where
  plane0     : Plane := {}
  plane1     : Plane := {}
  flight     : List RowFlight := []
  accSat     : W32 := 0
  vecSat     : W32 := 0
  rows       : W64 := 0
  wrows      : W64 := 0
  vecCycles  : W64 := 0
  forceExact : Bool := false
  sidecarSat : W32 := 0
  eligible   : W64 := 0
  gated      : W64 := 0
  skipped    : W64 := 0
  cvtSat     : W32 := 0
  nanFinal   : Bool := false
  nanVcvt    : Bool := false
  /-- activation bytes of an INT16 row between its two entries (R123) -/
  pend16     : List Byte := []
  /-- held in reset by an engine reset (R581) -/
  inReset    : Bool := false
deriving DecidableEq, Repr

structure VecState where
  landings : List Landing := []
  /-- VMERGE: row counter of the record, and per lane the factors ea, eb and NaN mark (R373) -/
  mergeRow : Nat := 0
  factors  : Tab (W32 × W32 × Bool) := []
deriving DecidableEq, Repr

structure Flint where
  ffmt    : BitVec 2 := 0
  rows    : Tab (List Byte) := []
  next    : Nat := 0
  flight  : List RowFlight := []
  colrec  : List Byte := []
  accSat  : W32 := 0
  nan     : Bool := false
  rowsCnt : W64 := 0
  wrows   : W64 := 0
deriving DecidableEq, Repr

/-- A transform or product between its last input cycle and its landing (R106, R316). -/
structure MicaJob where
  ready : Nat
  slot  : Nat
  op    : Nat
  log2n : Nat
  bf    : Bool
  macc  : Bool
  /-- element codes of SRC and SRC2 and their EFMT codes -/
  a     : List Nat
  aFmt  : Nat
  b     : List Nat
  bFmt  : Nat
  dFmt  : Nat
  /-- destination rows: store, address, bytes, inside the grant -/
  rows  : List (Nat × Nat × Nat × Bool)
  /-- the destination's bytes under MACC, once read: the cycle after the entry (R316) -/
  old   : Option (List Byte) := none
deriving DecidableEq, Repr

structure Mica where
  /-- codes of the elements taken in of the transform in progress, and its destination rows -/
  input    : List Nat := []
  inRows   : List (Nat × Nat × Nat × Bool) := []
  inSlot   : Nat := 0
  jobs     : List MicaJob := []
  inputCnt : W64 := 0
deriving DecidableEq, Repr

/-- A result of the post unit between its last input cycle and its landing (R326), with what its narrowing marks. -/
structure PostJob where
  ready  : Nat
  /-- the issue cycle of its action: what one action writes in a cycle is one write (R231) -/
  entry  : Nat
  slot   : Nat
  space  : Nat
  addr   : Nat
  data   : List Byte
  ok     : Bool
  sats   : Nat
  nan    : Bool
  allNan : Bool
deriving DecidableEq, Repr

/-- The post unit (R326 to R337). -/
structure Post where
  jobs     : List PostJob := []
  /-- input rows of the window, sample or run in progress, with an inside mark -/
  taps     : List (List Byte × Bool) := []
  inSlot   : Nat := 0
  /-- box cursor by physical descriptor (R326) -/
  boxCur   : Tab Nat := []
  /-- the box in progress: its samples done, its four coordinates, its results so far -/
  sample   : Nat := 0
  box      : List W32 := []
  boxOut   : List PostJob := []
  lastOp   : BitVec 3 := 0
  sat      : W32 := 0
  allNan   : Bool := false
  narrow   : Bool := false
  extrap   : W32 := 0
  inputCnt : W64 := 0
  results  : W64 := 0
deriving DecidableEq, Repr

/-! ### Transfer threads -/

/-- A request of a thread (R240). -/
structure Req where
  srcSpace : Nat
  srcAddr  : Nat
  dstSpace : Nat
  dstAddr  : Nat
  len      : Nat
  srcOk    : Bool
  dstOk    : Bool
  /-- a SPACE 0x4 destination: channel-table entry, and egress port, 8 for the die itself -/
  chan     : Nat := 0
  port     : Nat := 0
  /-- and its FCH -/
  fch      : Nat := 0
  /-- issue order over all threads -/
  serial   : Nat := 0
  /-- the source bytes, once they have been read (R257) -/
  data     : Option (List Byte) := none
deriving DecidableEq, Repr

inductive ThreadState where
  | stopped | running | waiting | failed
deriving DecidableEq, Repr

/-- The pass a thread holds (R365). -/
structure Pass where
  seq     : Nat
  half    : Bool
  gen     : BitVec 16
  len     : Nat
  /-- the serial of the first request of the step that uses it -/
  from_   : Nat := 0
  /-- its closing step has issued its last request: that step's requests have the serials from `from_` to below `upTo`, and all the
  thread's requests count when that is none -/
  closing : Bool := false
  upTo    : Option Nat := none
  /-- an INSIDE step opened it, which acts as OPEN_CLOSE -/
  once    : Bool := false
deriving DecidableEq, Repr

structure Thread where
  slot     : Nat := 0
  state    : ThreadState := .stopped
  pc       : Nat := 0
  entry    : Nat := 0
  step     : Nat := 0
  idx      : Nat := 0
  arg      : W32 := 0
  xs       : BitVec 40 := 0
  xd       : BitVec 40 := 0
  ctr      : List Nat := [0, 0, 0, 0]
  /-- the current step has been taken up and its requests issue; the next request's element or page number, and its
  first byte within that -/
  inStep   : Bool := false
  elem     : Nat := 0
  off      : Nat := 0
  /-- a walk's resolved page: its number, or none for an entry that is not VALID -/
  page     : Option Nat := none
  /-- a walk's length record is its next request (R369) -/
  lenRec   : Bool := false
  /-- a walk treated as outside the grant (R367) -/
  outside  : Bool := false
  out      : List Req := []
  /-- STOP or an abort has named it (R100): no further request, no further increment -/
  stopping : Bool := false
  failed   : Bool := false
  /-- a fault has met one of its requests: the cause, until THREAD_FAIL acts on it -/
  failDue  : Option Nat := none
  /-- its next request found the channel queue full (R238, R259) -/
  held     : Bool := false
  pass     : Option Pass := none
deriving DecidableEq, Repr

structure Xfr where
  threads    : Tab Thread := []
  /-- requests issued so far, the model's own -/
  issued     : Nat := 0
  /-- by cluster, the thread within it that issued last (R238) -/
  turn       : Tab Nat := []
  reqPeak    : BitVec 16 := 0
  grantViol  : W32 := 0
  eccCorr    : W32 := 0
  limitCyc   : W64 := 0
  portWait   : W64 := 0
  /-- issue cycles that `portWait` has counted, as ranges from the first up to and without the second: a cycle counts once however
  many requests wait in it (R263) -/
  waited     : List (Nat × Nat) := []
  rdBytes    : W64 := 0
  wrBytes    : W64 := 0
deriving DecidableEq, Repr

/-! ### HBM4 -/

structure Hbm where
  /-- populated sites and stack capacity in GiB: what stands beside the die -/
  populated : BitVec 4 := 0xF
  capacity  : Nat := 36
  trained   : BitVec 4 := 0
  groups    : BitVec 16 := 0
  exclude   : BitVec 16 := 0
  failed    : Bool := false
  failValid : Bool := false
  failCause : BitVec 3 := 0
  failChan  : BitVec 7 := 0
  /-- a channel has failed since the warm reset in progress began (R608) -/
  warmAgain : Bool := false
  /-- channels that have failed: later requests on them end with an error (R236) -/
  deadChans : List Nat := []
  rate      : Byte := 0
  corr      : W64 := 0
  patrol    : W32 := 0
  patrolPos : Nat := 0
  /-- uncorrectable words per channel with the die's reference-cycle time of each (R236) -/
  uncorrLog : List (Nat × Nat) := []
  refreshes : Nat := 0
  selfRef   : Bool := false
deriving DecidableEq, Repr

/-! ### Ingress -/

/-- A stripe slot's last occupant: frame serial and stripe. -/
structure Occupant where
  frameNo : Nat
  stripe  : Nat
deriving DecidableEq, Repr

/-- A dropped frame whose stripes from `from_` on are still to be handed over as VOID (R279). -/
structure VoidFrame where
  frame    : W32
  frameNo  : Nat
  sensorTs : W64
  sofTime  : W64
  from_    : Nat
  /-- the die time was stepped while the first of them was open -/
  timeStep : Bool
deriving DecidableEq, Repr

/-- A stream (R271 to R291). -/
structure Stream where
  ctrl      : W32 := 0
  geom      : W32 := 0
  ring      : W32 := 0
  base      : W32 := 0
  pitch     : W32 := 0
  conv      : W32 := 0
  bind      : W32 := 0
  cfgErr    : BitVec 4 := 0
  lastCause : BitVec 4 := 0
  drops     : W32 := 0
  frames    : W32 := 0
  sat       : W32 := 0
  /-- an SOF has opened a frame that has neither ended nor been dropped -/
  open_     : Bool := false
  /-- the frame's remaining packets are discarded, after a drop (R279) -/
  dropped   : Bool := false
  frame     : W32 := 0
  frameNo   : Nat := 0
  sensorTs  : W64 := 0
  sofTime   : W64 := 0
  /-- the next row and byte within it, and the row's bytes so far -/
  row       : Nat := 0
  rowPos    : Nat := 0
  /-- a packet of the next row has come -/
  rowBegun  : Bool := false
  rowBytes  : List Byte := []
  lineTimes : Tab W64 := []
  timeStep  : Bool := false
  /-- stripes of the current frame handed over -/
  handed    : Nat := 0
  /-- dropped frames with VOID stripes still to hand over, oldest first -/
  voidQ     : List VoidFrame := []
  occ       : Tab (Option Occupant) := []
  /-- stripes handed over and not freed, oldest first: frame serial, stripe, last of its frame -/
  held      : List (Nat × Nat × Bool) := []
  /-- stripes of each frame freed so far -/
  freed     : Tab Nat := []
  seq       : W32 := 0
  /-- frames dropped since the last frame that was handed over and not dropped -/
  dropCnt   : BitVec 16 := 0
  /-- no frame has been admitted since the enable -/
  first     : Bool := false
deriving DecidableEq, Repr

structure Ing where
  unclaimed : W32 := 0
  latency   : BitVec 16 := 0
  offset    : W32 := 0
  steps     : W32 := 0
  pixels    : W64 := 0
  streams   : Tab Stream := []
deriving DecidableEq, Repr

/-! ### KV page manager -/

/-- A count-table entry (R350): LIVE with its counts. An entry that is not LIVE is FREE when the page lies in a slot's
page range, which then is its owner, and UNGRANTED otherwise. -/
structure Page where
  live : Bool := false
  refs : Nat := 0
  pins : Nat := 0
  /-- a count of it would have gone below 0: it stays LIVE until its slot is released (R353) -/
  kept : Bool := false
deriving DecidableEq, Repr

inductive Shadow where
  | ready | retiring | copying
deriving DecidableEq, Repr

/-- Per physical sequence (R348); MAPPED0 and MAPPED1 follow from the tables. -/
structure Seq where
  gen     : BitVec 16 := 0
  half    : Bool := false
  len     : Nat := 0
  shadow  : Shadow := .ready
  hold0   : Nat := 0
  hold1   : Nat := 0
deriving DecidableEq, Repr

inductive KvOp where
  | command (slot op : Nat) (arg0 arg1 arg2 : W32) (fn : Nat)
  | retire (seq : Nat)
deriving DecidableEq, Repr

/-- A slot's command page (R379). -/
structure KvCmd where
  arg0    : W32 := 0
  arg1    : W32 := 0
  arg2    : W32 := 0
  done    : Bool := false
  pending : Bool := false
  overrun : Bool := false
  status  : BitVec 4 := 0
  gen     : BitVec 16 := 0
  res1    : W32 := 0
deriving DecidableEq, Repr

structure Kvp where
  poolBase  : W32 := 0
  poolPages : W32 := 0
  ptBase    : W32 := 0
  cmds      : W64 := 0
  walkPages : W64 := 0
  unmapped  : W32 := 0
  copies    : W32 := 0
  pages     : Tab Page := []
  /-- each owner's chain of FREE pages, head first (R350, R352) -/
  chains    : Tab (List Nat) := []
  /-- table entries: physical sequence × 8,192 + half × 4,096 + logical page (R347) -/
  tables    : Tab W32 := []
  seqs      : Tab Seq := []
  queue     : List KvOp := []
  pages_    : Tab KvCmd := []
deriving DecidableEq, Repr

/-! ### Field ports and loops -/

/-- A frame waiting for the wire or a message channel (R398). -/
structure TxFrame where
  loop    : Nat
  type    : Byte
  payload : List Byte
  /-- a guard frame sent under R397 -/
  miss    : Bool := false
deriving DecidableEq, Repr

structure FldPort where
  rate     : BitVec 3 := 0
  enable   : Bool := false
  align    : Bool := false
  rxFrames : W32 := 0
  rxErr    : W32 := 0
  txFrames : W32 := 0
  hbSeq    : BitVec 16 := 0
  /-- FLD_TIMEBASE at which the next HEARTBEAT falls due, and how many wait for the wire -/
  hbNext   : Option Nat := none
  hbDue    : Nat := 0
  guards   : List TxFrame := []
  cmds     : List TxFrame := []
  /-- FLD_TIMEBASE at which the wire is free again -/
  wireFree : Nat := 0
deriving DecidableEq, Repr

structure Loop where
  enable    : Bool := false
  msg       : Bool := false
  ptp       : Bool := false
  dawn      : Bool := false
  port      : BitVec 2 := 0
  chan      : BitVec 4 := 0
  mch       : Byte := 0
  slot      : BitVec 6 := 0x3F
  tally     : W32 := 0
  period    : W32 := 0
  phase     : W32 := 0
  deadline  : W32 := 0
  guard     : W32 := 0
  cfgErr    : BitVec 4 := 0
  consec    : Nat := 0
  rxNew     : Bool := false
  misses    : W32 := 0
  commands  : W32 := 0
  late      : W32 := 0
  rxstat    : List Byte := []
  /-- the period in progress, or, when none is, the next to begin (R395) -/
  k         : Int := 0
  inPeriod  : Bool := false
  /-- the deadline of the period in progress has been served -/
  served    : Bool := false
  /-- the time on the loop's base of the last deadline served (R406) -/
  lastServed : Option Int := none
  /-- the period's COMMAND is ready (R396), and the period has taken one (R111) -/
  ready     : Bool := false
  taken     : Bool := false
  /-- payload of the last COMMAND sent, and whether one was sent since the enable or re-arming (R397, R405) -/
  lastCmd   : List Byte := []
  sentCmd   : Bool := false
  sensor    : List Byte := []
  haveSens  : Bool := false
  /-- period in which the last valid SENSOR frame arrived (R400) -/
  sensorK   : Int := 0
  abortedCtx : Bool := false
  seq       : BitVec 16 := 0
  first     : Bool := false
  /-- COMMAND or SAFE sent in the period in progress and in the last ended one (R391) -/
  nowCmd    : Bool := false
  nowSafe   : Bool := false
  lastWasCmd  : Bool := false
  lastWasSafe : Bool := false
  /-- hand-off FIFO: slot that issued (0x40 for the Dawn loop) and block -/
  fifo      : List (Nat × List Byte) := []
deriving DecidableEq, Repr

structure Fld where
  lock      : Bool := false
  hbPeriod  : BitVec 16 := 0x03E8
  msgRxErr  : W32 := 0
  foreign   : W32 := 0
  dawn      : Bool := false
  ports     : Tab FldPort := []
  loops     : Tab Loop := []
  /-- SAFE table words: loop × 12 + word (R401) -/
  safe      : Tab W32 := []
  /-- frames that wait for a class-0x3 credit (R393) -/
  msgGuards : List TxFrame := []
  msgCmds   : List TxFrame := []
  /-- class-0x3 UCIe credits held -/
  msgCredits : Nat := 4
deriving DecidableEq, Repr

/-! ### Nightwatch -/

structure Nwt where
  enable    : Bool := false
  stream    : BitVec 4 := 0
  wakeGest  : Byte := 0
  wakePres  : Bool := false
  /-- PKG: 0 none, 1 LOADED, 2 REFUSED, 3 HALTED -/
  pkg       : BitVec 2 := 0
  param     : List Byte := []
  digest    : BitVec 384 := 0
  /-- the source last used (R410) -/
  sideband  : Bool := false
  present   : Bool := false
  warmup    : Nat := 0
  pend      : Byte := 0
  last      : W32 := 0
  logit     : W32 := 0
  frames    : W32 := 0
  skipped   : W32 := 0
  sbErr     : W32 := 0
  /-- BG, by pixel; unlisted 0 -/
  bg        : Tab Nat := []
  /-- bytes of the Nightwatch store beside PARAM and BG -/
  rest      : Tab Byte := []
  fresh     : Bool := true
  taken     : Nat := 0
  lastRept  : Option (Nat × Nat) := none
  /-- PWR_AON at the SOF of the last frame taken -/
  lastSof   : Option Nat := none
  /-- frame being received: from ingress the rows so far, from the sideband the bytes so far -/
  inRows    : List (List Nat) := []
  sbOpen    : Bool := false
  /-- a discarded watch frame's further messages are passed over -/
  sbSkip    : Bool := false
  sbBytes   : List Byte := []
  /-- PWR_AON at the SOF of the frame being received -/
  sofAt     : Nat := 0
  /-- the frame being received from ingress began on the source in use -/
  inOpen    : Bool := false
  /-- a frame taken and being computed -/
  work      : Option (List Byte) := none
deriving DecidableEq, Repr

/-! ### Slots and the calendar -/

/-- What a loaded slot holds (R36, R48, R84). -/
structure Segment where
  base      : Nat := 0
  bundles   : Nat := 0
  tallyBase : Nat := 0
  tallies   : Nat := 0
  thrBase   : Nat := 0
  threads   : Nat := 0
  /-- transfer programs, in 16-byte units -/
  xBase     : Nat := 0
  xUnits    : Nat := 0
  /-- program windows of the six units: base and count -/
  agBase    : List Nat := [0, 0, 0, 0, 0, 0]
  agCount   : List Nat := [0, 0, 0, 0, 0, 0]
  tmplBase  : Nat := 0
  tmplCount : Nat := 0
  descBase  : Nat := 0
  hasDesc   : Bool := false
  /-- statistics tables in the working stores of TE0 and TE1: byte offset and entries -/
  statBase0 : Nat := 0
  statCnt0  : Nat := 0
  statBase1 : Nat := 0
  statCnt1  : Nat := 0
  statics   : Nat := 0
  energy    : List Nat := [0, 0, 0, 0]
  usesE0    : Bool := false
  usesE1    : Bool := false
deriving DecidableEq, Repr

/-- A command or arm that holds BUSY (R437). -/
inductive SlotBusy where
  | idle
  | grant
  | load
  | unload (release : Bool)
deriving DecidableEq, Repr

/-- A context slot (R431 to R451). -/
structure Slot where
  state    : SlotState := .free
  memBase  : W32 := 0
  memSize  : W32 := 0
  ws0      : W32 := 0
  ws1      : W32 := 0
  lb       : W32 := 0
  seq      : W32 := 0
  pageBase : W32 := 0
  pageCnt  : W32 := 0
  jobId    : W32 := 0
  imageLo  : W32 := 0
  imageHi  : W32 := 0
  imageLen : W32 := 0
  runCtrl  : W32 := 0
  busy     : SlotBusy := .idle
  overrun  : Bool := false
  status   : BitVec 4 := 0
  loadStat : BitVec 4 := 0
  conf     : Bool := false
  runsLeft : BitVec 16 := 0
  runsDone : W32 := 0
  runNum   : W32 := 0
  missed   : W32 := 0
  lastCyc  : W32 := 0
  marks    : List (W32 × Byte) := []
  seg      : Option Segment := none
  /-- cause of the first abort (R601); 0 when not aborted or aborted without a fault -/
  cause    : Nat := 0
  /-- one more than the reference cycle of the last ARM (R447); 0 before the first -/
  armTick  : Nat := 0
deriving DecidableEq, Repr

structure Cal where
  enable   : Bool := false
  ptp      : Bool := false
  active   : Bool := false
  quantum  : W32 := 0x0003D090
  phase    : W32 := 0
  count0   : BitVec 10 := 0
  count1   : BitVec 10 := 0
  bank0    : Tab W32 := []
  bank1    : Tab W32 := []
  swapPend : Bool := false
  swapErr  : BitVec 4 := 0
  cfgErr   : BitVec 4 := 0
  pending  : Option Nat := none
  next     : Nat := 0
  /-- number of the quantum in progress or to come, and the time of the last entry taken -/
  quantumK : Int := 0
  lastDue  : Option Int := none
  /-- the quantum at whose start a pending swap takes effect -/
  swapAt   : Int := 0
deriving DecidableEq, Repr

/-- A class-0x2 message at the die's receiver (R427). -/
inductive HostMsg where
  | rd (fn : Nat) (tag : BitVec 16) (off bytes : Nat)
  | wr (fn off bytes : Nat) (val : W32)
  | memRd (fn : Nat) (tag : BitVec 16) (addr len : Nat) (res : Access)
  | memWr (fn addr : Nat) (data : List Byte) (res : Access)
  | reserved (kind : Nat)
deriving DecidableEq, Repr

structure Ctx where
  slots    : Tab Slot := []
  cal      : Cal := {}
  memLimit : W32 := 0
  hostViol : W32 := 0
  /-- messages that wait, oldest first: a memory message until the scrub of its range ends (R504), and what its function
  sends after it (R430) -/
  held     : List HostMsg := []
deriving DecidableEq, Repr

/-! ### The Tirca fabric -/

structure Route where
  pfx : W32 := 0
  ctl : W32 := 0
deriving DecidableEq, Repr

/-- A channel (R464) with the CSEQ values taken on it, by key slot (R471). -/
structure Channel where
  w      : List W32 := [0, 0, 0, 0, 0, 0, 0, 0]
  taken0 : List Nat := []
  taken1 : List Nat := []
deriving DecidableEq, Repr

structure FabPort where
  state     : PortState := .disabled
  enable    : Bool := false
  peer      : W32 := 0
  peerPort  : BitVec 3 := 0
  latency   : BitVec 16 := 0
  lastCause : BitVec 4 := 0
  /-- in a fabric port reset: it has failed, and is not yet UP again (R580) -/
  inReset   : Bool := false
  credits   : Nat := 0
  credits1  : Nat := 0
  txCells   : W64 := 0
  rxCells   : W64 := 0
  credWait  : W64 := 0
  replays   : W32 := 0
  crcErrs   : W32 := 0
  /-- the latest NONCE sent; none before the first HELLO (R474) -/
  nonce     : Option W64 := none
  echo      : W64 := 0
  /-- next LSEQ to send, last LSEQ acknowledged, last LSEQ accepted -/
  txSeq     : Nat := 0
  acked     : Nat := 4095
  rxSeq     : Nat := 4095
  unackedRx : Nat := 0
  /-- credits to return, by virtual channel -/
  ret0      : Nat := 0
  ret1      : Nat := 0
  replayCnt : Nat := 0
  replayBuf : List (List Byte) := []
  /-- cells in the port's ingress buffers that wait for an egress port: DATA on VC0, TOPO on VC1 -/
  inbuf     : List (Nat × List Byte) := []
  inbuf1    : List (Nat × List Byte) := []
  /-- whom the egress port served last (R461): an ingress port, or 8 for the die's own threads -/
  lastIn    : Nat := 8
  /-- reference time at which the latest NONCE was sent -/
  helloAt   : Nat := 0
  /-- a WAKE received is held as a request (R476) -/
  wakeHeld  : Bool := false
  /-- WAKE has been sent to the peer and no HELLO has arrived since (R476) -/
  waking    : Bool := false
  /-- it trains out of ASLEEP: what is to leave by it waits (R476) -/
  woken     : Bool := false
deriving DecidableEq, Repr

structure JobKeys where
  key0  : Option (BitVec 256) := none
  key1  : Option (BitVec 256) := none
  cseq0 : Nat := 0
  cseq1 : Nat := 0
  /-- the key slot senders use -/
  cur   : Bool := false
deriving DecidableEq, Repr

/-- A peer-failure entry (R604). -/
structure PeerFail where
  job   : W32
  peer  : W32
  cause : Byte
  count : Nat
  time  : W64
  /-- reference time at which its window opened, in ns -/
  opened : Nat
deriving DecidableEq, Repr

structure Fab where
  addr      : W32 := 0xFFFFFFFF
  timeout   : W32 := 0x000007D0
  misses    : W32 := 0
  ttlDrops  : W32 := 0
  discards  : W32 := 0
  authFails : W32 := 0
  fwdCells  : W64 := 0
  lastDisc  : BitVec 4 := 0
  routes    : Tab Route := []
  channels  : Tab Channel := []
  ports     : Tab FabPort := []
  jobs      : Tab JobKeys := []
  peerFails : List PeerFail := []
  /-- by module, the port whose cell it carried last, 3 when the host's class was carried since (R456) -/
  modTurn   : Tab Nat := []
deriving DecidableEq, Repr

/-! ### Confidential contexts -/

/-- Protection of a slot (R483 to R512). -/
structure Prot where
  protected_ : Bool := false
  tdi        : TdiState := .unlocked
  /-- a lock's initialisation and prologue, or a departure, in progress -/
  init       : Bool := false
  departing  : Bool := false
  depRelease : Bool := false
  stopWaits  : Bool := false
  /-- the paths on which a LOCK and a STOP that wait for their responses came -/
  lockPath   : Path := .host
  stopPath   : Path := .host
  sweeping   : Bool := false
  sweepStuck : Bool := false
  cur        : Bool := false
  /-- key identities: 0 empty; each names an XTS key and an integrity key (`xtsHalf1`, `xtsHalf2`, `integrityKey`) -/
  key0       : Nat := 0
  key1       : Nat := 0
  rotations  : BitVec 16 := 0
  epochs     : Tab Bool := []
  /-- blocks rewritten so far in the present sweep, and regions swept -/
  pointer    : Nat := 0
  swept      : Nat := 0
  /-- reference cycle in which the function's last ROTATE was taken -/
  rotateAt   : Option Nat := none
  done       : Bool := false
  pending    : Bool := false
  overrun    : Bool := false
  status     : BitVec 4 := 0
  srcLo      : W32 := 0
  srcHi      : W32 := 0
  dstLo      : W32 := 0
  dstHi      : W32 := 0
  len        : W32 := 0
  signer     : Tab W32 := []
  nfpBusy    : Bool := false
  lastConf   : Bool := false
deriving DecidableEq, Repr

/-- A departure or release scrub, or an initialisation (R504, R505): slot it belongs to, HBM4 range in MiB, pages. -/
structure Scrub where
  slot     : Nat
  memBase  : Nat
  memSize  : Nat
  pageBase : Nat
  pageCnt  : Nat
  initKey  : Nat
  /-- a departure's scrub, whose end finishes the departure -/
  depart   : Bool
  /-- the scrub that the RELEASE of a slot waits for whose last arming was confidential (R440) -/
  release  : Bool := false
deriving DecidableEq, Repr

/-- A prologue to run: slot, and issue cycles left (R506). -/
structure Prologue where
  slot  : Nat
  left  : Nat
  lock  : Bool
  /-- where it stands in the instruction store, once it has begun -/
  place : Option Nat := none
deriving DecidableEq, Repr

structure Sec where
  prots      : Tab Prot := []
  scrubs     : List Scrub := []
  prologues  : List Prologue := []
  debugOpen  : Bool := false
  carveBase  : W32 := 0
  carveSize  : W32 := 0
  intFails   : W32 := 0
  /-- identity of the last key drawn from the random bit generator -/
  keyGen     : Nat := 0
  /-- requests of the generator since it was last reseeded, and reseedings so far (R516) -/
  drbgUsed   : Nat := 0
  reseeds    : Nat := 0
  tableKey   : Nat := 0
  entropyOk  : Bool := true
deriving DecidableEq, Repr

/-! ### Identity and management -/

/-- A fuse row (R588). A bit once burned stays. -/
structure FuseRow where
  data   : BitVec 64 := 0
  commit : Bool := false
deriving DecidableEq, Repr

/-- The fuses. Rows: 1 to 3 the lifecycle codes; from 8r the six rows of operator root r (R519); from 0x30 and 0x38 the six rows each
of the SHA-384 of the DeviceID certificates (R517); from 0x80 the 127 of anti-rollback. DESIGN CHOICE (log entry 124). -/
structure Fuses where
  variant   : Variant := .crz2240
  rows      : Tab FuseRow := [(2, { data := 2, commit := true })]
  udsErased : Bool := false
  /-- what is being burned: kind 0 lifecycle, 1 root, 3 UDS and DECOMMISSIONED; its row; its value -/
  burning   : Option (Nat × Nat × BitVec 384) := none
deriving DecidableEq, Repr

/-- An SPDM session (R522, R524). -/
structure Session where
  id      : Nat
  path    : Path
  open_   : Bool := false
  mutualAuth : Bool := false
  /-- the requester's chain: it is self-signed, and the SHA-384 of the root's public keys -/
  selfSigned : Bool := false
  rootDigest : BitVec 384 := 0
  kemMixed : Bool := false
  /-- key updates so far -/
  keyEpoch : Nat := 0
  /-- the master secret, and the keys in force -/
  master  : List Byte := []
  keys    : List Byte := []
  /-- reference time in ns of the last message in the session -/
  lastMsg : Nat := 0
deriving DecidableEq, Repr

/-- The key store of the security block: what the boot ROM has derived from UDS (R514, R515). -/
structure KeyStore where
  devXi       : List Byte
  devScalar   : Nat
  wrapSeed    : List Byte
  wrapScalar  : Nat
  cdi         : List Byte
  aliasXi     : List Byte
  aliasScalar : Nat
  aliasKem    : List Byte
deriving DecidableEq, Repr

structure Mgmt where
  eid        : Tab Byte := []
  /-- negotiation of each path: 0 none, 1 version, 2 capabilities, 3 algorithms -/
  vca        : Tab Nat := []
  sessions   : List Session := []
  nextSid    : Nat := 1
  /-- transcript number of the last signed response, by path -/
  lastSigned : Tab Nat := []
  /-- and the nonces that it covers, the requester's and the die's (R538) -/
  nonces     : Tab (List Byte) := []
  transcripts : Nat := 0
  chunks     : Tab (List Byte) := []
  /-- what each path's requester takes in one transfer; unlisted: anything -/
  xferSize   : Tab Nat := []
  /-- a response that CHUNK_GET fetches: the handle of each path's last one, and its bytes -/
  largeId    : Tab Nat := []
  large      : Tab (List Byte) := []
  link       : Bool := false
  presence   : Bool := false
  presCmds   : W32 := 0
  /-- the session whose command is in progress, and the commands that wait for it, oldest first: session, the refusal
  found at receipt (0: none), command (R525) -/
  cmdSid     : Option Nat := none
  waiting    : List (Nat × Nat × MgmtCmd) := []
  lfsr       : W32 := 1
  sealRun    : Nat := 0
  sealMiss   : Nat := 0
  sealBroken : Bool := false
  gen        : W32 := 0
  unlocks    : W32 := 0
  i3cAddr    : BitVec 7 := 0x5C
  /-- the derived keys; none before they are derived and in DECOMMISSIONED -/
  keys       : Option KeyStore := none
  /-- the boot ROM has hidden the UDS row (R515) -/
  udsHidden  : Bool := false
  /-- the chains signed with ECDSA P-384 (slots 0 and 2), and with ML-DSA-87 (slots 1 and 3), are served (R517) -/
  certsOk    : Bool := true
  certsPqOk  : Bool := true
  jtagPins   : Option W64 := none
  jtagIr     : DebugInstr := .bypass
deriving DecidableEq, Repr

/-! ### Power -/

structure Pwr where
  tripped    : Bool := false
  truncated  : Bool := false
  state      : Sleep := .active
  /-- an entry in progress: target and whether its window has closed -/
  entry      : Option (Sleep × Bool) := none
  exiting    : Bool := false
  maxState   : BitVec 2 := 0
  hostVotes  : Byte := 0
  req        : BitVec 3 := 0
  cur        : BitVec 3 := 0
  /-- a level transition in progress, to this level -/
  changing   : Option (BitVec 3) := none
  /-- reference cycles since that transition began (R544) -/
  chgTicks   : Nat := 0
  floor      : BitVec 3 := 0
  /-- PWR_AON of the last floor move up, and since when T has been below 95 -/
  hotSince   : Option Nat := none
  coolSince  : Option Nat := none
  wakeEn     : BitVec 7 := 0x0F
  pinEdge    : Bool := false
  latched    : BitVec 7 := 0
  hostWake   : Bool := false
  /-- class-0x2 messages that wait for the exit from Dusk, oldest first (R556) -/
  held       : List HostMsg := []
  holdoff    : BitVec 24 := 0x000400
  /-- PWR_AON since when the entry conditions have held -/
  okSince    : Option Nat := none
  temp       : Int := 0
  sensor     : BitVec 4 := 0
  lastExit   : W32 := 0
  retain     : Tab W32 := []
  timer      : W64 := 0
  window     : W64 := 0
  throttles  : W32 := 0
  fcast      : Tab W32 := []
  res        : Tab W64 := []
  resP       : Tab W64 := []
  entDusk    : W32 := 0
  entNight   : W32 := 0
  entMidn    : W32 := 0
  wakeN      : Bool := true
  /-- VCORE_EN and VID as the die drives them; none while they are high-impedance (R562, R620) -/
  vcoreEn    : Option Bool := none
  vid        : Option (BitVec 3) := none
  heldReset  : Bool := false
  heldWarm   : Bool := false
  /-- cycles of PWR_AON at the start of the entry or exit in progress, and the cycle of it up to which its steps are done -/
  seqStart   : Nat := 0
  seqDone    : Nat := 0
deriving DecidableEq, Repr

/-! ### Bring-up -/

/-- A boot-control record (R570). -/
structure BootCtl where
  seq       : W32
  preferred : Bool
  stateA    : BitVec 2
  stateB    : BitVec 2
  tries     : BitVec 2
  rollback  : Bool
deriving DecidableEq, Repr

/-- The flash, area by area (R569): the record's bytes of each boot-control copy, the DeviceID certificates, the Nightwatch package,
the fatal records, the copies of the board configuration, the firmware slots. -/
structure Flash where
  ctl0    : List Byte := []
  ctl1    : List Byte := []
  /-- the DeviceID certificates, by algorithm: ECDSA P-384 (0), ML-DSA-87 (1) -/
  devices : Tab (List Byte) := []
  slotA   : Option Manifest := none
  slotB   : Option Manifest := none
  conf0   : Option BoardConf := none
  conf1   : Option BoardConf := none
  nwtPkg  : Option (List Byte) := none
  fatal   : List (List Byte) := []
  fatalSeq : Nat := 0
deriving DecidableEq, Repr

structure Boot where
  flash     : Flash := {}
  clean     : Bool := false
  scrubbed  : Bool := false
  lastReset : BitVec 4 := 0
  rollback  : Bool := false
  svn       : Byte := 0
  runSlotB  : Bool := false
  dawnMs    : BitVec 16 := 0
  fullMs    : BitVec 16 := 0
  /-- reference cycles since RESET_N rose -/
  sinceRst  : Nat := 0
  warm      : Bool := false
  warmFail  : Bool := false
  /-- firmware runs: the Dawn stage has started; how often it has, the model's own -/
  fwRuns    : Bool := false
  starts    : Nat := 0
  /-- the UCIe mainline has trained (R575, R616) -/
  linked    : Bool := false
  /-- full service has been reached since the last power-on or cold reset -/
  full      : Bool := false
  /-- the board configuration in force (R577) -/
  conf      : Option BoardConf := none
  /-- what the check of the DeviceID certificates found (R517) -/
  certs     : Verdict := .good
  certsPq   : Verdict := .good
  recovery  : Bool := false
  /-- the Dawn weights have been read (R575) -/
  weightsRead : Bool := false
  mainRun   : Bool := false
  staging   : Option Manifest := none
  unconfirmed : Bool := false
  digest    : BitVec 384 := 0
  confDig   : BitVec 384 := 0
  pwrgood   : Bool := true
  resetN    : Bool := false
  straps    : BitVec 3 := 0
  burnArb   : Bool := false
deriving DecidableEq, Repr

/-! ### Fault records -/

structure Rec where
  valid : Bool := false
  fatal : Bool := false
  conf  : Bool := false
  cause : BitVec 5 := 0
  slot  : BitVec 6 := 0
  count : BitVec 16 := 0
  f0    : W32 := 0
  f1    : W32 := 0
  f2    : W32 := 0
  f3    : W32 := 0
  time  : W64 := 0
deriving DecidableEq, Repr

structure Err where
  irqEn    : W32 := 0x0001FFFE
  alertEn  : W32 := 0
  recs     : Tab Rec := []
  /-- holding registers of W1 to W6, by record (R600) -/
  hold     : Tab (List W32) := []
  writeErr : Bool := false
  written  : BitVec 16 := 0
  /-- fatal records whose flash entry is still to be written -/
  toFlash  : List Nat := []
  /-- records cleared before their flash entries were written, oldest first -/
  cleared  : Tab (List Rec) := []
  /-- events of the present issue cycle, as first captures, oldest first: a clear in their cycle comes before them (R599) -/
  cycle    : List (Nat × Rec) := []
deriving DecidableEq, Repr

/-! ### What the die sends -/

inductive Out where
  /-- a completion carries the ADDRESS of what it completes (R429) -/
  | regCpl (fn : Nat) (tag : BitVec 16) (off : BitVec 24) (val : W32)
  | memCpl (fn : Nat) (tag : BitVec 16) (addr : BitVec 40) (err : Bool) (data : List Byte)
  | intr (fn : Nat) (vector : Byte)
  | field (port : Nat) (frame : List Byte)
  | loopMsg (mch : Byte) (frame : List Byte)
  | cell (port : Nat) (cell : List Byte)
  | wakeSet (port : Nat)
  | dieState (state : Sleep) (entering : Bool) (module1 : Bool)
  | tdisp (path : Path) (slot : Nat) (ok : Bool)
  | mctp (path : Path) (code : Byte) (data : List Byte)
  | spdm (path : Path) (req : Byte) (data : List Byte)
  | spdmError (path : Path) (code : Byte)
  | icmp (kind : Frame520)
  | mgmtStatus (sid : Nat) (status : Byte) (data : List Byte)
  | peerFail (sid : Nat) (data : List Byte)
  | ideKm (sid : Nat)
  /-- what the debug port shifts out -/
  | tdo (data : List Byte)
  | vid (code : BitVec 3)
  | vcoreEn (high : Bool)
  /-- an onward copy cut short by a code violation (R460) -/
  | cellCut (port : Nat)
deriving DecidableEq, Repr

/-- Everything the spec gives the die. -/
structure Die where
  fuses  : Fuses := {}
  glb    : Glb := {}
  time   : Time := {}
  /-- holding registers of R13, by reader × 2^24 + offset of the high word; reader 64 is the management core -/
  latch  : Tab W32 := []
  iss    : Issue := {}
  st     : Stores := {}
  te0    : Engine := {}
  te1    : Engine := {}
  vec    : VecState := {}
  fln    : Flint := {}
  mca    : Mica := {}
  pst    : Post := {}
  xfr    : Xfr := {}
  hbm    : Hbm := {}
  ing    : Ing := {}
  kvp    : Kvp := {}
  fld    : Fld := {}
  nwt    : Nwt := {}
  ctx    : Ctx := {}
  fab    : Fab := {}
  sec    : Sec := {}
  mgmt   : Mgmt := {}
  pwr    : Pwr := {}
  boot   : Boot := {}
  err    : Err := {}
  /-- messages sent, newest first -/
  out    : List Out := []
  /-- what the source of each outstanding request held before, oldest first, by serial: the instants at which it may have
  been read (R257) -/
  seen   : Tab (List (List Byte)) := []
  /-- the model's own counter that free values are drawn by -/
  freeCtr : Nat := 0
deriving DecidableEq, Repr

structure State where
  die     : Die := {}
  /-- commands that wait, first in first out -/
  pending : List Instr := []
deriving DecidableEq, Repr

/-- A SHA-384 in six fuse rows, its low bits first. -/
def digestRows (base : Nat) (x : BitVec 384) : List (Nat × FuseRow) :=
  (List.range 6).map fun i => (base + i, { data := x.extractLsb' (64 * i) 64, commit := true })

/-- What the parts are delivered with: PRODUCTION, no operator root, the DeviceID certificates and their digests, and in slot A an
image of two empty stages whose checks pass (R517, R518, R571). DESIGN CHOICE (log entry 10). -/
def factoryFuses : Fuses :=
  { rows := (2, { data := 2, commit := true }) :: (digestRows 0x30 (Config.sha384 (Config.deviceCert 0)) ++
      digestRows 0x38 (Config.sha384 (Config.deviceCert 1))) }

def factoryManifest : Manifest :=
  { svn := 0, dawnBytes := 0, mainBytes := 0, buildId := 0, dawnDigest := Config.sha384 [], mainDigest := Config.sha384 [],
    signer := Config.firmwareSigner, ecdsa := 0, mldsa := 0, dawn := [], main := [] }

def factoryImage : Manifest :=
  let sig := (Config.fwSignatures (imageHeader factoryManifest)).1
  { factoryManifest with ecdsa := sig.1, mldsa := sig.2 }

def factoryFlash : Flash := { devices := [(0, Config.deviceCert 0), (1, Config.deviceCert 1)], slotA := some factoryImage }

/-- The die right after a power-on reset: every register at its reset value, PWRGOOD high, RESET_N still low. -/
def State.reset : State := { die := { fuses := factoryFuses, boot := { flash := factoryFlash } } }

end Sys2Proof.Machine
end

