-- ==== Sys2Proof/Machine/Tab.lean ====
section
/-! DEFINITION. Sparse tables and the helpers on bits and lists that every unit uses. A table's canonical form is: keys
strictly rising, no entry equal to what an unlisted key reads as; every write keeps it. -/

namespace Sys2Proof

/-- What key `k` holds. -/
def Tab.read {α : Type} (dflt : α) : List (Nat × α) → Nat → α
  | [], _ => dflt
  | (j, v) :: t, k => if j = k then v else if k < j then dflt else Tab.read dflt t k

/-- `t` without key `k`. -/
def Tab.erase {α : Type} : List (Nat × α) → Nat → List (Nat × α)
  | [], _ => []
  | (j, v) :: t, k => if j = k then t else if k < j then (j, v) :: t else (j, v) :: Tab.erase t k

/-- `t` with `v` listed at key `k`. -/
def Tab.insert {α : Type} : List (Nat × α) → Nat → α → List (Nat × α)
  | [], k, v => [(k, v)]
  | (j, w) :: t, k, v =>
    if j = k then (k, v) :: t else if k < j then (k, v) :: (j, w) :: t else (j, w) :: Tab.insert t k v

/-- A write in canonical form: writing what an unlisted key reads as removes the entry. -/
def Tab.write {α : Type} [DecidableEq α] (dflt : α) (t : List (Nat × α)) (k : Nat) (v : α) : List (Nat × α) :=
  if v = dflt then Tab.erase t k else Tab.insert t k v

/-- Apply `f` to what key `k` holds. -/
def Tab.upd {α : Type} [DecidableEq α] (dflt : α) (t : List (Nat × α)) (k : Nat) (f : α → α) : List (Nat × α) :=
  Tab.write dflt t k (f (Tab.read dflt t k))

/-- Apply `f` to every listed entry, in canonical form. -/
def Tab.mapVal {α : Type} [DecidableEq α] (dflt : α) (f : α → α) (t : List (Nat × α)) : List (Nat × α) :=
  (t.map fun c : Nat × α => (c.1, f c.2)).filter fun c => decide (c.2 ≠ dflt)

/-- Keys above `k` only, strictly rising, with no entry equal to `dflt`. -/
def Tab.wfAbove {α : Type} [DecidableEq α] (dflt : α) : Nat → List (Nat × α) → Bool
  | _, [] => true
  | k, (j, v) :: t => decide (k ≤ j) && decide (v ≠ dflt) && Tab.wfAbove dflt (j + 1) t

/-- The canonical form. -/
def Tab.wf {α : Type} [DecidableEq α] (dflt : α) (t : List (Nat × α)) : Bool := Tab.wfAbove dflt 0 t

/-- The canonical form of a byte memory: an unlisted byte reads 0x00. -/
def Memory.wf (m : Tab Byte) : Bool := Tab.wf 0#8 m

/-! ### Byte memories -/

/-- `n` bytes at `a`. -/
def Mem.read (m : Tab Byte) (a n : Nat) : List Byte := (List.range n).map fun i => Tab.read 0 m (a + i)

/-- Store a list of bytes at `a`. -/
def Mem.write (m : Tab Byte) (a : Nat) : List Byte → Tab Byte
  | [] => m
  | b :: bs => Mem.write (Tab.write 0 m a b) (a + 1) bs

/-- Every byte from `a` to below `a + n` reads 0x00. -/
def Mem.zero (m : Tab Byte) (a n : Nat) : Tab Byte := m.filter fun c => decide (c.1 < a ∨ a + n ≤ c.1)

/-- Copy the `n` bytes at `src` to `dst`. -/
def Mem.copy (m : Tab Byte) (src dst n : Nat) : Tab Byte :=
  (m.filter fun c => decide (src ≤ c.1 ∧ c.1 < src + n)).foldl
    (fun (m : Tab Byte) c => Tab.write 0 m (c.1 - src + dst) c.2) (Mem.zero m dst n)

/-- Little-endian value of a list of bytes. -/
def leNat : List Byte → Nat
  | [] => 0
  | b :: bs => b.toNat + 256 * leNat bs

/-- The little-endian value of `n` bytes at `a`. -/
def Mem.le (m : Tab Byte) (a n : Nat) : Nat := leNat (Mem.read m a n)

/-! ### Bits -/

/-- Bits [hi:lo] of a natural number. -/
def bitsOf (w hi lo : Nat) : Nat := (w >>> lo) % 2 ^ (hi + 1 - lo)

/-- Bit `i` of a natural number. -/
def bit (w i : Nat) : Bool := (w >>> i) % 2 == 1

/-- Bits [hi:lo] of a register. -/
def wbits (w : W32) (hi lo : Nat) : Nat := bitsOf w.toNat hi lo

def b2n (b : Bool) : Nat := if b then 1 else 0

/-- Two's complement reading of the low `n` bits. -/
def sext (n v : Nat) : Int :=
  let m := v % 2 ^ n
  if m < 2 ^ (n - 1) then (m : Int) else (m : Int) - (2 ^ n : Nat)

/-- The low `n` bits of an integer. -/
def wrapNat (n : Nat) (z : Int) : Nat := (z % (2 ^ n : Nat)).toNat

def w32 (n : Nat) : W32 := BitVec.ofNat 32 n

/-- Add to a counter that holds at `max`. -/
def satAdd (max a n : Nat) : Nat := min max (a + n)

/-- A 32-bit counter that holds at all ones. -/
def satInc32 (w : W32) (n : Nat) : W32 := w32 (satAdd 0xFFFFFFFF w.toNat n)

/-- A 32-bit counter that wraps. -/
def wrapInc32 (w : W32) (n : Nat) : W32 := w + w32 n

def loHalf (w : W64) : W32 := w.setWidth 32
def hiHalf (w : W64) : W32 := (w >>> 32).setWidth 32

/-- Nth element, or a default. -/
def nth {α : Type} (dflt : α) : List α → Nat → α
  | [], _ => dflt
  | a :: _, 0 => a
  | _ :: t, n + 1 => nth dflt t n

/-- Replace the nth element where there is one. -/
def setNth {α : Type} : List α → Nat → α → List α
  | [], _, _ => []
  | _ :: t, 0, v => v :: t
  | a :: t, n + 1, v => a :: setNth t n v

/-- Apply `f` for each `i` below `n`, in rising order. -/
def forUpto {σ : Type} (n : Nat) (f : Nat → σ → σ) (s : σ) : σ := (List.range n).foldl (fun s i => f i s) s

def forIn' {σ α : Type} (l : List α) (f : α → σ → σ) (s : σ) : σ := l.foldl (fun s a => f a s) s

/-- The first `some` below `n`. -/
def firstBelow (n : Nat) (p : Nat → Bool) : Option Nat := (List.range n).find? p

/-- Number of `i` below `n` with `p i`. -/
def countBelow (n : Nat) (p : Nat → Bool) : Nat := ((List.range n).filter p).length

def ceilDiv (a b : Nat) : Nat := if b = 0 then 0 else (a + b - 1) / b

/-! ### CRC-32C (R386): reflected polynomial 0x82F63B78, start and final exclusive-or all ones -/

def crcBit (c : Nat) : Nat := if c % 2 == 1 then (c / 2) ^^^ 0x82F63B78 else c / 2

def crcByte (c : Nat) (b : Byte) : Nat :=
  crcBit (crcBit (crcBit (crcBit (crcBit (crcBit (crcBit (crcBit (c ^^^ b.toNat))))))))

def crc32c (bs : List Byte) : Nat := (bs.foldl crcByte 0xFFFFFFFF) ^^^ 0xFFFFFFFF

end Sys2Proof
end

