-- ==== Sys2Proof/Machine/Ops.lean ====
section
/-! DEFINITION. Operations that every unit shares: presence of units (R1, R6), access to indexed state, tallies (R49),
fault records and interrupts (R597, R606), and the end of a context (R78, R601). -/

namespace Sys2Proof.Machine

/-! ### Presence (R1, R4) -/

def Variant.caps : Variant → W32
  | .crz2240 => 0x08108472
  | .crz2232 => 0x08104252
  | .crz2214 => 0x04082111

def Variant.loops : Variant → Nat
  | .crz2240 => 8 | .crz2232 => 8 | .crz2214 => 4

def Variant.streams : Variant → Nat
  | .crz2240 => 16 | .crz2232 => 16 | .crz2214 => 8

def Variant.fabPorts : Variant → Nat
  | .crz2240 => 8 | .crz2232 => 4 | .crz2214 => 2

def Variant.sites : Variant → Nat
  | .crz2240 => 4 | .crz2232 => 2 | .crz2214 => 1

def Variant.hasConf : Variant → Bool
  | .crz2240 => true | .crz2232 => true | .crz2214 => false

def Variant.hasMica : Variant → Bool
  | .crz2240 => true | .crz2232 => false | .crz2214 => false

def Variant.hasTe1 : Variant → Bool
  | .crz2240 => true | .crz2232 => true | .crz2214 => false

def Die.variant (d : Die) : Variant := d.fuses.variant
def Die.hasTe1 (d : Die) : Bool := d.variant.hasTe1
def Die.hasMica (d : Die) : Bool := d.variant.hasMica

/-- Records of absent instances never become valid (R6, R594). -/
def Die.recPresent (d : Die) (i : Nat) : Bool :=
  if i = 1 ∨ i = 12 ∨ i = 26 ∨ i = 28 then d.hasTe1
  else if 7 ≤ i ∧ i ≤ 10 then decide (i - 7 < d.variant.sites)
  else if 18 ≤ i ∧ i ≤ 21 then decide (i - 18 < d.variant.sites)
  else if 34 ≤ i ∧ i ≤ 41 then decide (i - 34 < d.variant.fabPorts)
  else if 45 ≤ i ∧ i ≤ 52 then decide (i - 45 < d.variant.loops)
  else if 53 ≤ i ∧ i ≤ 68 then decide (i - 53 < d.variant.streams)
  else decide (i < 73)

/-! ### Indexed state -/

def Die.slot (d : Die) (s : Nat) : Slot := Tab.read {} d.ctx.slots s
def Die.updSlot (d : Die) (s : Nat) (f : Slot → Slot) : Die :=
  { d with ctx := { d.ctx with slots := Tab.upd {} d.ctx.slots s f } }

def Die.prot (d : Die) (s : Nat) : Prot := Tab.read {} d.sec.prots s
def Die.updProt (d : Die) (s : Nat) (f : Prot → Prot) : Die :=
  { d with sec := { d.sec with prots := Tab.upd {} d.sec.prots s f } }

def Die.thread (d : Die) (t : Nat) : Thread := Tab.read {} d.xfr.threads t
def Die.updThread (d : Die) (t : Nat) (f : Thread → Thread) : Die :=
  { d with xfr := { d.xfr with threads := Tab.upd {} d.xfr.threads t f } }

def Die.tally (d : Die) (p : Nat) : Tally := Tab.read {} d.iss.tallies p
def Die.updTally (d : Die) (p : Nat) (f : Tally → Tally) : Die :=
  { d with iss := { d.iss with tallies := Tab.upd {} d.iss.tallies p f } }

def Die.stream (d : Die) (m : Nat) : Stream := Tab.read {} d.ing.streams m
def Die.updStream (d : Die) (m : Nat) (f : Stream → Stream) : Die :=
  { d with ing := { d.ing with streams := Tab.upd {} d.ing.streams m f } }

def Die.loop (d : Die) (n : Nat) : Loop := Tab.read {} d.fld.loops n
def Die.updLoop (d : Die) (n : Nat) (f : Loop → Loop) : Die :=
  { d with fld := { d.fld with loops := Tab.upd {} d.fld.loops n f } }

def Die.fport (d : Die) (p : Nat) : FldPort := Tab.read {} d.fld.ports p
def Die.updFport (d : Die) (p : Nat) (f : FldPort → FldPort) : Die :=
  { d with fld := { d.fld with ports := Tab.upd {} d.fld.ports p f } }

def Die.tport (d : Die) (p : Nat) : FabPort := Tab.read {} d.fab.ports p
def Die.updTport (d : Die) (p : Nat) (f : FabPort → FabPort) : Die :=
  { d with fab := { d.fab with ports := Tab.upd {} d.fab.ports p f } }

def Die.page (d : Die) (p : Nat) : Page := Tab.read {} d.kvp.pages p
def Die.updPage (d : Die) (p : Nat) (f : Page → Page) : Die :=
  { d with kvp := { d.kvp with pages := Tab.upd {} d.kvp.pages p f } }

def Die.seq (d : Die) (q : Nat) : Seq := Tab.read {} d.kvp.seqs q
def Die.updSeq (d : Die) (q : Nat) (f : Seq → Seq) : Die :=
  { d with kvp := { d.kvp with seqs := Tab.upd {} d.kvp.seqs q f } }

def Die.kvCmd (d : Die) (s : Nat) : KvCmd := Tab.read {} d.kvp.pages_ s
def Die.updKvCmd (d : Die) (s : Nat) (f : KvCmd → KvCmd) : Die :=
  { d with kvp := { d.kvp with pages_ := Tab.upd {} d.kvp.pages_ s f } }

def Die.errRec (d : Die) (i : Nat) : Rec := Tab.read {} d.err.recs i

/-- A confidential context (R490): from its ARM until the slot leaves ARMED or ABORTED. -/
def Die.isConf (d : Die) (s : Nat) : Bool := (d.slot s).conf

/-- Engine `n`'s state. -/
def Die.te (d : Die) (n : Nat) : Engine := if n = 0 then d.te0 else d.te1
def Die.updTe (d : Die) (n : Nat) (f : Engine → Engine) : Die :=
  if n = 0 then { d with te0 := f d.te0 } else { d with te1 := f d.te1 }

/-- In Dawn service the host reaches only GLB and the read-only boot registers (R576). -/
def Die.hostOpen (d : Die) : Bool := decide (d.glb.service ≠ 1)

/-! ### What the die sends -/

def Die.send (d : Die) (o : Out) : Die := { d with out := o :: d.out }

/-- A message of the host's class goes out: the round of its module (module 0; DESIGN CHOICE: log entry 121) begins again at the
first port (R456). -/
def Die.sendHost (d : Die) (o : Out) : Die :=
  Die.send { d with fab := { d.fab with modTurn := Tab.write 3 d.fab.modTurn 0 3 } } o

/-! ### The pause of a level transition (R43, R544) -/

/-- Reference cycles from the start of a transition to its ACLK pause: 10 µs after the new VID towards a faster level, none
towards a slower one. -/
def Pwr.pauseFrom (p : Pwr) (l : BitVec 3) : Nat := if l.toNat < p.cur.toNat then 1000 else 0

/-- The pause lasts 1 µs. -/
def pauseCycles : Nat := 100

/-- ACLK pauses. -/
def Pwr.paused (p : Pwr) : Bool :=
  match p.changing with
  | some l => decide (p.pauseFrom l ≤ p.chgTicks ∧ p.chgTicks < p.pauseFrom l + pauseCycles)
  | none => false

/-! ### What runs in a sleep state, an entry or an exit (R548, R554, R559) -/

/-- Night and Midnight, where domains are off. -/
def Sleep.deep : Sleep → Bool
  | .night => true | .midnight => true | _ => false

/-- AONCLK cycles since the entry or the exit in progress began. -/
def Die.seqAt (d : Die) : Nat := d.time.aon.toNat - d.pwr.seqStart

/-- Cycles of an exit at which ING, FAB and FLD are back, and at which ACLK runs again. DESIGN CHOICE (log entry 1): at an exit from Dusk,
which ungates its domains one after the other, ACLK counts again with AUX, at cycle 20. -/
def fldBack : Sleep → Nat
  | .midnight => 45316 | .night => 6148 | _ => 12
def aclkBack : Sleep → Nat
  | .midnight => 45700 | .night => 6532 | _ => 20

/-- Cycle of an exit at which XFR is back. -/
def xfrBack : Sleep → Nat
  | .midnight => 39172 | _ => 4

/-- XFR is on and clocked: requests, threads and the KV page manager act. A trip has it off (R548). -/
def Die.xfrRuns (d : Die) : Bool :=
  !d.pwr.tripped &&
    match d.pwr.entry with
    | some _ => decide (d.pwr.state = .active) && decide (d.seqAt < 12)
    | none => decide (d.pwr.state = .active) || (d.pwr.exiting && decide (xfrBack d.pwr.state ≤ d.seqAt))

/-- The die has no power, or is in reset; a reset that a sleep state holds as a wake has not begun (R583, R614, R615). -/
def Die.pinsOff (d : Die) : Bool := !d.boot.pwrgood || (!d.boot.resetN && !d.pwr.heldReset)

/-- ING, FAB and FLD are on and clocked; a trip has ING and FAB off. -/
def Die.fldRuns (d : Die) : Bool :=
  match d.pwr.entry with
  | some (_, closed) => decide (d.pwr.state = .active) && !closed && decide (d.seqAt < 12)
  | none => decide (d.pwr.state = .active) || (d.pwr.exiting && decide (fldBack d.pwr.state ≤ d.seqAt))

/-- FAB is on and clocked. -/
def Die.fabRuns (d : Die) : Bool := d.fldRuns && !d.pwr.tripped

/-- FLD has power, and with it the field-port transmit pairs (R563). -/
def Die.fldPowered (d : Die) : Bool :=
  match d.pwr.entry with
  | some (t, _) => !d.pwr.state.deep && !(t.deep && decide (112 ≤ d.seqAt))
  | none => !d.pwr.state.deep || (d.pwr.exiting && decide (fldBack d.pwr.state ≤ d.seqAt))

/-- FAB has power, and with it the outputs of both modules' mainlines and the sideband transmitter of module 1 (R548, R558, R563). -/
def Die.fabPowered (d : Die) : Bool := d.fldPowered && !d.pwr.tripped

/-- MGT is on: firmware runs. -/
def Die.mgtRuns (d : Die) : Bool :=
  match d.pwr.entry with
  | some (t, _) => !(decide (t = .midnight) && decide (128 ≤ d.seqAt))
  | none => decide (d.pwr.state ≠ .midnight) || (d.pwr.exiting && decide (36480 ≤ d.seqAt))

/-- The die is active, and no entry has come to the cycle that gates its clocks (R554). -/
def Die.awake (d : Die) : Bool :=
  decide (d.pwr.state = .active) && (match d.pwr.entry with | some _ => decide (d.seqAt < 12) | none => true)

/-- ACLK runs: while the die is awake, and from its step of an exit on. A trip has it off (R548). -/
def Die.aclkRuns (d : Die) : Bool :=
  !d.pwr.tripped &&
    (d.awake || (d.pwr.entry.isNone && d.pwr.exiting && decide (aclkBack d.pwr.state ≤ d.seqAt)))

/-- The tally bank applies releases (R253): ACLK runs and does not pause (R544). -/
def Die.bankRuns (d : Die) : Bool := d.aclkRuns && !d.pwr.paused

/-- Bundle issue and the dispatcher act: the die is awake, for issue starts only in the active state (R559), has not tripped (R548), and
ACLK does not pause (R43). -/
def Die.issueRuns (d : Die) : Bool := d.awake && !d.pwr.tripped && !d.pwr.paused

/-- The UCIe mainline is up: it has trained, and FAB, which powers it, is on (R548, R613, R616). -/
def Die.mainline (d : Die) : Bool := d.boot.linked && !d.pwr.tripped && d.fabPowered

/-- An INTR goes out over the mainline. -/
def Die.intr (d : Die) (fn vec : Nat) : Die := if d.mainline then d.sendHost (.intr fn (BitVec.ofNat 8 vec)) else d

/-! ### Die time (R281) -/

def tqPerNs : Nat := 0x100000

/-- The die time in ns. -/
def Time.ns (t : Time) : Int := t.tq / (tqPerNs : Int)

/-- The die time as registers and stamps give it: it is 0 until it is first set (R33). -/
def Time.reading (t : Time) : W64 := BitVec.ofInt 64 t.ns

/-- The die time as a record takes it: 0 while TIME_VALID is 0 (R595). -/
def Time.stamp (t : Time) : W64 := if t.valid then t.reading else 0

/-! ### Fault records (R593 to R597, R606) -/

def isFatal (cause : Nat) : Bool := decide (cause = 0x0E ∨ cause = 0x0F ∨ cause = 0x10)

/-- What an event captures first (R594, R595). -/
def Die.capture (d : Die) (cause : Nat) (slot : Option Nat) (f0 f1 f2 f3 : Nat) : Rec :=
  { valid := true, fatal := isFatal cause, conf := (slot.map d.isConf).getD false, cause := BitVec.ofNat 5 cause,
    slot := BitVec.ofNat 6 (slot.getD 0x3F), count := 1, f0 := w32 f0, f1 := w32 f1, f2 := w32 f2, f3 := w32 f3,
    time := d.time.stamp }

/-- The physical thread or the bundle address that an event on record `i` names, by the layout of R596; 0 where it names neither. -/
def Rec.place (i : Nat) (r : Rec) : Nat :=
  if i ≤ 21 then bitsOf r.f2.toNat 11 0 else if 22 ≤ i ∧ i ≤ 28 then r.f0.toNat else if i = 30 then r.f2.toNat
  else if i = 32 then bitsOf r.f1.toNat 11 0 else 0

/-- The event comes before another of its cycle on record `i`: the lower slot, then the lower thread or address (R597). -/
def Rec.before (i : Nat) (x y : Rec) : Bool :=
  decide (x.slot.toNat < y.slot.toNat ∨ (x.slot = y.slot ∧ x.place i < y.place i))

/-- An event reaches record `i` with its capture (R597, R606): the first fills it and is announced, a later one counts. -/
def Die.recordEvent (d : Die) (i : Nat) (r' : Rec) : Die :=
  let r := d.errRec i
  if r.valid then
    { d with err := { d.err with
        recs := Tab.write {} d.err.recs i { r with count := BitVec.ofNat 16 (satAdd 0xFFFF r.count.toNat 1) } } }
  else
    let d := { d with err := { d.err with recs := Tab.write {} d.err.recs i r' } }
    let d := if bit d.err.irqEn.toNat r'.cause.toNat then d.intr 0 0x01 else d
    if r'.fatal then Die.intr { d with err := { d.err with toFlash := d.err.toFlash ++ [i] } } 0 0x02 else d

/-- A bundle is in one of its issue cycles. -/
def Die.issuing (d : Die) : Bool :=
  match d.iss.run with
  | some r => (match r.phase with | .issuing _ _ => true | _ => false)
  | none => false

/-- The events of the issue cycle in progress on record `i`. -/
def Die.cycleEvents (d : Die) (i : Nat) : List Rec :=
  if d.issuing then (d.err.cycle.filter fun e => decide (e.1 = i)).map Prod.snd else []

/-- When record `i` counts the events of the present cycle alone, its first capture is that of the first of them by `Rec.before`. -/
def Die.keepFirst (d : Die) (i : Nat) : Die :=
  match d.cycleEvents i with
  | [] => d
  | e :: es =>
    let r := d.errRec i
    if r.valid && decide (r.count.toNat = es.length + 1) then
      let x := es.foldl (fun (x : Rec) y => if y.before i x then y else x) e
      { d with err := { d.err with recs := Tab.write {} d.err.recs i { x with count := r.count } } }
    else d

/-- An event of R597 on record `i`. A record of an absent instance stays as it is (R6). -/
def Die.record (d : Die) (i cause : Nat) (slot : Option Nat) (f0 f1 f2 f3 : Nat) : Die :=
  if d.recPresent i then
    let c := d.capture cause slot f0 f1 f2 f3
    let d := d.recordEvent i c
    if d.issuing then Die.keepFirst { d with err := { d.err with cycle := d.err.cycle ++ [(i, c)] } } i else d
  else d

/-- The words of record `i`, for the first of its flash entries still to be written (R609). -/
def Err.forFlash (e : Err) (i : Nat) : Rec := (Tab.read [] e.cleared i).headD (Tab.read {} e.recs i)

/-- Record `i` goes; what its flash entries still need of it stays. -/
def Err.clear (e : Err) (i : Nat) : Err :=
  let kept := Tab.read [] e.cleared i
  { e with recs := Tab.write {} e.recs i {},
           cleared := if kept.length < e.toFlash.count i then Tab.write [] e.cleared i (kept ++ [Tab.read {} e.recs i]) else e.cleared }

/-! ### Tallies (R48, R49, R55) -/

/-- Increment physical tally `p` by `n`: it holds at 0xFF_FFFF and then sets its bit of XFR_TALLY_SAT. -/
def Die.tallyAdd (d : Die) (p n : Nat) : Die :=
  let v := (d.tally p).value.toNat + n
  if v ≤ 0xFFFFFF then d.updTally p fun t => { t with value := BitVec.ofNat 24 v }
  else
    let d := d.updTally p fun t => { t with value := 0xFFFFFF }
    { d with iss := { d.iss with sat := d.iss.sat ||| (1#256 <<< (p % 256)) } }

/-- A failing source sets the error bit (R55). -/
def Die.tallyErr (d : Die) (p cause : Nat) : Die :=
  d.updTally p fun t => { t with err := true, cause := if t.err then t.cause else cause }

/-- The physical tally of a slot's logical one; none outside its window. -/
def Die.physTally (d : Die) (s l : Nat) : Option Nat :=
  match (d.slot s).seg with
  | some g => if l < g.tallies then some (g.tallyBase + l) else none
  | none => none

/-- Increment a slot's logical tally. -/
def Die.logTallyAdd (d : Die) (s l n : Nat) : Die :=
  match d.physTally s l with
  | some p => d.tallyAdd p n
  | none => d

/-- Clear `n` tallies from `base` (R76, R77). -/
def Die.clearTallies (d : Die) (base n : Nat) : Die :=
  { d with iss := { d.iss with tallies := d.iss.tallies.filter fun c => decide (c.1 < base ∨ base + n ≤ c.1),
                               incs := d.iss.incs.filter fun c => decide (c.2 < base ∨ base + n ≤ c.2) } }

/-! ### Threads -/

/-- A thread runs until it has stopped: no further request, and every issued request complete (R100). -/
def Thread.running (t : Thread) : Bool :=
  decide (t.state = .running ∨ t.state = .waiting) || !t.out.isEmpty

/-- An open pass closes once its closing step's requests have completed (R370): it is marked, PASS_CLOSE closes it. -/
def Thread.closingPass (t : Thread) : Option Pass := t.pass.map fun p => { p with closing := true, upTo := none }

/-- STOP of one thread (R100): a step whose requests issue goes on to its boundary, every other ends here. No increment
follows. -/
def Thread.stop (t : Thread) : Thread :=
  if t.state = .running ∧ t.inStep then { t with stopping := true }
  else if t.state = .running ∨ t.state = .waiting then
    { t with state := .stopped, stopping := true, pass := t.closingPass }
  else t

/-- Stop every thread of a slot. -/
def Die.stopThreads (d : Die) (s : Nat) : Die :=
  { d with xfr := { d.xfr with threads := Tab.mapVal {} (fun t : Thread => if t.slot = s then t.stop else t) d.xfr.threads } }

/-- A thread of the slot has not yet stopped. -/
def Die.slotRunning (d : Die) (s : Nat) : Bool :=
  d.xfr.threads.any fun c => decide (c.2.slot = s) && c.2.running

/-! ### The end of a context (R78, R601, R606) -/

def Cal.dropPending (c : Cal) (s : Nat) : Cal := if c.pending = some s then { c with pending := none } else c

def Die.holdsIssue (d : Die) (s : Nat) : Bool :=
  match d.iss.run with
  | some r => decide (r.slot = s)
  | none => false

/-- Results of a slot's actions that have not landed are discarded (R60). -/
def Die.discardInFlight (d : Die) (s : Nat) : Die :=
  let keepRow (r : RowFlight) : Bool := decide (r.slot ≠ s)
  let keepLand (l : Landing) : Bool := decide (l.slot ≠ s)
  let plane (p : Plane) : Plane := { p with statRead := p.statRead.filter fun r => decide (r.slot ≠ s) }
  let pend (e : Engine) : List Byte := if d.holdsIssue s then [] else e.pend16
  { d with te0 := { d.te0 with flight := d.te0.flight.filter keepRow, pend16 := pend d.te0,
                               plane0 := plane d.te0.plane0, plane1 := plane d.te0.plane1 },
           te1 := { d.te1 with flight := d.te1.flight.filter keepRow, pend16 := pend d.te1,
                               plane0 := plane d.te1.plane0, plane1 := plane d.te1.plane1 },
           fln := { d.fln with flight := d.fln.flight.filter keepRow },
           vec := { d.vec with landings := d.vec.landings.filter keepLand },
           mca := { d.mca with jobs := d.mca.jobs.filter (fun j : MicaJob => decide (j.slot ≠ s)),
                               input := if d.mca.inSlot = s then [] else d.mca.input,
                               inRows := if d.mca.inSlot = s then [] else d.mca.inRows },
           pst := { d.pst with jobs := d.pst.jobs.filter (fun j : PostJob => decide (j.slot ≠ s)),
                               taps := if d.pst.inSlot = s then [] else d.pst.taps,
                               sample := if d.pst.inSlot = s then 0 else d.pst.sample,
                               box := if d.pst.inSlot = s then [] else d.pst.box,
                               boxOut := if d.pst.inSlot = s then [] else d.pst.boxOut } }

/-- Bound streams are disabled; the open frame is discarded without a count (R288). -/
def Stream.endContext (x : Stream) (s : Nat) : Stream :=
  if bitsOf x.bind.toNat 21 16 = s ∧ x.ctrl.getLsbD 0 then
    { x with ctrl := x.ctrl &&& 0xFFFFFFFE, open_ := false, dropped := false, voidQ := [] }
  else x

/-- The source of R410: true for the sideband. -/
def Die.nwtSideband (d : Die) : Bool :=
  !(decide (d.pwr.state = .active) && (d.stream d.nwt.stream.toNat).ctrl.getLsbD 0)

/-- A change of source discards the frame in progress; a watch frame counts in NWT_SB_ERR, and the rest of it is passed over. -/
def Die.nwtSync (d : Die) : Die :=
  let b := d.nwtSideband
  if b = d.nwt.sideband then d
  else { d with nwt := { d.nwt with sideband := b, sbErr := if d.nwt.sbOpen then satInc32 d.nwt.sbErr 1 else d.nwt.sbErr,
                                    sbSkip := d.nwt.sbSkip || d.nwt.sbOpen, sbOpen := false, sbBytes := [],
                                    inRows := [], inOpen := false } }

/-- Issue stops when the slot's segment holds it, the loop stack with it (R77, R78): at once between bundles, during a stall
and in a drain; in an issue cycle, with the next cycle. -/
def Issue.endRun (i : Issue) (s : Nat) : Issue :=
  match i.run with
  | some r =>
    if r.slot = s then
      match r.phase with
      | .issuing _ _ => { i with run := some { r with ended := true } }
      | _ => { i with run := none }
    else i
  | none => i

/-- Slot-3 actions of the context still on their way are discarded when they arrive (R78). -/
def Issue.killLaunches (i : Issue) (s : Nat) : Issue :=
  { i with fifo := i.fifo.map fun e => if e.slot = s then { e with dead := true } else e }

/-- The slot's segment holds issue: it has not issued its EXIT (R47). -/
def Die.runsSegment (d : Die) (s : Nat) : Bool :=
  match d.iss.run with
  | some r => decide (r.slot = s) && decide (r.phase ≠ .drain)
  | none => false

/-- A context to abort: an ARMED slot, or a disarmed one whose run still holds issue (R431, R435). -/
def Die.abortable (d : Die) (s : Nat) : Bool :=
  decide ((d.slot s).state = .armed) || (decide ((d.slot s).state = .loaded) && d.holdsIssue s)

/-- The slot's tally window is cleared (R77). -/
def Die.clearWindow (d : Die) (s : Nat) : Die :=
  match (d.slot s).seg with
  | some g => d.clearTallies g.tallyBase g.tallies
  | none => d

/-- The cause of the abort of slot s that happened in the present issue cycle (R601). -/
def Issue.abortCause (i : Issue) (s : Nat) : Option Nat := (i.aborts.find? fun a => decide (a.1 = s)).map Prod.snd

/-- A fault of a lower cause has met a context within the cycle of its abort: that is its cause (R601). -/
def Issue.lowerCause (i : Issue) (s cause : Nat) : Issue :=
  { i with aborts := i.aborts.map fun a => if a.1 = s then (s, cause) else a }

/-- A slot becomes ABORTED: its function is told (R606). -/
def Die.abortIntr (d : Die) (s cause : Nat) : Die := d.intr s (0x40 + cause)

/-- Within an issue cycle the vector waits for the cycle's end, and for the lowest cause (R601). -/
def Die.abortTold (d : Die) (s cause : Nat) : Die :=
  if d.issuing then { d with iss := { d.iss with aborts := d.iss.aborts ++ [(s, cause)] } } else d.abortIntr s cause

/-- The issue cycle is over: the vectors that waited go out. -/
def Die.tellAborts (d : Die) : Die :=
  d.iss.aborts.foldl (fun (d : Die) a => d.abortIntr a.1 a.2) { d with iss := { d.iss with aborts := [] } }

/-- CONTEXT_ABORT (R78) with the cause of R601; 0 without a fault. A slot already ABORTED keeps its first cause, but of the faults
that meet a context in its issue cycle the lowest cause counts: its vector goes out as that cycle ends. -/
def Die.abortSlot (d : Die) (s cause : Nat) : Die :=
  if d.abortable s then
    let d := (d.clearWindow s).discardInFlight s
    let d := { d with iss := (d.iss.endRun s).killLaunches s,
                      ctx := { d.ctx with cal := d.ctx.cal.dropPending s },
                      ing := { d.ing with streams := Tab.mapVal {} (fun x : Stream => x.endContext s) d.ing.streams },
                      fld := { d.fld with loops := Tab.mapVal {} (fun l : Loop =>
                        if l.slot.toNat = s ∧ s ≠ 0x3F ∧ l.enable then { l with abortedCtx := true } else l) d.fld.loops } }
    let d := (d.stopThreads s).nwtSync
    (d.updSlot s fun x => { x with state := .aborted, cause := cause, runsLeft := 0 }).abortTold s cause
  else
    match d.iss.abortCause s with
    | some c =>
      if 0 < cause ∧ cause < c then
        let d := { d with iss := d.iss.lowerCause s cause }
        if (d.slot s).state = .aborted then d.updSlot s fun x => { x with cause := cause } else d
      else d
    | none => d

/-- Every context ends (R236, R548). -/
def Die.abortAll (d : Die) (cause : Nat) : Die := forUpto 64 (fun s d => d.abortSlot s cause) d

/-- Count an access refused under R58 or R258; a confidential context's is not counted (R261). -/
def Die.grantViol (d : Die) (s : Nat) : Die :=
  if d.isConf s then d else { d with xfr := { d.xfr with grantViol := satInc32 d.xfr.grantViol 1 } }

/-! ### HBM4 addresses and owners (R233, R234) -/

/-- Groups in use, ascending. -/
def Hbm.groupsInUse (h : Hbm) : List Nat := (List.range 16).filter fun g => bit h.groups.toNat g

/-- The populated sites that HBM_POP names, ascending. -/
def Die.popSites (d : Die) : List Nat :=
  (List.range d.variant.sites).filter fun i => bit d.glb.hbmPop.toNat i

/-- Channel 32 × site + channel that holds the byte at a physical address (R233, R266). -/
def Die.channelOf (d : Die) (phys : Nat) : Nat :=
  let n := phys / 256
  let gs := d.hbm.groupsInUse
  let g := if gs.length = 0 then 0 else nth 0 gs ((n / 8) % gs.length)
  32 * nth 0 d.popSites (g / 4) + 8 * (g % 4) + n % 8

/-- Bytes of one KV page. -/
def pageBytes : Nat := 0x10000

/-- The slot whose grant or page range holds the byte at a physical address. -/
def Die.ownerOf (d : Die) (phys : Nat) : Option Nat :=
  firstBelow 64 fun s =>
    let x := d.slot s
    decide (x.state ≠ .free) &&
      (decide (x.memBase.toNat * 0x100000 ≤ phys ∧ phys < (x.memBase.toNat + x.memSize.toNat) * 0x100000) ||
       (let pool := d.kvp.poolBase.toNat * 0x100000
        decide (pool + x.pageBase.toNat * pageBytes ≤ phys ∧
                phys < pool + (x.pageBase.toNat + x.pageCnt.toNat) * pageBytes)))

/-! ### ECC (R230, R234, R236) -/

/-- The bank or channel a first capture names (R596). -/
def Die.bankOf (d : Die) (store off : Nat) : Nat :=
  if store ≤ 1 then (off / 512) % 64
  else if store = 2 then (off / 512) % 16
  else if 7 ≤ store then d.channelOf off
  else (Config.storeBank store off).toNat

/-- The syndrome that names bit `i` of a codeword: non-zero (R230). -/
def bitSyndrome (i : Nat) : Nat :=
  let b := (Config.bitSyndrome i).toNat
  if b = 0 then 1 else b

/-- The 8 check bits that a store keeps beside a 64-bit word (R227, R230): of a linear code, the sum of its ones' syndromes. They follow
from the data, and a word in error reaches the die as an operand of the command that meets it. -/
def checkBits (word : Nat) : Byte :=
  (List.range 64).foldl (fun (c : Byte) i => if bit word i then c ^^^ BitVec.ofNat 8 (bitSyndrome i) else c) 0

/-- The check bits of the word that holds byte `a` of a store. -/
def storeCheck (m : Tab Byte) (a : Nat) : Byte := checkBits (Mem.le m (8 * (a / 8)) 8)

/-- The syndrome of a word in error: that of the corrected bit, or some other non-zero value (R230). -/
def syndromeOf (uncorr : Bool) (store off ctr : Nat) : Nat :=
  let named := (List.range 72).map bitSyndrome
  if uncorr then
    let b := (Config.syndrome store off ctr).toNat
    if b = 0 ∨ named.contains b = true then (((List.range 256).drop 1).find? fun v => !named.contains v).getD 255 else b
  else bitSyndrome ((Config.errorBit store off ctr) % 72)

def Die.drawFree (d : Die) : Die := { d with freeCtr := d.freeCtr + 1 }

/-- Who read the word: 0 slot action, 1 thread, 2 patrol, 3 other, with the physical thread (R596). -/
structure Reader where
  code   : Nat
  thread : Nat := 0

def Reader.word (r : Reader) : Nat := r.code * 2 ^ 30 + (if r.code = 1 then r.thread % 4096 else 0)

def Die.eccCapture (d : Die) (base cause store off : Nat) (slot : Option Nat) (r : Reader) : Die :=
  (d.record (base + store) cause slot (if 7 ≤ store then off / 256 else off)
    (syndromeOf (decide (cause = 0x02)) store off d.freeCtr * 0x10000 + d.bankOf store off % 0x10000) r.word 0).drawFree

/-- ECC_CORR: the word is delivered corrected and counted. -/
def Die.eccCorr (d : Die) (store off : Nat) (slot : Option Nat) (r : Reader) : Die :=
  let d := if 7 ≤ store then { d with hbm := { d.hbm with corr := inc64 d.hbm.corr 1 } }
           else { d with xfr := { d.xfr with eccCorr := satInc32 d.xfr.eccCorr 1 } }
  d.eccCapture 0 0x01 store off slot r

/-- HBM_CHANNEL_FAIL (R236, R608): recorded, every context aborted, dispatch stopped, sweeps stuck (R503). -/
def Die.channelFail (d : Die) (chan cause : Nat) : Die :=
  if d.hbm.deadChans.contains chan then d
  else
    let h := { d.hbm with failed := true, warmAgain := d.boot.warm, deadChans := d.hbm.deadChans ++ [chan] }
    let h := if h.failValid then h
             else { h with failValid := true, failCause := BitVec.ofNat 3 cause, failChan := BitVec.ofNat 7 chan }
    let d := { d with hbm := h }
    let d := d.record 70 0x0E none chan cause 0 0
    let d := { d with glb := { d.glb with service := 3 },
                      sec := { d.sec with prots := Tab.mapVal {} (fun q : Prot =>
                        if q.sweeping then { q with sweepStuck := true } else q) d.sec.prots } }
    d.abortAll 0x0E

/-- Reference time in ns since reset, the clock the 1 ms of R236 is measured on. -/
def Die.refNs (d : Die) : Nat := d.boot.sinceRst * 10

/-- An uncorrectable HBM4 word of a channel: 64 of them within 1 ms fail the channel (R236). -/
def Die.uncorrBurst (d : Die) (chan : Nat) : Die :=
  let now := d.refNs
  let log := (d.hbm.uncorrLog.filter fun e => decide (now < e.2 + 1000000)) ++ [(chan, now)]
  let d := { d with hbm := { d.hbm with uncorrLog := log } }
  if 64 ≤ (log.filter fun e => decide (e.1 = chan)).length then d.channelFail chan 2 else d

/-- ECC_UNCORR against a context: recorded, the context aborted, the burst of R236 counted for HBM4. -/
def Die.eccUncorr (d : Die) (store off : Nat) (slot : Option Nat) (r : Reader) : Die :=
  let d := d.eccCapture 11 0x02 store off slot r
  let d := match slot with
    | some s => d.abortSlot s 0x02
    | none => d
  if 7 ≤ store then d.uncorrBurst (d.channelOf off) else d

/-- The context an uncorrectable word concerns: HBM4's owner, on-die the reader's (R230, R234). -/
def Die.eccContext (d : Die) (store off : Nat) (slot : Option Nat) : Option Nat :=
  if 7 ≤ store then d.ownerOf off else slot

/-- What the check code found for an access of a slot's reader. -/
def Die.ecc (d : Die) (e : Ecc) (slot : Option Nat) (r : Reader) : Die :=
  e.foldl (fun (d : Die) w =>
    let owner := d.eccContext w.store w.off slot
    if w.uncorr then d.eccUncorr w.store w.off owner r else d.eccCorr w.store w.off owner r) d

def eccBad (e : Ecc) : Bool := e.any (·.uncorr)

/-- An uncorrectable word of the store is one that a write of `n` bytes at `a` covers only in part (R231): the whole access
is discarded. -/
def eccSpoils (e : Ecc) (store a n : Nat) : Bool :=
  e.any fun w => w.uncorr && decide (w.store = store ∧ w.off / 8 * 8 < a + n ∧ a < w.off / 8 * 8 + 8) &&
    !decide (a ≤ w.off / 8 * 8 ∧ w.off / 8 * 8 + 8 ≤ a + n)

/-! ### The attestation report's raw blocks (R533 to R537) -/

/-- A boot-control record's bytes before its CRC, and the record (R570). -/
def BootCtl.body (c : BootCtl) : List Byte :=
  leBytes 4 c.seq.toNat ++ [BitVec.ofNat 8 (b2n c.preferred), BitVec.ofNat 8 c.stateA.toNat, BitVec.ofNat 8 c.stateB.toNat,
    BitVec.ofNat 8 c.tries.toNat, BitVec.ofNat 8 (b2n c.rollback)] ++ List.replicate 51 0

def BootCtl.bytes (c : BootCtl) : List Byte := c.body ++ leBytes 4 (crc32c c.body)

/-- The record of a copy; none where its CRC is not correct. -/
def bootCtlOf (b : List Byte) : Option BootCtl :=
  if b.length = 64 ∧ leNat (b.drop 60) = crc32c (b.take 60) % 2 ^ 32 then
    some { seq := w32 (leNat (b.take 4)), preferred := (nth 0 b 4).getLsbD 0, stateA := (nth 0 b 5).setWidth 2,
           stateB := (nth 0 b 6).setWidth 2, tries := (nth 0 b 7).setWidth 2, rollback := (nth 0 b 8).getLsbD 0 }
  else none

/-- What the boot ROM takes when neither copy is valid. -/
def bootCtlDefault : BootCtl := { seq := 0, preferred := false, stateA := 2, stateB := 2, tries := 0, rollback := false }

/-- The second copy is the one in force. -/
def Flash.inSecond (f : Flash) : Bool :=
  match bootCtlOf f.ctl0, bootCtlOf f.ctl1 with
  | some a, some b => decide (a.seq < b.seq)
  | none, some _ => true
  | _, none => false

/-- The record in force: the valid copy with the higher SEQ. -/
def Flash.ctl (f : Flash) : BootCtl :=
  (bootCtlOf (if f.inSecond then f.ctl1 else f.ctl0)).getD bootCtlDefault

def BootCtl.state (c : BootCtl) (slotB : Bool) : BitVec 2 := if slotB then c.stateB else c.stateA
def fsEmpty : BitVec 2 := 0
def fsStaged : BitVec 2 := 1
def fsConfirmed : BitVec 2 := 2
def fsRejected : BitVec 2 := 3

/-- The digest of a slot (R572). -/
def imageDigest (m : Manifest) : BitVec 384 := Config.sha384 (imageHeader m)

/-- Both signatures verify over bytes 0x000–0x0FF. -/
def imageSigned (m : Manifest) : Bool :=
  let v := Config.fwSignatures (imageHeader m)
  (v.1 :: v.2).contains (m.ecdsa, m.mldsa)

/-- The fields of R571 are as it states them. -/
def imageFormat (m : Manifest) : Bool :=
  decide (m.magic = 0x46545A52 ∧ m.version = 1 ∧ m.svn.toNat ≤ 127 ∧ m.rsvd = 0 ∧ m.tail = 0 ∧ m.dawnBytes.toNat ≤ 0x100000 ∧
    m.mainBytes.toNat + m.dawnBytes.toNat + 0x2000 ≤ 0xF00000 ∧ m.dawn.length = m.dawnBytes.toNat ∧ m.main.length = m.mainBytes.toNat)

/-- The stages match their digests. -/
def imageDawnOk (m : Manifest) : Bool := decide (Config.sha384 m.dawn = m.dawnDigest)
def imageMainOk (m : Manifest) : Bool := decide (Config.sha384 m.main = m.mainDigest)

def Flash.slot (f : Flash) (slotB : Bool) : Option Manifest := if slotB then f.slotB else f.slotA

/-- UPDATE_STAGED (R533): a verified image waits in the slot that does not run. -/
def Die.updateStaged (d : Die) : Bool :=
  let b := !d.boot.runSlotB
  d.boot.staging.isNone && decide (d.boot.flash.ctl.state b = fsStaged) && (d.boot.flash.slot b).isSome

/-- STAGED_SLOT, and the staged image's digest. -/
def Die.stagedTo (d : Die) : Bool := d.updateStaged && !d.boot.runSlotB
def Die.stagedDigest (d : Die) : BitVec 384 :=
  if d.updateStaged then ((d.boot.flash.slot (!d.boot.runSlotB)).map imageDigest).getD 0 else 0

/-! ### Fuse rows (R588) -/

/-- A row without its commit bit is absent. -/
def Fuses.committed (f : Fuses) (n : Nat) : Bool := (Tab.read {} f.rows n).commit

/-- The lifecycle: the highest committed code (R518). -/
def Fuses.lifecycle (f : Fuses) : BitVec 4 := if f.committed 3 then 3 else if f.committed 2 then 2 else if f.committed 1 then 1 else 0

/-- ARB: the committed anti-rollback rows. -/
def arbRow : Nat := 0x80
def Fuses.arb (f : Fuses) : Nat := (f.rows.filter fun c => decide (arbRow ≤ c.1 ∧ c.1 < arbRow + 127) && c.2.commit).length

/-- A digest's six rows: all of them committed, and what they hold. -/
def Fuses.whole (f : Fuses) (base : Nat) : Bool := (List.range 6).all fun i => f.committed (base + i)
def Fuses.digest (f : Fuses) (base : Nat) : BitVec 384 :=
  BitVec.ofNat 384 ((List.range 6).foldl (fun (n : Nat) i => n + (Tab.read {} f.rows (base + i)).data.toNat * 2 ^ (64 * i)) 0)

/-- The operator root in force: the highest committed of the four (R519). -/
def Fuses.rootRow (f : Fuses) : Nat :=
  if f.whole 32 then 4 else if f.whole 24 then 3 else if f.whole 16 then 2 else if f.whole 8 then 1 else 0
def Fuses.root (f : Fuses) : BitVec 384 := if f.rootRow = 0 then 0 else f.digest (8 * f.rootRow)

/-- The rows and bits of what is to be burned. -/
def fuseWords (r : Nat × Nat × BitVec 384) : List (Nat × BitVec 64) :=
  if r.1 = 0 then [(r.2.2.toNat % 4, r.2.2.extractLsb' 0 64)]
  else if r.1 = 1 then (List.range 6).map fun i => (8 * r.2.1 + i, r.2.2.extractLsb' (64 * i) 64)
  else if r.1 = 2 then [(arbRow + r.2.1, 1)]
  else [(3, 3)]

def Fuses.updRow (f : Fuses) (n : Nat) (g : FuseRow → FuseRow) : Fuses := { f with rows := Tab.write {} f.rows n (g (Tab.read {} f.rows n)) }

/-- The data bits are burned; then the rows are read back; last come the commit bits. -/
def Fuses.burn (f : Fuses) (r : Nat × Nat × BitVec 384) : Fuses :=
  (fuseWords r).foldl (fun (f : Fuses) w => f.updRow w.1 fun x => { x with data := x.data ||| w.2 }) f
def Fuses.readsBack (f : Fuses) (r : Nat × Nat × BitVec 384) : Bool :=
  (fuseWords r).all fun w => decide ((Tab.read {} f.rows w.1).data = w.2)
def Fuses.commit (f : Fuses) (r : Nat × Nat × BitVec 384) : Fuses :=
  (fuseWords r).foldl (fun (f : Fuses) w => f.updRow w.1 fun x => { x with commit := true }) f

/-- The DeviceID certificate of an algorithm is the one whose SHA-384 is fused (R517). -/
def Die.deviceOk (d : Die) (pq : Nat) : Bool :=
  let x := Config.sha384 (Tab.read [] d.boot.flash.devices pq)
  (List.range 6).all fun i => decide (Tab.read {} d.fuses.rows (0x30 + 8 * pq + i) = { data := x.extractLsb' (64 * i) 64, commit := true })

/-- Sites where a stack stands. -/
def Die.stacks (d : Die) : Nat := d.hbm.populated.toNat % 2 ^ d.variant.sites

/-- The code of a unit of block 7: present, reset in progress, switched off. -/
def unitCode (present reset off : Bool) : Nat := if !present then 0 else if reset then 2 else if off then 4 else 1

/-- The 16 unit codes of R536. -/
def Die.unitCodes (d : Die) : List Nat :=
  let deep := decide (d.pwr.state = .night ∨ d.pwr.state = .midnight) || d.pwr.tripped
  let mid := decide (d.pwr.state = .midnight) || d.pwr.tripped
  let w := d.boot.warm
  let site (i : Nat) : Nat :=
    if d.hbm.rate = 0 then unitCode (bit d.stacks i) true false
    else if d.hbm.deadChans.any (fun c => decide (c / 32 = i)) && !w then 3 else unitCode (bit d.glb.hbmPop.toNat i) w false
  [unitCode true (w || d.te0.inReset) deep, unitCode d.hasTe1 (w || d.te1.inReset) deep, unitCode true w deep,
   unitCode d.hasMica w deep, unitCode true w deep, unitCode true w mid, unitCode true w mid, unitCode true w deep,
   unitCode true false (decide (d.pwr.state = .night ∨ d.pwr.state = .midnight)), 1,
   unitCode true (d.fab.ports.any fun c => c.2.inReset) deep, site 0, site 1, site 2, site 3, 0]

def tdiCode : TdiState → Nat
  | .unlocked => 0 | .locked => 1 | .run => 2 | .error => 3

def slotCode : SlotState → Nat
  | .free => 0 | .granted => 1 | .loading => 2 | .loaded => 3 | .armed => 4 | .aborted => 5

/-- A slot entry of block 7: STATE, FLAGS, TDI, MEM_BASE, MEM_SIZE, JOB_ID. -/
def Die.slotEntry (d : Die) (s : Nat) : List Nat :=
  let x := d.slot s
  let q := d.prot s
  [slotCode x.state, b2n q.protected_ + 2 * b2n x.conf + 4 * b2n q.departing + 8 * b2n q.sweeping, tdiCode q.tdi,
   x.memBase.toNat, x.memSize.toNat, x.jobId.toNat]

/-- Fields of blocks 3, 5, 6 and 7, but for ARB: its rows are burned within the event that confirms an image or enters full
service (R537, R586). -/
structure Report where
  staging  : List Nat
  digests  : List (BitVec 384)
  fuses    : List Nat
  debug    : List Nat
  units    : List Nat
  layout   : List Nat
  slots    : List (List Nat)
deriving DecidableEq, Repr

/-- The SEAL loop is intact: the last 32 samples matched (R529). -/
def Mgmt.sealIntact (m : Mgmt) : Bool := decide (32 ≤ m.sealRun)

def Die.report (d : Die) : Report :=
  { staging := [b2n d.updateStaged, b2n d.boot.unconfirmed, b2n d.stagedTo, b2n d.boot.runSlotB],
    digests := [d.stagedDigest, d.fuses.root],
    fuses := [d.variant.caps.toNat, d.fuses.lifecycle.toNat, d.fuses.rootRow],
    debug := [b2n d.sec.debugOpen, b2n d.mgmt.sealIntact, b2n d.mgmt.sealBroken, b2n d.mgmt.presence, d.glb.service.toNat,
              d.mgmt.unlocks.toNat],
    units := d.unitCodes,
    layout := [d.ctx.memLimit.toNat, d.sec.carveBase.toNat, d.sec.carveSize.toNat, d.kvp.poolBase.toNat, d.kvp.poolPages.toNat,
               d.kvp.ptBase.toNat, d.hbm.exclude.toNat, d.hbm.groupsInUse.length, d.glb.hbmPop.toNat],
    slots := (List.range 64).map d.slotEntry }

/-- GEN adds 1 once for an event that changes any field of a raw block, while firmware runs; it starts at 0 when firmware starts
(R537). -/
def Die.bump (old new : Die) : Die :=
  if old.boot.fwRuns && new.boot.fwRuns && decide (old.boot.starts = new.boot.starts) && decide (old.report ≠ new.report) then
    { new with mgmt := { new.mgmt with gen := new.mgmt.gen + 1 } }
  else new

/-! ### Votes and the sleep holdoff (R549 to R552, R556) -/

def voteAwake (b : Bool) : Nat := if b then 3 else 0

/-- FLN_STATUS.BUSY, MCA_STATUS.BUSY and PST_STATUS.BUSY (R320, R341). -/
def Flint.busy (x : Flint) : Bool := !x.flight.isEmpty
def Mica.busy (x : Mica) : Bool := !x.jobs.isEmpty || !x.input.isEmpty
def Post.busy (x : Post) : Bool := !x.jobs.isEmpty || !x.taps.isEmpty || !x.box.isEmpty || !x.boxOut.isEmpty

/-- Work of the management core that keeps the die awake (voter 4). -/
def Die.mgmtWorks (d : Die) : Bool :=
  !d.sec.scrubs.isEmpty || !d.sec.prologues.isEmpty ||
    (d.sec.prots.any fun c => c.2.init || c.2.sweeping || c.2.nfpBusy) ||
    (d.ctx.slots.any fun c => decide (c.2.busy = .load)) || d.mgmt.cmdSid.isSome || !d.err.toFlash.isEmpty ||
    d.boot.staging.isSome

/-- A segment holds issue: it has not issued its EXIT (R38, R47). -/
def Die.issueHeld (d : Die) : Bool :=
  match d.iss.run with
  | some r => decide (r.phase ≠ .drain)
  | none => false

/-- Voter 6. -/
def Die.voteCtx (d : Die) : Nat :=
  if d.issueHeld = true ∨ d.ctx.cal.pending.isSome = true ∨
      (d.ctx.cal.enable = true ∧ (d.ctx.slots.any fun c => decide (c.2.state = .armed)) = true) then 3
  else if d.ctx.slots.any fun c => decide (c.2.state = .loaded ∨ c.2.state = .armed ∨ c.2.state = .aborted) then 2
  else 0

/-- A row is inside an engine: one that has entered, or an INT16 row between its two entries (R123, R148). -/
def Engine.busy (e : Engine) : Bool := !e.flight.isEmpty || !e.pend16.isEmpty

/-- A row is inside engine n, or a lane group of its side acts. -/
def Die.engActs (d : Die) (n : Nat) : Bool :=
  (d.te n).busy || d.vec.landings.any fun l => decide (l.space % 16 = n + 1)

/-- Votes of voters 4 to 15, in order (R549). -/
def Die.dieVotes (d : Die) : List Nat :=
  [voteAwake d.mgmtWorks, voteAwake (decide (d.glb.service ≠ 2)), d.voteCtx, voteAwake (d.engActs 0), voteAwake (d.engActs 1),
   voteAwake d.fln.busy, voteAwake d.mca.busy, voteAwake d.pst.busy,
   voteAwake (d.xfr.threads.any fun c => c.2.running),
   voteAwake (!d.kvp.queue.isEmpty || d.xfr.threads.any fun c => c.2.pass.isSome),
   voteAwake ((d.fld.ports.any fun c => c.2.enable) || d.fld.loops.any fun c => c.2.enable),
   voteAwake (d.fab.ports.any fun c => decide (c.2.state = .training ∨ c.2.state = .up))]

/-- Votes of all sixteen voters. -/
def Die.votes (d : Die) : List Nat :=
  ((List.range 4).map fun i => bitsOf d.pwr.hostVotes.toNat (2 * i + 1) (2 * i)) ++ d.dieVotes

def Sleep.code : Sleep → Nat
  | .active => 0 | .dusk => 1 | .night => 2 | .midnight => 3

def Sleep.ofCode (n : Nat) : Sleep := if n = 0 then .active else if n = 1 then .dusk else if n = 2 then .night else .midnight

/-- PERMITTED: the deepest state that MAX_STATE and every vote allow (R550). -/
def Die.permitted (d : Die) : Nat := min d.pwr.maxState.toNat (3 - d.votes.foldl max 0)

/-- PWR_PENDING (R556). The wake request of Nightwatch is R419's; a HALTED Nightwatch has none (R423). -/
def Nwt.wake (n : Nwt) : Bool :=
  n.pkg != 3 && ((n.present && n.wakePres) || n.pend &&& n.wakeGest != 0)

def Die.wakePending (d : Die) : Nat :=
  b2n d.pwr.hostWake + 2 * b2n (!d.pwr.held.isEmpty) + 4 * b2n (d.fab.ports.any fun c => c.2.wakeHeld) + 8 * b2n d.nwt.wake +
    16 * b2n (if d.pwr.pinEdge then d.pwr.latched.getLsbD 4 else !d.pwr.wakeN) + 32 * b2n (d.pwr.latched.getLsbD 5) +
    64 * b2n d.mgmt.presence

/-- Enabled sources pending. -/
def Die.wakeEnabled (d : Die) : Nat := d.wakePending &&& d.pwr.wakeEn.toNat

/-- The conditions of R552, that must hold through the holdoff. -/
def Die.entryReady (d : Die) : Bool :=
  decide (d.pwr.state.code < d.permitted) && d.wakeEnabled == 0 && d.pwr.changing.isNone && d.pwr.entry.isNone && !d.pwr.exiting &&
    !d.pwr.tripped

/-- The time since which those conditions have held. -/
def Die.holdoffFrom (d : Die) : Die :=
  if d.entryReady then
    if d.pwr.okSince.isSome then d else { d with pwr := { d.pwr with okSince := some d.time.aon.toNat } }
  else if d.pwr.okSince.isSome then { d with pwr := { d.pwr with okSince := none } }
  else d

/-! ### What a request may have read (R257) -/

def Stores.read (st : Stores) (space a n : Nat) : List Byte :=
  if space = 1 then Mem.read st.ws0 a n else if space = 2 then Mem.read st.ws1 a n
  else if space = 3 then Mem.read st.lb a n else List.replicate n 0

/-- The bytes of a request's source, as the stores hold them. -/
def Stores.source (st : Stores) (r : Req) : List Byte :=
  if r.srcSpace = 0 then Mem.read st.hbm r.srcAddr r.len else st.read r.srcSpace r.srcAddr r.len

/-- Outstanding requests whose source has not been read. -/
def Xfr.unread (x : Xfr) : List Req := x.threads.flatMap fun c => c.2.out.filter fun r => r.data.isNone

/-- Where an event has changed the source of an outstanding request, what stood there before joins what its read may give. -/
def Die.readable (old new : Die) : Tab (List (List Byte)) :=
  new.xfr.unread.foldl (fun (t : Tab (List (List Byte))) r =>
    let seen := Tab.read [] old.seen r.serial
    let was := old.st.source r
    Tab.write [] t r.serial (if r.serial < old.xfr.issued ∧ was ≠ new.st.source r then seen ++ [was] else seen)) []

/-- What every event brings with it: GEN, the holdoff of sleep, and what outstanding requests may have read. -/
def Die.afterEvent (old new : Die) : Die :=
  let d := (Die.bump old new).holdoffFrom
  { d with seen := Die.readable old new }

/-- A command's effect is on the die; the queue stays, and the die answers. -/
def State.act (s : State) (f : Die → Die) : Host.Outcome State Fault Refusal :=
  .next { s with die := Die.afterEvent s.die (f s.die) }

/-! ### Class-0x2 messages (R427, R554, R556, R558, R576) -/

/-- The mainline is up though the die is in Dusk, or enters or leaves it. -/
def Die.inDusk (d : Die) : Bool :=
  match d.pwr.entry with
  | some (t, _) => decide (t = .dusk ∧ 12 ≤ d.seqAt)
  | none => decide (d.pwr.state = .dusk)

/-- The function a message comes from; 64 for a kind that names none. -/
def HostMsg.fn : HostMsg → Nat
  | .rd fn _ _ _ => fn | .wr fn _ _ _ => fn | .memRd fn _ _ _ _ => fn | .memWr fn _ _ _ => fn | .reserved _ => 64

/-- A message takes effect, behind what its function has waiting (R430). -/
def Die.inOrder (d : Die) (m : HostMsg) (f : Die → Die) : Die :=
  if d.ctx.held.any fun h => decide (h.fn = m.fn) then { d with ctx := { d.ctx with held := d.ctx.held ++ [m] } } else f d

/-- Messages reach the die and are processed: it is awake, and the mainline is up. -/
def Die.hears (d : Die) : Bool := d.awake && d.mainline

/-- A message is processed when the die is awake, and held as a wake in Dusk; in Night and Midnight no message may come, and
none comes while the mainline is down. -/
def Die.hostMsg (d : Die) (m : HostMsg) (f : Die → Die) : Die :=
  if d.hears then d.inOrder m f
  else if d.inDusk && d.mainline then { d with pwr := { d.pwr with held := d.pwr.held ++ [m] } }
  else d

/-- A write of a register by a function; in Dawn service only GLB takes one. -/
def Die.hostWr (d : Die) (fn off : Nat) (val : W32) (f : Die → Die) : Die :=
  d.hostMsg (.wr fn off 4 val) fun d => if d.hostOpen then f d else d

/-- A write by the physical function. -/
def Die.pfWr (d : Die) (fn off : Nat) (val : W32) (f : Die → Die) : Die :=
  d.hostWr fn off val fun d => if fn = 0 then f d else d

/-! ### Where registers lie (R25 and the regions' tables) -/

def offCtx (o : Nat) : Nat := 0x100000 + o
/-- The slot page of slot s (R449). -/
def offSlot (s o : Nat) : Nat := 0x110000 + 0x100 * s + o
/-- The command page of slot s (R379). -/
def offKv (s o : Nat) : Nat := 0x710000 + 0x40 * s + o
def offStream (m o : Nat) : Nat := 0x801000 + 0x40 * m + o
def offFld (o : Nat) : Nat := 0x900000 + o
def offFldPort (p o : Nat) : Nat := 0x900100 + 0x20 * p + o
def offLoop (n o : Nat) : Nat := 0x901000 + 0x40 * n + o
def offRxstat (n o : Nat) : Nat := 0x902000 + 0x40 * n + o
def offNwt (o : Nat) : Nat := 0xA00000 + o
def offSec (o : Nat) : Nat := 0xC00000 + o
/-- The page of slot s in SEC (R511). -/
def offSecSlot (s o : Nat) : Nat := 0xC10000 + 0x100 * s + o
def offPwr (o : Nat) : Nat := 0xD00000 + o
/-- Record i (R610). -/
def offRec (i o : Nat) : Nat := 0xE10000 + 0x20 * i + o

/-- A camera packet reaches ingress: its clocks run (R286). -/
def Die.ingRuns (d : Die) : Bool := d.hears

end Sys2Proof.Machine
end

