-- ==== Sys2Proof/Machine/Field.lean ====
section
/-! DEFINITION. Field ports, loops and deadline guards (R382 to R409, R111, R389, R390, R396). -/

namespace Sys2Proof.Machine

/-! ### Frames (R385 to R388) -/

def frSensor : Byte := 0x51
def frStatus : Byte := 0x53
def frCommand : Byte := 0xC1
def frHold : Byte := 0xC2
def frSafe : Byte := 0xC3
def frHeartbeat : Byte := 0xC4

def byteOf (l : List Byte) (i : Nat) : Byte := nth 0 l i

/-- CHAN of a frame. -/
def frameChan (f : List Byte) : Nat := (byteOf f 1).toNat % 16

/-- 64 bytes whose CRC is correct (R386). -/
def crcGood (f : List Byte) : Bool := decide (f.length = 64 ∧ leNat (f.drop 60) = crc32c (f.take 60))

/-- A frame as it goes out. -/
def buildFrame (type : Byte) (chan : Nat) (first : Bool) (seq : Nat) (time : W64) (payload : List Byte) : List Byte :=
  let body := [type, BitVec.ofNat 8 (chan % 16 + 16 * b2n first)] ++ leBytes 2 seq ++ leBytes 8 time.toNat ++
    (payload ++ List.replicate 48 0).take 48
  body ++ leBytes 4 (crc32c body)

/-! ### Rates (R383), in ns -/

def frameSlotNs (rate : Nat) : Nat :=
  if rate = 0 then 13200 else if rate = 1 then 6600 else if rate = 2 then 5280 else if rate = 3 then 3300 else 2640

def commaNs (rate : Nat) : Nat :=
  if rate = 0 then 200 else if rate = 1 then 100 else if rate = 2 then 80 else if rate = 3 then 50 else 40

/-! ### Loops: time, periods, state (R395, R400) -/

def Die.loopPresent (d : Die) (n : Nat) : Bool := decide (n < d.variant.loops)

/-- The present time on a time base of R395. -/
def Die.baseNow (d : Die) (ptp : Bool) : Int := if ptp then d.time.ns else (d.time.timebase.toNat : Int)

def Loop.start (l : Loop) (k : Int) : Int := (l.phase.toNat : Int) + k * l.period.toNat
def Loop.due (l : Loop) (k : Int) : Int := l.start k + l.deadline.toNat

/-- Number of the period that a time lies in. -/
def Loop.periodOf (l : Loop) (t : Int) : Int := (t - l.phase.toNat) / (l.period.toNat : Int)

/-- The first period whose start is at or after a time. -/
def Loop.firstFrom (l : Loop) (t : Int) : Int := -(((l.phase.toNat : Int) - t) / (l.period.toNat : Int))

def Loop.sensorMax (l : Loop) : Nat := wbits l.guard 23 16
def Loop.holdMax (l : Loop) : Nat := wbits l.guard 15 8
def Loop.guardSafe (l : Loop) : Bool := l.guard.getLsbD 0

/-- Sensor lost (R400). -/
def Loop.lost (l : Loop) : Bool :=
  l.haveSens && decide (0 < l.sensorMax ∧ (l.sensorMax : Int) ≤ l.k - 1 - l.sensorK)

/-- The loop is bound to no context. -/
def Loop.unbound (l : Loop) : Bool := l.slot == 0x3F

/-- The Dawn loop serves it (R402). -/
def Die.dawnServes (d : Die) (l : Loop) : Bool := l.dawn && d.fld.dawn && l.unbound

/-- Bound to a confidential context: its counters do not count. -/
def Die.loopConf (d : Die) (l : Loop) : Bool := !l.unbound && d.isConf l.slot.toNat

def Die.loopCount (d : Die) (n : Nat) (f : Loop → Loop) : Die := if d.loopConf (d.loop n) then d else d.updLoop n f

def Die.loopLate (d : Die) (n : Nat) : Die := d.loopCount n fun l => { l with late := satInc32 l.late 1 }

/-- FLD_LOOPn_STATUS.STATE (R409). -/
def Die.loopState (d : Die) (l : Loop) : Nat :=
  if !l.enable then 0 else if d.dawnServes l then 5 else if l.abortedCtx then 4 else if !l.haveSens then 1
  else if l.lost then 3 else 2

/-- SAFE payload (R401). -/
def Die.safePayload (d : Die) (n : Nat) : List Byte :=
  ((List.range 12).map fun w => leBytes 4 (Tab.read 0 d.fld.safe (12 * n + w)).toNat).flatten

/-! ### Queues to the wire -/

def Die.queueGuard (d : Die) (l : Loop) (f : TxFrame) : Die :=
  if l.msg then { d with fld := { d.fld with msgGuards := d.fld.msgGuards ++ [f] } }
  else d.updFport l.port.toNat fun p => { p with guards := p.guards ++ [f] }

def Die.queueCmd (d : Die) (l : Loop) (f : TxFrame) : Die :=
  if l.msg then { d with fld := { d.fld with msgCmds := d.fld.msgCmds ++ [f] } }
  else d.updFport l.port.toNat fun p => { p with cmds := p.cmds ++ [f] }

/-- A ready COMMAND that is not yet on the wire, of a loop that `p` takes, is discarded and counted late (R407): a loop without a context
sends guard frames alone (R394). -/
def Die.dropCommands (d : Die) (p : Nat → Bool) : Die :=
  let gone := (d.fld.msgCmds ++ (d.fld.ports.map fun c => c.2.cmds).flatten).filter fun f => p f.loop
  let x := (gone.foldl (fun (d : Die) f => d.loopLate f.loop) d).fld
  let keep (l : List TxFrame) : List TxFrame := l.filter fun f => !p f.loop
  { d with fld := { x with msgCmds := keep x.msgCmds, ports := Tab.mapVal {} (fun q : FldPort => { q with cmds := keep q.cmds }) x.ports } }

/-- Drop what a loop has waiting. -/
def Die.dropFrames (d : Die) (n : Nat) : Die :=
  let keep (l : List TxFrame) : List TxFrame := l.filter fun f => decide (f.loop ≠ n)
  { d with fld := { d.fld with
      msgGuards := keep d.fld.msgGuards, msgCmds := keep d.fld.msgCmds,
      ports := Tab.mapVal {} (fun p : FldPort => { p with guards := keep p.guards, cmds := keep p.cmds }) d.fld.ports } }

/-! ### The deadline guard (R394, R397, R400, R405) -/

/-- The guard sends SAFE without a miss. -/
def Die.guardSilentSafe (d : Die) (l : Loop) : Bool :=
  (l.unbound && !d.dawnServes l) || l.abortedCtx || !l.haveSens || l.lost

/-- The frame of a miss (R397); `c` counts this miss. -/
def Loop.missType (l : Loop) (c : Nat) : Byte :=
  if l.guardSafe || !l.sentCmd || (decide (l.holdMax ≠ 0) && decide (l.holdMax < c)) then frSafe else frHold

/-- Serve the deadline of period `k`. -/
def Die.serveDeadline (d : Die) (n : Nat) : Die :=
  let l := d.loop n
  let d := d.updLoop n fun l => { l with served := true, lastServed := some (l.due l.k) }
  if d.guardSilentSafe l then d.queueGuard l { loop := n, type := frSafe, payload := d.safePayload n }
  else if l.ready then d.updLoop n fun l => { l with consec := 0 }
  else
    let c := l.consec + 1
    let t := l.missType c
    let d := d.updLoop n fun l => { l with consec := c }
    let d := d.queueGuard l
      { loop := n, type := t, payload := if t = frSafe then d.safePayload n else l.lastCmd, miss := true }
    d.record (45 + n) 0x0B (if l.unbound then none else some l.slot.toNat) (wrapNat 32 l.k) t.toNat c 0

/-- The period in progress has ended: what it sent is what HEARTBEAT tells of it (R391). -/
def Loop.endPeriod (l : Loop) : Loop := { l with lastWasCmd := l.nowCmd, lastWasSafe := l.nowSafe, nowCmd := false, nowSafe := false }

/-- Begin period `k` (R395). -/
def Loop.beginPeriod (l : Loop) (k : Int) (ended : Bool) : Loop :=
  { (if ended then l.endPeriod else l) with k := k, inPeriod := true, served := false, ready := false, taken := false }

/-- The loop is to be in period `k` at time `t`: in progress when it has begun, else awaited. -/
def Loop.resumeAt (l : Loop) (k t : Int) : Loop :=
  if l.inPeriod ∧ k = l.k ∧ l.served = false then l
  else if l.start k ≤ t then l.beginPeriod k l.inPeriod
  else { (if l.inPeriod then l.endPeriod else l) with k := k, inPeriod := false, served := false, ready := false, taken := false }

/-- A step of the die time moved a PTP loop's base (R406). -/
def Die.loopStepped (d : Die) (n : Nat) (backward : Bool) : Die :=
  let l := d.loop n
  if l.enable && l.ptp then
    let t := d.baseNow true
    let next := if l.inPeriod && l.served then l.k + 1 else l.k
    let after := l.periodOf (t - l.deadline.toNat) + 1
    if !backward then
      if l.due next ≤ t then
        let d := if next = l.k then d else d.updLoop n fun l => l.beginPeriod next l.inPeriod
        let d := d.serveDeadline n
        d.updLoop n fun l => { (l.resumeAt (max (next + 1) after) t) with lastServed := some (l.due next) }
      else d
    else
      match l.lastServed with
      | some s => d.updLoop n fun l => l.resumeAt (l.firstFrom s) t
      | none => d
  else d

/-! ### Enable and disable (R394, R395, R403) -/

def Loop.setBind (l : Loop) (v : W32) : Loop :=
  { l with msg := v.getLsbD 30, ptp := v.getLsbD 29, port := BitVec.ofNat 2 (wbits v 25 24),
           chan := BitVec.ofNat 4 (wbits v 23 20), mch := BitVec.ofNat 8 (wbits v 19 12),
           slot := BitVec.ofNat 6 (wbits v 5 0) }

/-- Distance of two deadlines modulo PERIOD. -/
def deadlineGap (a b : Loop) : Nat :=
  let p := a.period.toNat
  let x := (a.phase.toNat + a.deadline.toNat) % p
  let y := (b.phase.toNat + b.deadline.toNat) % p
  let g := if x ≤ y then y - x else x - y
  min g (p - g)

/-- The checks of R394, in order: 0 when all pass. -/
def Die.loopCheck (d : Die) (n : Nat) (l : Loop) : Nat :=
  let per := l.period.toNat
  let ph := l.phase.toNat
  let dl := l.deadline.toNat
  let others := ((List.range 8).filter fun i => decide (i ≠ n) && (d.loop i).enable).map fun i => d.loop i
  let same := others.filter fun o => !o.msg && decide (o.port = l.port)
  let seg := if l.unbound then none else (d.slot l.slot.toNat).seg
  if per < 10000 ∨ 1000000000 < per ∨ per % 10 ≠ 0 ∨ ph % 10 ≠ 0 ∨ dl % 10 ≠ 0 ∨ per ≤ ph ∨ dl < 1000 ∨ per ≤ dl then 1
  else if l.msg = true ∧ (others.any fun o => o.msg && decide (o.mch = l.mch)) = true then 2
  else if l.chan = 0xF then 2
  else if l.msg = false ∧ ((d.fport l.port.toNat).enable = false ∨
      (same.any fun o => decide (o.chan = l.chan)) = true) then 2
  else if l.msg = false ∧ (same.any fun o => decide (o.period ≠ l.period) ||
      decide (deadlineGap o l < frameSlotNs (d.fport l.port.toNat).rate.toNat + 1000)) = true then 3
  else if l.unbound = false ∧ seg = none then 4
  else if l.tally.getLsbD 8 = true ∧ (l.unbound = true ∨ ((seg.map fun g => g.tallies).getD 0) ≤ wbits l.tally 7 0) then 4
  else if l.ptp = true ∧ d.time.valid = false then 5
  else 0

/-- A newly enabled loop. -/
def Loop.fresh (l : Loop) (now : Int) (aborted : Bool) : Loop :=
  { l with enable := true, cfgErr := 0, consec := 0, k := l.firstFrom now, inPeriod := false, served := false,
           lastServed := none, ready := false, taken := false, lastCmd := [], sentCmd := false, sensor := [], haveSens := false,
           sensorK := 0, abortedCtx := aborted, seq := 0, first := true, nowCmd := false, nowSafe := false,
           lastWasCmd := false, lastWasSafe := false }

def Die.loopOff (d : Die) (n : Nat) : Die :=
  (d.dropFrames n).updLoop n fun l => { l with enable := false, dawn := false, inPeriod := false, ready := false }

/-- Enable loop `n` as it is configured, or report the check that fails. -/
def Die.loopOn (d : Die) (n : Nat) : Die :=
  let l := d.loop n
  let c := d.loopCheck n l
  if c = 0 then
    d.updLoop n fun l => l.fresh (d.baseNow l.ptp) (!l.unbound && decide ((d.slot l.slot.toNat).state = .aborted))
  else d.updLoop n fun l => { l with enable := false, cfgErr := BitVec.ofNat 4 c }

/-- A write of FLD_LOOPn_BIND (R394). -/
def Die.bindWrite (d : Die) (n : Nat) (v : W32) : Die :=
  if !d.loopPresent n then d
  else if (d.loop n).enable then
    if v.getLsbD 31 then d else (d.loopOff n).updLoop n fun l => l.setBind v
  else
    let d := d.updLoop n fun l => l.setBind v
    if v.getLsbD 31 then d.loopOn n else d

/-! ### Ports (R382, R409) -/

def Die.fldNow (d : Die) : Nat := d.time.timebase.toNat

def hbInterval (us : BitVec 16) : Nat := (if us.toNat < 100 then 100 else us.toNat) * 1000

/-- A write of FLD_PORTp_CTRL. -/
def Die.portCtrlWrite (d : Die) (p : Nat) (v : W32) : Die :=
  let x := d.fport p
  let en := v.getLsbD 0
  let rate := wbits v 6 4
  if x.enable then
    if en then d
    else
      let d := d.updFport p fun x =>
        { x with enable := false, align := false, hbNext := none, hbDue := 0, guards := [], cmds := [] }
      forUpto 8 (fun n d =>
        if (d.loop n).enable && !(d.loop n).msg && decide ((d.loop n).port.toNat = p) then d.loopOff n else d) d
  else
    let d := d.updFport p fun x => { x with rate := if rate < 5 then BitVec.ofNat 3 rate else x.rate }
    if en then
      d.updFport p fun x =>
        { x with enable := true, align := false, hbSeq := 0, hbDue := 0, guards := [], cmds := [],
                 wireFree := d.fldNow + 2 * commaNs x.rate.toNat,
                 hbNext := if d.fld.hbPeriod = 0 then none else some (d.fldNow + hbInterval d.fld.hbPeriod) }
    else d

/-- A write of FLD_HB_PERIOD (R391). -/
def Die.hbPeriodWrite (d : Die) (v : W32) : Die :=
  let old := d.fld.hbPeriod
  let new := BitVec.ofNat 16 (wbits v 15 0)
  let d := { d with fld := { d.fld with hbPeriod := new } }
  forUpto 4 (fun p d => d.updFport p fun x =>
    if !x.enable then x
    else if new = 0 then { x with hbNext := none }
    else if old = 0 then { x with hbNext := some (d.fldNow + hbInterval new) }
    else x) d

/-! ### Reception (R387, R392, R393, R399) -/

/-- The enabled loop that a received frame's CHAN is bound to. -/
def Die.portLoop (d : Die) (p chan : Nat) : Option Nat :=
  firstBelow 8 fun n =>
    let l := d.loop n
    l.enable && !l.msg && decide (l.port.toNat = p ∧ l.chan.toNat = chan)

def Die.mchLoop (d : Die) (mch : Byte) : Option Nat :=
  firstBelow 8 fun n =>
    let l := d.loop n
    l.enable && l.msg && decide (l.mch = mch)

/-- The loop of a valid received frame of a type. -/
def Die.validFrame (d : Die) (p : Nat) (f : List Byte) : Option Nat :=
  if crcGood f && (byteOf f 0 == frSensor || byteOf f 0 == frStatus) then d.portLoop p (frameChan f) else none

def Die.rxErr (d : Die) (p : Nat) : Die := d.updFport p fun x => { x with rxErr := satInc32 x.rxErr 1 }

/-- The port receives frames: it is enabled and holds alignment (R382). -/
def Die.receives (d : Die) (p : Nat) : Bool := (d.fport p).enable && (d.fport p).align && d.fldRuns

/-- A valid SENSOR frame of loop `n` (R399, R400). -/
def Die.takeSensor (d : Die) (n : Nat) (f : List Byte) : Die :=
  let d := d.updLoop n fun l =>
    { l with sensor := f, haveSens := true, sensorK := l.periodOf (d.baseNow l.ptp) }
  let l := d.loop n
  if l.tally.getLsbD 8 && !l.unbound then d.logTallyAdd l.slot.toNat (wbits l.tally 7 0) 1 else d

/-- A valid STATUS frame of loop `n` (R392). -/
def Die.takeStatus (d : Die) (n : Nat) (f : List Byte) : Die :=
  d.updLoop n fun l => { l with rxstat := f, rxNew := true }

/-- A valid frame of one type on a port. -/
def Die.portRx (d : Die) (p : Nat) (type : Byte) (f : List Byte) (take : Nat → Die → Die) : Die :=
  if d.receives p && byteOf f 0 == type then
    match d.validFrame p f with
    | some n => take n (d.updFport p fun x => { x with rxFrames := satInc32 x.rxFrames 1 })
    | none => d
  else d

/-! ### Transmission (R388, R391, R398) -/

/-- The next deadline of a loop whose COMMAND is not ready. -/
def Die.pendingDue (d : Die) (l : Loop) : Int :=
  if l.inPeriod then
    if l.served || (l.ready && !d.guardSilentSafe l) then l.due (l.k + 1) else l.due l.k
  else l.due l.k

/-- Every pending deadline of other loops on the port lies after t + F. -/
def Die.mayStart (d : Die) (p : Nat) (own : Option Nat) : Bool :=
  let f := frameSlotNs (d.fport p).rate.toNat
  (List.range 8).all fun n =>
    let l := d.loop n
    !(l.enable && !l.msg && decide (l.port.toNat = p) && decide (own ≠ some n)) ||
      decide (d.baseNow l.ptp + f < d.pendingDue l)

/-- Bookkeeping of a loop's frame as it starts (R388, R397, R409). -/
def Loop.sent (l : Loop) (f : TxFrame) : Loop :=
  { l with seq := l.seq + 1, first := false,
           lastCmd := if f.type = frCommand then f.payload else l.lastCmd,
           sentCmd := l.sentCmd || f.type == frCommand,
           nowCmd := l.nowCmd || f.type == frCommand, nowSafe := l.nowSafe || f.type == frSafe }

def Loop.bytes (l : Loop) (f : TxFrame) (time : W64) : List Byte :=
  buildFrame f.type l.chan.toNat l.first l.seq.toNat time f.payload

def Die.loopSent (d : Die) (f : TxFrame) : Die :=
  let d := d.updLoop f.loop fun l => l.sent f
  let d := if f.type = frCommand then d.loopCount f.loop fun l => { l with commands := satInc32 l.commands 1 } else d
  if f.miss then d.loopCount f.loop fun l => { l with misses := satInc32 l.misses 1 } else d

/-- A frame takes the wire of port `p`. -/
def Die.portTx (d : Die) (p : Nat) (bytes : List Byte) : Die :=
  let free := d.fldNow + frameSlotNs (d.fport p).rate.toNat
  (d.updFport p fun x => { x with txFrames := satInc32 x.txFrames 1, wireFree := free }).send (.field p bytes)

/-- HEARTBEAT payload (R391). -/
def Die.heartbeat (d : Die) (p : Nat) : List Byte :=
  let bits (g : Loop → Bool) : Nat := (List.range 8).foldl (fun (v : Nat) n =>
    let l := d.loop n
    if l.enable && !l.msg && decide (l.port.toNat = p) && g l then v + 2 ^ n else v) 0
  [BitVec.ofNat 8 d.glb.service.toNat, BitVec.ofNat 8 (bits Loop.lastWasCmd), BitVec.ofNat 8 (bits Loop.lastWasSafe)]

/-- One frame of a field port while FLD runs (R563): guard, then COMMAND, then HEARTBEAT. -/
def Die.portStart (d : Die) (p : Nat) : Die :=
  let x := d.fport p
  if x.enable ∧ d.fldRuns = true ∧ x.wireFree ≤ d.fldNow then
    match x.guards, x.cmds with
    | f :: rest, _ =>
      let b := (d.loop f.loop).bytes f d.time.stamp
      ((d.updFport p fun x => { x with guards := rest }).loopSent f).portTx p b
    | [], f :: rest =>
      if d.mayStart p (some f.loop) then
        let b := (d.loop f.loop).bytes f d.time.stamp
        ((d.updFport p fun x => { x with cmds := rest }).loopSent f).portTx p b
      else d
    | [], [] =>
      if decide (0 < x.hbDue) && d.mayStart p none then
        let b := buildFrame frHeartbeat 0xF false x.hbSeq.toNat d.time.stamp (d.heartbeat p)
        (d.updFport p fun x => { x with hbDue := x.hbDue - 1, hbSeq := x.hbSeq + 1 }).portTx p b
      else d
  else d

/-- A frame leaves as a loop message, for one of the class's credits. -/
def Die.msgTx (d : Die) (f : TxFrame) : Die :=
  let l := d.loop f.loop
  (Die.loopSent { d with fld := { d.fld with msgCredits := d.fld.msgCredits - 1 } } f).send (.loopMsg l.mch (l.bytes f d.time.stamp))

/-- One loop message, when a class-0x3 credit is held, FLD runs and the mainline is up: a guard frame ahead of any other (R393). -/
def Die.msgStart (d : Die) : Die :=
  if d.fld.msgCredits = 0 ∨ d.fldRuns = false ∨ d.mainline = false then d
  else
    match d.fld.msgGuards, d.fld.msgCmds with
    | f :: rest, _ => Die.msgTx { d with fld := { d.fld with msgGuards := rest } } f
    | [], f :: rest => Die.msgTx { d with fld := { d.fld with msgCmds := rest } } f
    | [], [] => d

/-- The I/O die returns class-0x3 credits, of the four there are. -/
def Die.msgCreditsBack (d : Die) (n : Nat) : Die := { d with fld := { d.fld with msgCredits := min 4 (d.fld.msgCredits + n) } }

/-- A loop message waits and may go: it goes ahead of the other classes of its module (R393, R456). -/
def Die.msgReady (d : Die) : Bool := decide (0 < d.fld.msgCredits) && (!d.fld.msgGuards.isEmpty || !d.fld.msgCmds.isEmpty)

/-! ### COMMAND arrival (R111, R389, R390, R396, R400, R405) -/

/-- FLD_FOREIGN (R390). -/
def Die.foreign (d : Die) : Die := { d with fld := { d.fld with foreign := satInc32 d.fld.foreign 1 } }

/-- A block from `slot` (0x40 for the Dawn loop) reaches the loop. -/
def Die.arrive (d : Die) (n slot : Nat) (block : List Byte) : Die :=
  let l := d.loop n
  let own := if slot = 0x40 then d.dawnServes l else !l.unbound && decide (l.slot.toNat = slot)
  if !(l.enable && own) then d.foreign
  else if l.abortedCtx || !l.inPeriod || !l.haveSens || l.lost || l.served || l.taken ||
      decide (l.due l.k ≤ d.baseNow l.ptp) then d.loopLate n
  else
    (d.updLoop n fun l => { l with taken := true, ready := true }).queueCmd l
      { loop := n, type := frCommand, payload := (block.drop 12).take 48 }

/-! ### The Dawn loop's controller (R402) -/

/-- Its weights, as working store 0 holds them. -/
def Die.dawnWeightBytes (d : Die) : List Byte :=
  match d.boot.conf with
  | some c => Mem.read d.st.ws0 0 c.weights.length
  | none => []

/-- The latest SENSOR frame of each loop that it serves. -/
def Die.dawnFrames (d : Die) : List (Nat × List Byte) :=
  ((List.range 8).filter fun n => (d.loop n).enable && d.dawnServes (d.loop n)).map fun n => (n, (d.loop n).sensor)

/-- The loop whose period is the controller's: the lowest that it serves. DESIGN CHOICE (log entry 36). -/
def Die.dawnLead (d : Die) (n : Nat) : Bool :=
  match d.dawnFrames with
  | f :: _ => decide (f.1 = n)
  | [] => false

/-- The time of a model in ns: 205 Flint cycles at 0.8 GHz for each tile of 2 KiB. -/
def dawnTimeNs (bytes : Nat) : Nat := 205 * ceilDiv bytes 2048 * 5 / 4

/-- One run of the controller (R402): Flint takes 64 weight rows and 8 activation rows for each tile of 4,096 INT4 weights, and its
plane holds the last tile, widened to INT8. DESIGN CHOICE (log entry 36): the weights of a tile stand in row order, the lower
nibble first. -/
def Die.dawnRun (d : Die) : Die :=
  let w := d.dawnWeightBytes
  let n := ceilDiv w.length 2048
  if n = 0 then d
  else
    let wide (v : Nat) : Byte := BitVec.ofInt 8 (sext 4 v)
    let tile := (w.drop (2048 * (n - 1)) ++ List.replicate 2048 0).take 2048
    let codes := tile.flatMap fun b => [wide (b.toNat % 16), wide (b.toNat / 16)]
    { d with fln := { d.fln with ffmt := 0, rows := (List.range 64).map fun i => (i, (codes.drop (64 * i)).take 64), next := 64,
                                 rowsCnt := inc64 d.fln.rowsCnt (8 * n), wrows := inc64 d.fln.wrows (64 * n) } }

/-! ### The commands -/

/-- SENSOR (R399): a valid SENSOR frame on a port. -/
def execSensor (p : Fin 4) (frame : List Byte) (s : State) : Host.Outcome State Fault Refusal :=
  s.act fun d => d.portRx p.val frSensor frame fun n d => d.takeSensor n frame

/-- STATUS (R392): a valid STATUS frame on a port. -/
def execStatus (p : Fin 4) (frame : List Byte) (s : State) : Host.Outcome State Fault Refusal :=
  s.act fun d => d.portRx p.val frStatus frame fun n d => d.takeStatus n frame

/-- LOOP_MESSAGE (R393). -/
def execLoopMessage (mch : Byte) (frame : List Byte) (s : State) : Host.Outcome State Fault Refusal :=
  s.act fun d =>
    let bad : Die := { d with fld := { d.fld with msgRxErr := satInc32 d.fld.msgRxErr 1 } }
    if !d.fldRuns || !d.mainline then d
    else if crcGood frame then
      match d.mchLoop mch with
      | some n =>
        if byteOf frame 0 = frSensor then d.takeSensor n frame
        else if byteOf frame 0 = frStatus then d.takeStatus n frame
        else bad
      | none => bad
    else bad

/-- FIELD_FRAME_DISCARD (R387): a received frame that is not valid. -/
def execFieldFrameDiscard (p : Fin 4) (frame : List Byte) (s : State) : Host.Outcome State Fault Refusal :=
  s.act fun d => if d.receives p.val && (d.validFrame p.val frame).isNone then d.rxErr p.val else d

/-- FRAME_ABORT (R382): a comma or code violation inside a frame. -/
def execFrameAbort (p : Fin 4) (s : State) : Host.Outcome State Fault Refusal :=
  s.act fun d => if d.receives p.val then d.rxErr p.val else d

/-- ALIGN_GAIN (R382): the third consecutive comma. -/
def execAlignGain (p : Fin 4) (s : State) : Host.Outcome State Fault Refusal :=
  s.act fun d => if (d.fport p.val).enable then d.updFport p.val fun x => { x with align := true } else d

/-- ALIGN_LOSS (R382): a frame in progress is aborted and counted. -/
def execAlignLoss (p : Fin 4) (inFrame : Bool) (s : State) : Host.Outcome State Fault Refusal :=
  s.act fun d =>
    if d.receives p.val then
      let d := d.updFport p.val fun x => { x with align := false }
      if inFrame then d.rxErr p.val else d
    else d

/-- FLD_PORT_ENABLE (R382): a write of FLD_PORTp_CTRL that sets ENABLE. -/
def execFldPortEnable (fn : Fin 64) (p : Fin 4) (val : W32) (s : State) : Host.Outcome State Fault Refusal :=
  s.act fun d => if val.getLsbD 0 then d.pfWr fn.val (offFldPort p.val 0) val fun d => d.portCtrlWrite p.val val else d

/-- FLD_PORT_DISABLE (R409): a write that clears ENABLE disables the port's loops. -/
def execFldPortDisable (fn : Fin 64) (p : Fin 4) (val : W32) (s : State) : Host.Outcome State Fault Refusal :=
  s.act fun d => if val.getLsbD 0 then d else d.pfWr fn.val (offFldPort p.val 0) val fun d => d.portCtrlWrite p.val val

/-- LOOP_ENABLE (R394): a write of FLD_LOOPn_BIND that sets ENABLE. -/
def execLoopEnable (fn : Fin 64) (n : Fin 8) (val : W32) (s : State) : Host.Outcome State Fault Refusal :=
  s.act fun d => if val.getLsbD 31 then d.pfWr fn.val (offLoop n.val 0) val fun d => d.bindWrite n.val val else d

/-- LOOP_DISABLE (R403): a write that clears ENABLE. -/
def execLoopDisable (fn : Fin 64) (n : Fin 8) (val : W32) (s : State) : Host.Outcome State Fault Refusal :=
  s.act fun d => if val.getLsbD 31 then d else d.pfWr fn.val (offLoop n.val 0) val fun d => d.bindWrite n.val val

/-- COMMAND_ARRIVAL (R396): the oldest block of the loop's hand-off FIFO reaches it. -/
def execCommandArrival (n : Fin 8) (s : State) : Host.Outcome State Fault Refusal :=
  s.act fun d =>
    match (d.loop n.val).fifo with
    | [] => d
    | b :: rest => (d.updLoop n.val fun l => { l with fifo := rest }).arrive n.val b.1 b.2

/-- PERIOD_START (R395): the loop's next period begins. In each period of its first loop the Dawn loop runs its controller, once for
all the loops it serves (R402), and each of them has its COMMAND handed over in its own period. -/
def execPeriodStart (n : Fin 8) (s : State) : Host.Outcome State Fault Refusal :=
  s.act fun d =>
    let l := d.loop n.val
    let k := if l.inPeriod then l.k + 1 else l.k
    if l.enable && d.fldRuns && (!l.inPeriod || l.served) && decide (l.start k ≤ d.baseNow l.ptp) then
      let d := d.updLoop n.val fun l => l.beginPeriod k l.inPeriod
      if d.dawnServes l then
        (if d.dawnLead n.val then d.dawnRun else d).updLoop n.val fun l => { l with fifo := l.fifo ++ [(0x40, Config.dawnBlock d.dawnWeightBytes d.dawnFrames n.val)] }
      else d
    else d

/-- DEADLINE (R397): the guard acts at the deadline of the period in progress. -/
def execDeadline (n : Fin 8) (s : State) : Host.Outcome State Fault Refusal :=
  s.act fun d =>
    let l := d.loop n.val
    if l.enable && d.fldRuns && l.inPeriod && !l.served && decide (l.due l.k ≤ d.baseNow l.ptp) then d.serveDeadline n.val else d

/-- TX_FRAME_START (R393, R398): a transmitter starts the frame it may send; for the loop messages `credits` have come back
before it. -/
def execTxFrameStart (p : TxPort) (s : State) (credits : Nat := 0) : Host.Outcome State Fault Refusal :=
  s.act fun d => if p.val < 4 then d.portStart p.val else (d.msgCreditsBack credits).msgStart

/-- HEARTBEAT_DUE (R391). -/
def execHeartbeatDue (p : Fin 4) (s : State) : Host.Outcome State Fault Refusal :=
  s.act fun d =>
    match (d.fport p.val).hbNext with
    | some t =>
      if t ≤ d.fldNow then
        d.updFport p.val fun x => { x with hbDue := x.hbDue + 1, hbNext := if d.fld.hbPeriod = 0 then none else some (t + hbInterval d.fld.hbPeriod) }
      else d
    | none => d

/-- HB_PERIOD_WRITE (R391). -/
def execHbPeriodWrite (fn : Fin 64) (val : W32) (s : State) : Host.Outcome State Fault Refusal :=
  s.act fun d => d.pfWr fn.val (offFld 8) val fun d => d.hbPeriodWrite val

end Sys2Proof.Machine
end

