-- ==== Sys2Proof/Machine/Float.lean ====
section
/-! DEFINITION. Number formats and narrowing (R191 to R197), on exact sign-magnitude dyadic values, with the exact
operations the units narrow from. -/

namespace Sys2Proof

/-- The formats of R191 but E8M0. -/
inductive Fmt where
  | int4 | fp4 | e4m3 | e5m2 | int8 | bf16 | int16 | fp32 | int32
deriving DecidableEq, Repr

/-- EFMT codes (R294); the codes of R89 are the first seven. -/
def Fmt.ofCode : Nat → Option Fmt
  | 0 => some .int4 | 1 => some .fp4 | 2 => some .e4m3 | 3 => some .e5m2 | 4 => some .int8
  | 5 => some .bf16 | 6 => some .int16 | 8 => some .fp32 | 9 => some .int32
  | _ => none

def Fmt.bits : Fmt → Nat
  | .int4 => 4 | .fp4 => 4 | .e4m3 => 8 | .e5m2 => 8 | .int8 => 8 | .bf16 => 16 | .int16 => 16 | .fp32 => 32 | .int32 => 32

def Fmt.isInt : Fmt → Bool
  | .int4 => true | .int8 => true | .int16 => true | .int32 => true
  | .fp4 => false | .e4m3 => false | .e5m2 => false | .bf16 => false | .fp32 => false

/-- Mantissa bits and bias of a floating format (R191). -/
def Fmt.mant : Fmt → Nat
  | .fp4 => 1 | .e4m3 => 3 | .e5m2 => 2 | .bf16 => 7 | .fp32 => 23
  | .int4 => 0 | .int8 => 0 | .int16 => 0 | .int32 => 0

def Fmt.bias : Fmt → Nat
  | .fp4 => 1 | .e4m3 => 7 | .e5m2 => 15 | .bf16 => 127 | .fp32 => 127
  | .int4 => 0 | .int8 => 0 | .int16 => 0 | .int32 => 0

/-- A value: NaN, a signed infinity, or (−1)^neg · m · 2^e. -/
inductive FVal where
  | nan
  | inf (neg : Bool)
  | fin (neg : Bool) (m : Nat) (e : Int)
deriving DecidableEq, Repr

namespace FVal

def zero : FVal := .fin false 0 0

def ofInt (z : Int) : FVal := .fin (decide (z < 0)) z.natAbs 0

def ofNat (n : Nat) : FVal := .fin false n 0

def isNan : FVal → Bool
  | .nan => true
  | _ => false

def isInf : FVal → Bool
  | .inf _ => true
  | _ => false

def isZero : FVal → Bool
  | .fin _ m _ => m == 0
  | _ => false

def isFin : FVal → Bool
  | .fin _ _ _ => true
  | _ => false

def sign : FVal → Bool
  | .nan => false
  | .inf n => n
  | .fin n _ _ => n

def neg : FVal → FVal
  | .nan => .nan
  | .inf n => .inf (!n)
  | .fin n m e => .fin (!n) m e

def abs : FVal → FVal
  | .nan => .nan
  | .inf _ => .inf false
  | .fin _ m e => .fin false m e

/-- m · 2^e as an integer count of 2^q, for q ≤ e. -/
def scaled (neg : Bool) (m : Nat) (e q : Int) : Int :=
  let v : Int := (m * 2 ^ (e - q).toNat : Nat)
  if neg then -v else v

/-- Exact product (R131: an infinity times zero is NaN). -/
def mul : FVal → FVal → FVal
  | .nan, _ => .nan
  | _, .nan => .nan
  | .inf a, .inf b => .inf (a != b)
  | .inf a, .fin b m _ => if m = 0 then .nan else .inf (a != b)
  | .fin a m _, .inf b => if m = 0 then .nan else .inf (a != b)
  | .fin a m e, .fin b n f => .fin (a != b) (m * n) (e + f)

/-- Exact sum; an exact zero is +0 unless both operands are −0. -/
def add : FVal → FVal → FVal
  | .nan, _ => .nan
  | _, .nan => .nan
  | .inf a, .inf b => if a = b then .inf a else .nan
  | .inf a, .fin _ _ _ => .inf a
  | .fin _ _ _, .inf b => .inf b
  | .fin a m e, .fin b n f =>
    if m = 0 ∧ n = 0 then .fin (a && b) 0 0
    else if m = 0 then .fin b n f
    else if n = 0 then .fin a m e
    else
      let q := min e f
      let z := scaled a m e q + scaled b n f q
      .fin (decide (z < 0)) z.natAbs (if z = 0 then 0 else q)

def sub (a b : FVal) : FVal := add a b.neg

/-- Multiply by 2^k. -/
def shift (k : Int) : FVal → FVal
  | .nan => .nan
  | .inf a => .inf a
  | .fin a m e => .fin a m (if m = 0 then 0 else e + k)

/-- Strict order on numbers; false when either is NaN. −0 equals +0. -/
def lt : FVal → FVal → Bool
  | .nan, _ => false
  | _, .nan => false
  | .inf a, .inf b => a && !b
  | .inf a, .fin _ _ _ => a
  | .fin _ _ _, .inf b => !b
  | .fin a m e, .fin b n f =>
    let q := min e f
    decide (scaled a m e q < scaled b n f q)

def le (a b : FVal) : Bool := !a.isNan && !b.isNan && !(lt b a)

def min2 (a b : FVal) : FVal := if lt b a then b else a
def max2 (a b : FVal) : FVal := if lt a b then b else a

/-- ⌊log2│v│⌋ of a finite non-zero value. -/
def lead : FVal → Int
  | .fin _ m e => (Nat.log2 m : Int) + e
  | _ => 0

end FVal

def FVal.toInt : FVal → Int
  | .fin n m e => FVal.scaled n m e 0
  | _ => 0

/-! ### The formats on the array (R120) -/

/-- Reduction length, tokens and outputs of a format on an engine (R120). -/
def Fmt.kLen : Fmt → Nat
  | .int4 => 256 | .fp4 => 256 | .int8 => 256 | .e4m3 => 128 | .e5m2 => 128 | .bf16 => 128 | .int16 => 128
  | .fp32 => 0 | .int32 => 0

def Fmt.tokens : Fmt → Nat
  | .int4 => 2 | .fp4 => 2 | .e4m3 => 2 | .e5m2 => 2 | .int8 => 1 | .bf16 => 1 | .int16 => 1 | .fp32 => 1 | .int32 => 1

def Fmt.outputs : Fmt → Nat
  | .int4 => 512 | .fp4 => 512 | .e4m3 => 512 | .e5m2 => 512 | .int8 => 256 | .bf16 => 256 | .int16 => 256
  | .fp32 => 0 | .int32 => 0

/-- Bytes of a walk row that a format's token uses (R301). -/
def Fmt.tokenBytes : Fmt → Nat
  | .int8 => 256 | .int4 => 128 | .fp4 => 128 | .e4m3 => 128 | .e5m2 => 128 | .bf16 => 256 | .int16 => 256
  | .fp32 => 0 | .int32 => 0

/-- Formats that may be block-scaled (R198). -/
def Fmt.blockable (f : Fmt) : Bool := decide (f = .int4 ∨ f = .fp4 ∨ f = .e4m3 ∨ f = .e5m2 ∨ f = .int8)

/-! ### Rounding -/

/-- m · 2^e in units of 2^q, round-half-to-even. -/
def roundRne (m : Nat) (e q : Int) : Nat :=
  if q ≤ e then m * 2 ^ (e - q).toNat
  else
    let k := (q - e).toNat
    let hi := m >>> k
    let r := m % 2 ^ k
    let half := 2 ^ (k - 1)
    if r < half then hi
    else if half < r then hi + 1
    else if hi % 2 = 0 then hi else hi + 1

/-- m · 2^e in units of 2^q, rounded up in magnitude. -/
def roundAway (m : Nat) (e q : Int) : Nat :=
  if q ≤ e then m * 2 ^ (e - q).toNat
  else
    let k := (q - e).toNat
    if m % 2 ^ k = 0 then m >>> k else (m >>> k) + 1

/-- m · 2^e in units of 2^q, rounded down in magnitude. -/
def roundTrunc (m : Nat) (e q : Int) : Nat :=
  if q ≤ e then m * 2 ^ (e - q).toNat else m >>> (q - e).toNat

/-- The unit in the last place that a value of this magnitude has in a floating format, as if its exponent had no upper
limit. -/
def Fmt.quantum (f : Fmt) (m : Nat) (e : Int) : Int :=
  max ((Nat.log2 m : Int) + e) (1 - (f.bias : Int)) - (f.mant : Int)

/-- Largest exponent field of a finite value. -/
def Fmt.topExp : Fmt → Nat
  | .fp4 => 3 | .e4m3 => 15 | .e5m2 => 30 | .bf16 => 254 | .fp32 => 254
  | .int4 => 0 | .int8 => 0 | .int16 => 0 | .int32 => 0

/-- The code of the largest finite value, without sign. -/
def Fmt.maxCode : Fmt → Nat
  | .fp4 => 0x7 | .e4m3 => 0x7E | .e5m2 => 0x7B | .bf16 => 0x7F7F | .fp32 => 0x7F7FFFFF
  | .int4 => 7 | .int8 => 127 | .int16 => 32767 | .int32 => 2147483647

def Fmt.nanCode : Fmt → Nat
  | .fp4 => 0 | .e4m3 => 0x7F | .e5m2 => 0x7F | .bf16 => 0x7FC0 | .fp32 => 0x7FC00000
  | .int4 => 0 | .int8 => 0 | .int16 => 0 | .int32 => 0

/-- Infinity's code without sign, for the two formats that overflow to it (R195). -/
def Fmt.infCode : Fmt → Option Nat
  | .bf16 => some 0x7F80 | .fp32 => some 0x7F800000
  | .fp4 => none | .e4m3 => none | .e5m2 => none
  | .int4 => none | .int8 => none | .int16 => none | .int32 => none

def Fmt.signBit (f : Fmt) : Nat := 2 ^ (f.bits - 1)

/-- What narrowing gives: the code, whether a saturation counts, whether NAN_SEEN is set (R195, R197). -/
structure Narrowed where
  code : Nat
  sat  : Bool := false
  nan  : Bool := false
deriving DecidableEq, Repr

/-- Overflow in a floating format. -/
def Fmt.overflow (f : Fmt) (neg : Bool) : Narrowed :=
  let s := if neg then f.signBit else 0
  match f.infCode with
  | some c => { code := s + c }
  | none => { code := s + f.maxCode, sat := true }

/-- Code of r · 2^q in a floating format, r at most 2^(mant+1), without sign; `none` when above the largest finite. -/
def Fmt.encodeMag (f : Fmt) (r : Nat) (q : Int) : Option Nat :=
  if r = 0 then some 0
  else
    let top := 2 ^ (f.mant + 1)
    let (r, q) := if top ≤ r then (r / 2, q + 1) else (r, q)
    if r < 2 ^ f.mant then some r
    else
      let ex := (q + (f.mant : Int) + (f.bias : Int)).toNat
      let c := ex * 2 ^ f.mant + (r - 2 ^ f.mant)
      if f.maxCode < c then none else some c

/-- Narrowing to an integer format: the nearest end of the range saturates. -/
def narrowInt (f : Fmt) : FVal → Narrowed
  | .nan => { code := 0, nan := true }
  | .inf n => { code := if n then f.signBit else f.maxCode, sat := true }
  | .fin n m e =>
    let r := roundRne m e 0
    if n then (if f.signBit < r then { code := f.signBit, sat := true } else { code := (2 ^ f.bits - r) % 2 ^ f.bits })
    else if f.maxCode < r then { code := f.maxCode, sat := true } else { code := r }

/-- Narrowing to a floating format. -/
def narrowFloat (f : Fmt) : FVal → Narrowed
  | .nan => { code := f.nanCode, nan := decide (f = .fp4) }
  | .inf n => f.overflow n
  | .fin n m e =>
    let s := if n then f.signBit else 0
    if m = 0 then { code := s }
    else
      let q := f.quantum m e
      match f.encodeMag (roundRne m e q) q with
      | some c => { code := s + c }
      | none => f.overflow n

/-- Narrowing (R194 to R196). -/
def narrow (f : Fmt) (v : FVal) : Narrowed := if f.isInt then narrowInt f v else narrowFloat f v

/-- The value of a code (R191). -/
def Fmt.decode (f : Fmt) (code : Nat) : FVal :=
  let c := code % 2 ^ f.bits
  if f.isInt then FVal.ofInt (sext f.bits c)
  else
    let neg := decide (f.signBit ≤ c)
    let mag := c % f.signBit
    let ex := mag / 2 ^ f.mant
    let mt := mag % 2 ^ f.mant
    let q : Int := 1 - (f.bias : Int) - (f.mant : Int)
    let special : Option FVal :=
      if f = .e4m3 then (if mag = 0x7F then some .nan else none)
      else if f = .fp4 then none
      else if f.topExp < ex then (if mt = 0 then some (.inf neg) else some .nan)
      else none
    match special with
    | some v => v
    | none => if ex = 0 then .fin neg mt q else .fin neg (2 ^ f.mant + mt) (q + (ex : Int) - 1)

def dec32 (code : Nat) : FVal := Fmt.decode .fp32 code
def enc32 (v : FVal) : Nat := (narrow .fp32 v).code

/-- A value rounded once to FP32. -/
def rne32 (v : FVal) : FVal := dec32 (enc32 v)

/-- FP32 addition, round-half-to-even. -/
def addRne32 (a b : FVal) : FVal := rne32 (a.add b)

/-- FP32 toward +∞ (R157, R175): up in magnitude above zero, down in magnitude below, where no magnitude above the largest
finite one is reached. -/
def up32 (v : FVal) : FVal :=
  match v with
  | .fin neg m e =>
    if m = 0 then v
    else
      let q := Fmt.quantum .fp32 m e
      let r := if neg then roundTrunc m e q else roundAway m e q
      match Fmt.encodeMag .fp32 r q with
      | some _ => .fin neg r q
      | none => if neg then dec32 (Fmt.signBit .fp32 + Fmt.maxCode .fp32) else .inf false
  | _ => v

/-- Saturation to INT32; true when it saturated. -/
def sat32 (z : Int) : Int × Bool :=
  if 2147483647 < z then (2147483647, true)
  else if z < -2147483648 then (-2147483648, true)
  else (z, false)

/-! ### Quotient, square root, exponential -/

/-- A quotient with enough bits, and a sticky bit below them, to round once from. -/
def ratio (n d : Nat) : FVal :=
  if d = 0 then .nan
  else if n = 0 then .zero
  else
    let k := 64 + Nat.log2 d
    let a := n * 2 ^ k
    .fin false (2 * (a / d) + (if a % d = 0 then 0 else 1)) (-(k : Int) - 1)

/-- v ÷ n with enough bits to round once. -/
def FVal.divNat (v : FVal) (n : Nat) : FVal :=
  match v with
  | .fin neg m e =>
    match ratio m n with
    | .fin _ q k => .fin neg q (if q = 0 then 0 else k + e)
    | x => x
  | x => x

/-- ⌊√n⌋, bit by bit from bit `i` down. -/
def isqrtFrom (n : Nat) : Nat → Nat → Nat
  | 0, r => r
  | i + 1, r =>
    let r' := r + 2 ^ i
    isqrtFrom n i (if r' * r' ≤ n then r' else r)

def isqrt (n : Nat) : Nat := isqrtFrom n (Nat.log2 n / 2 + 1) 0

/-- 1 ÷ v, exact to far below an FP32 ulp with a sticky bit, for a finite non-zero v. -/
def recipExact : FVal → FVal
  | .fin neg m e =>
    match ratio 1 m with
    | .fin _ q k => .fin neg q (k - e)
    | v => v
  | v => v

/-- 1 ÷ √v for a finite positive v. -/
def rsqrtExact : FVal → FVal
  | .fin _ m e =>
    let (m, e) := if e % 2 = 0 then (m, e) else (2 * m, e - 1)
    let t := 64 + Nat.log2 m
    let n := 2 ^ (2 * t) / m
    let r := isqrt n
    .fin false (2 * r + (if r * r * m = 2 ^ (2 * t) then 0 else 1)) (-(t : Int) - e / 2 - 1)
  | v => v

/-- Fixed-point scale of the exponential and the trigonometric series: 160 fraction bits. -/
def fxOne : Nat := 2 ^ 160

/-- ln 2 and π with 160 fraction bits. -/
def fxLn2 : Nat := 1013035739299659071135698605846798551586536899366
def fxPi : Nat := 4591442807048218921384805199743311128454155024418

/-- e^x for 0 ≤ x < 1 in fixed point: the Taylor series of `n` terms. -/
def fxExp (x : Nat) : Nat :=
  ((List.range 44).foldl (fun (acc : Nat × Nat) i =>
    let term := acc.2 * x / fxOne / (i + 1)
    (acc.1 + term, term)) (fxOne, fxOne)).1

/-- e^v to well below an FP32 ulp, for finite v of magnitude below 256. -/
def expApprox : FVal → FVal
  | .fin neg m e =>
    let t : Nat := roundTrunc m e (-160)
    let z : Int := if neg then -(t : Int) else t
    let k : Int := z / (fxLn2 : Int)
    let r : Nat := (z - k * (fxLn2 : Int)).toNat
    .fin false (fxExp r) (k - 160)
  | v => v

/-- │v│ < 2^k. -/
def FVal.below (k : Int) (v : FVal) : Bool := FVal.lt v.abs (.fin false 1 k)

/-- `pick` where it lies within `n` ulp of the exact value `x` in format `f`, else `x` narrowed. The ulp is that of the
result format at `x` (R141). -/
def withinUlp (f : Fmt) (n : Nat) (x : FVal) (pick : Nat) : Nat :=
  let best := (narrow f x).code
  match x, f.decode pick with
  | .fin a m e, .fin b p q =>
    let err := ((FVal.fin a m e).sub (.fin b p q)).abs
    if FVal.le err (.fin false n (f.quantum m e)) && (a == b) then pick % 2 ^ f.bits else best
  | _, _ => best

end Sys2Proof
end

