-- ==== Sys2Proof/Machine/Operands.lean ====
section
/-! DEFINITION. Operands of slot actions: the bundle's fields (R79 to R111), granted access to the on-die stores (R58,
R434), address-generator programs and their walks and cursors (R292 to R311). -/

namespace Sys2Proof.Machine

/-! ### The bundle (R79 to R82) -/

def slotWord (b : BitVec 512) (k : Nat) : Nat := bitsOf b.toNat (32 + 64 * k + 63) (32 + 64 * k)
def bundleExt (b : BitVec 512) : Nat := bitsOf b.toNat 511 480
def bundleHold (b : BitVec 512) : Nat := bitsOf b.toNat 11 0
def bundleLoopOp (b : BitVec 512) : Nat := bitsOf b.toNat 13 12
def bundleLoopDepth (b : BitVec 512) : Nat := bitsOf b.toNat 16 14
def bundleWait (b : BitVec 512) : Bool := bit b.toNat 17
def bundleConsume (b : BitVec 512) : Bool := bit b.toNat 18
def bundleTally (b : BitVec 512) : Nat := bitsOf b.toNat 26 19
def bundleTarget (b : BitVec 512) : Nat := bitsOf b.toNat 503 480

/-- Opcode field of slot `k`'s word: [63:58], but [62:57] in slot 4 (R103). -/
def slotOp (k w : Nat) : Nat := if k = 4 then bitsOf w 62 57 else bitsOf w 63 58

/-- Slot 4's unit: 1 for Mica. -/
def slot4Mica (w : Nat) : Bool := bit w 63

/-- The opcode is one of the listed operations of slot `k`; a reserved one acts as the no-operation (R83). -/
def slotListed (k w : Nat) : Bool :=
  let op := slotOp k w
  decide (1 ≤ op ∧ op ≤ (if k ≤ 1 then 2 else if k = 2 then 15 else if k = 3 then 2
    else if k = 4 then (if slot4Mica w then 4 else 2) else if k = 5 then 6 else 4))

/-- Slots that act in the first issue cycle, and those that repeat in the later ones (R40). -/
def firstSlots (b : BitVec 512) : List Nat := (List.range 7).filter fun k => slotListed k (slotWord b k)
def repeatSlots (b : BitVec 512) : List Nat := (firstSlots b).filter fun k => decide (k ≠ 3 ∧ k ≠ 6)

/-- An elastic STREAM (R61). -/
def wordElastic (w : Nat) : Bool := decide (slotOp 0 w = 2 ∧ bitsOf w 53 52 = 3)

def bundleElastic (b : BitVec 512) : Bool := wordElastic (slotWord b 0) || wordElastic (slotWord b 1)

/-! ### Granted access to the stores (R58, R228, R434). Space 1 and 2 are the working stores, 3 the line buffers -/

/-- First byte and size of a slot's range in a space. -/
def Slot.range (x : Slot) (space : Nat) : Nat × Nat :=
  if space = 1 then (wbits x.ws0 9 0 * 0x10000, wbits x.ws0 26 16 * 0x10000)
  else if space = 2 then (wbits x.ws1 9 0 * 0x10000, wbits x.ws1 26 16 * 0x10000)
  else if space = 3 then (wbits x.lb 9 0 * 0x2000, wbits x.lb 26 16 * 0x2000)
  else (0, 0)

/-- Bytes `a` to `a + n − 1` lie in the slot's range of the space; an address never wraps into it. -/
def Die.granted (d : Die) (s space : Nat) (a : Int) (n : Nat) : Bool :=
  let (b, z) := (d.slot s).range space
  decide ((b : Int) ≤ a ∧ a + n ≤ b + z)

def Stores.write (st : Stores) (space a : Nat) (bs : List Byte) : Stores :=
  if space = 1 then { st with ws0 := Mem.write st.ws0 a bs }
  else if space = 2 then { st with ws1 := Mem.write st.ws1 a bs }
  else if space = 3 then { st with lb := Mem.write st.lb a bs } else st

/-- A read by a slot action: zero bytes and a refusal mark outside the grant (R58). -/
def Die.slotRead (d : Die) (s space : Nat) (a : Int) (n : Nat) : List Byte × Bool :=
  if d.granted s space a n then (d.st.read space a.toNat n, false) else (List.replicate n 0, true)

/-- Mark that the present issue cycle had an access refused. -/
def Die.markRefused (d : Die) (b : Bool) : Die :=
  if b then
    match d.iss.run with
    | some r => { d with iss := { d.iss with run := some { r with refused := true } } }
    | none => d
  else d

/-! ### Address-generator programs (R293 to R297) -/

structure Prog where
  w0 : Nat := 0
  w1 : Nat := 0
  w2 : Nat := 0
  w3 : Nat := 0
  w4 : Nat := 0
  w5 : Nat := 0
  w6 : Nat := 0
  w7 : Nat := 0
deriving DecidableEq, Repr

def Prog.kind (p : Prog) : Nat := bitsOf p.w0 3 0
def Prog.space (p : Prog) : Nat := bitsOf p.w0 6 4
def Prog.efmt (p : Prog) : Nat := bitsOf p.w0 11 8
def Prog.record (p : Prog) : Bool := bit p.w0 12
def Prog.swalk (p : Prog) : Bool := bit p.w0 13
def Prog.sidecar (p : Prog) : Bool := bit p.w0 14
def Prog.macc (p : Prog) : Bool := bit p.w0 15
def Prog.hadStage (p : Prog) : Nat := bitsOf p.w0 19 16
def Prog.rowb (p : Prog) : Nat := bitsOf p.w0 31 20
def Prog.base (p : Prog) : Nat := bitsOf p.w0 63 32
def Prog.tag0 (p : Prog) : Nat := bitsOf p.w6 7 0
def Prog.sbase (p : Prog) : Nat := bitsOf p.w6 63 32
def Prog.scbase (p : Prog) : Nat := bitsOf p.w7 31 0
def Prog.ncol (p : Prog) : Nat := bitsOf p.w7 41 32
def Prog.col0 (p : Prog) : Nat := bitsOf p.w7 57 48
def Prog.gstr (p : Prog) : Nat := bitsOf p.w4 31 0

/-- CNTk and STRk of a MATRIX walk, k from 1. -/
def Prog.cnt (p : Prog) (k : Nat) : Nat := bitsOf p.w1 (16 * (k - 1) + 15) (16 * (k - 1)) + 1
def Prog.str (p : Prog) (k : Nat) : Int :=
  sext 32 (if k = 1 then bitsOf p.w2 31 0 else if k = 2 then bitsOf p.w2 63 32 else if k = 3 then bitsOf p.w3 31 0 else bitsOf p.w3 63 32)

def Prog.ih (p : Prog) : Nat := bitsOf p.w1 13 0
def Prog.iw (p : Prog) : Nat := bitsOf p.w1 29 16
def Prog.kh (p : Prog) : Nat := bitsOf p.w1 37 32 + 1
def Prog.kw (p : Prog) : Nat := bitsOf p.w1 45 40 + 1
def Prog.sy (p : Prog) : Nat := bitsOf p.w2 5 0 + 1
def Prog.sx (p : Prog) : Nat := bitsOf p.w2 13 8 + 1
def Prog.dy (p : Prog) : Nat := bitsOf p.w2 23 16
def Prog.dx (p : Prog) : Nat := bitsOf p.w2 31 24
def Prog.pt (p : Prog) : Nat := bitsOf p.w2 39 32
def Prog.pb (p : Prog) : Nat := bitsOf p.w2 47 40
def Prog.pl (p : Prog) : Nat := bitsOf p.w2 55 48
def Prog.pr (p : Prog) : Nat := bitsOf p.w2 63 56
def Prog.pmode (p : Prog) : Nat := bitsOf p.w3 1 0
def Prog.pack (p : Prog) : Nat := bitsOf p.w3 3 2
def Prog.q (p : Prog) : Nat := if p.pack = 0 then 1 else bitsOf p.w3 9 4 + 1
def Prog.nt (p : Prog) : Nat := bitsOf p.w3 19 12 + 1
def Prog.t0 (p : Prog) : Nat := bitsOf p.w3 31 20
def Prog.cpt (p : Prog) : Nat := bitsOf p.w3 40 32
def Prog.c0 (p : Prog) : Nat := bitsOf p.w3 59 48
def Prog.ystr (p : Prog) : Nat := bitsOf p.w4 31 0
def Prog.xstr (p : Prog) : Nat := bitsOf p.w4 47 32
def Prog.padval (p : Prog) : Nat := bitsOf p.w4 63 48
def Prog.gstep (p : Prog) : Nat := bitsOf p.w5 11 0
def Prog.pstep (p : Prog) : Nat := bitsOf p.w5 27 16
def Prog.npass (p : Prog) : Nat := bitsOf p.w5 43 32 + 1
def Prog.stripeSlots (p : Prog) : Nat := bitsOf p.w5 55 48
def Prog.stripeRows (p : Prog) : Nat := bitsOf p.w5 62 56

/-- Bits of one element of the program's format; 8 for a reserved code. -/
def Prog.ebits (p : Prog) : Nat := ((Fmt.ofCode p.efmt).map Fmt.bits).getD 8

/-! ### Program memory (R84, R292). Units: 0 TE0, 1 TE1, 2 Flint, 3 Mica, 4 post, 5 vector -/

def unitBytes : Nat := 524288

def Stores.prog (st : Stores) (unit p : Nat) : Prog :=
  let w (i : Nat) : Nat := Mem.le st.ag (unit * unitBytes + 64 * p + 8 * i) 8
  { w0 := w 0, w1 := w 1, w2 := w 2, w3 := w 3, w4 := w 4, w5 := w 5, w6 := w 6, w7 := w 7 }

/-- Physical program of a slot's index; none outside its window. -/
def Slot.physProg (x : Slot) (unit idx : Nat) : Option Nat :=
  match x.seg with
  | some g => if idx < nth 0 g.agCount unit then some (nth 0 g.agBase unit + idx) else none
  | none => none

/-- The program a slot field names; outside the window it is NULL. -/
def Die.prog (d : Die) (s unit idx : Nat) : Prog :=
  match (d.slot s).physProg unit idx with
  | some p => d.st.prog unit p
  | none => {}

/-! ### Walks (R299, R302) -/

/-- ⌊a ÷ b⌋ + 1 of R302, 0 when below 1. -/
def extent (a : Int) (b : Nat) : Nat := (a / (b : Int) + 1).toNat

def Prog.oh (p : Prog) : Nat :=
  extent ((p.ih : Int) + p.pt + p.pb - p.dy * (p.kh - 1 : Nat) - 1) p.sy

def Prog.ow (p : Prog) : Nat :=
  extent ((p.iw : Int) + p.pl + p.pr - p.dx * (p.kw - 1 : Nat) - 1) p.sx

def Prog.owr (p : Prog) : Nat := if p.pack = 1 then ceilDiv p.ow p.q else p.ow

/-- Number of rows; a program with none is empty (R306). -/
def Prog.rows (p : Prog) : Nat :=
  if p.kind = 1 then p.cnt 1 * p.cnt 2 * p.cnt 3 * p.cnt 4
  else if p.kind = 2 ∨ p.kind = 3 then p.npass * p.oh * p.owr
  else 0

/-- Address of MATRIX row `i`. -/
def Prog.rowAddr (p : Prog) (i : Nat) : Int :=
  let i1 := i % p.cnt 1
  let r1 := i / p.cnt 1
  let i2 := r1 % p.cnt 2
  let r2 := r1 / p.cnt 2
  let i3 := r2 % p.cnt 3
  let i4 := r2 / p.cnt 3
  (p.base : Int) + i1 * p.str 1 + i2 * p.str 2 + i3 * p.str 3 + i4 * p.str 4

/-- A run of a row: bytes read at an address, or bytes formed without a read (R305). -/
inductive Piece where
  | run (addr : Int) (n : Nat)
  | fill (bs : List Byte)
deriving DecidableEq, Repr

/-- Coordinate map of REPLICATE and REFLECT (R304). -/
def mapCoord (reflect : Bool) (v : Int) (n : Nat) : Int :=
  if reflect then
    if n ≤ 1 then 0
    else
      let p : Int := 2 * ((n : Int) - 1)
      let m := v % p
      if m ≤ (n : Int) - 1 then m else p - m
  else min (max v 0) ((n : Int) - 1)

/-- Offset of frame row `y` from BASE: the ring of R307 in a STRIPE walk. -/
def Prog.rowOff (p : Prog) (y : Nat) : Int :=
  if p.kind = 3 then
    let sr := p.stripeRows
    let n := p.stripeSlots
    if sr = 0 ∨ n = 0 then 0
    else 1024 * n + (((y / sr) % n) * sr + y % sr : Nat) * p.ystr
  else (y : Int) * p.ystr

/-- `n` pad elements of one code. -/
def Prog.padBytes (p : Prog) (n code : Nat) : List Byte :=
  if p.ebits = 4 then List.replicate ((n + 1) / 2) (BitVec.ofNat 8 (code % 16 * 17))
  else (List.replicate n (leBytes (p.ebits / 8) code)).flatten

/-- The channels of one tap (R303). -/
def Prog.tap (p : Prog) (ox oy cb t : Nat) : Piece :=
  let ky := (p.t0 + t) / p.kw
  let kx := (p.t0 + t) % p.kw
  let y : Int := (oy * p.sy : Nat) - (p.pt : Int) + (ky * p.dy : Nat)
  let x : Int := (ox * p.sx : Nat) - (p.pl : Int) + (kx * p.dx : Nat)
  let n := p.cpt * p.ebits / 8
  let at_ (y x : Int) : Piece :=
    .run ((p.base : Int) + p.rowOff y.toNat + x * p.xstr + (cb * p.ebits / 8 : Nat)) n
  if p.ow ≤ ox then .fill (p.padBytes p.cpt 0)
  else if 0 ≤ y ∧ y < p.ih ∧ 0 ≤ x ∧ x < p.iw then at_ y x
  else if p.pmode = 0 then .fill (p.padBytes p.cpt 0)
  else if p.pmode = 1 then .fill (p.padBytes p.cpt p.padval)
  else at_ (mapCoord (p.pmode = 3) y p.ih) (mapCoord (p.pmode = 3) x p.iw)

/-- The runs of walk row `i`, in row order (R299, R303). -/
def Prog.pieces (p : Prog) (i : Nat) : List Piece :=
  if p.kind = 1 then [.run (p.rowAddr i) p.rowb]
  else
    let per := p.oh * p.owr
    let pass := if per = 0 then 0 else i / per
    let r := if per = 0 then 0 else i % per
    let oy := if p.owr = 0 then 0 else r / p.owr
    let rx := if p.owr = 0 then 0 else r % p.owr
    (List.range p.q).flatMap fun blk =>
      let ox := if p.pack = 1 then rx * p.q + blk else rx
      let cb := p.c0 + pass * p.pstep + (if p.pack = 2 then blk * p.gstep else 0)
      (List.range p.nt).map fun t => p.tap ox oy cb t

/-- A row as taken in: each byte with the address it was read at, if it was. -/
abbrev RowBytes := List (Option Int × Byte)

/-- Read one run for a slot. -/
def Die.takePiece (d : Die) (s space : Nat) (shift : Int) : Piece → RowBytes × Bool
  | .fill bs => (bs.map fun b => (none, b), false)
  | .run a n =>
    let r := d.slotRead s space (a + shift) n
    ((List.range n).map fun i : Nat => (some (a + shift + i), nth 0 r.1 i), r.2)

/-- The first `len` bytes of walk row `i`, padded with zero bytes, and whether a read was refused. `shift` displaces
every read (lane groups, R301). -/
def Die.fetchRow (d : Die) (s space : Nat) (p : Prog) (i len : Nat) (shift : Int) : RowBytes × Bool :=
  let parts := (p.pieces i).map (d.takePiece s space shift)
  let bytes := (parts.map Prod.fst).flatten.take len
  (bytes ++ List.replicate (len - bytes.length) (none, 0), parts.any Prod.snd)

/-! ### Cursors (R300) -/

def cursorKey (unit p : Nat) : Nat := unit * 8192 + p

def Die.cursor (d : Die) (unit p : Nat) : Nat := Tab.read 0 d.iss.cursors (cursorKey unit p)

def Die.setCursor (d : Die) (unit p n : Nat) : Die :=
  { d with iss := { d.iss with cursors := Tab.write 0 d.iss.cursors (cursorKey unit p) n } }

/-- Advance a program's cursor by `n` rows; after the last row it returns to row 0. -/
def Die.advance (d : Die) (s unit idx n : Nat) : Die :=
  match (d.slot s).physProg unit idx with
  | some p =>
    let rows := (d.st.prog unit p).rows
    if rows = 0 then d else d.setCursor unit p ((d.cursor unit p + n) % rows)
  | none => d

/-- The cursor of a slot's program. -/
def Die.row (d : Die) (s unit idx : Nat) : Nat :=
  match (d.slot s).physProg unit idx with
  | some p => d.cursor unit p
  | none => 0

/-- An empty source: the unit's bit of XFR_AG_EMPTY, unless the context is confidential (R306, R318). -/
def Die.markEmpty (d : Die) (s b : Nat) : Die :=
  if d.isConf s then d else { d with iss := { d.iss with agEmpty := d.iss.agEmpty ||| (1#7 <<< b) } }

/-! ### Block scales (R200, R201, R311) -/

/-- Bytes of one 32-element block. -/
def Prog.blockBytes (p : Prog) : Nat := if p.ebits = 4 then 16 else 32

/-- Block number and scale-entry address of the data at `a`. -/
def Prog.blockOf (p : Prog) (a : Int) : Int := (a - p.base) / (p.blockBytes : Int)
def Prog.scaleAddr (p : Prog) (a : Int) : Int := (p.sbase : Int) + 2 * p.blockOf a

def Prog.expectTag (p : Prog) (b : Int) : Nat := ((p.tag0 + b) % 256).toNat

/-- A tag mismatch: block number, expected tag, stored tag (R202). -/
structure Skew where
  block  : Int
  expect : Nat
  stored : Nat
deriving DecidableEq, Repr

/-- The scale code of a block, given the address of its first element that was read: X = 127 and no check for a block of
fill alone. A refused entry delivers zero bytes (R58), which are compared like any others (R201; log entry 98). -/
def Die.blockScale (d : Die) (s space : Nat) (p : Prog) (a : Option Int) : Nat × Option Skew × Bool :=
  match a with
  | none => (127, none, false)
  | some a =>
    let r := d.slotRead s space (p.scaleAddr a) 2
    let e := leNat r.1
    let b := p.blockOf a
    let tag := p.expectTag b
    (e % 256, if e / 256 = tag then none else some { block := b, expect := tag, stored := e / 256 }, r.2)

/-- The scale codes of the blocks of a row, the first mismatch, and whether a read was refused. DESIGN CHOICE (log entry 136): a run of
32 elements that straddles two blocks of the tensor takes the scale and the tag of its first element. -/
def Die.rowScales (d : Die) (s space : Nat) (p : Prog) (row : RowBytes) (blocks : Nat) :
    List Nat × Option Skew × Bool :=
  let bb := p.blockBytes
  let rs := (List.range blocks).map fun j =>
    d.blockScale s space p (((row.drop (j * bb)).take bb).findSome? Prod.fst)
  (rs.map (·.1), rs.findSome? (·.2.1), rs.any (·.2.2))

/-- SCALE_SKEW (R202): recorded against the unit, and the context aborted. -/
def Die.scaleSkew (d : Die) (s idx addr : Nat) (k : Skew) : Die :=
  (d.record idx 0x05 (some s) addr (wrapNat 32 k.block) (k.expect * 256 + k.stored) 0).abortSlot s 0x05

/-! ### Issue cycles (R39 to R41, R58, R61) -/

def Die.setRun (d : Die) (f : Run → Run) : Die :=
  match d.iss.run with
  | some r => { d with iss := { d.iss with run := some (f r) } }
  | none => d

/-- The bundle's last issue cycle is over: loop control, or the next address. -/
def Run.bundleEnd (r : Run) : Run :=
  if bundleLoopOp r.bundle = 0 then { r with pc := r.pc + 1, phase := .due } else { r with phase := .control }

/-- An elastic bundle retires once every engine it drives has reported (R61, R180). -/
def Run.retired (r : Run) : Bool :=
  bundleElastic r.bundle &&
    (([0, 1] : List Nat).all fun k => !(slotListed k (slotWord r.bundle k)) || r.reported.contains k)

/-- `n` ACLK cycles pass (R34). -/
def Die.aclk (d : Die) (n : Nat) : Die :=
  { d with iss := { d.iss with cyc := d.iss.cyc + n, owed := d.iss.owed - n },
           glb := { d.glb with aclkCycles := inc64 d.glb.aclkCycles n } }

/-- `n` issue cycles pass. -/
def Die.passCycles (d : Die) (n : Nat) : Die :=
  (d.aclk n).setRun fun r => { r with cycles := r.cycles + n, held := r.held + n, refused := false }

/-- Issue has stopped in the cycle after an abort (R78): what the aborted cycle's slots left goes as well (R60). -/
def Die.stopRun (d : Die) (s : Nat) : Die :=
  let d := (d.discardInFlight s).clearWindow s
  { d with iss := { d.iss.killLaunches s with run := none } }

/-- One issue cycle ends: `left` counts the cycles still to issue with this one. Cycles in which no slot acts pass at
once. -/
def Die.cycleEnd (d : Die) (left : Nat) : Die :=
  match d.iss.run with
  | none => d
  | some r =>
    let d := if r.refused then d.grantViol r.slot else d
    let d := (Die.passCycles { d with err := { d.err with cycle := [] } } 1).tellAborts
    if r.ended then d.stopRun r.slot
    else if left ≤ 1 ∨ r.retired then d.setRun Run.bundleEnd
    else
      let todo := repeatSlots r.bundle
      if todo.isEmpty then (d.passCycles (left - 1)).setRun Run.bundleEnd
      else d.setRun fun r => { r with phase := .issuing (left - 1) todo, firstCycle := false }

/-- Slots of the present issue cycle have acted and others have yet to (R229): the bank ports are theirs. -/
def Die.midCycle (d : Die) : Bool :=
  match d.iss.run with
  | none => false
  | some r =>
    match r.phase with
    | .issuing _ todo => decide (todo.length < (if r.firstCycle then firstSlots r.bundle else repeatSlots r.bundle).length)
    | _ => false

/-- Slot `k` has acted in this cycle. -/
def Die.slotDone (d : Die) (k : Nat) : Die :=
  match d.iss.run with
  | none => d
  | some r =>
    match r.phase with
    | .issuing left todo =>
      let todo' := todo.erase k
      if todo'.isEmpty then d.cycleEnd left else d.setRun fun r => { r with phase := .issuing left todo' }
    | _ => d

end Sys2Proof.Machine
end

