-- ==== Sys2Proof/Machine/Flags.lean ====
section
/-! DEFINITION. The arithmetic of the arrays: operands in the cells (R121), column sums (R130, R131), the output chain
(R132, R159, R216), the margin bound and the gate test (R154 to R162), and the saturation and NaN marks they leave. -/

namespace Sys2Proof.Machine

/-! ### Operands (R120, R121) -/

/-- BF16 code from the two bytes of a pair. -/
def joinBf16 (hi lo : Nat) : Nat := (lo / 128) * 32768 + hi * 128 + lo % 128

def byteAt (l : List Byte) (i : Nat) : Nat := (nth 0 l i).toNat

/-- Activation code of token `t` at reduction index `k`, from the bytes of the array rows. -/
def actCode (f : Fmt) (act : List Byte) (t k : Nat) : Nat :=
  match f with
  | .int8 => byteAt act k
  | .int4 => byteAt act k / 16 ^ t % 16
  | .fp4 => byteAt act k / 16 ^ t % 16
  | .e4m3 => byteAt act (2 * k + t)
  | .e5m2 => byteAt act (2 * k + t)
  | .bf16 => joinBf16 (byteAt act (2 * k)) (byteAt act (2 * k + 1))
  | .int16 => byteAt act (2 * k) * 256 + byteAt act (2 * k + 1)
  | .fp32 => 0
  | .int32 => 0

/-- Pairs of written rows 2j and 2j + 1. -/
def writtenPairs (rows : Tab (List Byte)) : List (Nat × List Byte × List Byte) :=
  rows.filterMap fun c =>
    if c.1 % 2 = 0 then
      let lo := Tab.read [] rows (c.1 + 1)
      if lo.isEmpty then none else some (c.1 / 2, c.2, lo)
    else none

/-- Weights of column `c` at written elements: reduction index and code (R90, R121). -/
def weightCodes (f : Fmt) (rows : Tab (List Byte)) (c : Nat) : List (Nat × Nat) :=
  match f with
  | .int8 => rows.map fun r => (r.1, byteAt r.2 c)
  | .int4 => rows.map fun r => (r.1, byteAt r.2 (c % 256) / 16 ^ (c / 256) % 16)
  | .fp4 => rows.map fun r => (r.1, byteAt r.2 (c % 256) / 16 ^ (c / 256) % 16)
  | .e4m3 => (rows.filter fun r => decide (r.1 % 2 = c / 256)).map fun r => (r.1 / 2, byteAt r.2 (c % 256))
  | .e5m2 => (rows.filter fun r => decide (r.1 % 2 = c / 256)).map fun r => (r.1 / 2, byteAt r.2 (c % 256))
  | .bf16 => (writtenPairs rows).map fun r => (r.1, joinBf16 (byteAt r.2.1 c) (byteAt r.2.2 c))
  | .int16 => (writtenPairs rows).map fun r => (r.1, byteAt r.2.1 c * 256 + byteAt r.2.2 c)
  | .fp32 => []
  | .int32 => []

/-- Activation bytes of the array rows from the walk rows of the tokens (R121, R192, R301). -/
def placeTokens (f : Fmt) (t0 t1 : List Byte) : List Byte :=
  (List.range 256).map fun k =>
    match f with
    | .int8 => nth 0 t0 k
    | .int4 => BitVec.ofNat 8 (byteAt t0 (k / 2) / 16 ^ (k % 2) % 16 + 16 * (byteAt t1 (k / 2) / 16 ^ (k % 2) % 16))
    | .fp4 => BitVec.ofNat 8 (byteAt t0 (k / 2) / 16 ^ (k % 2) % 16 + 16 * (byteAt t1 (k / 2) / 16 ^ (k % 2) % 16))
    | .e4m3 => if k % 2 = 0 then nth 0 t0 (k / 2) else nth 0 t1 (k / 2)
    | .e5m2 => if k % 2 = 0 then nth 0 t0 (k / 2) else nth 0 t1 (k / 2)
    | .bf16 =>
      let code := byteAt t0 (k / 2 * 2) + 256 * byteAt t0 (k / 2 * 2 + 1)
      BitVec.ofNat 8 (if k % 2 = 0 then code / 128 % 256 else code / 32768 * 128 + code % 128)
    | .int16 => if k % 2 = 0 then nth 0 t0 (k + 1) else nth 0 t0 (k - 1)
    | .fp32 => 0
    | .int32 => 0

/-! ### Column sums (R130, R131, R203) -/

/-- 2^(X − 127) applied to a value; 0xFF makes it NaN. -/
def applyScale (x : Nat) (v : FVal) : FVal := if x = 255 then .nan else v.shift ((x : Int) - 127)

/-- Element value of a block-scaled format (R198): MXINT8 counts in units of 2^−6. -/
def blockElem (f : Fmt) (code : Nat) : FVal := if f = .int8 then (f.decode code).shift (-6) else f.decode code

/-- The products of one column and token, with block scales when the row is block-scaled. -/
def RowFlight.products (r : RowFlight) (f : Fmt) (t c : Nat) : List FVal :=
  let bpt := f.kLen / 32
  (weightCodes f r.plane.rows c).map fun e =>
    let a := actCode f r.act t e.1
    if r.blocked then
      let xa := nth 127 r.actScale (t * bpt + e.1 / 32)
      let xw := (Tab.read 0 r.plane.scales (e.1 / 32 * 512 + c) + 127) % 256
      (applyScale xa (blockElem f a)).mul (applyScale xw (blockElem f e.2))
    else (f.decode a).mul (f.decode e.2)

/-- Exact integer sum of the products. -/
def intSum (ps : List FVal) : Int :=
  ps.foldl (fun z v => match v with | .fin n m e => z + FVal.scaled n m e 0 | _ => z) 0

/-- Sum in the 56-bit two's-complement window: the largest product's leading bit stands at bit 47, lower bits are cut (R130).
DEDUCED (log entry 87): a sum outside the window wraps in it. -/
def windowSum (ps : List FVal) : FVal :=
  let nz := ps.filter fun v => !v.isZero
  match nz with
  | [] => .zero
  | v :: rest =>
    let top := rest.foldl (fun m x => max m x.lead) v.lead
    let q := top - 47
    let z := nz.foldl (fun (z : Int) x =>
      match x with
      | .fin n m e => let u : Int := roundTrunc m e q
                      if n then z - u else z + u
      | _ => z) 0
    let z : Int := (z + 2 ^ 55) % 2 ^ 56 - 2 ^ 55
    .fin (decide (z < 0)) z.natAbs (if z = 0 then 0 else q)

/-- A column's FP sum before rounding, with the special cases of R131. `full`: every element of the reduction length is
written, so that no unwritten element adds a +0. -/
def fpSum (window full : Bool) (ps : List FVal) : FVal :=
  if ps.any FVal.isNan then .nan
  else
    let pos := ps.any fun v => decide (v = .inf false)
    let neg := ps.any fun v => decide (v = .inf true)
    if pos && neg then .nan
    else if pos then .inf false
    else if neg then .inf true
    else
      let s := if window then windowSum ps else ps.foldl FVal.add (.fin true 0 0)
      match s with
      | .fin n m e => if m = 0 then .fin (full && !ps.isEmpty && ps.all FVal.sign) 0 0 else .fin n m e
      | v => v

/-- The row's sums are integer (R132, R204). -/
def intChain (f : Fmt) (blocked : Bool) : Bool := f.isInt && !blocked

/-- The column's sum as the accumulator takes it, and whether it saturated (R130). -/
def RowFlight.sum (r : RowFlight) (f : Fmt) (t c : Nat) : FVal × Bool :=
  let ps := r.products f t c
  if intChain f r.blocked then
    let z := sat32 (intSum ps)
    (.ofInt z.1, z.2)
  else
    let window := r.blocked || decide (f = .bf16)
    (rne32 (fpSum window (decide (f.kLen ≤ ps.length)) ps), false)

/-! ### Combination and the output chain (R132, R159, R216) -/

/-- A partial sum as it stands at the destination. -/
def decodePartial (int : Bool) (code : Nat) : FVal := if int then .ofInt (sext 32 code) else dec32 code

/-- acc(p, x) and whether it saturated. -/
def accumulate (int : Bool) (p x : FVal) : FVal × Bool :=
  if int then
    let z := sat32 (p.toInt + x.toInt)
    (.ofInt z.1, z.2)
  else (addRne32 p (rne32 x), false)

/-- Column bias, scale, and 2^−e of a scale record (R132, R216). -/
structure Chain where
  int   : Bool
  bias  : FVal
  scale : FVal
  down  : Int
  fmt   : Fmt

/-- narrow(exact((v · 2^−e + b) · g)), with the saturation of the accumulator (R132, R159). -/
def Chain.final (c : Chain) (p x : FVal) : Narrowed × Bool :=
  let v := accumulate c.int p x
  (narrow c.fmt (((v.1.shift (-c.down)).add c.bias).mul c.scale), v.2)

/-- f(x) as a value (R159). -/
def Chain.value (c : Chain) (p x : FVal) : FVal := c.fmt.decode (c.final p x).1.code

/-! ### The bound (R154 to R157, R170) -/

/-- A column record of the statistics entry (R169). -/
structure ColRec where
  bias  : Nat
  scale : Nat
  sbh   : Nat
  mbl   : Nat
  clo   : Nat
  chi   : Nat
  limit : Nat
  ctrl  : Nat

def le4 (l : List Byte) (i : Nat) : Nat := leNat ((l.drop i).take 4)

def colRec (stats : List Byte) (c : Nat) : ColRec :=
  let b := (stats.drop (32 * c)).take 32
  { bias := le4 b 0, scale := le4 b 4, sbh := le4 b 8, mbl := le4 b 12, clo := le4 b 16, chi := le4 b 20,
    limit := le4 b 24, ctrl := le4 b 28 }

def ColRec.nogate (r : ColRec) : Bool := bit r.ctrl 2
def ColRec.cmode (r : ColRec) : Nat := bitsOf r.ctrl 1 0
def ColRec.ebmax (r : ColRec) : Nat := bitsOf r.ctrl 15 8

/-- The significand of a BF16 code with its implicit bit, and ε of its scale (R122, R156): a code with exponent 255 has them
like any other. -/
def bfParts (code : Nat) : Bool × Nat × Int :=
  let x := bitsOf code 14 7
  (bit code 15, (if x = 0 then 0 else 128) + code % 128, if x = 0 then -133 else (x : Int) - 134)

/-- High and low parts of an element: nibbles of INT8, bytes of INT16, nibbles of a BF16 significand (R154 to R156). -/
def highPart (f : Fmt) (code : Nat) : FVal :=
  match f with
  | .int8 => .ofInt (sext 8 code / 16)
  | .int16 => .ofInt (sext 16 code / 256)
  | .bf16 =>
    let q := bfParts code
    .fin q.1 (q.2.1 / 16 * 16) q.2.2
  | _ => .zero

def lowPart (f : Fmt) (code : Nat) : FVal :=
  match f with
  | .int8 => .ofNat (code % 16)
  | .int16 => .ofNat (code % 256)
  | .bf16 =>
    let q := bfParts code
    .fin false (q.2.1 % 16) q.2.2
  | _ => .zero

/-- Unit of the high part: ŝ is 256 or 65,536 times the integer high-high sum. -/
def highUnit (f : Fmt) : Int := match f with | .int8 => 8 | .int16 => 16 | _ => 0

/-- The high-high estimate ŝ of a column (R154 to R156), exact. DESIGN CHOICE (log entry 114): a zero estimate is +0. -/
def RowFlight.estimate (r : RowFlight) (f : Fmt) (c : Nat) : FVal :=
  ((weightCodes f r.plane.rows c).foldl (fun (s : FVal) e =>
    s.add ((highPart f (actCode f r.act 0 e.1)).mul (highPart f e.2))) FVal.zero).shift (highUnit f)

/-- Row quantities of the bound: S_aH, M_aL, e_a if some activation is not zero, and whether the row is finite. -/
structure RowBound where
  sah    : FVal
  mal    : FVal
  ea     : Option Int
  finite : Bool

def RowFlight.rowBound (r : RowFlight) (f : Fmt) : RowBound :=
  let cs := (List.range f.kLen).map fun k => actCode f r.act 0 k
  let vs := cs.map f.decode
  let sah := cs.foldl (fun (s : FVal) c => s.add (highPart f c).abs) FVal.zero
  { sah := if f = .bf16 then up32 sah else sah
    mal := cs.foldl (fun (s : FVal) c => s.max2 (lowPart f c)) FVal.zero
    ea := (vs.filter fun v => !v.isZero).foldl (fun (o : Option Int) v =>
      match o with
      | some x => some (max x v.lead)
      | none => some v.lead) none
    finite := vs.all FVal.isFin }

/-- K of the bound: elements of the plane that are written. -/
def boundK (f : Fmt) (rows : Tab (List Byte)) : Nat :=
  if f = .int8 then rows.length else (writtenPairs rows).length

/-- B (R154, R155, R157). -/
def marginBound (f : Fmt) (q : RowBound) (cr : ColRec) (k : Nat) : FVal :=
  match f with
  | .bf16 =>
    let sbh := dec32 cr.sbh
    let mbl := dec32 cr.mbl
    let t := match q.ea with
      | some ea => if cr.ebmax = 0 then .zero
                   else up32 ((FVal.ofNat k).shift (ea + ((cr.ebmax : Int) - 127) - 46))
      | none => .zero
    let p1 := up32 (q.sah.mul mbl)
    let p2 := up32 (q.mal.mul sbh)
    let p3 := up32 ((up32 ((FVal.ofNat k).mul q.mal)).mul mbl)
    up32 ((up32 ((up32 (p1.add p2)).add p3)).add t)
  | _ =>
    let u : Int := if f = .int16 then 8 else 4
    (((q.sah.mul (.ofNat cr.mbl)).add (q.mal.mul (.ofNat cr.sbh))).shift u).add
      ((FVal.ofNat k).mul (q.mal.mul (.ofNat cr.mbl)))

/-! ### The gate test (R161, R162) -/

/-- The interval of a column: lo and hi, where the comparison is made; none for the exact path of R162. -/
def gateInterval (c : Chain) (p est b : FVal) (cr : ColRec) (q : RowBound) : Option (FVal × FVal) :=
  if cr.nogate || !q.finite || !b.isFin then none
  else
    let u1 := c.value p (est.sub b)
    let u2 := c.value p (est.add b)
    if u1.isFin && u2.isFin then some (u1.min2 u2, u1.max2 u2) else none

/-- The constants of the record admit a comparison under BOUND = CONST (R162). -/
def constUsable (cr : ColRec) : Bool :=
  if cr.cmode = 1 then
    let lo := dec32 cr.clo
    let hi := dec32 cr.chi
    !lo.isNan && !hi.isNan && !(FVal.lt hi lo)
  else if cr.cmode = 2 then !(dec32 cr.clo).isNan
  else decide (cr.cmode = 0)

/-- The comparison of R161 for one column; `top` is L. -/
def gateTest (bound : Nat) (cr : ColRec) (lo hi : FVal) (top : Option FVal) : Bool :=
  if bound = 1 then FVal.lt hi .zero
  else if bound = 2 then
    if cr.cmode = 1 then FVal.lt hi (dec32 cr.clo) || FVal.lt (dec32 cr.chi) lo
    else if cr.cmode = 2 then FVal.lt hi (dec32 cr.clo) || FVal.lt (dec32 cr.clo) lo
    else false
  else if bound = 3 then
    match top with
    | some l => FVal.lt hi l
    | none => false
  else false

end Sys2Proof.Machine
end

