-- ==== Sys2Proof/Machine/Engine.lean ====
section
/-! DEFINITION. The tensor engines: WLOAD, STREAM and a row's completion (R87 to R95, R118 to R137, R154 to R182,
R201 to R216, R299 to R311). -/

namespace Sys2Proof.Machine

/-! ### Fields (R88, R91) -/

def wlFmt (w : Nat) : Option Fmt := if bitsOf w 57 55 = 7 then none else Fmt.ofCode (bitsOf w 57 55)
def wlPlane (w : Nat) : Nat := bitsOf w 54 54
def wlSrc (w : Nat) : Nat := bitsOf w 53 43
def wlStat (w : Nat) : Nat := bitsOf w 42 31
def stGate (w : Nat) : Nat := bitsOf w 53 52
def stAcc (w : Nat) : Nat := bitsOf w 51 50
def stBound (w : Nat) : Nat := bitsOf w 49 48
def stSrc (w : Nat) : Nat := bitsOf w 47 37
def stDst (w : Nat) : Nat := bitsOf w 36 26
def stCtally (w : Nat) : Nat := bitsOf w 25 18
def stSidecar (w : Nat) : Bool := bit w 17

/-! ### Planes -/

def Engine.plane (e : Engine) (p : Nat) : Plane := if p = 0 then e.plane0 else e.plane1
def Engine.setPlane (e : Engine) (p : Nat) (v : Plane) : Engine :=
  if p = 0 then { e with plane0 := v } else { e with plane1 := v }

def Segment.statBase (g : Segment) (te : Nat) : Nat := if te = 0 then g.statBase0 else g.statBase1

/-- The copy of a statistics entry (two for a format of 512 outputs) from the table on the engine's side (R168, R172). -/
def Die.readStats (d : Die) (s te stat : Nat) (f : Fmt) : List Byte × Bool :=
  match (d.slot s).seg with
  | some g => d.slotRead s (te + 1) (g.statBase te + 8192 * stat : Nat) (if f.outputs = 512 then 16384 else 8192)
  | none => ([], false)

/-- The cycle of the last of the reads (R172): 512 bytes in each cycle after the first issue cycle. -/
def StatRead.last (q : StatRead) : Nat := q.start + q.len / 512

/-- The reads of the statistics entry that fall in cycle `m` or before it are made. -/
def Plane.statDue (p : Plane) (st : Stores) (m : Nat) : Plane :=
  match p.statRead with
  | some q =>
    let n := 512 * min (q.len / 512) (m - q.start)
    { p with stats := p.stats ++ st.read q.space (q.addr + p.stats.length) (n - p.stats.length),
             statRead := if q.last < m then none else some q }
  | none => p

/-- A read of the statistics entry is still to come in cycle `m`. -/
def Plane.statLeft (p : Plane) (m : Nat) : Bool :=
  match p.statRead with
  | some q => decide (m < q.last)
  | none => false

def Die.countUnless (d : Die) (s : Nat) (f : Die → Die) : Die := if d.isConf s then d else f d

/-! ### WLOAD (R88, R90, R172, R203) -/

/-- Weight rows at which scale entries are read, and entries read there (R203). -/
def scaleRowStep (f : Fmt) : Nat := match f with | .e4m3 => 64 | .e5m2 => 64 | _ => 32
def scaleEntries (f : Fmt) : Nat := if f = .int8 then 256 else 512

/-- The entries of weight row `k`, one for each output column, from that of the row's first element on. -/
def Die.weightScales (d : Die) (s : Nat) (p : Prog) (f : Fmt) (row : RowBytes) :
    List Nat × Option Skew × Bool :=
  match row.findSome? Prod.fst with
  | none => (List.replicate (scaleEntries f) 127, none, false)
  | some a =>
    let n := scaleEntries f
    let r := d.slotRead s p.space (p.scaleAddr a) (2 * n)
    let b := p.blockOf a
    let es := (List.range n).map fun c => byteAt r.1 (2 * c) + 256 * byteAt r.1 (2 * c + 1)
    let bad := (List.range n).findSome? fun (c : Nat) =>
      let tag := p.expectTag (b + c)
      if nth 0 es c / 256 = tag then none else some { block := b + c, expect := tag, stored := nth 0 es c / 256 }
    (es.map (· % 256), bad, r.2)

/-- The statistics of a WLOAD's plane (R172): its entry is read in the cycles after the first; a refused one delivers zeros. PRESUMED
(log entry 132): the entry's grant is tested as a whole, in the first issue cycle. -/
def Die.statStart (d : Die) (s te stat : Nat) (f : Fmt) (pl : Plane) : Plane × Bool :=
  match (d.slot s).seg with
  | some g =>
    let a := g.statBase te + 8192 * stat
    let n := if f.outputs = 512 then 16384 else 8192
    if d.granted s (te + 1) a n then
      ({ pl with statRead := some { slot := s, start := d.iss.cyc, space := te + 1, addr := a, len := n } }, false)
    else ({ pl with stats := List.replicate n 0 }, true)
  | none => (pl, false)

/-- The first issue cycle of a WLOAD: every row unwritten, the statistics entry to be read. -/
def Die.wloadFirst (d : Die) (r : Run) (te w : Nat) (f : Fmt) (p : Prog) : Die :=
  if r.firstCycle then
    let x := d.statStart r.slot te (wlStat w) f
      { fmt := BitVec.ofNat 3 (bitsOf w 57 55), blocked := p.swalk && f.blockable, loaded := true }
    (d.updTe te fun e => e.setPlane (wlPlane w) x.1).markRefused x.2
  else d

/-- Store scale entries with the plane: output c of 32-row (64-row) piece `j`. -/
def storeScales (t : Tab Nat) (j : Nat) (xs : List Nat) : Tab Nat :=
  ((List.range xs.length).zip xs).foldl (fun t cx => Tab.write 0 t (j * 512 + cx.1) ((cx.2 + 129) % 256)) t

/-- One weight row enters: its scale entries are checked first, and a mismatch keeps it out (R202). -/
def Die.wloadRow (d : Die) (r : Run) (te w : Nat) (f : Fmt) (p : Prog) (pl : Plane) : Die :=
  let k := pl.next
  let i := d.row r.slot te (wlSrc w)
  let row := d.fetchRow r.slot p.space p i 256 0
  let scaled := p.swalk && f.blockable && decide (k % scaleRowStep f = 0)
  let sc : List Nat × Option Skew × Bool := if scaled then d.weightScales r.slot p f row.1 else ([], none, false)
  let d := (d.markRefused row.2).markRefused sc.2.2
  match sc.2.1 with
  | some skew => d.scaleSkew r.slot (25 + te) r.pc skew
  | none =>
    let pl' := { pl with
      rows := Tab.insert pl.rows k (row.1.map Prod.snd), next := k + 1,
      scales := if scaled then storeScales pl.scales (k / scaleRowStep f) sc.1 else pl.scales }
    (d.updTe te fun e => e.setPlane (wlPlane w) pl').countUnless r.slot fun d =>
      d.updTe te fun e => { e with wrows := inc64 e.wrows 1 }

/-- One issue cycle of a WLOAD. -/
def Die.wload (d : Die) (te : Nat) (r : Run) (w : Nat) : Die :=
  match wlFmt w with
  | none => d
  | some f =>
    let p := d.prog r.slot te (wlSrc w)
    let d := d.wloadFirst r te w f p
    if p.rows = 0 then d.markEmpty r.slot te
    else
      let pl := (d.te te).plane (wlPlane w)
      let d := if pl.next < 256 then d.wloadRow r te w f p pl else d
      d.advance r.slot te (wlSrc w) 1

/-! ### STREAM (R91, R121, R123, R178 to R180, R301, R309) -/

/-- Columns written for each token, and the first of them (R297, R309). -/
def Prog.columns (p : Prog) (outs : Nat) : Nat × Nat := if p.ncol = 0 then (0, outs) else (p.col0, p.ncol)

/-- Bytes of `n` values of `bits` bits, the last byte filled up. -/
def packedBytes (n bits : Nat) : Nat := (n * bits + 7) / 8

/-- Build the row that enters: destination, sidecar and record of its entry cycle, and refusals of its accesses. DESIGN CHOICE:
the statistics of a plane never loaded (log entry 112) and a sidecar whose DST carries no base (log entry 116); DEDUCED: the
sidecar row has the DST's columns (R310, log entry 115). -/
def Die.makeRow (d : Die) (r : Run) (te w : Nat) (f : Fmt) (force : Bool) (act : List Byte)
    (scales : List Nat) (blocked : Bool) (drow : Nat) : RowFlight × Bool :=
  let ps := d.prog r.slot te (stSrc w)
  let pd := d.prog r.slot te (stDst w)
  let pl := (d.te te).plane (wlPlane w)
  let st := d.readStats r.slot te 0 f
  let pl := if pl.loaded then pl else { pl with stats := st.1 }
  let cols := pd.columns f.outputs
  let vals := cols.2 * f.tokens
  let addr := pd.rowAddr drow
  let final := decide (stAcc w = 2)
  let exists_ := decide (0 < pd.rows)
  let okW := d.granted r.slot pd.space addr (packedBytes vals (if final then pd.ebits else 32))
  let okR := stAcc w = 0 || d.granted r.slot pd.space addr (4 * vals)
  let side := stSidecar w && decide (stGate w = 2)
  let sAddr : Nat := pd.scbase + 1024 * drow
  let okS := !side || d.granted r.slot pd.space sAddr (4 * cols.2)
  let rs : List Byte × Bool := if ps.record && final then d.slotRead r.slot ps.space ps.sbase 4 else ([], false)
  ({ entry := d.iss.cyc, slot := r.slot, conf := d.isConf r.slot, word := BitVec.ofNat 64 w, bundle := r.pc,
     force := force, act := act, actScale := scales, blocked := blocked || pl.blocked, plane := pl,
     dstSpace := pd.space, dstAddr := addr.toNat, dstFmt := BitVec.ofNat 4 pd.efmt, col0 := cols.1, ncol := cols.2,
     sideAddr := if side then some sAddr else none, dstOk := okW && exists_ && decide (0 ≤ addr),
     recScale := if ps.record && final then some (w32 (leNat rs.1)) else none, ctally := none },
   exists_ && (!okW || !okR || !okS) || rs.2)

/-- A row enters the engine; each entry is counted (R150). -/
def Die.countEntry (d : Die) (s te : Nat) : Die :=
  d.countUnless s fun d => d.updTe te fun e => { e with rows := inc64 e.rows 1 }

def Die.enterRow (d : Die) (r : Run) (te w : Nat) (f : Fmt) (force : Bool) (act : List Byte) (scales : List Nat)
    (blocked : Bool) (drow : Nat) : Die :=
  let x := d.makeRow r te w f force act scales blocked drow
  let d := (d.updTe te fun e => { e with flight := e.flight ++ [x.1] }).markRefused x.2
  let d := d.countEntry r.slot te
  d.setRun fun r => if te = 0 then { r with entered0 := true } else { r with entered1 := true }

/-- The cursor of the destination advances once for each result row, unless it is the source's own program. -/
def Die.advanceDst (d : Die) (s te w n : Nat) : Die :=
  if stDst w = stSrc w then d else d.advance s te (stDst w) n

/-- Scale entries of a row's tokens, checked in its entry cycle (R203). -/
def Die.actScales (d : Die) (s : Nat) (p : Prog) (f : Fmt) (rows : List RowBytes) :
    List Nat × Option Skew × Bool :=
  if p.swalk && f.blockable then
    let xs := rows.map fun row => d.rowScales s p.space p row (f.kLen / 32)
    ((xs.map (·.1)).flatten, xs.findSome? (·.2.1), xs.any (·.2.2))
  else ([], none, false)

/-- INT16: the row is taken at its first entry and presented again at its second (R123). -/
def Die.streamInt16 (d : Die) (r : Run) (te w : Nat) (force : Bool) (p : Prog) : Die :=
  let second := if te = 0 then r.second0 else r.second1
  let mark (d : Die) (b : Bool) : Die :=
    d.setRun fun r => if te = 0 then { r with second0 := b } else { r with second1 := b }
  if second then
    let act := placeTokens .int16 (d.te te).pend16 []
    let drow := d.row r.slot te (stDst w)
    let d := d.enterRow r te w .int16 force act [] false drow
    let d := d.updTe te fun e => { e with pend16 := [] }
    mark ((d.advance r.slot te (stSrc w) 1).advanceDst r.slot te w 1) false
  else
    let row := d.fetchRow r.slot p.space p (d.row r.slot te (stSrc w)) 256 0
    let d := (d.updTe te fun e => { e with pend16 := row.1.map Prod.snd }).markRefused row.2
    mark (d.countEntry r.slot te) true

/-- One row of any other format: one walk row, or two as tokens 0 and 1; at the last row of an odd walk token 1 is zeros (R301). -/
def Die.streamRow (d : Die) (r : Run) (te w : Nat) (f : Fmt) (force : Bool) (p : Prog) : Die :=
  let i := d.row r.slot te (stSrc w)
  let two := decide (f.tokens = 2)
  let odd := decide (p.rows ≤ i + 1 ∧ p.rows % 2 = 1)
  let zeros : RowBytes := List.replicate f.tokenBytes (none, 0)
  let r0 := d.fetchRow r.slot p.space p i f.tokenBytes 0
  let r1 : RowBytes × Bool := if two && !odd then d.fetchRow r.slot p.space p ((i + 1) % p.rows) f.tokenBytes 0 else (zeros, false)
  let sc := d.actScales r.slot p f (if two then [r0.1, r1.1] else [r0.1])
  let d := ((d.markRefused r0.2).markRefused r1.2).markRefused sc.2.2
  match sc.2.1 with
  | some skew => d.scaleSkew r.slot (25 + te) r.pc skew
  | none =>
    let act := placeTokens f (r0.1.map Prod.snd) (r1.1.map Prod.snd)
    let drow := d.row r.slot te (stDst w)
    let d := d.enterRow r te w f force act sc.1 (p.swalk && f.blockable) drow
    (d.advance r.slot te (stSrc w) (if two && !odd then 2 else 1)).advanceDst r.slot te w 1

/-- One cycle of an elastic ADD (R179): up to four rows are read; the first that is not zero enters. -/
def Die.elasticAdd (d : Die) (r : Run) (te w : Nat) (f : Fmt) (p : Prog) (left : Nat) : Die × Nat :=
  let c := d.row r.slot te (stSrc w)
  let n := min 4 left
  let rows := (List.range n).map fun j =>
    let x := d.fetchRow r.slot p.space p ((c + j) % p.rows) f.tokenBytes 0
    (placeTokens f (x.1.map Prod.snd) [], x.2)
  let d := d.markRefused (rows.any Prod.snd)
  let hit := firstBelow n fun j => ((nth ([], false) rows j).1).any fun b => decide (b ≠ 0)
  let used := match hit with | some j => j + 1 | none => n
  let dc := d.row r.slot te (stDst w)
  let drows := (d.prog r.slot te (stDst w)).rows
  let d := match hit with
    | some j => d.enterRow r te w f false (nth ([], false) rows j).1 [] false (if drows = 0 then 0 else (dc + j) % drows)
    | none => d
  let d := (d.advance r.slot te (stSrc w) used).advanceDst r.slot te w used
  let skipped := match hit with | some j => j | none => n
  (d.countUnless r.slot fun d => d.updTe te fun e => { e with skipped := inc64 e.skipped skipped }, used)

/-- The engine reports (R180): the completion tally follows the last row that entered; without one, or when that has landed before the
report, the increment is made in the report's cycle (DEDUCED: log entry 22). -/
def Die.elasticReport (d : Die) (r : Run) (te w : Nat) : Die :=
  let entered := match d.iss.run with
    | some r => if te = 0 then r.entered0 else r.entered1
    | none => false
  let d := d.setRun fun r => { r with reported := te :: r.reported }
  let fl := (d.te te).flight
  if entered && !fl.isEmpty then
    match d.physTally r.slot (stCtally w) with
    | some p => d.updTe te fun e =>
        { e with flight := (fl.take (fl.length - 1)) ++ (fl.drop (fl.length - 1)).map fun x => { x with ctally := some p } }
    | none => d
  else
    match d.physTally r.slot (stCtally w) with
    | some p => { d with iss := { d.iss with incs := d.iss.incs ++ [(d.iss.cyc, p)] } }
    | none => d

/-- One issue cycle of an elastic STREAM. -/
def Die.streamElastic (d : Die) (r : Run) (te w : Nat) (f : Fmt) (force : Bool) (p : Prog) : Die :=
  let consumed := if te = 0 then r.consumed0 else r.consumed1
  if r.reported.contains te then d
  else
    let left := bundleHold r.bundle + 1 - consumed
    let x : Die × Nat :=
      if p.rows = 0 then (d.markEmpty r.slot te, 1)
      else if stAcc w = 1 && !force then d.elasticAdd r te w f p left
      else (d.streamRow r te w f force p, 1)
    let d := x.1.setRun fun r =>
      if te = 0 then { r with consumed0 := consumed + x.2 } else { r with consumed1 := consumed + x.2 }
    if left ≤ x.2 then d.elasticReport r te w else d

/-- One issue cycle of a STREAM. -/
def Die.stream_ (d : Die) (te : Nat) (r : Run) (w : Nat) : Die :=
  match wlFmt w with
  | none => d
  | some f =>
    let force := if te = 0 then r.force0 else r.force1
    let p := d.prog r.slot te (stSrc w)
    if stGate w = 3 then d.streamElastic r te w f force p
    else if p.rows = 0 then d.markEmpty r.slot te
    else if f = .int16 then d.streamInt16 r te w force p
    else d.streamRow r te w f force p

/-! ### Completion (R128 to R134, R159 to R177, R216) -/

/-- One column of a row at completion. -/
structure ColOut where
  code     : Nat
  accSat   : Nat
  nan      : Bool
  eligible : Bool
  gated    : Bool
  side     : Nat
  sideSat  : Bool

/-- What a column of token 0 brings to the gate test. -/
structure ColTest where
  cr  : ColRec
  p    : FVal
  est  : FVal
  b    : FVal
  span : Option (FVal × FVal)

def RowFlight.mode (r : RowFlight) : Nat := if r.force then 0 else stGate r.word.toNat
def RowFlight.acc (r : RowFlight) : Nat := stAcc r.word.toNat
def RowFlight.fmt (r : RowFlight) : Fmt := ((Fmt.ofCode (bitsOf r.word.toNat 57 55))).getD .int8
def RowFlight.outFmt (r : RowFlight) : Fmt := (Fmt.ofCode r.dstFmt.toNat).getD .int8

/-- The row's mode tests its outputs (R166). -/
def RowFlight.tests (r : RowFlight) : Bool :=
  let f := r.fmt
  decide (f = .int8 ∨ f = .bf16 ∨ f = .int16) && !r.blocked &&
    (decide (r.mode = 2) || (decide (r.mode = 1 ∨ r.mode = 3) && decide (r.acc = 2) && decide (stBound r.word.toNat ≠ 0)))

/-- 2^−e of the row's scale record; SCALE +0 acts as 1 (R216). -/
def RowFlight.down (r : RowFlight) : Int :=
  match r.recScale with
  | some c => match dec32 c.toNat with
    | .fin _ m e => if m = 0 then 0 else (Nat.log2 m : Int) + e
    | _ => 0
  | none => 0

def RowFlight.chain (r : RowFlight) (cr : ColRec) : Chain :=
  let int := intChain r.fmt r.blocked
  { int := int, bias := if int then .ofInt (sext 32 cr.bias) else dec32 cr.bias, scale := dec32 cr.scale,
    down := r.down, fmt := r.outFmt }

/-- The gate quantities of column `c`, whose partial is `p`; B is 0 on a plane that no WLOAD has loaded (R172). -/
def RowFlight.colTest (r : RowFlight) (q : RowBound) (c : Nat) (p : FVal) : ColTest :=
  let f := r.fmt
  let cr := colRec r.plane.stats c
  let est := r.estimate f c
  let b := if r.plane.loaded then marginBound f q cr (boundK f r.plane.rows) else .zero
  let usable := decide (r.mode = 2) || decide (stBound r.word.toNat ≠ 2) || constUsable cr
  let span := if r.mode = 2 then none else if usable then gateInterval (r.chain cr) p est b cr q else none
  { cr := cr, p := p, est := est, b := b, span := span }

/-- The comparison is reached (R188), and the output is gated (R161, R173). DESIGN CHOICE (log entry 113): in bounded mode a
non-finite partial is no operand. -/
def RowFlight.decide_ (r : RowFlight) (q : RowBound) (x : ColTest) (top : Option FVal) : Bool × Bool :=
  if r.mode = 2 then
    if x.cr.nogate || !q.finite || !x.b.isFin then (false, false)
    else (true, FVal.lt x.b (if r.fmt = .bf16 then dec32 x.cr.limit else .ofNat x.cr.limit))
  else
    match x.span with
    | some s => (true, gateTest (stBound r.word.toNat) x.cr s.1 s.2 top)
    | none => (false, false)

/-- The sidecar value (R175): UINT32 that holds, or FP32 toward +∞. -/
def sideNext (bf : Bool) (old : Nat) (beta : FVal) : Nat × Bool :=
  if bf then (enc32 (up32 ((dec32 old).add beta)), false)
  else
    let v := old + beta.toInt.toNat
    if v ≤ 0xFFFFFFFF then (v, false) else (0xFFFFFFFF, true)

/-- The value a column contributes, its saturation in the sum, and what is stored for it (R132, R163, R174). -/
def RowFlight.output (r : RowFlight) (t c : Nat) (cr : ColRec) (p : FVal) (gate : Option FVal) : Nat × Nat × Bool :=
  let f := r.fmt
  let int := intChain f r.blocked
  let s : FVal × Bool := match gate with
    | some est => (est, false)
    | none => if c < f.outputs then r.sum f t c else (.zero, false)
  if r.acc = 2 then
    let x := (r.chain cr).final p s.1
    (x.1.code, b2n x.2 + b2n x.1.sat, x.1.nan)
  else
    let v := if r.acc = 1 then accumulate int p s.1
             else if int then
               let z := sat32 s.1.toInt
               (.ofInt z.1, z.2)
             else (rne32 s.1, false)
    (if int then wrapNat 32 v.1.toInt else enc32 v.1, b2n v.2, false)

/-- Saturations of the column sums of R130: every column of the row but the gated ones. -/
def RowFlight.sumSats (r : RowFlight) (gated : List Nat) : Nat :=
  if r.fmt = .int16 then countBelow 256 fun c => !(gated.contains c) && (r.sum .int16 0 c).2 else 0

/-- Values of `bits` bits, packed from the low end; a last half byte is filled with 0 (R309). -/
def packCodes (bits : Nat) (cs : List Nat) : List Byte :=
  if bits = 4 then
    (List.range ((cs.length + 1) / 2)).map fun i => BitVec.ofNat 8 (nth 0 cs (2 * i) % 16 + 16 * (nth 0 cs (2 * i + 1) % 16))
  else (cs.map fun c => leBytes (bits / 8) c).flatten

/-- Everything a completing row gives. -/
structure RowOut where
  data     : List Byte
  side     : List Byte
  accSat   : Nat
  nan      : Bool
  eligible : Nat
  gated    : Nat
  sideSat  : Nat

/-- The row combines with its partial `praw` and sidecar `sraw` (R128); a sidecar row has the DST's columns (R310; DEDUCED: log
entry 115). -/
def RowFlight.complete (r : RowFlight) (praw sraw : List Byte) : RowOut :=
  let f := r.fmt
  let int := intChain f r.blocked
  let cols := (List.range r.ncol).map (r.col0 + ·)
  let part (t i : Nat) : FVal := if r.acc = 0 then .zero else decodePartial int (le4 praw (4 * (t * r.ncol + i)))
  let q := r.rowBound f
  let tests : List (Nat × ColTest) := if r.tests then
      ((List.range r.ncol).zip cols).filterMap fun ic => if ic.2 < f.outputs then some (ic.2, r.colTest q ic.2 (part 0 ic.1)) else none
    else []
  let top : Option FVal := tests.foldl (fun o x =>
    match x.2.span, o with
    | some s, some l => some (l.max2 s.1)
    | some s, none => some s.1
    | none, o => o) none
  let verdicts := tests.map fun x => (x.1, x.2, r.decide_ q x.2 top)
  let gateOf (c : Nat) : Option ColTest :=
    (verdicts.find? fun v => decide (v.1 = c) && v.2.2.2).map fun v => v.2.1
  let outs := (List.range f.tokens).flatMap fun t =>
    ((List.range r.ncol).zip cols).map fun ic =>
      let g := if t = 0 then (gateOf ic.2) else none
      r.output t ic.2 (colRec r.plane.stats ic.2) (part t ic.1) (g.map ColTest.est)
  let gatedCols := (verdicts.filter fun v => v.2.2.2).map fun v => v.1
  let sides := ((List.range r.ncol).zip cols).map fun ic =>
    let beta := match gateOf ic.2 with | some x => x.b | none => .zero
    if r.force then (0, false) else sideNext (decide (f = .bf16)) (if r.acc = 0 then 0 else le4 sraw (4 * ic.1)) beta
  { data := packCodes (if r.acc = 2 then r.outFmt.bits else 32) (outs.map (·.1))
    side := (sides.map fun x => leBytes 4 x.1).flatten
    accSat := (outs.map (·.2.1)).foldl (· + ·) 0 + r.sumSats gatedCols
    nan := outs.any (·.2.2)
    eligible := (verdicts.filter fun v => v.2.2.1).length
    gated := gatedCols.length
    sideSat := (sides.filter (·.2)).length }

/-- Counters of a completed row, unless its context is confidential (R149, R188, R225). -/
def Engine.countRow (e : Engine) (o : RowOut) (side : Bool) : Engine :=
  { e with accSat := satInc32 e.accSat o.accSat, nanFinal := e.nanFinal || o.nan,
           eligible := inc64 e.eligible o.eligible, gated := inc64 e.gated o.gated,
           sidecarSat := if side then satInc32 e.sidecarSat o.sideSat else e.sidecarSat }

/-- The partials that a row reads at its destination: as it has read them, or as they now stand (R128). -/
def Die.partialRead (d : Die) (r : RowFlight) (acc vals : Nat) : List Byte :=
  match r.part with
  | some p => p.1
  | none => if acc = 0 then [] else (d.slotRead r.slot r.dstSpace r.dstAddr (4 * vals)).1

/-- Its sidecar values likewise (R175). -/
def Die.sidecarRead (d : Die) (r : RowFlight) (acc : Nat) : List Byte :=
  match r.part with
  | some p => p.2
  | none =>
    match r.sideAddr with
    | some a => if acc = 0 then [] else (d.slotRead r.slot r.dstSpace a (4 * r.ncol)).1
    | none => []

/-- Values of a row at its destination. -/
def RowFlight.vals (r : RowFlight) : Nat := r.ncol * r.fmt.tokens

/-- ACC of an FSTREAM (R104). -/
def flAcc (w : Nat) : Nat := bitsOf w 54 53

/-- A row reads its partials and sidecar values, unless it has (R128, R175, R312). -/
def Die.readRow (d : Die) (acc vals : RowFlight → Nat) (q : RowFlight) : RowFlight :=
  if q.part = none then { q with part := some (d.partialRead q (acc q) (vals q), d.sidecarRead q (acc q)) } else q

/-- The destination's bytes of a Mica job. -/
def MicaJob.dest (j : MicaJob) (st : Stores) : List Byte :=
  (j.rows.map fun r => if r.2.2.2 then st.read r.1 r.2.1 r.2.2.1 else List.replicate r.2.2.1 0).flatten

/-- CMUL under MACC reads its destination in the cycle after its entry: four before it writes (R316). -/
def MicaJob.readNow (j : MicaJob) (st : Stores) (m : Nat) : MicaJob :=
  if j.macc && decide (j.op = 3) && j.old.isNone && decide (j.ready ≤ m + 4) then { j with old := some (j.dest st) } else j

/-- The reads of an engine that fall in cycle `m` or before it: destinations 512 cycles after a row's entry (R128), and the statistics
entries of its planes and of the planes that its rows carry (R172). -/
def Engine.readDue (e : Engine) (d : Die) (m : Nat) : Engine :=
  { e with
    flight := e.flight.map fun q =>
      let q := { q with plane := q.plane.statDue d.st m }
      if q.entry + 512 ≤ m then d.readRow RowFlight.acc RowFlight.vals q else q,
    plane0 := e.plane0.statDue d.st m, plane1 := e.plane1.statDue d.st m }

/-- Every read of the stores that is under way and falls in cycle `m` or before it is made: those of the engines, Flint's destinations
128 cycles after a row's entry (R312), Mica's (R316). Whatever then writes in cycle `m` is not seen by them (R129). -/
def Die.readDue (d : Die) (m : Nat) : Die :=
  let due (lat : Nat) (acc vals : RowFlight → Nat) (q : RowFlight) : RowFlight :=
    if q.entry + lat ≤ m then d.readRow acc vals q else q
  { d with te0 := d.te0.readDue d m,
           te1 := d.te1.readDue d m,
           fln := { d.fln with flight := d.fln.flight.map (due 128 (fun q => flAcc q.word.toNat) RowFlight.ncol) },
           mca := { d.mca with jobs := d.mca.jobs.map fun j => j.readNow d.st m } }

/-- A write in the present cycle. -/
def Die.storeNow (d : Die) (space a : Nat) (bs : List Byte) : Die :=
  let d := d.readDue d.iss.cyc
  { d with st := d.st.write space a bs }

/-- Land one row of an engine: result and sidecar written; the increment of the elastic completion tally follows in the next cycle
(R128, R180). -/
def Die.landRow (d : Die) (te : Nat) (r : RowFlight) : Die :=
  let o := r.complete (d.partialRead r r.acc r.vals) (d.sidecarRead r r.acc)
  let d := if r.dstOk && decide (r.acc ≠ 3) then { d with st := d.st.write r.dstSpace r.dstAddr o.data } else d
  let d := match r.sideAddr with
    | some a => if d.granted r.slot r.dstSpace a (4 * r.ncol) then { d with st := d.st.write r.dstSpace a o.side } else d
    | none => d
  let d := if r.conf then d else d.updTe te fun e => e.countRow o r.sideAddr.isSome
  match r.ctally with
  | some p => { d with iss := { d.iss with incs := d.iss.incs ++ [(r.entry + 518, p)] } }
  | none => d

/-- Cycles from a row's entry to its result's write (R128, R312). -/
def engineLatency : Nat := 517

/-- The oldest row of an engine, when it is due. An uncorrectable word that its partials hold, or that its write covers in
part, ends the context and discards the row (R230, R231). -/
def Die.rowComplete (d : Die) (te : Nat) (e : Ecc) : Die :=
  match (d.te te).flight with
  | [] => d
  | r :: _ =>
    if r.entry + engineLatency ≤ d.iss.cyc then
      let d := d.readDue (r.entry + engineLatency)
      let r := d.readRow RowFlight.acc RowFlight.vals (((d.te te).flight.head?).getD r)
      let d := d.updTe te fun x => { x with flight := x.flight.drop 1 }
      let d := d.ecc e (some r.slot) { code := 0 }
      if eccBad e then d else d.landRow te r
    else d

/-! ### The commands -/

/-- STREAM_ROW_COMPLETE (R128): the oldest row inside the engine, 517 cycles after its entry. -/
def execStreamRowComplete (te : Fin 2) (ecc : Ecc) (s : State) : Host.Outcome State Fault Refusal :=
  s.act fun d => d.rowComplete te.val ecc

end Sys2Proof.Machine
end

