-- ==== Sys2Proof/Machine/Flint.lean ====
section
/-! DEFINITION. Flint: FWLOAD, FSTREAM and a row's completion (R103 to R105, R301, R306, R309, R312 to R315). -/

namespace Sys2Proof.Machine

/-! ### Fields (R104) -/

def flFmt (w : Nat) : Option Fmt :=
  if bitsOf w 56 55 = 0 then some .int8 else if bitsOf w 56 55 = 1 then some .e4m3
  else if bitsOf w 56 55 = 2 then some .e5m2 else none
def flLoadSrc (w : Nat) : Nat := bitsOf w 54 44
def flSrc (w : Nat) : Nat := bitsOf w 52 42
def flDst (w : Nat) : Nat := bitsOf w 41 31

/-- Flint's array: 64 rows, 64 columns (R104). -/
def flintSize : Nat := 64

/-- Unit number of Flint's program table, and its bit of XFR_AG_EMPTY (R318). -/
def flintUnit : Nat := 2
def flintEmptyBit : Nat := 4

/-! ### FWLOAD -/

/-- One issue cycle of an FWLOAD: the first marks every row unwritten (R90, R313). -/
def Die.fwload (d : Die) (r : Run) (w : Nat) : Die :=
  match flFmt w with
  | none => d
  | some _ =>
    let p := d.prog r.slot flintUnit (flLoadSrc w)
    let d := if r.firstCycle then
        { d with fln := { d.fln with rows := [], next := 0, ffmt := BitVec.ofNat 2 (bitsOf w 56 55) } }
      else d
    if p.rows = 0 then d.markEmpty r.slot flintEmptyBit
    else
      let k := d.fln.next
      let d := if k < flintSize then
          let row := d.fetchRow r.slot p.space p (d.row r.slot flintUnit (flLoadSrc w)) flintSize 0
          let f := { d.fln with rows := Tab.insert d.fln.rows k (row.1.map Prod.snd), next := k + 1 }
          let f := if d.isConf r.slot then f else { f with wrows := inc64 f.wrows 1 }
          Die.markRefused { d with fln := f } row.2
        else d
      d.advance r.slot flintUnit (flLoadSrc w) 1

/-! ### FSTREAM -/

/-- The column records of a FINAL bundle are read in its first issue cycle (R314). -/
def Die.readColrec (d : Die) (r : Run) (w : Nat) : Die :=
  if r.firstCycle && decide (flAcc w = 2) then
    let pd := d.prog r.slot flintUnit (flDst w)
    let x := d.slotRead r.slot pd.space pd.sbase 512
    Die.markRefused { d with fln := { d.fln with colrec := x.1 } } x.2
  else d

/-- The row that enters, and whether one of its accesses is refused. DESIGN CHOICE (log entry 90): it keeps Flint's plane as it stands in
its entry cycle. -/
def Die.flintRow (d : Die) (r : Run) (w : Nat) (act : List Byte) : RowFlight × Bool :=
  let pd := d.prog r.slot flintUnit (flDst w)
  let addr := pd.rowAddr (d.row r.slot flintUnit (flDst w))
  let cols := pd.columns flintSize
  let okW := d.granted r.slot pd.space addr (packedBytes cols.2 (if flAcc w = 2 then pd.ebits else 32))
  let okR := flAcc w = 0 || d.granted r.slot pd.space addr (4 * cols.2)
  let exists_ := decide (0 < pd.rows)
  ({ entry := d.iss.cyc, slot := r.slot, conf := d.isConf r.slot, word := BitVec.ofNat 64 w, bundle := r.pc,
     force := false, act := act, actScale := [], blocked := false, plane := { rows := d.fln.rows },
     dstSpace := pd.space, dstAddr := addr.toNat, dstFmt := BitVec.ofNat 4 pd.efmt, col0 := cols.1, ncol := cols.2,
     sideAddr := none, dstOk := okW && exists_ && decide (0 ≤ addr), recScale := none, ctally := none,
     colrec := d.fln.colrec },
   exists_ && (!okW || !okR))

/-- One issue cycle of an FSTREAM. An empty source makes no read and enters nothing (R306); the destination's cursor moves as
in every cycle that names it (R300). -/
def Die.fstream (d : Die) (r : Run) (w : Nat) : Die :=
  match flFmt w with
  | none => d
  | some _ =>
    let p := d.prog r.slot flintUnit (flSrc w)
    if p.rows = 0 then
      let d := d.markEmpty r.slot flintEmptyBit
      if flDst w = flSrc w then d else d.advance r.slot flintUnit (flDst w) 1
    else
      let d := d.readColrec r w
      let row := d.fetchRow r.slot p.space p (d.row r.slot flintUnit (flSrc w)) flintSize 0
      let x := d.flintRow r w (row.1.map Prod.snd)
      let f := { d.fln with flight := d.fln.flight ++ [x.1] }
      let f := if d.isConf r.slot then f else { f with rowsCnt := inc64 f.rowsCnt 1 }
      let d := (Die.markRefused { d with fln := f } row.2).markRefused x.2
      let d := d.advance r.slot flintUnit (flSrc w) 1
      if flDst w = flSrc w then d else d.advance r.slot flintUnit (flDst w) 1

/-! ### Completion -/

/-- The sum of one column: R130 over 64 elements. -/
def RowFlight.flintSum (r : RowFlight) (f : Fmt) (c : Nat) : FVal × Bool :=
  let ps := r.plane.rows.map fun row => (f.decode (byteAt r.act row.1)).mul (f.decode (byteAt row.2 c))
  if f.isInt then
    let z := sat32 (intSum ps)
    (.ofInt z.1, z.2)
  else (rne32 (fpSum false (decide (flintSize ≤ ps.length)) ps), false)

/-- The chain of a column: its record holds BIAS and SCALE (R314). -/
def RowFlight.flintChain (r : RowFlight) (f : Fmt) (c : Nat) : Chain :=
  let bias := le4 r.colrec (8 * c)
  { int := f.isInt, bias := if f.isInt then .ofInt (sext 32 bias) else dec32 bias,
    scale := dec32 (le4 r.colrec (8 * c + 4)), down := 0, fmt := r.outFmt }

/-- A column's stored code, its saturations and whether FINAL narrowed a NaN to an integer or FP4 (R197). -/
def RowFlight.flintOut (r : RowFlight) (f : Fmt) (c : Nat) (p : FVal) : Nat × Nat × Bool :=
  let acc := flAcc r.word.toNat
  let s := r.flintSum f c
  if acc = 2 then
    let x := (r.flintChain f c).final p s.1
    (x.1.code, b2n s.2 + b2n x.2 + b2n x.1.sat, x.1.nan)
  else
    let v := if acc = 1 then accumulate f.isInt p s.1 else s
    (if f.isInt then wrapNat 32 v.1.toInt else enc32 v.1, b2n s.2 + (if acc = 1 then b2n v.2 else 0), false)

/-- Land one row of Flint. -/
def Die.flintLand (d : Die) (r : RowFlight) : Die :=
  match flFmt r.word.toNat with
  | none => d
  | some f =>
    let acc := flAcc r.word.toNat
    let praw := d.partialRead r acc r.ncol
    let outs := (List.range r.ncol).map fun i =>
      r.flintOut f (r.col0 + i) (if acc = 0 then .zero else decodePartial f.isInt (le4 praw (4 * i)))
    let data := packCodes (if acc = 2 then r.outFmt.bits else 32) (outs.map (·.1))
    let d := if r.dstOk && decide (acc ≠ 3) then { d with st := d.st.write r.dstSpace r.dstAddr data } else d
    if r.conf then d
    else { d with fln := { d.fln with accSat := satInc32 d.fln.accSat ((outs.map (·.2.1)).foldl (· + ·) 0),
                                      nan := d.fln.nan || outs.any (·.2.2) } }

/-- Cycles from a row's entry to its result's write (R312). -/
def flintLatency : Nat := 133

/-- The oldest row inside Flint, when it is due. -/
def Die.flintComplete (d : Die) (e : Ecc) : Die :=
  match d.fln.flight with
  | [] => d
  | r :: _ =>
    if r.entry + flintLatency ≤ d.iss.cyc then
      let d := d.readDue (r.entry + flintLatency)
      let r := d.readRow (fun q => flAcc q.word.toNat) RowFlight.ncol r
      let d := { d with fln := { d.fln with flight := d.fln.flight.drop 1 } }
      let d := d.ecc e (some r.slot) { code := 0 }
      if eccBad e then d else d.flintLand r
    else d

/-! ### The commands -/

/-- FLINT_ROW_COMPLETE (R312): the oldest row inside Flint, when its result is due. -/
def execFlintRowComplete (ecc : Ecc) (s : State) : Host.Outcome State Fault Refusal :=
  s.act fun d => d.flintComplete ecc

end Sys2Proof.Machine
end

