-- ==== Sys2Proof/Machine/Vector.lean ====
section
/-! DEFINITION. The lane groups: slot 2 (R96 to R98, R138 to R142), VCVT with block scales and scale records (R206 to
R215), VHAD (R220) and VMERGE (R373). -/

namespace Sys2Proof.Machine

/-! ### Fields (R96) -/

def vGroups (w : Nat) : Nat := bitsOf w 57 42
def vFmt (w : Nat) : Option Fmt :=
  if bitsOf w 41 39 = 0 then some .fp32 else if bitsOf w 41 39 = 1 then some .bf16
  else if bitsOf w 41 39 = 2 then some .int32 else none
def vBext (w : Nat) : Bool := bit w 38
def vA (w : Nat) : Nat := bitsOf w 37 27
def vB (w : Nat) : Nat := bitsOf w 26 16
def vDst (w : Nat) : Nat := bitsOf w 15 5

/-- Groups selected, ascending. -/
def vSelected (w : Nat) : List Nat := (List.range 16).filter fun g => bit (vGroups w) g

/-- Latency L (R97). -/
def vLatency (op : Nat) : Nat :=
  if op ≤ 3 then 4 else if op ≤ 6 then 2 else if op = 7 then 12 else if op ≤ 9 then 10 else if op = 10 then 6
  else if op ≤ 13 then 8 else if op = 14 then 14 else 4

/-! ### Lane arithmetic (R139 to R142) -/

/-- A result in VFMT: one rounding, or saturation to INT32, with the mark of R140. -/
def laneResult (f : Fmt) (v : FVal) : Nat × Bool :=
  let x := narrow f v
  (x.code, f.isInt && x.sat)

/-- max and min (R141): a NaN operand gives the other one; +0 is above −0. -/
def laneMax (a b : FVal) : FVal :=
  if a.isNan then b else if b.isNan then a
  else if a.isZero && b.isZero then (if a.sign && b.sign then a else .zero)
  else if FVal.lt a b then b else a

def laneMin (a b : FVal) : FVal :=
  if a.isNan then b else if b.isNan then a
  else if a.isZero && b.isZero then (if a.sign || b.sign then .fin true 0 0 else a)
  else if FVal.lt b a then b else a

/-- 1 in VFMT. -/
def oneCode (f : Fmt) : Nat := (narrow f (.ofNat 1)).code

/-- The operations on a, b and d (opcodes 1 to 6). -/
def lane2 (op : Nat) (f : Fmt) (a b dd : FVal) : Nat × Bool :=
  if op = 1 then laneResult f (a.add b)
  else if op = 2 then laneResult f (a.mul b)
  else if op = 3 then laneResult f ((a.mul b).add dd)
  else if op = 4 then laneResult f (laneMax a b)
  else if op = 5 then laneResult f (laneMin a b)
  else (if FVal.lt b a then oneCode f else 0, false)

/-- e^a (R141): the pick of the die within 2 ulp. -/
def laneExp (f : Fmt) (pick : Nat) (a : FVal) : Nat :=
  match a with
  | .nan => f.nanCode
  | .inf n => if n then 0 else (narrow f a).code
  | .fin _ _ _ =>
    if FVal.lt (ratio 887228 10000) a then (narrow f (.inf false)).code
    else if FVal.lt a (.fin true 200 0) then withinUlp f 2 (.fin false 1 (-288)) pick
    else withinUlp f 2 (expApprox a) pick

/-- 1 ÷ a (R141). -/
def laneRecip (f : Fmt) (pick : Nat) (a : FVal) : Nat :=
  match a with
  | .nan => f.nanCode
  | .inf n => (narrow f (.fin n 0 0)).code
  | .fin n m _ => if m = 0 then (narrow f (.inf n)).code else withinUlp f 1 (recipExact a) pick

/-- 1 ÷ √a (R141). -/
def laneRsqrt (f : Fmt) (pick : Nat) (a : FVal) : Nat :=
  match a with
  | .nan => f.nanCode
  | .inf n => if n then f.nanCode else 0
  | .fin n m _ =>
    if m = 0 then (narrow f (.inf n)).code
    else if n then f.nanCode
    else withinUlp f 1 (rsqrtExact a) pick

/-- Opcodes 7 to 9 on one lane. -/
def lane1 (op : Nat) (f : Fmt) (code : Nat) : Nat :=
  let pick := (Config.lanePick op (if f = .bf16 then 1 else 0) code).toNat
  let a := f.decode code
  if op = 7 then laneExp f pick a else if op = 8 then laneRecip f pick a else laneRsqrt f pick a

/-- One addition of VRSUM: rounded in a floating VFMT; a sum outside INT32 has no stated result. -/
def rsumAdd (f : Fmt) (a b : FVal) : FVal :=
  let s := a.add b
  if f.isInt then
    let z := s.toInt
    if (sat32 z).2 then .ofInt (Config.vrsumOverflow z).toInt else s
  else f.decode (narrow f s).code

/-- Adjacent pairs. -/
def pairUp (g : FVal → FVal → FVal) : List FVal → List FVal
  | a :: b :: t => g a b :: pairUp g t
  | l => l

/-- VRSUM: a fixed tree of 8 levels (R142). -/
def rsum (f : Fmt) (l : List FVal) : FVal := (forUpto 8 (fun _ l => pairUp (rsumAdd f) l) l).headD .zero

/-- Largest of the lanes, NaN lanes ignored; NaN when every lane is. -/
def rmax (l : List FVal) : FVal := l.foldl laneMax .nan

/-- │a│ of a lane; −2^31 under INT32 has no stated one. -/
def laneAbs (f : Fmt) (a : FVal) : FVal :=
  if f.isInt && decide (a.toInt = -2147483648) then .ofInt Config.vamaxLeast.toInt else a.abs

def lanes : Nat := 256

/-! ### Rows of a group (R138, R301) -/

/-- The 256 element codes of a row in the program's format. -/
def rowCodes (bits : Nat) (row : List Byte) : List Nat :=
  (List.range lanes).map fun i =>
    if bits = 4 then byteAt row (i / 2) / 16 ^ (i % 2) % 16
    else leNat ((row.drop (i * (bits / 8))).take (bits / 8))

/-- (g mod 8) · GSTR of R301; GSTR is a field of MATRIX alone (R295), so a CONV row is not displaced. -/
def groupShift (p : Prog) (g : Nat) : Int := if p.kind = 1 then ((g % 8) * p.gstr : Nat) else 0

/-- Row of a program for group `g`, from the store of its own side. -/
def Die.groupRow (d : Die) (s idx g : Nat) : RowBytes × Bool :=
  let p := d.prog s 5 idx
  d.fetchRow s (g / 8 + 1) p (d.row s 5 idx) (packedBytes lanes p.ebits) (groupShift p g)

/-- The element values of that row. -/
def Die.groupVals (d : Die) (s idx g : Nat) : List FVal × Bool :=
  let p := d.prog s 5 idx
  let r := d.groupRow s idx g
  let f := (Fmt.ofCode p.efmt).getD .fp32
  ((rowCodes p.ebits (r.1.map Prod.snd)).map f.decode, r.2)

/-- Operand B: the extension word, or a row (R98). -/
def Die.operandB (d : Die) (r : Run) (w : Nat) (f : Fmt) (g : Nat) : List FVal × Bool :=
  if vBext w then
    let x := bundleExt r.bundle
    (List.replicate lanes (if f = .bf16 then f.decode (x / 65536) else f.decode x), false)
  else d.groupVals r.slot (vB w) g

/-! ### Results -/

/-- A result to land L cycles after this one, inside the grant; outside it is refused (R58). -/
def Die.vland (d : Die) (s op space : Nat) (a : Int) (data : List Byte) : Die :=
  if d.granted s space a data.length then
    { d with vec := { d.vec with landings := d.vec.landings ++
        [{ ready := d.iss.cyc + vLatency op - 1, entry := d.iss.cyc, slot := s, space := space, addr := a.toNat, data := data }] } }
  else d.markRefused true

/-- A fold into AMAX_CUR, landing as a maximum (R215): marked by 16 above its space. -/
def Die.vfold (d : Die) (s op space : Nat) (a : Int) (m : FVal) : Die :=
  if d.granted s space a 4 then
    { d with vec := { d.vec with landings := d.vec.landings ++
        [{ ready := d.iss.cyc + vLatency op - 1, entry := d.iss.cyc, slot := s, space := space + 16, addr := a.toNat, data := leBytes 4 (enc32 m) }] } }
  else d.markRefused true

/-- The result row of a group: as many bytes of its lanes as the destination row holds. -/
def Die.landRowOf (d : Die) (s op dst g bits : Nat) (codes : List Nat) : Die :=
  let p := d.prog s 5 dst
  if p.rows = 0 then d
  else d.vland s op (g / 8 + 1) (p.rowAddr (d.row s 5 dst) + groupShift p g) ((packCodes bits codes).take p.rowb)

/-- One element per group, at position g of the destination row (R142). -/
def Die.landElem (d : Die) (s op dst g bits code : Nat) : Die :=
  let p := d.prog s 5 dst
  if p.rows = 0 then d
  else d.vland s op (g / 8 + 1) (p.rowAddr (d.row s 5 dst) + (g * (bits / 8) : Nat)) (packCodes bits [code])

/-- Saturated lanes of a side under INT32 (R140, R149). -/
def Die.countVecSat (d : Die) (s side n : Nat) : Die :=
  d.countUnless s fun d => d.updTe side fun e => { e with vecSat := satInc32 e.vecSat n }

def Die.countCvt (d : Die) (s side n : Nat) (nan : Bool) : Die :=
  d.countUnless s fun d => d.updTe side fun e => { e with cvtSat := satInc32 e.cvtSat n, nanVcvt := e.nanVcvt || nan }

/-- Programs an operation names, each once: their cursors advance together (R300). -/
def vProgs (op w : Nat) (stage : Nat) : List Nat :=
  let b := if (op ≤ 6 ∧ vBext w = false) ∨ op = 14 ∨ (op = 15 ∧ 8 ≤ stage) then [vB w] else []
  ([vA w] ++ b ++ [vDst w]).eraseDups

/-- Sources an operation names. -/
def vSources (op w : Nat) (stage : Nat) : List Nat :=
  let b := if (op ≤ 6 ∧ vBext w = false) ∨ op = 14 ∨ (op = 15 ∧ 8 ≤ stage) then [vB w] else []
  [vA w] ++ b

/-- The issue cycle of a slot-2 operation around what each group does: counters, empty sources, cursors. DESIGN CHOICE (log entry 135): with
an empty source among those it names it writes no result, and its other cursors advance. -/
def Die.vectorCycle (d : Die) (r : Run) (op w : Nat) (each : Nat → Die → Die) : Die :=
  let gs := vSelected w
  let side (k : Nat) : Bool := gs.any fun g => decide (g / 8 = k)
  let stage := (d.prog r.slot 5 (vA w)).hadStage
  let empty := (vSources op w stage).any fun i => decide ((d.prog r.slot 5 i).rows = 0)
  let count (k : Nat) (d : Die) : Die :=
    if side k then d.countUnless r.slot fun d => d.updTe k fun e => { e with vecCycles := inc64 e.vecCycles 1 } else d
  let mark (k : Nat) (d : Die) : Die := if side k && empty then d.markEmpty r.slot (2 + k) else d
  let d := mark 1 (mark 0 (count 1 (count 0 d)))
  let d := if empty then d else forIn' gs each d
  (vProgs op w stage).foldl (fun d i => d.advance r.slot 5 i 1) d

/-! ### The element-wise operations and reductions -/

/-- Opcodes 1 to 6 on one group. -/
def Die.vElem (r : Run) (op w : Nat) (f : Fmt) (g : Nat) (d : Die) : Die :=
  let a := d.groupVals r.slot (vA w) g
  let b := d.operandB r w f g
  let dd : List FVal × Bool := if op = 3 then d.groupVals r.slot (vDst w) g else ([], false)
  let d := ((d.markRefused a.2).markRefused b.2).markRefused dd.2
  let rs := (List.range lanes).map fun i => lane2 op f (nth .zero a.1 i) (nth .zero b.1 i) (nth .zero dd.1 i)
  let d := if op ≤ 3 then d.countVecSat r.slot (g / 8) (rs.filter Prod.snd).length else d
  d.landRowOf r.slot op (vDst w) g f.bits (rs.map Prod.fst)

/-- Opcodes 7 to 9 on one group; INT32 is no format of theirs (R140). -/
def Die.vUnary (r : Run) (op w : Nat) (f : Fmt) (g : Nat) (d : Die) : Die :=
  if f.isInt then d
  else
    let a := d.groupRow r.slot (vA w) g
    let d := d.markRefused a.2
    let codes := rowCodes (d.prog r.slot 5 (vA w)).ebits (a.1.map Prod.snd)
    let pf := (Fmt.ofCode (d.prog r.slot 5 (vA w)).efmt).getD .fp32
    d.landRowOf r.slot op (vDst w) g f.bits (codes.map fun c => lane1 op f (if pf = f then c else (narrow f (pf.decode c)).code))

/-- VRMAX and VRSUM on one group. -/
def Die.vReduce (r : Run) (op w : Nat) (f : Fmt) (g : Nat) (d : Die) : Die :=
  let a := d.groupVals r.slot (vA w) g
  let d := d.markRefused a.2
  d.landElem r.slot op (vDst w) g f.bits (narrow f (if op = 11 then rmax a.1 else rsum f a.1)).code

/-! ### Scale records (R208 to R215) -/

/-- FMAX by TFMT (R209); none for BF16, whose SCALE is always 1.0. -/
def fmaxOf (t : Nat) : Option FVal :=
  if t = 0 then some (.ofNat 7) else if t = 1 then some (.ofNat 6) else if t = 2 then some (.ofNat 448)
  else if t = 3 then some (.ofNat 57344) else if t = 4 then some (.ofNat 127) else if t = 6 then some (.ofNat 32767)
  else none

/-- The largest e with m · 2^e ≤ fmax, for finite m > 0. -/
def pow2Exp (m fmax : FVal) : Int :=
  let e := fmax.lead - m.lead
  if FVal.le (m.shift e) fmax then e else e - 1

/-- pow2_scale (R212), as an FP32 code. DESIGN CHOICE (log entry 118): 1.0 for the reserved TFMT and for a NaN. -/
def pow2Scale (tfmt margin : Nat) (code : Nat) : Nat :=
  match fmaxOf tfmt with
  | none => 0x3F800000
  | some fmax =>
    let m := match dec32 code with
      | .inf _ => dec32 0x7F7FFFFF
      | v => v.abs
    if m.isZero || m.isNan then 0x3F800000
    else enc32 (.fin false 1 (max (-126) (min 127 (pow2Exp m fmax - margin))))

/-- The record's fields as words of its 128 bytes. -/
def scaleRecWord (b : List Byte) (i : Nat) : Nat := le4 b (4 * i)

def recDepth (ctrl : Nat) : Nat :=
  let n := bitsOf ctrl 4 0
  if n = 0 ∨ 16 < n then 16 else n

/-- The largest of the last `n` entries of HIST, ending before HEAD. -/
def histMax (b : List Byte) (head n : Nat) : Nat :=
  enc32 ((List.range n).foldl (fun (v : FVal) j => v.max2 (dec32 (scaleRecWord b (8 + (head + 32 - 1 - j) % 16)))) .zero)

/-- SCALE_RECORD_ROLL (R211): the record's bytes after the roll for a run. -/
def rollRecord (b : List Byte) (run : Nat) : List Byte :=
  if scaleRecWord b 3 = run then b
  else
    let ctrl := scaleRecWord b 4
    let closing := scaleRecWord b 3 ≠ 0
    let head := bitsOf ctrl 27 24
    let hist : List Nat := (List.range 16).map fun i => if closing ∧ i = head then scaleRecWord b 1 else scaleRecWord b (8 + i)
    let head' := if closing then (head + 1) % 16 else head
    let steps := if closing then min (scaleRecWord b 2 + 1) 16 else scaleRecWord b 2
    let hb : List Byte := List.replicate 32 0 ++ (hist.map fun h => leBytes 4 h).flatten
    let scale := if steps = 0 then 0
      else pow2Scale (bitsOf ctrl 19 17) (bitsOf ctrl 10 8) (histMax hb head' (min steps (recDepth ctrl)))
    let ctrl' := ctrl - head * 0x1000000 + head' * 0x1000000 - bitsOf ctrl 16 16 * 0x10000 + (if steps = 0 then 0x10000 else 0)
    leBytes 4 scale ++ leBytes 4 0 ++ leBytes 4 steps ++ leBytes 4 run ++ leBytes 4 ctrl' ++ (b.drop 20).take 12 ++
      (hist.map fun h => leBytes 4 h).flatten ++ b.drop 96

/-- Side of the lowest selected group. DESIGN CHOICE (log entry 137): side 0 when GROUPS selects none. -/
def vSide (w : Nat) : Nat := (vSelected w).headD 0 / 8

/-- Roll the record that a DST program names, in the store of `vSide`; its bytes after that. -/
def Die.rollFor (d : Die) (r : Run) (w : Nat) (p : Prog) : Die × List Byte :=
  let space := vSide w + 1
  let x := d.slotRead r.slot space p.sbase 128
  let b := rollRecord x.1 (d.slot r.slot).runNum.toNat
  let d := d.markRefused x.2
  (if x.2 then d else Die.storeNow d space p.sbase b, b)

/-- VAMAX: one group's largest │a│, and its element unless a record takes it (R141, R213). -/
def Die.vAmax (r : Run) (w : Nat) (f : Fmt) (g : Nat) (d : Die) : Die :=
  let a := d.groupVals r.slot (vA w) g
  let d := d.markRefused a.2
  let m := rmax (a.1.map (laneAbs f))
  let p := d.prog r.slot 5 (vDst w)
  if p.record then
    if m.isNan then d else d.vfold r.slot 13 (vSide w + 1) (p.sbase + 4 : Nat) m
  else d.landElem r.slot 13 (vDst w) g f.bits (narrow f m).code

/-! ### VCVT (R206, R207, R214) -/

/-- The target of a VCVT: FP32 and INT32 are named by the destination's EFMT, every other format by the slot. -/
def cvtTarget (w : Nat) (pd : Prog) : Option Fmt :=
  if pd.efmt = 8 then some .fp32 else if pd.efmt = 9 then some .int32
  else if bitsOf w 18 16 = 7 then none else Fmt.ofCode (bitsOf w 18 16)

/-- EMAX of a block-scaled format (R198). -/
def emaxOf (f : Fmt) : Int :=
  match f with
  | .e4m3 => 8 | .e5m2 => 15 | .fp4 => 2 | .int4 => 2 | _ => 0

/-- The largest finite │a│ of some lanes; +0 when there is none. -/
def finiteMax (l : List FVal) : FVal := (l.filter FVal.isFin).foldl (fun (m : FVal) v => m.max2 v.abs) .zero

/-- The block scale of R206. -/
def blockX (f : Fmt) (l : List FVal) : Nat :=
  let a := finiteMax l
  if a.isZero then 127 else (max 0 (min 254 (a.lead - emaxOf f + 127))).toNat

/-- The value narrowed into a block: MXINT8 elements count in units of 2^−6. -/
def blockNarrow (f : Fmt) (x : Nat) (v : FVal) : Narrowed :=
  narrow f (v.shift (127 - (x : Int) + (if f = .int8 then 6 else 0)))

/-- The values of SRC_A, with block scales where it carries them, or the mismatch. -/
def Die.cvtSource (d : Die) (r : Run) (w g : Nat) : List FVal × Option Skew × Bool :=
  let p := d.prog r.slot 5 (vA w)
  let row := d.groupRow r.slot (vA w) g
  let f := (Fmt.ofCode p.efmt).getD .fp32
  let codes := rowCodes p.ebits (row.1.map Prod.snd)
  if p.swalk && f.blockable then
    let sc := d.rowScales r.slot (g / 8 + 1) p row.1 8
    (((List.range lanes).map fun i => applyScale (nth 127 sc.1 (i / 32)) (blockElem f (nth 0 codes i))), sc.2.1, row.2 || sc.2.2)
  else (codes.map f.decode, none, row.2)

/-- Write the block-scaled row and its scale entries. -/
def Die.cvtBlocks (d : Die) (r : Run) (w g : Nat) (f : Fmt) (pd : Prog) (vs : List FVal) : Die :=
  let base := pd.rowAddr (d.row r.slot 5 (vDst w)) + groupShift pd g
  let xs := (List.range 8).map fun j => blockX f ((vs.drop (32 * j)).take 32)
  let ns := (List.range lanes).map fun i => blockNarrow f (nth 127 xs (i / 32)) (nth .zero vs i)
  let d := d.countCvt r.slot (g / 8) (ns.filter Narrowed.sat).length (ns.any Narrowed.nan)
  let d := d.landRowOf r.slot 10 (vDst w) g f.bits (ns.map Narrowed.code)
  forUpto 8 (fun j d =>
    let a : Int := base + (j * pd.blockBytes : Nat)
    d.vland r.slot 10 (g / 8 + 1) (pd.scaleAddr a) (leBytes 2 (nth 127 xs j + 256 * pd.expectTag (pd.blockOf a)))) d

/-- The first block of a side whose tag mismatches: the lane groups of a side are one unit (R202). -/
def Die.cvtSkew (d : Die) (r : Run) (w side : Nat) : Option Skew :=
  if (d.prog r.slot 5 (vA w)).rows = 0 then none
  else ((vSelected w).filter fun g => decide (g / 8 = side)).findSome? fun g => (d.cvtSource r w g).2.1

/-- SCALE_SKEW of both sides. -/
def Die.cvtSkews (d : Die) (r : Run) (k0 k1 : Option Skew) : Die :=
  let raise (d : Die) (side : Nat) (k : Option Skew) : Die :=
    match k with
    | some k => d.scaleSkew r.slot (27 + side) r.pc k
    | none => d
  raise (raise d 0 k0) 1 k1

/-- VCVT on one group; a group whose block mismatches enters nothing. `scale` is the record's SCALE as an FP32 code where the destination names one. -/
def Die.vCvt (r : Run) (w : Nat) (scale : Option Nat) (g : Nat) (d : Die) : Die :=
  let pd := d.prog r.slot 5 (vDst w)
  match cvtTarget w pd with
  | none => d
  | some f =>
    let src := d.cvtSource r w g
    let d := d.markRefused src.2.2
    if src.2.1.isSome then d
    else
      if pd.swalk && f.blockable then d.cvtBlocks r w g f pd src.1
      else
        let ns := src.1.map fun v => narrow f (match scale with | some c => v.mul (dec32 c) | none => v)
        let d := d.countCvt r.slot (g / 8) (ns.filter Narrowed.sat).length (ns.any Narrowed.nan)
        let d := if scale.isSome then d.vfold r.slot 10 (vSide w + 1) (pd.sbase + 4 : Nat) (finiteMax src.1) else d
        d.landRowOf r.slot 10 (vDst w) g f.bits (ns.map Narrowed.code)

/-- The SCALE every VCVT of a run uses, latched from AMAX_CUR when it is still +0 (R213, R215). -/
def Die.cvtScale (d : Die) (r : Run) (w : Nat) (pd : Prog) : Die × Option Nat :=
  if pd.record then
    let x := d.rollFor r w pd
    let sc := scaleRecWord x.2 0
    let ctrl := scaleRecWord x.2 4
    if sc = 0 then
      let s' := pow2Scale (bitsOf ctrl 19 17) (bitsOf ctrl 10 8) (scaleRecWord x.2 1)
      (x.1.vland r.slot 10 (vSide w + 1) pd.sbase (leBytes 4 s'), some s')
    else (x.1, some (if bitsOf ctrl 19 17 = 5 then 0x3F800000 else sc))
  else (d, none)

/-! ### VHAD (R220) and VMERGE (R373) -/

/-- One butterfly stage on one group (R220). DESIGN CHOICE (log entry 117): the row's place in its block is a bit of SRC_A's cursor, and a
stage of rows whose SRC_B is 0 takes program 0. -/
def Die.vHad (r : Run) (w : Nat) (f : Fmt) (g : Nat) (d : Die) : Die :=
  let p := d.prog r.slot 5 (vA w)
  let s := p.hadStage
  let a := d.groupVals r.slot (vA w) g
  let b : List FVal × Bool := if s < 8 then (a.1, false) else d.groupVals r.slot (vB w) g
  let d := (d.markRefused a.2).markRefused b.2
  let high := bit (d.row r.slot 5 (vA w)) (s - 8)
  let rs := (List.range lanes).map fun i =>
    let x := nth .zero a.1 i
    let partner := if s < 8 then nth .zero b.1 (i ^^^ 2 ^ s) else nth .zero b.1 i
    let minus := if s < 8 then bit i s else high
    laneResult f (partner.add (if minus then x.neg else x))
  let d := d.countVecSat r.slot (g / 8) (rs.filter Prod.snd).length
  d.landRowOf r.slot 15 (vDst w) g f.bits (rs.map Prod.fst)

/-- A factor of row 0 (R373). The 0 of a masked side is kept as −0, which tells it from a VEXP that underflows. -/
def mergeFactor (x m : FVal) : Nat :=
  if x = .inf true then 0x80000000
  else if !(FVal.lt x m) && !(FVal.lt m x) then 0x3F800000
  else
    let code := enc32 (x.sub m)
    lane1 7 .fp32 code

/-- A factor as the equations of R373 have it. -/
def factorVal (e : Nat) : FVal := if e = 0x80000000 then .zero else dec32 e

/-- A later row: fma(ea, a, eb · b), the product rounded once. A masked side with a component of +0 leaves the other side's
product bit for bit (R374). -/
def mergeRow (ea eb : Nat) (a b : FVal) : Nat :=
  let pb := rne32 ((factorVal eb).mul b)
  if ea = 0x80000000 ∧ a.isZero = true ∧ a.sign = false then enc32 pb
  else if eb = 0x80000000 ∧ b.isZero = true ∧ b.sign = false then enc32 ((factorVal ea).mul a)
  else enc32 (((factorVal ea).mul a).add pb)

/-- VMERGE on one group: the first row fixes the factors that the record's later rows use. -/
def Die.vMerge (r : Run) (w : Nat) (f : Fmt) (g : Nat) (d : Die) : Die :=
  if f = .fp32 then
    let a := d.groupVals r.slot (vA w) g
    let b := d.groupVals r.slot (vB w) g
    let d := (d.markRefused a.2).markRefused b.2
    if r.firstCycle then
      let d := forUpto lanes (fun i d =>
        let ma := nth .zero a.1 i
        let mb := nth .zero b.1 i
        let m := laneMax ma mb
        let nan := ma.isNan || mb.isNan
        let v : W32 × W32 × Bool := if nan then (0, 0, true) else (w32 (mergeFactor ma m), w32 (mergeFactor mb m), false)
        { d with vec := { d.vec with factors := Tab.write (0, 0, false) d.vec.factors (g * lanes + i) v } }) d
      d.landRowOf r.slot 14 (vDst w) g 32 ((List.range lanes).map fun i =>
        let ma := nth .zero a.1 i
        let mb := nth .zero b.1 i
        if ma.isNan || mb.isNan then 0x7FC00000 else enc32 (laneMax ma mb))
    else
      d.landRowOf r.slot 14 (vDst w) g 32 ((List.range lanes).map fun i =>
        let k := Tab.read (0, 0, false) d.vec.factors (g * lanes + i)
        if k.2.2 then 0x7FC00000
        else if k.1 = 0x80000000 ∧ k.2.1 = 0x80000000 then 0
        else mergeRow k.1.toNat k.2.1.toNat (nth .zero a.1 i) (nth .zero b.1 i))
  else d

/-! ### Landing -/

/-- Land one result: bytes, or a maximum folded into AMAX_CUR. -/
def Stores.land (st : Stores) (l : Landing) : Stores :=
  if 16 ≤ l.space then
    let sp := l.space - 16
    let old := dec32 (leNat (st.read sp l.addr 4))
    let new := dec32 (leNat l.data)
    st.write sp l.addr (leBytes 4 (enc32 (laneMax old new)))
  else st.write l.space l.addr l.data

/-- The earliest cycle at which a result of a list lands. -/
def earliest (l : List Landing) : Option Nat :=
  l.foldl (fun o x => match o with | some m => some (min m x.ready) | none => some x.ready) none

/-- The results due first, when they are due, in the order they were entered; and those that stay. -/
def dueLandings (cyc : Nat) (l : List Landing) : List Landing × List Landing :=
  match earliest l with
  | some m => if m ≤ cyc then (l.filter fun x => decide (x.ready = m), l.filter fun x => decide (x.ready ≠ m)) else ([], l)
  | none => ([], l)

def Stores.landAll (st : Stores) (l : List Landing) : Stores := l.foldl Stores.land st

/-- A landing's write covers a word with an uncorrectable error in part (R231). -/
def Landing.spoilt (l : Landing) (e : Ecc) : Bool := eccSpoils e (l.space % 16 - 1) l.addr l.data.length

/-- The results due first land: what was to be read before their cycle is read first, and a slot action whose write is spoilt
anywhere has all of it discarded (R231). -/
def Die.vectorLand (d : Die) (e : Ecc) : Die :=
  let x := dueLandings d.iss.cyc d.vec.landings
  match x.1 with
  | [] => d
  | l :: _ =>
    let d := Die.readDue { d with vec := { d.vec with landings := x.2 } } l.ready
    let bad := (x.1.filter fun l => l.spoilt e).map Landing.entry
    let d := { d with st := d.st.landAll (x.1.filter fun l => !bad.contains l.entry) }
    d.ecc e (some l.slot) { code := 0 }

/-- VECTOR_RESULT (R97): the results of the lane groups that are due first land. -/
def execVectorResult (s : State) (ecc : Ecc := .ok) : Host.Outcome State Fault Refusal :=
  s.act fun d => d.vectorLand ecc

end Sys2Proof.Machine
end

