-- ==== Sys2Proof/Machine/Mica.lean ====
section
/-! DEFINITION. Mica: transforms and complex products (R106, R107, R219, R301, R316). -/

namespace Sys2Proof.Machine

/-! ### Fields (R106) -/

def mcLog (w : Nat) : Nat := bitsOf w 56 53
def mcBf (w : Nat) : Bool := bit w 52
def mcSrc (w : Nat) : Nat := bitsOf w 51 41
def mcSrc2 (w : Nat) : Nat := bitsOf w 40 30
def mcDst (w : Nat) : Nat := bitsOf w 29 19

def micaUnit : Nat := 3
def micaEmptyBit : Nat := 5

/-- The LOG2N that an operation takes. -/
def mcLegal (op n : Nat) : Bool := decide (4 ≤ n ∧ n ≤ (if op = 4 then 10 else 12))

/-- L of R106, from the first input cycle. -/
def mcLatency (op n : Nat) : Nat :=
  if op = 3 then 6 else if op = 4 then 2 ^ n / 16 + 2 * n + 6 else 2 * (2 ^ n / 16) + 4 * ((n + 1) / 2) + 8

/-! ### Trigonometry: 160 fraction bits, arguments of at most π ÷ 2 -/

/-- Terms of the Taylor series of sine and cosine, with alternating sign: `z` is x². -/
def fxAlt (z first : Nat) (start : Nat) : Int :=
  ((List.range 24).foldl (fun (acc : Int × Nat) (i : Nat) =>
    let t := acc.2 * z / fxOne / ((start + 2 * i + 1) * (start + 2 * i + 2))
    (acc.1 + (if i % 2 = 0 then -(t : Int) else (t : Int)), t)) ((first : Int), first)).1

def fxSin (x : Nat) : Int := fxAlt (x * x / fxOne) x 1
def fxCos (x : Nat) : Int := fxAlt (x * x / fxOne) fxOne 0

def fxVal (z : Int) : FVal := .fin (decide (z < 0)) z.natAbs (-160)

/-- cos and sin of 2π·k ÷ 2^n, rounded to a format; a multiple of a quarter turn is exact. -/
def twiddle (f : Fmt) (k n : Nat) : FVal × FVal :=
  let q := 2 ^ n / 4
  let m := k % 2 ^ n
  let r := if q = 0 then 0 else m % q
  let quad := if q = 0 then m * (4 / 2 ^ n) else m / q
  let x := 2 * fxPi * r / 2 ^ n
  let c : FVal := if r = 0 then .ofNat 1 else f.decode (narrow f (fxVal (fxCos x))).code
  let s : FVal := if r = 0 then .zero else f.decode (narrow f (fxVal (fxSin x))).code
  if quad = 0 then (c, s) else if quad = 1 then (s.neg, c) else if quad = 2 then (c.neg, s.neg) else (s, c.neg)

/-! ### Complex arithmetic -/

abbrev Cpx := FVal × FVal

def Cpx.add (a b : Cpx) : Cpx := (FVal.add a.1 b.1, FVal.add a.2 b.2)
def Cpx.mul (a b : Cpx) : Cpx :=
  ((FVal.mul a.1 b.1).sub (FVal.mul a.2 b.2), (FVal.mul a.1 b.2).add (FVal.mul a.2 b.1))
def Cpx.round (f : Fmt) (a : Cpx) : Cpx := (f.decode (narrow f a.1).code, f.decode (narrow f a.2).code)

/-- Multiply by i^k. -/
def Cpx.turn (a : Cpx) (k : Nat) : Cpx :=
  if k % 4 = 0 then a else if k % 4 = 1 then (a.2.neg, a.1) else if k % 4 = 2 then (a.1.neg, a.2.neg) else (a.2, a.1.neg)

def cZero : Cpx := (.zero, .zero)

/-- The twiddle e^(±2πi·k ÷ 2^n); the forward transform turns by −. -/
def rotor (f : Fmt) (inv : Bool) (k n : Nat) : Cpx :=
  let t := twiddle f k n
  if inv then t else (t.1, t.2.neg)

/-- Turns of a quarter in the direction of the transform. -/
def quarter (inv : Bool) (k : Nat) : Nat := if inv then k else 3 * k

/-- Every `n`th element from the `j`th. -/
def every (n j : Nat) (l : List Cpx) : List Cpx :=
  (List.range (l.length / n)).map fun i => nth cZero l (n * i + j)

/-! ### The transforms (R316): radix-4 stages first, then a radix-2 stage when log2 N is odd -/

/-- Radix-4 stages in time, for log2 of the length 2 × the first argument. -/
def ditFour (f : Fmt) (inv : Bool) : Nat → List Cpx → List Cpx
  | 0, x => x
  | k + 1, x =>
    let n := 2 * (k + 1)
    let e0 := ditFour f inv k (every 4 0 x)
    let e1 := ditFour f inv k (every 4 1 x)
    let e2 := ditFour f inv k (every 4 2 x)
    let e3 := ditFour f inv k (every 4 3 x)
    (List.range 4).flatMap fun j => (List.range (2 ^ n / 4)).map fun i =>
      let t (m : Nat) (e : List Cpx) : Cpx := (Cpx.mul (nth cZero e i) (rotor f inv (m * i) n)).turn (quarter inv (j * m))
      Cpx.round f (Cpx.add (Cpx.add (Cpx.add (nth cZero e0 i) (t 1 e1)) (t 2 e2)) (t 3 e3))

/-- The radix-2 stage, last in time. -/
def ditTwo (f : Fmt) (inv : Bool) (n : Nat) (x : List Cpx) : List Cpx :=
  let e := ditFour f inv (n / 2) (every 2 0 x)
  let o := ditFour f inv (n / 2) (every 2 1 x)
  (List.range 2).flatMap fun j => (List.range (2 ^ n / 2)).map fun i =>
    Cpx.round f (Cpx.add (nth cZero e i) ((Cpx.mul (nth cZero o i) (rotor f inv i n)).turn (2 * j)))

/-- Interleave the results of sub-transforms: element j of each in turn. -/
def interleave (ls : List (List Cpx)) (len : Nat) : List Cpx :=
  (List.range len).flatMap fun i => ls.map fun l => nth cZero l i

/-- Stages in frequency: radix-4 while two levels stay, a radix-2 stage at the end. -/
def difStages (f : Fmt) (inv : Bool) : Nat → List Cpx → List Cpx
  | 0, x => x
  | 1, x =>
    let a := nth cZero x 0
    let b := nth cZero x 1
    [Cpx.round f (Cpx.add a b), Cpx.round f (Cpx.add a (b.turn 2))]
  | k + 2, x =>
    let q := 2 ^ k
    let out (j : Nat) : List Cpx := difStages f inv k ((List.range q).map fun i =>
      let leg (m : Nat) : Cpx := (nth cZero x (i + m * q)).turn (quarter inv (j * m))
      let s := Cpx.add (Cpx.add (Cpx.add (leg 0) (leg 1)) (leg 2)) (leg 3)
      Cpx.round f (if j = 0 then s else Cpx.mul s (rotor f inv (j * i) (k + 2))))
    interleave [out 0, out 1, out 2, out 3] q

/-- FFT or IFFT of 2^n elements in precision `f`. -/
def fftOf (f : Fmt) (inv : Bool) (n : Nat) (x : List Cpx) : List Cpx :=
  if Config.fftFrequency then difStages f inv n x
  else if n % 2 = 0 then ditFour f inv (n / 2) x else ditTwo f inv n x

/-- One stage of the rotation of R219. -/
def whtStage (f : Fmt) (s : Nat) (x : List FVal) : List FVal :=
  (List.range x.length).map fun i =>
    let a := nth .zero x i
    let b := nth .zero x (i ^^^ 2 ^ s)
    f.decode (narrow f (if bit i s then b.sub a else a.add b)).code

def whtOf (f : Fmt) (n : Nat) (x : List FVal) : List FVal := forUpto n (whtStage f) x

/-! ### Taking elements in (R301) -/

/-- Element codes of a run of bytes. -/
def elemCodes (bits n : Nat) (bs : List Byte) : List Nat :=
  (List.range n).map fun i => leNat ((bs.drop (i * (bits / 8))).take (bits / 8))

/-- Components of the 16 elements of an input cycle. -/
def mcComps (op : Nat) : Nat := if op = 4 then 16 else 32

/-- Bytes of one walk row: ROWB, or the elements that a CONV row forms. -/
def mcRowBytes (p : Prog) : Nat := if p.kind = 1 then p.rowb else p.q * p.nt * p.cpt * (p.ebits / 8)

/-- Walk rows that make up an input cycle: as many as make 16 elements (R301). Row bytes that do not divide them break
R301, which places no check under BAD_FORMAT: the rest of the last row is then not used (log entry 83). -/
def mcRows (p : Prog) (op : Nat) : Nat :=
  if mcRowBytes p = 0 then 1 else max 1 (ceilDiv (mcComps op * (p.ebits / 8)) (mcRowBytes p))

/-- Codes of one input cycle from a source program, and whether a read was refused. -/
def Die.micaTake (d : Die) (s idx op : Nat) : List Nat × Bool :=
  let p := d.prog s micaUnit idx
  let n := mcComps op * (p.ebits / 8)
  let c := d.row s micaUnit idx
  let xs := (List.range (mcRows p op)).map fun j =>
    d.fetchRow s p.space p ((c + j) % p.rows) (if mcRowBytes p = 0 then n else mcRowBytes p) 0
  (elemCodes p.ebits (mcComps op) ((xs.map fun x => x.1.map Prod.snd).flatten), xs.any Prod.snd)

/-- Destination rows of one input cycle, each with whether it lies in the grant. -/
def Die.micaRows (d : Die) (s idx op : Nat) : List (Nat × Nat × Nat × Bool) :=
  let p := d.prog s micaUnit idx
  if p.rows = 0 then []
  else
    let c := d.row s micaUnit idx
    (List.range (mcRows p op)).map fun j =>
      let a := p.rowAddr ((c + j) % p.rows)
      let n := min p.rowb (mcComps op * (p.ebits / 8) - j * p.rowb)
      (p.space, a.toNat, n, d.granted s p.space a n)

/-- Programs an action names, each once, and the rows each takes. -/
def Die.micaAdvance (d : Die) (s op w : Nat) : Die :=
  (([mcSrc w] ++ (if op = 3 then [mcSrc2 w] else []) ++ [mcDst w]).eraseDups).foldl
    (fun (d : Die) i => d.advance s micaUnit i (mcRows (d.prog s micaUnit i) op)) d

/-- The job of a finished input. `t` is its first input cycle. -/
def Die.micaJob (d : Die) (s op w t : Nat) (a b : List Nat) (rows : List (Nat × Nat × Nat × Bool)) : MicaJob :=
  let pd := d.prog s micaUnit (mcDst w)
  { ready := t + mcLatency op (mcLog w) - 1, slot := s, op := op, log2n := mcLog w, bf := mcBf w, macc := pd.macc,
    a := a, aFmt := (d.prog s micaUnit (mcSrc w)).efmt, b := b, bFmt := (d.prog s micaUnit (mcSrc2 w)).efmt,
    dFmt := pd.efmt, rows := rows }

/-- One issue cycle of a Mica operation. With an empty source nothing is taken in (R306), and the other programs' cursors
move as in every cycle that names them (R300). -/
def Die.micaCycle (d : Die) (r : Run) (op w : Nat) : Die :=
  let s := r.slot
  if !(mcLegal op (mcLog w)) then d
  else if (d.prog s micaUnit (mcSrc w)).rows = 0 ∨ (op = 3 ∧ (d.prog s micaUnit (mcSrc2 w)).rows = 0) then
    Die.micaAdvance (d.markEmpty s micaEmptyBit) s op w
  else
    let a := d.micaTake s (mcSrc w) op
    let b : List Nat × Bool := if op = 3 then d.micaTake s (mcSrc2 w) op else ([], false)
    let rows := d.micaRows s (mcDst w) op
    let d := ((d.markRefused a.2).markRefused b.2).markRefused (rows.any fun x => !x.2.2.2)
    let m := d.mca
    let m := if d.isConf s then m else { m with inputCnt := inc64 m.inputCnt 1 }
    let m :=
      if op = 3 then { m with jobs := m.jobs ++ [d.micaJob s op w d.iss.cyc a.1 b.1 rows] }
      else
        let input := m.input ++ a.1
        let inRows := m.inRows ++ rows
        let cycles := 2 ^ mcLog w / 16
        if cycles * mcComps op ≤ input.length then
          { m with input := [], inRows := [],
                   jobs := m.jobs ++ [d.micaJob s op w (d.iss.cyc + 1 - cycles) input [] inRows] }
        else { m with input := input, inRows := inRows, inSlot := s }
    Die.micaAdvance { d with mca := m } s op w

/-! ### Results -/

/-- Pairs of codes as complex values. -/
def pairs (f : Fmt) : List Nat → List Cpx
  | a :: b :: t => (f.decode a, f.decode b) :: pairs f t
  | _ => []

def MicaJob.prec (j : MicaJob) : Fmt := if j.bf then .bf16 else .fp32

/-- Component values of a job before accumulation; CMUL's are exact. -/
def MicaJob.values (j : MicaJob) : List FVal :=
  let fa := (Fmt.ofCode j.aFmt).getD .fp32
  if j.op = 3 then
    (((pairs fa j.a).zip (pairs ((Fmt.ofCode j.bFmt).getD .fp32) j.b)).map fun x =>
      let z := Cpx.mul x.1 x.2
      [z.1, z.2]).flatten
  else if j.op = 4 then whtOf j.prec j.log2n (j.a.map fa.decode)
  else ((fftOf j.prec (decide (j.op = 2)) j.log2n (pairs fa j.a)).map fun z => [z.1, z.2]).flatten

/-- Cut a run of bytes along the destination rows. -/
def cutRows : List (Nat × Nat × Nat × Bool) → List Byte → List ((Nat × Nat × Nat × Bool) × List Byte)
  | [], _ => []
  | r :: t, bs => (r, bs.take r.2.2.1) :: cutRows t (bs.drop r.2.2.1)

/-- Land a job: under MACC the destination's value is added (R293, R316). A transform's components
are in PREC, and their sum with the destination's is narrowed once (R194). A component of CMUL is rounded once, to the coarser of
PREC and the destination's format. Where the write of one of its rows is spoilt, all of it is discarded: it is one write of its slot
action (R231; DEDUCED: log entry 133). -/
def Stores.landMica (e : Ecc) (st : Stores) (j : MicaJob) : Stores :=
  let fd := (Fmt.ofCode j.dFmt).getD .fp32
  let vs := j.values
  let old := elemCodes fd.bits vs.length (j.old.getD (j.dest st))
  let codes := (vs.zip old).map fun x =>
    let v := if j.macc then (fd.decode x.2).add x.1 else x.1
    if j.op = 3 then (narrow fd (if fd = .bf16 then v else j.prec.decode (narrow j.prec v).code)).code
    else (narrow fd v).code
  let parts := (cutRows j.rows (packCodes fd.bits codes)).filter fun x => x.1.2.2.2
  if parts.any fun x => eccSpoils e (x.1.1 - 1) x.1.2.1 x.2.length then st
  else parts.foldl (fun (st : Stores) x => st.write x.1.1 x.1.2.1 x.2) st

/-- The jobs due first, when they are due, and those that stay. -/
def dueJobs (cyc : Nat) (l : List MicaJob) : List MicaJob × List MicaJob :=
  let first := l.foldl (fun (o : Option Nat) (x : MicaJob) => match o with | some m => some (min m x.ready) | none => some x.ready) none
  match first with
  | some m => if m ≤ cyc then (l.filter fun x => decide (x.ready = m), l.filter fun x => decide (x.ready ≠ m)) else ([], l)
  | none => ([], l)

/-! ### The commands -/

/-- The jobs due first land. -/
def Die.micaLand (d : Die) (e : Ecc) : Die :=
  match (dueJobs d.iss.cyc d.mca.jobs).1 with
  | [] => d
  | j :: _ =>
    let d := d.readDue j.ready
    let x := dueJobs d.iss.cyc d.mca.jobs
    Die.ecc { d with st := x.1.foldl (Stores.landMica e) d.st, mca := { d.mca with jobs := x.2 } } e (some j.slot) { code := 0 }

/-- MICA_RESULT (R106): the transform or product that is due lands. -/
def execMicaResult (s : State) (ecc : Ecc := .ok) : Host.Outcome State Fault Refusal :=
  s.act fun d => d.micaLand ecc

end Sys2Proof.Machine
end

