-- ==== Sys2Proof/Machine/Post.lean ====
section
/-! DEFINITION. The post unit: pooling, crop-and-resize, channel argmax (R108, R322 to R337). -/

namespace Sys2Proof.Machine

/-! ### Fields (R108, R323) -/

def psSrc (w : Nat) : Nat := bitsOf w 57 47
def psDst (w : Nat) : Nat := bitsOf w 46 36
def psDesc (w : Nat) : Nat := bitsOf w 35 30

def postUnit : Nat := 4
def postEmptyBit : Nat := 6

/-- L of R108. -/
def psLatency (op : Nat) : Nat :=
  if op = 1 then 6 else if op ≤ 3 then 10 else if op = 4 then 14 else if op = 5 then 6 else 8

/-- Physical number of a descriptor of the slot's window. -/
def Die.physDesc (d : Die) (s i : Nat) : Nat :=
  match (d.slot s).seg with
  | some g => g.descBase + i
  | none => 0

/-- The 32 bytes of a descriptor. DESIGN CHOICE (log entry 141): all zeros in a segment whose image holds no descriptor table. -/
def Die.descBytes (d : Die) (s i : Nat) : List Byte :=
  match (d.slot s).seg with
  | some g => if g.hasDesc then Mem.read d.st.desc (32 * (g.descBase + i)) 32 else List.replicate 32 0
  | none => List.replicate 32 0

structure Desc where
  c : Nat
  kh : Nat
  kw : Nat
  sy : Nat
  sx : Nat
  div : Nat
  outH : Nat
  outW : Nat
  nb : Nat
  coord : Bool
  boxSpace : Nat
  boxBase : Nat
  extrap : Nat

def descOf (b : List Byte) : Desc :=
  let at_ (i n : Nat) : Nat := leNat ((b.drop i).take n)
  { c := at_ 0 2, kh := bitsOf (at_ 2 1) 3 0 + 1, kw := bitsOf (at_ 2 1) 7 4 + 1, sy := bitsOf (at_ 3 1) 3 0 + 1,
    sx := bitsOf (at_ 3 1) 7 4 + 1, div := at_ 4 2, outH := bitsOf (at_ 6 1) 5 0 + 1, outW := bitsOf (at_ 7 1) 5 0 + 1,
    nb := bitsOf (at_ 8 2) 11 0 + 1, coord := bit (at_ 10 1) 0, boxSpace := bitsOf (at_ 12 4) 31 30,
    boxBase := bitsOf (at_ 12 4) 25 0, extrap := at_ 16 4 }

/-- The source walk with the descriptor's window and stride in place of its own (R327). -/
def Prog.windowed (p : Prog) (q : Desc) : Prog :=
  { p with w1 := bitsOf p.w1 31 0 + (q.kh - 1) * 2 ^ 32 + (q.kw - 1) * 2 ^ 40,
           w2 := (q.sy - 1) + (q.sx - 1) * 2 ^ 8 + bitsOf p.w2 63 16 * 2 ^ 16 }

/-! ### Results -/

/-- A result row for the destination's present row; the cursor advances once (R326). DESIGN CHOICE (log entry 140): of a row longer than the
ROWB of its program the first ROWB bytes are written. -/
def Die.postJob (d : Die) (s op w : Nat) (ns : List Narrowed) (bits : Nat) (allNan : Bool) : PostJob :=
  let p := d.prog s postUnit (psDst w)
  let a := p.rowAddr (d.row s postUnit (psDst w))
  let data := (packCodes bits (ns.map Narrowed.code)).take p.rowb
  { ready := d.iss.cyc + psLatency op - 1, entry := d.iss.cyc, slot := s, space := p.space, addr := a.toNat, data := data,
    ok := d.granted s p.space a data.length && decide (0 < p.rows),
    sats := (ns.filter Narrowed.sat).length, nan := ns.any Narrowed.nan, allNan := allNan }

def Die.addPostJob (d : Die) (s w : Nat) (j : PostJob) : Die :=
  Die.advance (Die.markRefused { d with pst := { d.pst with jobs := d.pst.jobs ++ [j] } }
    (!j.ok && decide (0 < (d.prog s postUnit (psDst w)).rows))) s postUnit (psDst w) 1

/-- LAST_OP of every post action, and whose it is (R341). -/
def Die.postAction (d : Die) (s op : Nat) : Die := { d with pst := { d.pst with lastOp := BitVec.ofNat 3 op, inSlot := s } }

/-- An input cycle is counted (R341). -/
def Die.postCount (d : Die) (s : Nat) : Die :=
  if d.isConf s then d else { d with pst := { d.pst with inputCnt := inc64 d.pst.inputCnt 1 } }

def Die.dstFmt (d : Die) (s unit idx : Nat) : Fmt := (Fmt.ofCode (d.prog s unit idx).efmt).getD .int8

/-! ### Pooling (R327 to R329) -/

/-- Tap `t` of window `i`: its piece and whether it lies inside (R303). -/
def Prog.poolTap (p : Prog) (i t : Nat) : Piece × Bool :=
  let per := p.oh * p.ow
  let pass := if per = 0 then 0 else i / per
  let r := if per = 0 then 0 else i % per
  let oy := if p.ow = 0 then 0 else r / p.ow
  let ox := if p.ow = 0 then 0 else r % p.ow
  let y : Int := (oy * p.sy : Nat) - (p.pt : Int) + (t / p.kw * p.dy : Nat)
  let x : Int := (ox * p.sx : Nat) - (p.pl : Int) + (t % p.kw * p.dx : Nat)
  (p.tap ox oy (p.c0 + pass * p.pstep) t, decide (0 ≤ y ∧ y < p.ih ∧ 0 ≤ x ∧ x < p.iw))

/-- The value of channel `c` at each tap of a window, with its inside mark. -/
def tapVals (f : Fmt) (taps : List (List Byte × Bool)) (c : Nat) : List (FVal × Bool) :=
  taps.map fun t => (f.decode (leNat ((t.1.drop (c * (f.bits / 8))).take (f.bits / 8))), t.2)

/-- A pooled channel (R328, R329). -/
def poolChannel (op div : Nat) (fd : Fmt) (vs : List (FVal × Bool)) : Narrowed :=
  if op = 1 then narrow fd (rmax (vs.map Prod.fst))
  else
    let inc := if op = 2 then vs else vs.filter Prod.snd
    let n := if div ≠ 0 then div else inc.length
    if n = 0 then { code := 0 }
    else
      let sum := match inc with
        | [] => FVal.zero
        | v :: rest => rest.foldl (fun (a : FVal) (x : FVal × Bool) => a.add x.1) v.1
      narrow fd (sum.divNat n)

/-- Windows of a pooling action's source. -/
def Prog.windows (p : Prog) : Nat := if p.kind = 2 ∨ p.kind = 3 then p.npass * p.oh * p.ow else 0

/-- Input rows of the window or run in progress; an action's first issue cycle begins anew. -/
def Die.postTaps (d : Die) (r : Run) : List (List Byte × Bool) := if r.firstCycle then [] else d.pst.taps

/-- The tap that a pooling action takes in the present cycle. -/
def Die.poolNext (d : Die) (r : Run) (w : Nat) (p : Prog) : Piece × Bool :=
  p.poolTap (d.row r.slot postUnit (psSrc w) % p.windows) (d.postTaps r).length

/-- One input cycle of a pooling action. -/
def Die.poolCycle (d : Die) (r : Run) (op w : Nat) : Die :=
  let s := r.slot
  let q := descOf (d.descBytes s (psDesc w))
  let p := (d.prog s postUnit (psSrc w)).windowed q
  if p.windows = 0 then d.markEmpty s postEmptyBit
  else
    let d := d.postCount s
    let i := d.row s postUnit (psSrc w)
    let x := d.poolNext r w p
    let b := d.takePiece s p.space 0 x.1
    let taps := d.postTaps r ++ [(b.1.map Prod.snd, x.2)]
    let d := d.markRefused b.2
    if taps.length < q.kh * q.kw then { d with pst := { d.pst with taps := taps } }
    else
      let fs := (Fmt.ofCode p.efmt).getD .int8
      let fd := d.dstFmt s postUnit (psDst w)
      let ns := (List.range p.cpt).map fun c => poolChannel op q.div fd (tapVals fs taps c)
      let d := { d with pst := { d.pst with taps := [] } }
      let d := d.addPostJob s w (d.postJob s op w ns fd.bits false)
      match (d.slot s).physProg postUnit (psSrc w) with
      | some k => d.setCursor postUnit k ((i + 1) % p.windows)
      | none => d

/-! ### Crop-and-resize (R330 to R333) -/

/-- Coordinate of sample `i` of `n` between two ends (R331). -/
def sampleAt (a b : FVal) (n i : Nat) : FVal :=
  if 1 < n then
    let step := rne32 ((rne32 (b.sub a)).divNat (n - 1))
    rne32 (((FVal.ofNat i).mul step).add a)
  else rne32 ((rne32 (a.add b)).shift (-1))

/-- The box's ends, scaled under COORD 1 (R330). -/
def boxEnds (q : Desc) (p : Prog) (box : List W32) : FVal × FVal × FVal × FVal :=
  let v (i : Nat) : FVal := dec32 (nth 0 box i).toNat
  let sc (n : Nat) (x : FVal) : FVal := if q.coord then rne32 (x.mul (.ofNat (n - 1))) else x
  (sc p.ih (v 0), sc p.iw (v 1), sc p.ih (v 2), sc p.iw (v 3))

/-- v lies in [0, n − 1]. -/
def inExtent (v : FVal) (n : Nat) : Bool := !v.isNan && !(FVal.lt v .zero) && !(FVal.lt (.ofNat (n - 1)) v)

/-- ⌊v⌋ and the nearest integer of a value that is not negative. -/
def floorOf : FVal → Nat
  | .fin _ m e => roundTrunc m e 0
  | _ => 0
def nearestOf : FVal → Nat
  | .fin _ m e => roundRne m e 0
  | _ => 0

/-- The channels of one input element. -/
def Prog.pixel (p : Prog) (y x : Nat) : Piece :=
  .run ((p.base : Int) + (y * p.ystr + x * p.xstr + p.c0 * p.ebits / 8 : Nat)) (p.cpt * p.ebits / 8)

/-- The element that input cycle `k` of a sample reads. -/
def cropPixel (p : Prog) (bilinear : Bool) (y x : FVal) (k : Nat) : Piece :=
  if bilinear then
    let ylo := floorOf y
    let xlo := floorOf x
    p.pixel (if k / 2 = 0 then ylo else min (ylo + 1) (p.ih - 1)) (if k % 2 = 0 then xlo else min (xlo + 1) (p.iw - 1))
  else p.pixel (nearestOf y) (nearestOf x)

/-- Channel `c` of an in-image sample (R333). -/
def cropChannel (fs fd : Fmt) (bilinear : Bool) (y x : FVal) (taps : List (List Byte × Bool)) (c : Nat) : Narrowed :=
  let v (k : Nat) : FVal := (nth (FVal.zero, true) (tapVals fs taps c) k).1
  if bilinear then
    let wy := y.sub (.ofNat (floorOf y))
    let wx := x.sub (.ofNat (floorOf x))
    let mix (t lo hi : FVal) : FVal := rne32 ((t.mul (rne32 (hi.sub lo))).add lo)
    narrow fd (mix wy (mix wx (v 0) (v 1)) (mix wx (v 2) (v 3)))
  else narrow fd (v 0)

/-- Where the entry of the box that the cursor names lies (R334). -/
def Die.boxAddr (d : Die) (s w : Nat) (q : Desc) : Nat := q.boxBase + 16 * Tab.read 0 d.pst.boxCur (d.physDesc s (psDesc w))

/-- No sample of a box is in progress: its entry is to be read (R334). -/
def Die.cropFresh (d : Die) (r : Run) : Bool := r.firstCycle || (decide (d.pst.sample = 0) && d.pst.taps.isEmpty)

/-- The crop unit ahead of an input cycle: an action's first begins anew, and a box's first reads its entry. -/
def Die.cropBegin (d : Die) (r : Run) (w : Nat) (q : Desc) : Die :=
  let d := if r.firstCycle then { d with pst := { d.pst with taps := [], sample := 0, boxOut := [] } } else d
  if d.cropFresh r then
    let x := d.slotRead r.slot q.boxSpace (d.boxAddr r.slot w q : Nat) 16
    Die.markRefused { d with pst := { d.pst with box := (List.range 4).map fun i => w32 (le4 x.1 (4 * i)) } } x.2
  else d

/-- The coordinates of the sample in progress, and whether they lie in the image (R331, R332). -/
def Post.cropPoint (o : Post) (q : Desc) (p : Prog) : FVal × FVal × Bool :=
  let ends := boxEnds q p o.box
  let y := sampleAt ends.1 ends.2.2.1 q.outH (o.sample / q.outW)
  let x := sampleAt ends.2.1 ends.2.2.2 q.outW (o.sample % q.outW)
  (y, x, inExtent y p.ih && inExtent x p.iw)

/-- A finished sample: its result waits for the end of its box. -/
def Die.cropSample (d : Die) (s op w : Nat) (q : Desc) (p : Prog) (y x : FVal) (inside : Bool) : Die :=
  let fs := (Fmt.ofCode p.efmt).getD .int8
  let fd := d.dstFmt s postUnit (psDst w)
  let ns := (List.range p.cpt).map fun c =>
    if inside then cropChannel fs fd (decide (op = 4)) y x d.pst.taps c else narrow fd (dec32 q.extrap)
  let j := d.postJob s op w ns fd.bits false
  let o := { d.pst with taps := [], boxOut := d.pst.boxOut ++ [j], sample := d.pst.sample + 1 }
  let o := if inside || d.isConf s then o else { o with extrap := satInc32 o.extrap 1 }
  Die.advance (Die.markRefused { d with pst := o } (!j.ok && decide (0 < (d.prog s postUnit (psDst w)).rows)))
    s postUnit (psDst w) 1

/-- The end of a box: all its samples land together, as one write of their slot action (R231, R334; DEDUCED: log entry 133), and the box cursor advances. -/
def Die.boxEnd (d : Die) (s op : Nat) (w : Nat) (q : Desc) : Die :=
  let k := d.physDesc s (psDesc w)
  let b := Tab.read 0 d.pst.boxCur k
  let js := d.pst.boxOut.map fun j => { j with ready := d.iss.cyc + psLatency op - 1, entry := d.iss.cyc }
  { d with pst := { d.pst with jobs := d.pst.jobs ++ js, box := [], boxOut := [], sample := 0,
                               boxCur := Tab.write 0 d.pst.boxCur k ((b + 1) % q.nb) } }

/-- One input cycle of a crop action. -/
def Die.cropCycle (d : Die) (r : Run) (op w : Nat) : Die :=
  let s := r.slot
  let q := descOf (d.descBytes s (psDesc w))
  let p := d.prog s postUnit (psSrc w)
  if p.kind ≠ 2 then d.markEmpty s postEmptyBit
  else
    let d := (d.postCount s).cropBegin r w q
    let x := d.pst.cropPoint q p
    let b : RowBytes × Bool :=
      if x.2.2 then d.takePiece s p.space 0 (cropPixel p (decide (op = 4)) x.1 x.2.1 d.pst.taps.length) else ([], false)
    let d := Die.markRefused { d with pst := { d.pst with taps := d.pst.taps ++ [(b.1.map Prod.snd, x.2.2)] } } b.2
    if d.pst.taps.length < (if op = 4 then 4 else 1) then d
    else
      let d := d.cropSample s op w q p x.1 x.2.1 x.2.2
      if d.pst.sample < q.outH * q.outW then d else d.boxEnd s op w q

/-! ### Channel argmax (R335 to R337) -/

/-- Index of the greatest value, its code, and whether another channel ties with it. -/
def argmaxOf (f : Fmt) (codes : List Nat) : Option (Nat × Nat × Bool) :=
  ((List.range codes.length).zip codes).foldl (fun (o : Option (Nat × Nat × Bool)) ic =>
    let v := f.decode ic.2
    if v.isNan then o
    else match o with
      | none => some (ic.1, ic.2, false)
      | some (i, c, t) =>
        let m := f.decode c
        if FVal.lt m v then some (ic.1, ic.2, false)
        else if FVal.lt v m then some (i, c, t)
        else some (i, c, true)) none

/-- The 8-byte record (R337). -/
def argmaxRecord (f : Fmt) (codes : List Nat) : List Byte × Bool :=
  match argmaxOf f codes with
  | none => (leBytes 2 0xFFFF ++ [1, 0] ++ leBytes 4 0x7FC00000, true)
  | some (i, c, t) =>
    let m := if f.isInt then wrapNat 32 (f.decode c).toInt else enc32 (f.decode c)
    (leBytes 2 i ++ [if t then 2 else 0, 0] ++ leBytes 4 m, false)

/-- One input cycle of an argmax action. -/
def Die.argmaxCycle (d : Die) (r : Run) (w : Nat) : Die :=
  let s := r.slot
  let q := descOf (d.descBytes s (psDesc w))
  let p := d.prog s postUnit (psSrc w)
  if p.rows = 0 then d.markEmpty s postEmptyBit
  else
    let d := d.postCount s
    let fs := (Fmt.ofCode p.efmt).getD .int16
    let e := fs.bits / 8
    let row := d.fetchRow s p.space p (d.row s postUnit (psSrc w)) 256 0
    let taps := d.postTaps r ++ [(row.1.map Prod.snd, true)]
    let d := (Die.markRefused { d with pst := { d.pst with taps := taps } } row.2).advance s postUnit (psSrc w) 1
    if taps.length < ceilDiv (q.c * e) 256 then d
    else
      let x := argmaxRecord fs (elemsOf e q.c (taps.map Prod.fst).flatten)
      let ns := x.1.map fun b => ({ code := b.toNat } : Narrowed)
      let d := { d with pst := { d.pst with taps := [] } }
      d.addPostJob s w (d.postJob s 6 w ns 8 x.2)
where
  elemsOf (e n : Nat) (bs : List Byte) : List Nat := (List.range n).map fun i => leNat ((bs.drop (i * e)).take e)

/-! ### The commands -/

/-- A job's write covers a word with an uncorrectable error in part (R231). -/
def PostJob.spoilt (j : PostJob) (e : Ecc) : Bool := j.ok && eccSpoils e (j.space - 1) j.addr j.data.length

/-- Land one result with its counts (R337, R341); one whose slot action's write is spoilt, in a cycle of `bad`, is discarded (R231). -/
def Die.landPost (bad : List Nat) (d : Die) (j : PostJob) : Die :=
  let j := { j with ok := j.ok && !bad.contains j.entry }
  let d := if j.ok then { d with st := d.st.write j.space j.addr j.data } else d
  if d.isConf j.slot then d
  else { d with pst := { d.pst with sat := satInc32 d.pst.sat j.sats, narrow := d.pst.narrow || j.nan,
                                    allNan := d.pst.allNan || j.allNan,
                                    results := inc64 d.pst.results (if j.ok then 1 else 0) } }

/-- The results due first land. -/
def Die.postLand (d : Die) (e : Ecc) : Die :=
  let first := d.pst.jobs.foldl (fun (o : Option PostJob) (x : PostJob) =>
    match o with | some j => if x.ready < j.ready then some x else some j | none => some x) none
  match first with
  | some j =>
    if j.ready ≤ d.iss.cyc then
      let d := d.readDue j.ready
      let due := d.pst.jobs.filter fun x => decide (x.ready = j.ready)
      let d := { d with pst := { d.pst with jobs := d.pst.jobs.filter fun x => decide (x.ready ≠ j.ready) } }
      (due.foldl (Die.landPost ((due.filter fun x => x.spoilt e).map PostJob.entry)) d).ecc e (some j.slot) { code := 0 }
    else d
  | none => d

/-- POST_RESULT (R326): the results that are due first land. -/
def execPostResult (s : State) (ecc : Ecc := .ok) : Host.Outcome State Fault Refusal :=
  s.act fun d => d.postLand ecc

end Sys2Proof.Machine
end

