-- ==== Sys2Proof/Machine/Landing.lean ====
section
/-! DEFINITION. What is readable in a cycle (R85, R180, R256), the action of a slot in an issue cycle (R40), and the writes of
threads and cells. -/

namespace Sys2Proof.Machine

/-! ### Readable results -/

/-- The cycles in which the results that each unit lands next are written: TE0, TE1, Flint, lane groups, Mica, post unit. -/
def Die.nextWrites (d : Die) : List (Option Nat) :=
  let row (l : List RowFlight) (n : Nat) : Option Nat := l.head?.map fun r => r.entry + n
  let least (l : List Nat) : Option Nat := l.foldl (fun (o : Option Nat) x => some (match o with | some m => min m x | none => x)) none
  [row d.te0.flight engineLatency, row d.te1.flight engineLatency, row d.fln.flight flintLatency,
   least (d.vec.landings.map (·.ready)), least (d.mca.jobs.map (·.ready)), least (d.pst.jobs.map (·.ready))]

/-- The unit whose result is written first of all lands it, when that is before the present cycle. -/
def Die.landFirst (d : Die) : Die :=
  let ws := d.nextWrites
  let first := ws.foldl (fun (o : Option Nat) x => match o, x with
    | some m, some y => some (min m y)
    | none, y => y
    | o, none => o) none
  match first with
  | none => d
  | some m =>
    if m < d.iss.cyc then
      let u := (firstBelow 6 fun k => decide (nth none ws k = some m)).getD 0
      if u ≤ 1 then d.rowComplete u .ok else if u = 2 then d.flintComplete .ok else if u = 3 then d.vectorLand .ok
      else if u = 4 then d.micaLand .ok else d.postLand .ok
    else d

/-- The increments of completion tallies made before the present cycle are visible (R180). -/
def Die.tallyReadable (d : Die) : Die :=
  let due := d.iss.incs.filter fun x => decide (x.1 < d.iss.cyc)
  due.foldl (fun (d : Die) x => d.tallyAdd x.2 1)
    { d with iss := { d.iss with incs := d.iss.incs.filter fun x => decide (d.iss.cyc ≤ x.1) } }

/-- Everything readable in the present cycle lies in the stores and tallies (R85, R256): the rows, landings and jobs pending land
in the order of their cycles. -/
def Die.landReadable (d : Die) : Die :=
  (forUpto (d.te0.flight.length + d.te1.flight.length + d.fln.flight.length + d.vec.landings.length + d.mca.jobs.length +
    d.pst.jobs.length) (fun _ d => d.landFirst) d).tallyReadable

/-! ### A slot's action -/

/-- The action of slot `k` in the present issue cycle, when its opcode is `op` (and slot 4's unit matches), while issue runs
(R43, R554): what has become readable lies in the stores (R85); what the check code found comes first, and an uncorrectable word ends
the context and the action with it (R230). -/
def Die.slotAction (d : Die) (k op : Nat) (mica : Bool) (e : Ecc) (f : Run → Nat → Die → Die) : Die :=
  match d.iss.run with
  | none => d
  | some r =>
    match r.phase with
    | .issuing _ todo =>
      let w := slotWord r.bundle k
      if todo.contains k && decide (slotOp k w = op) && (decide (k ≠ 4) || slot4Mica w == mica) && d.issueRuns then
        let d := d.landReadable.ecc e (some r.slot) { code := 0 }
        if eccBad e then d.slotDone k else (f r w d).slotDone k
      else d
    | _ => d

/-! ### Writes that no slot action makes -/

/-- The registers of the engines, of bundle issue and the threads, and of the units show and count what is readable in the present cycle:
it has landed before an access (R180). -/
def Die.settled (d : Die) (off : Nat) : Die :=
  if 2 ≤ off / 0x100000 ∧ off / 0x100000 ≤ 6 then d.landReadable else d

/-- A write into an on-die store that no slot action makes, in the present cycle (R229): results written before lie there, and
a read of a destination that falls in this cycle or before it does not see the write (R128, R129). -/
def Die.storeWrite (d : Die) (space a : Nat) (b : List Byte) : Die :=
  let d := d.landReadable.readDue d.iss.cyc
  { d with st := d.st.write space a b }

end Sys2Proof.Machine
end

