-- ==== Sys2Proof/Machine/Issue.lean ====
section
/-! DEFINITION. Bundle issue: fetch, wait, issue, loop control, time-out (R36 to R64, R86). -/

namespace Sys2Proof.Machine

/-! ### Absent units (R8, R86) -/

/-- Program fields an action of slot `k` names, as indices of its unit's window (R88, R91, R104, R106, R108). -/
def namedProgs (k w : Nat) : List Nat :=
  let op := slotOp k w
  if k ≤ 1 then (if op = 1 then [bitsOf w 53 43] else if op = 2 then [bitsOf w 47 37, bitsOf w 36 26] else [])
  else if k = 4 then
    if slot4Mica w then
      (if op = 3 then [bitsOf w 51 41, bitsOf w 40 30, bitsOf w 29 19] else if 1 ≤ op ∧ op ≤ 4 then [bitsOf w 51 41, bitsOf w 29 19] else [])
    else (if op = 1 then [bitsOf w 54 44] else if op = 2 then [bitsOf w 52 42, bitsOf w 41 31] else [])
  else if k = 5 then (if 1 ≤ op ∧ op ≤ 6 then [bitsOf w 57 47, bitsOf w 46 36] else [])
  else []

/-- Unit whose program table slot `k` names. -/
def slotUnit (k w : Nat) : Nat :=
  if k ≤ 1 then k else if k = 2 then 5 else if k = 4 then (if slot4Mica w then 3 else 2) else 4

/-- Slot `k`'s word is addressed to an absent unit. -/
def Die.wordAbsent (d : Die) (s k w : Nat) : Bool :=
  let op := slotOp k w
  if op = 0 then false
  else if k = 4 ∧ slot4Mica w ∧ d.hasMica = false then true
  else if d.hasTe1 then false
  else
    decide (k = 1) || (decide (k = 2) && decide (bitsOf w 57 50 ≠ 0)) ||
    (namedProgs k w).any (fun i => decide ((d.prog s (slotUnit k w) i).space = 2)) ||
    (decide (k = 6 ∧ op = 2) && (decide (4 ≤ bitsOf w 57 55) || bit w 54)) ||
    (decide (k = 6 ∧ op = 3) && (decide (bitsOf w 57 54 ≠ 0) || bit w 49))

/-- The lowest slot addressed to an absent unit. -/
def Die.absentSlot (d : Die) (s : Nat) (b : BitVec 512) : Option Nat :=
  firstBelow 7 fun k => d.wordAbsent s k (slotWord b k)

/-! ### The wait (R50 to R56) -/

/-- The physical tally a bundle waits on. -/
def Die.waitTally (d : Die) (r : Run) : Option Nat := d.physTally r.slot (bundleTally r.bundle)

/-- The tally's value meets the target. -/
def Die.waitMet (d : Die) (r : Run) : Bool :=
  match d.waitTally r with
  | some p => decide (bundleTarget r.bundle ≤ (d.tally p).value.toNat)
  | none => false

def Die.waitErr (d : Die) (r : Run) : Option Nat :=
  match d.waitTally r with
  | some p => if (d.tally p).err then some (d.tally p).cause else none
  | none => none

/-- Release: CONSUME subtracts the target (R50). -/
def Die.waitRelease (d : Die) (r : Run) : Die :=
  match d.waitTally r with
  | some p =>
    if bundleConsume r.bundle then
      d.updTally p fun t => { t with value := t.value - BitVec.ofNat 24 (bundleTarget r.bundle) }
    else d
  | none => d

/-- One stall cycle (R51, R56). -/
def Die.stallCycles (d : Die) (n : Nat) : Die :=
  match d.iss.run with
  | none => d
  | some r =>
    let r' := { r with held := r.held + n, cycles := if r.started then r.cycles + n else r.cycles }
    let st := if d.isConf r.slot then d.iss.stallCycles else inc64 d.iss.stallCycles n
    Die.aclk { d with iss := { d.iss with run := some r', stallCycles := st } } n

/-- The timeout that a wait takes when it begins (R71). -/
def Issue.waitLimit (i : Issue) : Nat := max i.tallyTimeout.toNat 0x400

/-! ### Issue (R39 to R42, R86) -/

/-- The run in the first issue cycle of its bundle. -/
def Run.enter (r : Run) : Run :=
  { r with phase := .issuing (bundleHold r.bundle + 1) (firstSlots r.bundle), firstCycle := true, started := true, reported := [],
           refused := false, consumed0 := 0, consumed1 := 0, entered0 := false, entered1 := false, second0 := false, second1 := false }

/-- The bundle issues, once its wait has completed: ABSENT_UNIT first, then its slots. -/
def Die.enterBundle (d : Die) : Die :=
  match d.iss.run with
  | none => d
  | some r =>
    match d.absentSlot r.slot r.bundle with
    | some k => (d.record 23 0x04 (some r.slot) r.pc k 0 0).abortSlot r.slot 0x04
    | none =>
      let d := Die.setRun { d with err := { d.err with cycle := [] } } Run.enter
      if (firstSlots r.bundle).isEmpty then (d.passCycles (bundleHold r.bundle + 1)).setRun Run.bundleEnd else d

/-- The wait is evaluated in a cycle in which the bundle is due: an error bit ends the context, a met target releases,
otherwise `stall` follows. -/
def Die.tryWait (d : Die) (r : Run) (stall : Die → Die) : Die :=
  match d.waitErr r with
  | some c => d.abortSlot r.slot c
  | none => if d.waitMet r then (d.waitRelease r).enterBundle else stall d

/-- Bundle issue acts on what has become readable, while it runs (R43, R85, R180, R554, R559). -/
def Die.issueStep (d : Die) (f : Run → Die → Die) : Die :=
  match d.iss.run with
  | none => d
  | some r => if d.issueRuns then f r d.landReadable else d

/-- Fetch the bundle at the run's address. -/
def Die.fetchBundle (d : Die) (r : Run) : BitVec 512 :=
  match (d.slot r.slot).seg with
  | some g => BitVec.ofNat 512 (Mem.le d.st.instr (64 * (g.base + r.pc)) 64)
  | none => 0

/-- Bundle issue's part of BUNDLE_ISSUE. -/
def Die.issueBundle (d : Die) (fetch : Ecc) : Die :=
  d.issueStep fun r d =>
    if r.phase = .due then
      let d := d.ecc fetch (some r.slot) { code := 0 }
      if eccBad fetch then d
      else
        let r := { r with bundle := d.fetchBundle r }
        let d := d.setRun fun _ => r
        if bundleWait r.bundle then
          d.tryWait r fun d => (d.stallCycles 1).setRun fun r => { r with phase := .stalled 1 d.iss.waitLimit }
        else d.enterBundle
    else d

/-- BUNDLE_ISSUE (R41): the bundle at the run's address is fetched; its wait is evaluated; it issues or stalls. -/
def execBundleIssue (fetch : Ecc) (s : State) : Host.Outcome State Fault Refusal :=
  s.act fun d => d.issueBundle fetch

/-- TALLY_WAIT_RELEASE (R50): one evaluation of a stalled wait. -/
def execTallyWaitRelease (s : State) : Host.Outcome State Fault Refusal :=
  s.act fun d => d.issueStep fun r d =>
      match r.phase with
      | .stalled n lim =>
        d.tryWait r fun d =>
          if n < lim then (d.stallCycles 1).setRun fun r => { r with phase := .stalled (n + 1) lim } else d
      | _ => d

/-- TALLY_TIMEOUT (R54): the wait has stalled for the whole timeout; the condition is evaluated once more. -/
def execTallyTimeout (s : State) : Host.Outcome State Fault Refusal :=
  s.act fun d => d.issueStep fun r d =>
      match r.phase with
      | .stalled n lim =>
        if n < lim then d
        else
          d.tryWait r fun d =>
            let p := (d.waitTally r).getD 0
            (d.record 22 0x03 (some r.slot) r.pc p (bundleTarget r.bundle) (d.tally p).value.toNat).abortSlot r.slot 0x03
      | _ => d

/-! ### Loop control (R44 to R47) -/

/-- A run awaiting loop control of one kind. -/
def Die.loopControl (d : Die) (op : Nat) (f : Run → Run) : Die :=
  match d.iss.run with
  | none => d
  | some r => if r.phase = .control ∧ bundleLoopOp r.bundle = op ∧ d.issueRuns = true then d.setRun f else d

/-- BEGIN's count (R44): 0 means 16,777,216. -/
def loopRounds (n : Nat) : Nat := if n = 0 then 16777216 else n

def Run.begin (r : Run) : Run :=
  { r with loops := { start := r.pc + 1, remaining := loopRounds (bundleTarget r.bundle) } :: r.loops,
           pc := r.pc + 1, phase := .due }

/-- END over `levels` levels (R45): the next address and the stack. -/
def endLoops (pc : Nat) : Nat → List LoopEntry → Nat × List LoopEntry
  | 0, st => (pc + 1, st)
  | _ + 1, [] => (pc + 1, [])
  | n + 1, e :: st =>
    if 1 < e.remaining then (e.start, { e with remaining := e.remaining - 1 } :: st) else endLoops pc n st

def Run.end_ (r : Run) : Run :=
  let p := endLoops r.pc (bundleLoopDepth r.bundle + 1) r.loops
  { r with pc := p.1, loops := p.2, phase := .due }

/-- LOOP_BEGIN (R44). -/
def execLoopBegin (s : State) : Host.Outcome State Fault Refusal := s.act fun d => d.loopControl 1 Run.begin

/-- LOOP_END (R45). -/
def execLoopEnd (s : State) : Host.Outcome State Fault Refusal := s.act fun d => d.loopControl 2 Run.end_

/-- EXIT (R47): the segment ends and its actions drain (R60). -/
def execExit (s : State) : Host.Outcome State Fault Refusal :=
  s.act fun d => d.loopControl 3 fun r => { r with phase := .drain }

end Sys2Proof.Machine
end

