-- ==== Sys2Proof/Machine/Ports.lean ====
section
/-! DEFINITION. The bank ports that the slot actions of a cycle use (R136, R137, R228, R229): what the slots of the bundle in its issue
cycle access, and what the results in flight do. -/

namespace Sys2Proof.Machine

/-- An access to an on-die store: store, first byte, bytes, and whether it writes. -/
structure PortUse where
  space : Nat
  addr  : Int
  len   : Nat
  write : Bool

/-- Banks that an access reaches (R228): one for each 512-byte piece. -/
def PortUse.banks (u : PortUse) : List Nat :=
  let n := if u.space = 3 then 16 else 64
  if u.addr < 0 then []
  else (List.range (ceilDiv (u.addr.toNat % 512 + u.len) 512)).map fun i => (u.addr.toNat / 512 + i) % n

/-- Two accesses want one port of one bank. -/
def PortUse.meets (u v : PortUse) : Bool :=
  decide (u.space = v.space ∧ u.write = v.write) && u.banks.any fun b => v.banks.contains b

def readUse (space : Nat) (a : Int) (n : Nat) : PortUse := { space := space, addr := a, len := n, write := false }
def writeUse (space : Nat) (a : Int) (n : Nat) : PortUse := { space := space, addr := a, len := n, write := true }

/-- The read of a run; bytes formed without one use no port (R305). -/
def Piece.uses (space : Nat) (shift : Int) : Piece → List PortUse
  | .run a n => [readUse space (a + shift) n]
  | .fill _ => []

/-- Reads of `n` walk rows of a program from its cursor on, in one store and displaced as its unit displaces them. -/
def Die.walkReads (d : Die) (s unit idx space n : Nat) (shift : Int) : List PortUse :=
  let p := d.prog s unit idx
  if p.rows = 0 then []
  else (List.range n).flatMap fun j => (p.pieces ((d.row s unit idx + j) % p.rows)).flatMap (Piece.uses space shift)

def Die.ownReads (d : Die) (s unit idx n : Nat) : List PortUse := d.walkReads s unit idx (d.prog s unit idx).space n 0

/-- Reads of `n` bytes of scale entries for each block, of the first that a row's blocks name (R201, R203). -/
def Prog.scaleUses (p : Prog) (space : Nat) (row : RowBytes) (blocks n : Nat) : List PortUse :=
  (List.range blocks).flatMap fun j =>
    match ((row.drop (j * p.blockBytes)).take p.blockBytes).findSome? Prod.fst with
    | some a => [readUse space (p.scaleAddr a) n]
    | none => []

/-! ### The slots -/

/-- WLOAD: a weight row, and its block's scale entries. -/
def Die.wloadUses (d : Die) (r : Run) (te w : Nat) : List PortUse :=
  match wlFmt w with
  | none => []
  | some f =>
    let p := d.prog r.slot te (wlSrc w)
    let k := if r.firstCycle then 0 else ((d.te te).plane (wlPlane w)).next
    if p.rows = 0 ∨ 256 ≤ k then []
    else d.ownReads r.slot te (wlSrc w) 1 ++
      (if p.swalk && f.blockable && decide (k % scaleRowStep f = 0) then
        match (d.fetchRow r.slot p.space p (d.row r.slot te (wlSrc w)) 256 0).1.findSome? Prod.fst with
        | some a => [readUse p.space (p.scaleAddr a) (2 * scaleEntries f)]
        | none => []
      else [])

/-- Walk rows that a STREAM takes in the present cycle: up to four of an elastic ADD, two tokens but at the last row of an odd walk, none
at an INT16 row's second entry. -/
def Die.streamRows (d : Die) (r : Run) (te w : Nat) (f : Fmt) (p : Prog) : Nat :=
  let force := if te = 0 then r.force0 else r.force1
  if stGate w = 3 ∧ r.reported.contains te = true then 0
  else if stGate w = 3 ∧ stAcc w = 1 ∧ force = false then
    min 4 (bundleHold r.bundle + 1 - (if te = 0 then r.consumed0 else r.consumed1))
  else if f = .int16 ∧ stGate w ≠ 3 then (if (if te = 0 then r.second0 else r.second1) then 0 else 1)
  else if f.tokens = 2 ∧ ¬ (p.rows ≤ d.row r.slot te (stSrc w) + 1 ∧ p.rows % 2 = 1) then 2
  else 1

/-- STREAM: its rows, their blocks' scale entries, and the scale record of a FINAL row. -/
def Die.streamUses (d : Die) (r : Run) (te w : Nat) : List PortUse :=
  match wlFmt w with
  | none => []
  | some f =>
    let p := d.prog r.slot te (stSrc w)
    let n := d.streamRows r te w f p
    if p.rows = 0 ∨ n = 0 then []
    else d.ownReads r.slot te (stSrc w) n ++
      (if p.swalk && f.blockable then
        (List.range n).flatMap fun j => p.scaleUses p.space
          (d.fetchRow r.slot p.space p ((d.row r.slot te (stSrc w) + j) % p.rows) f.tokenBytes 0).1 (f.kLen / 32) 2
      else []) ++
      (if p.record && decide (stAcc w = 2) then [readUse p.space p.sbase 4] else [])

/-- The slot-2 operation acts: VFMT is no reserved code, and none that its operation has no meaning for. -/
def vActs (op w : Nat) : Bool :=
  match vFmt w with
  | some f => decide (op = 14 → f = .fp32) && decide (7 ≤ op ∧ op ≤ 9 → f.isInt = false)
  | none => decide (op = 10)

/-- A slot-2 operation: the record it rolls, and where no source is empty each group's rows, d of VFMA, and scale entries. -/
def Die.vectorUses (d : Die) (r : Run) (op w : Nat) : List PortUse :=
  let s := r.slot
  let pd := d.prog s 5 (vDst w)
  let srcs := vSources op w (d.prog s 5 (vA w)).hadStage
  let rec_ : List PortUse :=
    if decide (op = 10 ∨ op = 13) && pd.record then
      let b := d.slotRead s (vSide w + 1) pd.sbase 128
      readUse (vSide w + 1) pd.sbase 128 ::
        (if !b.2 && decide (scaleRecWord b.1 3 ≠ (d.slot s).runNum.toNat) then [writeUse (vSide w + 1) pd.sbase 128] else [])
    else []
  if !vActs op w then []
  else if srcs.any fun i => decide ((d.prog s 5 i).rows = 0) then rec_
  else rec_ ++ (vSelected w).flatMap fun g =>
    (srcs ++ (if op = 3 then [vDst w] else [])).flatMap (fun i => d.walkReads s 5 i (g / 8 + 1) 1 (groupShift (d.prog s 5 i) g)) ++
      (let p := d.prog s 5 (vA w)
       if decide (op = 10) && p.swalk && ((Fmt.ofCode p.efmt).getD .fp32).blockable then
         p.scaleUses (g / 8 + 1) (d.groupRow s (vA w) g).1 8 2
       else [])

/-- Slot 4: Flint's row and the column records of its first FINAL cycle, or the elements that Mica takes in. -/
def Die.auxUses (d : Die) (r : Run) (op w : Nat) : List PortUse :=
  let s := r.slot
  if slot4Mica w then
    let srcs := if op = 3 then [mcSrc w, mcSrc2 w] else [mcSrc w]
    if !(mcLegal op (mcLog w)) || srcs.any (fun i => decide ((d.prog s micaUnit i).rows = 0)) then []
    else srcs.flatMap fun i => d.ownReads s micaUnit i (mcRows (d.prog s micaUnit i) op)
  else if flFmt w = none then []
  else if op = 1 then
    (if (if r.firstCycle then 0 else d.fln.next) < flintSize then d.ownReads s flintUnit (flLoadSrc w) 1 else [])
  else
    let pd := d.prog s flintUnit (flDst w)
    if (d.prog s flintUnit (flSrc w)).rows = 0 then []
    else d.ownReads s flintUnit (flSrc w) 1 ++
      (if r.firstCycle && decide (flAcc w = 2) then [readUse pd.space pd.sbase 512] else [])

/-- Slot 5: the tap of a window, the box's entry and the element of a sample inside the image, or a row of a channel run. -/
def Die.postUses (d : Die) (r : Run) (op w : Nat) : List PortUse :=
  let s := r.slot
  let q := descOf (d.descBytes s (psDesc w))
  let p := d.prog s postUnit (psSrc w)
  if op ≤ 3 then
    let p := p.windowed q
    if p.windows = 0 then [] else (d.poolNext r w p).1.uses p.space 0
  else if op ≤ 5 then
    if p.kind ≠ 2 then []
    else
      let o := (d.cropBegin r w q).pst
      let x := o.cropPoint q p
      (if d.cropFresh r then [readUse q.boxSpace (d.boxAddr s w q : Nat) 16] else []) ++
        (if x.2.2 then (cropPixel p (decide (op = 4)) x.1 x.2.1 o.taps.length).uses p.space 0 else [])
  else d.ownReads s postUnit (psSrc w) 1

/-- What slot `k` of the run's bundle accesses in the present issue cycle: its source programs, CMD's block, the blocks of SENSE. -/
def Die.slotAccesses (d : Die) (r : Run) (k : Nat) : List PortUse :=
  let w := slotWord r.bundle k
  let op := slotOp k w
  if k ≤ 1 then (if op = 1 then d.wloadUses r k w else d.streamUses r k w)
  else if k = 2 then d.vectorUses r op w
  else if k = 4 then d.auxUses r op w
  else if k = 5 then d.postUses r op w
  else if k = 6 ∧ op = 2 then [readUse (if bit w 54 then 2 else 1) (64 * bitsOf w 53 34 : Nat) 64]
  else if k = 6 ∧ op = 3 then
    (List.range 8).map fun i => writeUse (if bit w 49 then 2 else 1) (64 * (bitsOf w 48 29 + i) : Nat) 64
  else []

/-! ### What is in flight -/

/-- A row of an engine or of Flint: partials and sidecar values `rd` cycles after its entry, the result and the sidecar `wr` after it
(R128, R175, R312). -/
def RowFlight.uses (q : RowFlight) (cyc rd wr acc vals bits : Nat) : List PortUse :=
  let side (n : Nat → PortUse) : List PortUse := match q.sideAddr with | some a => [n a] | none => []
  if q.entry + wr = cyc then
    (if q.dstOk && decide (acc ≠ 3) then [writeUse q.dstSpace q.dstAddr (packedBytes vals bits)] else []) ++
      side fun a => writeUse q.dstSpace a (4 * q.ncol)
  else if q.entry + rd = cyc ∧ acc ≠ 0 then
    readUse q.dstSpace q.dstAddr (4 * vals) :: side fun a => readUse q.dstSpace a (4 * q.ncol)
  else []

/-- The read of a plane's statistics entry that falls in a cycle (R172). -/
def Plane.statUses (p : Plane) (cyc : Nat) : List PortUse :=
  match p.statRead with
  | some q => if q.start < cyc ∧ cyc ≤ q.last then [readUse q.space (q.addr + 512 * (cyc - q.start - 1) : Nat) 512] else []
  | none => []

def Engine.uses (e : Engine) (cyc : Nat) : List PortUse :=
  e.flight.flatMap (fun q => q.uses cyc 512 engineLatency q.acc q.vals (if q.acc = 2 then q.outFmt.bits else 32)) ++
    e.plane0.statUses cyc ++ e.plane1.statUses cyc

/-- A result of the lane groups: a fold into AMAX_CUR reads it too (R213, R215). -/
def Landing.uses (l : Landing) (cyc : Nat) : List PortUse :=
  if l.ready = cyc then
    writeUse (l.space % 16) l.addr l.data.length :: (if 16 ≤ l.space then [readUse (l.space % 16) l.addr l.data.length] else [])
  else []

/-- A job of Mica: its rows written as it lands; under MACC read then, but for CMUL in the cycle after its entry (R316). -/
def MicaJob.uses (j : MicaJob) (cyc : Nat) : List PortUse :=
  let rows (write : Bool) : List PortUse :=
    (j.rows.filter fun x => x.2.2.2).map fun x => { space := x.1, addr := x.2.1, len := x.2.2.1, write := write }
  (if j.ready = cyc then rows true else []) ++
    (if j.macc && decide ((if j.op = 3 then cyc + 4 else cyc) = j.ready) then rows false else [])

def PostJob.uses (j : PostJob) (cyc : Nat) : List PortUse :=
  if j.ok && decide (j.ready = cyc) then [writeUse j.space j.addr j.data.length] else []

/-- Accesses that results in flight make in the present cycle. -/
def Die.flightUses (d : Die) : List PortUse :=
  let c := d.iss.cyc
  d.te0.uses c ++ d.te1.uses c ++
    d.fln.flight.flatMap (fun q =>
      let acc := flAcc q.word.toNat
      q.uses c 128 flintLatency acc q.ncol (if acc = 2 then q.outFmt.bits else 32)) ++
    d.vec.landings.flatMap (fun l => l.uses c) ++ d.mca.jobs.flatMap (fun j => j.uses c) ++ d.pst.jobs.flatMap (fun j => j.uses c)

/-! ### The cycle -/

/-- The run in the first issue cycle of its bundle, where that bundle issues in the present cycle. -/
def Die.dueRun (d : Die) (r : Run) : Option Run :=
  if (bundleWait r.bundle && ((d.waitErr r).isSome || !d.waitMet r)) || (d.absentSlot r.slot r.bundle).isSome then none
  else some r.enter

/-- The run as it issues in the present cycle: it issues, or its next bundle does, at once or after loop control. -/
def Die.runNow (d : Die) (r : Run) : Option Run :=
  match r.phase with
  | .issuing _ _ => some r
  | .due => d.dueRun { r with bundle := d.fetchBundle r }
  | .stalled _ _ => d.dueRun r
  | .control =>
    let go (r : Run) : Option Run := d.dueRun { r with bundle := d.fetchBundle r }
    if bundleLoopOp r.bundle = 1 then go r.begin else if bundleLoopOp r.bundle = 2 then go r.end_ else none
  | .drain => none

/-- What the slots that are to act in the present cycle access. -/
def Die.issueUses (d : Die) : List PortUse :=
  match d.iss.run.bind d.landReadable.runNow with
  | some r => (match r.phase with | .issuing _ todo => todo.flatMap fun k => d.slotAccesses r k | _ => [])
  | none => []

/-- Accesses of the present cycle: those of what is in flight, and of the slots while issue runs. -/
def Die.cycleUses (d : Die) : List PortUse := d.flightUses ++ (if d.issueRuns then d.issueUses else [])

/-- A request's access to an on-die store waits (R229): no ACLK cycle passes (R544), some slots of the present cycle have acted and others
have yet to, or an action of the cycle uses its port. -/
def Die.portTaken (d : Die) (u : PortUse) : Bool :=
  !d.bankRuns || (d.issueRuns && d.midCycle) || d.cycleUses.any fun v => v.meets u

end Sys2Proof.Machine
end

