-- ==== Sys2Proof/Machine/Protect.lean ====
section
/-! DEFINITION. What several units share of slots and protection: context addresses (R434), steps 1 and 2 of R440, error
events of a TDI and the start of a departure (R485, R486), INTEGRITY_FAIL (R496, R497). -/

namespace Sys2Proof.Machine

/-! ### Grants (R432, R434) -/

def Slot.memBytes (x : Slot) : Nat := wbits x.memSize 17 0 * 0x100000
def Slot.memFirst (x : Slot) : Nat := wbits x.memBase 17 0 * 0x100000
def Slot.seqBase (x : Slot) : Nat := wbits x.seq 11 0
def Slot.seqCount (x : Slot) : Nat := wbits x.seq 28 16
def Slot.firstPage (x : Slot) : Nat := wbits x.pageBase 16 0
def Slot.pages (x : Slot) : Nat := wbits x.pageCnt 17 0
def Slot.isGranted (x : Slot) : Bool := decide (x.state ≠ .free)

/-- Physical address of a context address, when the whole range lies in the grant. -/
def Slot.phys (x : Slot) (a : Int) (n : Nat) : Option Nat :=
  if x.isGranted && decide (0 ≤ a ∧ a + n ≤ x.memBytes) then some (x.memFirst + a.toNat) else none

/-- Base of the page pool. -/
def Die.poolBase (d : Die) : Nat := wbits d.kvp.poolBase 19 0 * 0x100000

/-- A scrub or an initialisation covers a byte of this physical range (R504). -/
def Scrub.covers (x : Scrub) (pool a n : Nat) : Bool :=
  let hit (b z : Nat) : Bool := decide (0 < n ∧ 0 < z ∧ a < b + z ∧ b < a + n)
  hit (x.memBase * 0x100000) (x.memSize * 0x100000) || hit (pool + x.pageBase * pageBytes) (x.pageCnt * pageBytes)

def Die.scrubbing (d : Die) (a n : Nat) : Bool := d.sec.scrubs.any fun x => x.covers d.poolBase a n

/-! ### Steps 1 and 2 of R440 -/

def Die.stopUnits (d : Die) (s : Nat) : Die :=
  let d := (d.stopThreads s).dropCommands fun n => decide ((d.loop n).slot.toNat = s ∧ s ≠ 0x3F)
  { d with ing := { d.ing with streams := Tab.mapVal {} (fun x : Stream => x.endContext s) d.ing.streams },
           fld := { d.fld with loops := Tab.mapVal {} (fun l : Loop =>
             if l.slot.toNat = s ∧ s ≠ 0x3F then { l with slot := 0x3F, abortedCtx := false } else l) d.fld.loops } }

/-! ### Departure (R485, R486) -/

/-- The slot's departure begins: abort, steps 1 and 2 of R440, the sweep stops. UNLOAD_RELEASE_DONE and SCRUB_DONE carry
it on. -/
def Die.departStart (d : Die) (s : Nat) (release : Bool) : Die :=
  if (d.prot s).departing then d
  else
    let d := (d.abortSlot s 0).stopUnits s
    let d := d.updProt s fun q =>
      { q with departing := true, depRelease := release, sweeping := false, sweepStuck := false, init := false,
               protected_ := false }
    { d with sec := { d.sec with scrubs := d.sec.scrubs.filter (fun c => decide (c.slot ≠ s ∨ c.initKey = 0)),
                                 prologues := d.sec.prologues.filter fun p => decide (p.slot ≠ s ∨ p.lock = false) } }

/-- An error event of TDI s (R485): the TDI goes to ERROR and the slot departs. -/
def Die.tdiError (d : Die) (s : Nat) (release : Bool) : Die :=
  let t := (d.prot s).tdi
  if s ≠ 0 ∧ (t = .locked ∨ t = .run) then
    (d.updProt s fun q => { q with tdi := .error }).departStart s release
  else d

/-! ### The inline stage (R492 to R501)

`Stores.hbm` holds what the stage delivers. What the stacks hold beside it follows: `storedBlock` is a block's cipher text,
`storedTag` its tag. -/

/-- An XTS key's halves and the integrity key of the key with an identity: three numbers of the random bit generator. The
halves of an XTS key differ (R493, R498). -/
def xtsHalf1 (k : Nat) : BitVec 256 := Config.drbg (3 * k)
def xtsHalf2 (k : Nat) : BitVec 256 := if Config.drbg (3 * k + 1) = xtsHalf1 k then xtsHalf1 k + 1 else Config.drbg (3 * k + 1)
def integrityKey (k : Nat) : BitVec 256 := Config.drbg (3 * k + 2)

/-- The key slot that serves a block of a region (R501): in a sweep CUR below the pointer and in every region swept, the
previous one elsewhere; without a sweep the one that the region's epoch bit names. -/
def Prot.keySlot (q : Prot) (region block : Nat) : Bool :=
  if q.sweeping then
    if region < q.swept ∨ (region = q.swept ∧ block < q.pointer) then q.cur else !q.cur
  else Tab.read false q.epochs region

/-- The identity of the key in a key slot. -/
def Prot.keyIn (q : Prot) (half : Bool) : Nat := if half then q.key1 else q.key0

/-- Region of the slot's memory and block within it, of a byte that the slot owns: the 1 MiB units of the grant, then the
1 MiB groups of 16 pages (R498). -/
def Die.regionOf (d : Die) (s a : Nat) : Nat × Nat :=
  let x := d.slot s
  if x.memFirst ≤ a ∧ a < x.memFirst + x.memBytes then ((a - x.memFirst) / 0x100000, (a - x.memFirst) % 0x100000 / 256)
  else
    let o := a - (d.poolBase + x.firstPage * pageBytes)
    (wbits x.memSize 17 0 + o / 0x100000, o % 0x100000 / 256)

/-- The page-table area (R347) and the tag carve-out (R494). -/
def Die.inTables (d : Die) (a : Nat) : Bool :=
  let b := wbits d.kvp.ptBase 19 0 * 0x100000
  decide (b ≤ a ∧ a < b + 0x8000000)

def Die.inCarve (d : Die) (a : Nat) : Bool :=
  let b := wbits d.sec.carveBase 19 0 * 0x100000
  decide (b ≤ a ∧ a < b + wbits d.sec.carveSize 19 0 * 0x100000)

/-- The slot that owns the sequence whose table holds a byte of the table area. -/
def Die.tableOwner (d : Die) (a : Nat) : Option Nat :=
  let q := (a - wbits d.kvp.ptBase 19 0 * 0x100000) / 32768
  firstBelow 64 fun s =>
    let x := d.slot s
    x.isGranted && decide (x.seqBase ≤ q ∧ q < x.seqBase + x.seqCount)

/-- The slot that an INTEGRITY_FAIL of the block at an address is raised against. -/
def Die.blockOwner (d : Die) (a : Nat) : Option Nat := if d.inTables a then d.tableOwner a else d.ownerOf a

/-- The identity of the key under which a byte's block is stored (R492): none for a block with no encryption and no tag. -/
def Die.blockKey (d : Die) (a : Nat) : Option Nat :=
  if d.inCarve a then none
  else if d.inTables a then some d.sec.tableKey
  else
    match d.ownerOf a with
    | some s =>
      let q := d.prot s
      if q.protected_ || q.init then
        let r := d.regionOf s a
        some (q.keyIn (q.keySlot r.1 r.2))
      else none
    | none => none

/-- A block with encryption and a tag. -/
def Die.tagged (d : Die) (a : Nat) : Bool := (d.blockKey a).isSome

/-- The 256 bytes that block `n` stands for; the table area's are the page tables'. -/
def Die.blockBytes (d : Die) (n : Nat) : List Byte :=
  if d.inTables (256 * n) then
    let e := (256 * n - wbits d.kvp.ptBase 19 0 * 0x100000) / 4
    (List.range 64).flatMap fun i => leBytes 4 (Tab.read 0 d.kvp.tables (e + i)).toNat
  else Mem.read d.st.hbm (256 * n) 256

/-- Block `n` under a key: one data unit of AES-256-XTS, the tweak its number (R493). -/
def sealBlock (k n : Nat) (plain : List Byte) : List Byte :=
  Config.xts (xtsHalf1 k) (xtsHalf2 k) (BitVec.ofNat 128 n) plain

/-- The tag of block `n`: the leftmost 64 bits of the CMAC over its number and its cipher text (R494). -/
def tagOf (k n : Nat) (cipher : List Byte) : BitVec 64 :=
  (Config.cmac (integrityKey k) (leBytes 16 n ++ cipher)).extractLsb' 64 64

/-- What a stack holds of block `n`. -/
def Die.storedBlock (d : Die) (n : Nat) : List Byte :=
  match d.blockKey (256 * n) with
  | some k => sealBlock k n (d.blockBytes n)
  | none => d.blockBytes n

/-- The tag word of block `n`; 0 for a block that a scrub has left, as every untagged block is. -/
def Die.storedTag (d : Die) (n : Nat) : BitVec 64 :=
  match d.blockKey (256 * n) with
  | some k => tagOf k n (sealBlock k n (d.blockBytes n))
  | none => 0

/-- Where the tag of block `n` lies. -/
def Die.tagAddr (d : Die) (n : Nat) : Nat := wbits d.sec.carveBase 19 0 * 0x100000 + 8 * n

/-- The tag check of block `n`, of what a stack delivers for it (R494, R495): an untagged block has none. -/
def Die.tagPasses (d : Die) (n : Nat) (cipher : List Byte) (tag : BitVec 64) : Bool :=
  match d.blockKey (256 * n) with
  | some k => decide (tag = tagOf k n cipher)
  | none => true

/-- INTEGRITY_FAIL of a block against the slot that owns it (R496): an error event of its TDI, one in the page-table area only
while the slot is PROTECTED (R497). -/
def Die.integrityFail (d : Die) (block : Nat) (owner : Option Nat) (r : Reader) : Die :=
  let d := d.record 32 0x08 owner block r.word 0 0
  let d := { d with sec := { d.sec with intFails := satInc32 d.sec.intFails 1 } }
  match owner with
  | some s =>
    let d := d.abortSlot s 0x08
    if d.inTables (256 * block) && !(d.prot s).protected_ then d else d.tdiError s false
  | none => d

/-- The access of a unit that is neither a slot action nor a thread. -/
def otherReader : Reader := { code := 3 }

/-- A byte's block is one that an access of these ranges touches. -/
def inRanges (rs : List (Nat × Nat)) (a : Nat) : Bool := rs.any fun r => decide (0 < r.2 ∧ r.1 / 256 ≤ a / 256 ∧ a / 256 ≤ (r.1 + r.2 - 1) / 256)

/-- A range lies on a channel that has failed (R236). -/
def Die.onDead (d : Die) (rs : List (Nat × Nat)) : Bool :=
  !d.hbm.deadChans.isEmpty &&
    rs.any fun r => (List.range (ceilDiv (r.1 % 256 + r.2) 256)).any fun i => d.hbm.deadChans.contains (d.channelOf (r.1 + 256 * i))

/-- The ranges touch a byte's block and cover it only in part: a write of them merges with what the block holds (R493). -/
def merges (ws : List (Nat × Nat)) (a : Nat) : Bool :=
  let b := a / 256 * 256
  ws.any fun w => inRanges [w] a && !decide (w.1 ≤ b ∧ b + 256 ≤ w.1 + w.2)

/-- A byte that the ranges read, or merge with, of a block whose key ERASE_KEYS has erased (R495): the tag in the stack was made
under it. Both keys of a slot go at once, so that a range of a slot is told by its ends. -/
def Die.lost (d : Die) (rs ws : List (Nat × Nat)) : Option Nat :=
  ((rs.filter fun r => decide (0 < r.2)).map Prod.fst ++ ws.flatMap fun w => [w.1, w.1 + w.2 - 1].filter fun a => merges [w] a).find? fun a =>
    !d.inTables a && decide (d.blockKey a = some 0)

/-- The accesses cannot succeed: a channel has failed, or a key is erased. -/
def Die.barred (d : Die) (rs ws : List (Nat × Nat)) : Bool := d.onDead (rs ++ ws) || (d.lost rs ws).isSome

/-- The die's end of a block that the stacks delivered as `cipher`: what they hold of it from then on (R493, R495). The table area's
blocks are the page tables'. -/
def Die.takeBlock (d : Die) (n : Nat) (cipher : List Byte) : Die :=
  match d.blockKey (256 * n) with
  | some k =>
    if cipher = d.storedBlock n then d
    else
      let plain := (Config.xtsOpen (xtsHalf1 k) (xtsHalf2 k) (BitVec.ofNat 128 n) cipher ++ List.replicate 256 0).take 256
      if d.inTables (256 * n) then
        let e := (256 * n - wbits d.kvp.ptBase 19 0 * 0x100000) / 4
        { d with kvp := { d.kvp with tables := (List.range 64).foldl (fun (t : Tab W32) i =>
          Tab.write 0 t (e + i) (w32 (leNat ((plain.drop (4 * i)).take 4)))) d.kvp.tables } }
      else { d with st := { d.st with hbm := Mem.write d.st.hbm (256 * n) plain } }
  | none => d

/-- What the accesses of a unit met that reads the HBM4 ranges `rs` and writes `ws`; true when they failed. A word that cannot be
corrected is found first, and no tag is then checked (R496). A tag is checked in a tagged block that is read or merged with: what the
stacks deliver for it decides, and in one whose key is erased the check fails. -/
def Die.accessedBy (d : Die) (acc : Access) (rs ws : List (Nat × Nat)) (owner : Option Nat) (r : Reader) : Die × Bool :=
  if d.onDead (rs ++ ws) then (d, true)
  else
    let d := match acc with | .ecc e => d.ecc e owner r | _ => d
    if (match acc with | .ecc e => eccBad e | _ => false) then (d, true)
    else
      match d.lost rs ws with
      | some a => (d.integrityFail (a / 256) (d.blockOwner a) r, true)
      | none =>
        match acc with
        | .crcFail a => if inRanges (rs ++ ws) a then (d.channelFail (d.channelOf a) 1, true) else (d, false)
        | .delivered n cipher tag =>
          if (inRanges rs (256 * n) || merges ws (256 * n)) && d.tagged (256 * n) then
            if d.tagPasses n cipher tag then (d.takeBlock n cipher, false)
            else (d.integrityFail n (d.blockOwner (256 * n)) r, true)
          else (d, false)
        | _ => (d, false)

/-- The same for the KV port, the loader and the engines of the security block. -/
def Die.accessed (d : Die) (acc : Access) (rs ws : List (Nat × Nat)) (owner : Option Nat) : Die × Bool :=
  d.accessedBy acc rs ws owner otherReader

/-! ### AES-256-GCM (R471, R509) -/

/-- AES-256-GCM enciphers by a stream that the key and the IV give; the same addition deciphers. -/
def gcmCrypt (key : BitVec 256) (iv text : List Byte) : List Byte :=
  (List.range text.length).map fun i => (nth 0 text i) ^^^ Config.gcmStream key iv i

/-- The plaintext, when the tag verifies. -/
def gcmOpen (key : BitVec 256) (iv aad text : List Byte) (tag : BitVec 128) : Option (List Byte) :=
  if Config.gcmTag key iv aad text = tag then some (gcmCrypt key iv text) else none

/-! ### Derived keys (R514, R515) -/

/-- `n` bytes by index. -/
def bytesOf (n : Nat) (f : Nat → Byte) : List Byte := (List.range n).map f

def ascii (s : String) : List Byte := s.toList.map fun c => BitVec.ofNat 8 c.toNat

def hkdf (salt ikm info : List Byte) (n : Nat) : List Byte := bytesOf n (Config.hkdf salt ikm info)

def zeros48 : List Byte := List.replicate 48 0

/-- The seed of a derived key. -/
def seedOf (input info : List Byte) (n : Nat) : List Byte := hkdf zeros48 input info n

/-- The order n of P-384. -/
def p384Order : Nat :=
  0xFFFFFFFFFFFFFFFFFFFFFFFFFFFFFFFFFFFFFFFFFFFFFFFFC7634D81F4372DDF581A0DB248B0A77AECEC196ACCC52973

/-- A P-384 scalar: 64 bytes, little-endian (R14), reduced modulo n − 1, plus 1. -/
def scalarOf (b : List Byte) : Nat := leNat b % (p384Order - 1) + 1

/-- The UDS row as the boot ROM reads it: all ones once erased, zero while hidden. -/
def Die.udsRow (d : Die) : List Byte :=
  if d.mgmt.udsHidden then List.replicate 32 0 else if d.fuses.udsErased then List.replicate 32 0xFF else bytesOf 32 Config.uds

/-- CDI, of UDS, the boot ROM digest, the running firmware digest and the lifecycle byte. -/
def Die.cdi (d : Die) : List Byte :=
  seedOf d.udsRow (ascii "creholt-cdi" ++ leBytes 48 Config.bootRomDigest.toNat ++ leBytes 48 d.boot.digest.toNat ++
    leBytes 1 d.fuses.lifecycle.toNat) 48

/-- What the boot ROM derives: each seed's parts in the order R515 lists them. -/
def Die.deriveKeys (d : Die) : KeyStore :=
  let dev := seedOf d.udsRow (ascii "creholt-devid") 96
  let wrap := seedOf d.udsRow (ascii "creholt-wrap") 128
  let alias_ := seedOf d.cdi (ascii "creholt-alias") 96
  { devXi := dev.take 32, devScalar := scalarOf (dev.drop 32), wrapSeed := wrap.take 64, wrapScalar := scalarOf (wrap.drop 64),
    cdi := d.cdi, aliasXi := alias_.take 32, aliasScalar := scalarOf (alias_.drop 32),
    aliasKem := seedOf d.cdi (ascii "creholt-alias-kem") 64 }

/-- The boot ROM derives the keys, none in DECOMMISSIONED, and hides the UDS row. -/
def Die.bootKeys (d : Die) : Die :=
  { d with mgmt := { d.mgmt with keys := if d.fuses.lifecycle = 3 then none else some d.deriveKeys, udsHidden := true } }

/-- What WrapID certificates carry: the encapsulation key, then the point (R508, R517). -/
def KeyStore.wrapPair (k : KeyStore) : List Byte := bytesOf 1568 (Config.mlkemPub k.wrapSeed) ++ bytesOf 97 (Config.p384Point k.wrapScalar)

/-- DEVICE of R508. -/
def KeyStore.device (k : KeyStore) : List Byte := leBytes 48 (Config.sha384 k.wrapPair).toNat

/-- ERASE_KEYS has run (R518): SPDM answers but its first two requests with UnsupportedRequest. -/
def Die.decommissioned (d : Die) : Bool := decide (d.fuses.lifecycle = 3)

def seUnsupported : Byte := 7

/-! ### The random bit generator (R498, R516) -/

/-- The entropy source reseeds the generator. -/
def Sec.reseed (x : Sec) : Sec := { x with drbgUsed := 0, reseeds := x.reseeds + 1, entropyOk := true }

/-- `n` requests; every 2^20 bring a reseeding. -/
def Sec.draw (x : Sec) (n : Nat) : Sec :=
  if x.drbgUsed + n < 0x100000 then { x with drbgUsed := x.drbgUsed + n }
  else { x with drbgUsed := x.drbgUsed + n - 0x100000, reseeds := x.reseeds + 1 }

/-- A key pair drawn from the generator, by its identity: none after a failed health test of the source. -/
def Die.newKey (d : Die) : Option (Die × Nat) :=
  if d.sec.entropyOk then some ({ d with sec := { d.sec.draw 3 with keyGen := d.sec.keyGen + 1 } }, d.sec.keyGen + 1) else none

end Sys2Proof.Machine
end

