-- ==== Sys2Proof/Machine/Fabric.lean ====
section
/-! DEFINITION. The Tirca fabric: cells (R457), links with retry, credits, sleep and wake (R458, R459, R474 to R476),
routes (R461, R462), channels (R464 to R470), job keys (R471 to R473), time-outs (R477 to R479) and their reports (R604). -/

namespace Sys2Proof.Machine

/-! ### Cells (R457). A body is bytes 8 to 311; bytes 0 to 7 and the CRC are the link's -/

def cellKind (c : List Byte) : Nat := bitsOf (nth 0 c 0).toNat 7 4
def cellClass (c : List Byte) : Nat := bitsOf (nth 0 c 0).toNat 3 0
def cellField (c : List Byte) (a n : Nat) : Nat := leNat ((c.drop a).take n)
def cellLseq (c : List Byte) : Nat := bitsOf (cellField c 2 2) 11 0
def cellAck (c : List Byte) : Nat := bitsOf (cellField c 4 2) 11 0
def cellNak (c : List Byte) : Bool := bit (cellField c 4 2) 15
def cellCrd (c : List Byte) : Nat := bitsOf (nth 0 c 6).toNat 5 0
def cellCrdVc (c : List Byte) : Bool := bit (nth 0 c 6).toNat 6
def cellSleep (c : List Byte) : Bool := bit (nth 0 c 6).toNat 7
def cellTtl (c : List Byte) : Nat := (nth 0 c 7).toNat
def cellDst (c : List Byte) : W32 := w32 (cellField c 8 4)
def cellSrc (c : List Byte) : W32 := w32 (cellField c 12 4)
def cellJob (c : List Byte) : W32 := w32 (cellField c 16 4)
def cellRch (c : List Byte) : Nat := bitsOf (cellField c 20 2) 11 0
def cellEnc (c : List Byte) : Bool := bit (nth 0 c 22).toNat 0
def cellEpoch (c : List Byte) : Bool := bit (nth 0 c 22).toNat 1
def cellLen (c : List Byte) : Nat := (nth 0 c 23).toNat + 1
def cellOffset (c : List Byte) : Nat := cellField c 24 5
def cellCseq (c : List Byte) : Nat := cellField c 32 8
def cellPayload (c : List Byte) : List Byte := (c.drop 40).take 256
def cellTag (c : List Byte) : BitVec 128 := BitVec.ofNat 128 (cellField c 296 16)
def cellBody (c : List Byte) : List Byte := (c.drop 8).take 304

def padTo (n : Nat) (l : List Byte) : List Byte := (l ++ List.replicate n (0 : Byte)).take n

/-- The CRC of a whole cell and of a LINK cell. -/
def cellCrcGood (c : List Byte) : Bool := decide (c.length = 316 ∧ cellField c 312 4 = crc32c (c.take 312))
def linkCrcGood (c : List Byte) : Bool := decide (c.length = 12 ∧ cellField c 8 4 = crc32c (c.take 8))

def Fab.assigned (f : Fab) : Bool := f.addr != 0xFFFFFFFF

/-- Ports the part has (R1, R455). -/
def Die.portPresent (d : Die) (p : Nat) : Bool := decide (p < d.variant.fabPorts)

/-- A count of a confidential context's event is not made (R481); the ports' cell counters count every cell (R490). -/
def Die.fabCount (d : Die) (s : Option Nat) (f : Fab → Fab) : Die :=
  if (s.map d.isConf).getD false then d else { d with fab := f d.fab }

def Die.missCount (d : Die) (s : Option Nat) : Die := d.fabCount s fun f => { f with misses := satInc32 f.misses 1 }

/-! ### Routing (R462) -/

def Route.valid (r : Route) : Bool := r.ctl.getLsbD 31
def Route.len (r : Route) : Nat := wbits r.ctl 13 8
def Route.target (r : Route) : Nat := wbits r.ctl 3 0

def Route.matches (r : Route) (dst : W32) : Bool :=
  r.valid && decide (dst.toNat / 2 ^ (32 - r.len) = r.pfx.toNat / 2 ^ (32 - r.len))

/-- The target of the longest matching prefix, the lowest index first. -/
def Fab.lookup (f : Fab) (dst : W32) : Option Nat :=
  (f.routes.foldl (fun (best : Option (Nat × Nat)) e =>
    if e.2.matches dst then
      match best with
      | some (l, _) => if l < e.2.len then some (e.2.len, e.2.target) else best
      | none => some (e.2.len, e.2.target)
    else best) none).map fun b => b.2

/-- What is to leave by the port waits: it is ASLEEP, or trains out of that state (R476). -/
def FabPort.rests (x : FabPort) : Bool := decide (x.state = .asleep) || (x.woken && decide (x.state = .training))

/-- Port `p` is there, and UP or at rest: an ASLEEP port is woken, not missed (R466, R476). -/
def Die.leadsOut (d : Die) (p : Nat) : Bool := d.portPresent p && (decide ((d.tport p).state = .up) || (d.tport p).rests)

/-- Where a cell leaves: a port, or a miss. -/
def Die.egress (d : Die) (dst : W32) : Option Nat :=
  match d.fab.lookup dst with
  | some t => if t < 8 ∧ d.leadsOut t = true then some t else none
  | none => none

/-! ### Sending on a link (R457 to R459) -/

/-- Bytes 0 to 7 of what port p sends now: its acknowledgement and the credits it returns. -/
def Die.linkHeader (d : Die) (p kind lseq ttl : Nat) (nak sleep : Bool) : List Byte :=
  let x := d.tport p
  let vc1 := decide (x.ret0 = 0)
  let crd := min 63 (if vc1 then x.ret1 else x.ret0)
  leBytes 1 (4 + 16 * kind) ++ leBytes 1 p ++ leBytes 2 lseq ++ leBytes 2 (x.rxSeq + 32768 * b2n nak) ++
    leBytes 1 (crd + 64 * b2n vc1 + 128 * b2n sleep) ++ leBytes 1 ttl

/-- The acknowledgement and the credits have left. -/
def FabPort.headerSent (x : FabPort) : FabPort :=
  if x.ret0 = 0 then { x with ret1 := x.ret1 - min 63 x.ret1, unackedRx := 0 }
  else { x with ret0 := x.ret0 - min 63 x.ret0, unackedRx := 0 }

/-- A cell goes out on port `p`: its module's round is at that port (R456). -/
def Die.sendOn (d : Die) (p : Nat) (c : List Byte) : Die :=
  Die.send { d with fab := { d.fab with modTurn := Tab.write 3 d.fab.modTurn (p / 4) (p % 4) } } (.cell p c)

/-- A LINK cell: no LSEQ and no credit. -/
def Die.sendLink (d : Die) (p : Nat) (nak sleep : Bool) : Die :=
  let h := d.linkHeader p 1 0 0 nak sleep
  (d.updTport p FabPort.headerSent).sendOn p (h ++ leBytes 4 (crc32c h))

/-- A numbered cell that port p may send now. -/
def FabPort.room (x : FabPort) (vc1 : Bool) : Bool :=
  decide (x.state = .up ∧ x.replayBuf.length < 1024 ∧ 0 < (if vc1 then x.credits1 else x.credits))

/-- Send a numbered cell; while the port trains, no credit is taken and nothing is kept for replay. -/
def Die.sendCell (d : Die) (p kind ttl : Nat) (body : List Byte) : Die :=
  let x := d.tport p
  let c := d.linkHeader p kind x.txSeq ttl false false ++ padTo 304 body
  let c := c ++ leBytes 4 (crc32c c)
  let up := decide (x.state = .up)
  let d := d.updTport p fun x =>
    let x := x.headerSent
    { x with txSeq := (x.txSeq + 1) % 4096,
             credits := if up && decide (kind = 0) then x.credits - 1 else x.credits,
             credits1 := if up && decide (kind ≠ 0) then x.credits1 - 1 else x.credits1,
             replayBuf := if up then x.replayBuf ++ [c] else x.replayBuf,
             txCells := inc64 x.txCells 1 }
  d.sendOn p c

/-- Resend every kept cell: byte-identical but for bytes 4 to 6 and the CRC over them (R458). -/
def Die.replay (d : Die) (p : Nat) : Die :=
  let d := d.updTport p fun x =>
    { x with replays := satInc32 x.replays 1, replayCnt := x.replayCnt + 1 }
  (d.tport p).replayBuf.foldl (fun (d : Die) c =>
    let h := d.linkHeader p (cellKind c) (cellLseq c) (cellTtl c) false false
    let c' := h ++ cellBody c
    (d.updTport p FabPort.headerSent).sendOn p (c' ++ leBytes 4 (crc32c c'))) d

/-- WAKE towards the peer of an ASLEEP port (R476). -/
def Die.wakePeer (d : Die) (p : Nat) : Die :=
  if (d.tport p).waking then d else (d.updTport p fun x => { x with waking := true }).send (.wakeSet p)

/-! ### Receiving on a link (R458, R459) -/

/-- Return a credit of the cell's virtual channel. -/
def Die.creditBack (d : Die) (p : Nat) (vc1 : Bool) : Die :=
  d.updTport p fun x => if vc1 then { x with ret1 := x.ret1 + 1 } else { x with ret0 := x.ret0 + 1 }

/-- Acknowledgement and credits that a cell carries. -/
def FabPort.takeAck (x : FabPort) (c : List Byte) : FabPort :=
  let buf := match x.replayBuf.findIdx? fun k => decide (cellLseq k = cellAck c) with
    | some i => x.replayBuf.drop (i + 1)
    | none => x.replayBuf
  let x := if buf.length < x.replayBuf.length then { x with replayBuf := buf, acked := cellAck c, replayCnt := 0 } else x
  if cellCrdVc c then { x with credits1 := min 16 (x.credits1 + cellCrd c) }
  else { x with credits := min 512 (x.credits + cellCrd c) }

def Die.takeAck (d : Die) (p : Nat) (c : List Byte) : Die :=
  let d := d.updTport p fun x => x.takeAck c
  if cellNak c && !(d.tport p).replayBuf.isEmpty then d.replay p else d

/-- A numbered cell arrives: accepted when its CRC is right and its LSEQ the next, else discarded with a NAK. While the
port trains there is no sequence yet: a HELLO with a right CRC is taken. -/
def Die.acceptCell (d : Die) (p : Nat) (c : List Byte) : Die × Bool :=
  let x := d.tport p
  if !cellCrcGood c then
    let d := d.updTport p fun x => { x with crcErrs := satInc32 x.crcErrs 1 }
    (if x.state = .up then d.sendLink p true false else d, false)
  else if x.state ≠ .up then (d, decide (x.state = .training ∨ x.state = .asleep))
  else if cellLseq c ≠ (x.rxSeq + 1) % 4096 then (d.sendLink p true false, false)
  else
    let d := d.updTport p fun x => { x with rxSeq := cellLseq c, unackedRx := x.unackedRx + 1 }
    (d.takeAck p c, true)

def Die.rxCount (d : Die) (p : Nat) : Die := d.updTport p fun x => { x with rxCells := inc64 x.rxCells 1 }

/-! ### Channels (R464) -/

def Die.channel (d : Die) (c : Nat) : Channel := Tab.read {} d.fab.channels c
def Die.updChannel (d : Die) (c : Nat) (f : Channel → Channel) : Die :=
  { d with fab := { d.fab with channels := Tab.upd {} d.fab.channels c f } }

def Channel.word (c : Channel) (i : Nat) : W32 := nth 0 c.w i
def Channel.isSend (c : Channel) : Bool := (c.word 0).getLsbD 31 && (c.word 0).getLsbD 30
def Channel.isRecv (c : Channel) : Bool := (c.word 0).getLsbD 31 && (c.word 0).getLsbD 29
def Channel.watch (c : Channel) : Bool := (c.word 0).getLsbD 28
def Channel.pin (c : Channel) : Nat := wbits (c.word 0) 27 24
def Channel.slotOf (c : Channel) : Nat := wbits (c.word 0) 21 16
def Channel.fch (c : Channel) : Nat := wbits (c.word 0) 7 0
def Channel.peer (c : Channel) : W32 := c.word 1
def Channel.rch (c : Channel) : Nat := wbits (c.word 2) 11 0
def Channel.space (c : Channel) : Nat := wbits (c.word 3) 31 29
def Channel.tallyOf (c : Channel) : Nat := wbits (c.word 3) 15 8
def Channel.winBase (c : Channel) : Nat := (c.word 4).toNat * 256
def Channel.winSize (c : Channel) : Nat := (c.word 5).toNat * 256
def Channel.sigCells (c : Channel) : Nat := wbits (c.word 6) 23 0
def Channel.landed (c : Channel) : W32 := c.word 7

/-- The slot's send channel FCH: its table index. -/
def Die.sendChannel (d : Die) (s fch : Nat) : Option Nat :=
  (d.fab.channels.find? fun e => e.2.isSend && decide (e.2.slotOf = s ∧ e.2.fch = fch)).map fun e => e.1

/-- Channels change with the slot: LANDED returns to 0 at ARM (R470), RELEASE invalidates (R464). -/
def Die.channelsArm (d : Die) (s : Nat) : Die :=
  { d with fab := { d.fab with channels := Tab.mapVal {} (fun c : Channel =>
      if c.isRecv && decide (c.slotOf = s) then { c with w := setNth c.w 7 0 } else c) d.fab.channels } }

def Die.channelsRelease (d : Die) (s : Nat) : Die :=
  { d with fab := { d.fab with channels := d.fab.channels.filter fun e =>
      !((e.2.word 0).getLsbD 31 && decide (e.2.slotOf = s)) } }

/-! ### Job keys (R471 to R473) -/

def Die.job (d : Die) (j : W32) : JobKeys := Tab.read {} d.fab.jobs j.toNat
def Die.updJob (d : Die) (j : W32) (f : JobKeys → JobKeys) : Die :=
  { d with fab := { d.fab with jobs := Tab.upd {} d.fab.jobs j.toNat f } }

def JobKeys.key (j : JobKeys) (slot1 : Bool) : Option (BitVec 256) := if slot1 then j.key1 else j.key0
def JobKeys.cseq (j : JobKeys) (slot1 : Bool) : Nat := if slot1 then j.cseq1 else j.cseq0
def JobKeys.held (j : JobKeys) : Bool := j.key0.isSome || j.key1.isSome

def JobKeys.bump (j : JobKeys) (slot1 : Bool) : JobKeys :=
  if slot1 then { j with cseq1 := j.cseq1 + 1 } else { j with cseq0 := j.cseq0 + 1 }

/-- The IV of a cell: SRC, then CSEQ (R471), as the cell carries them (R14). -/
def cellIv (src : W32) (cseq : Nat) : List Byte := leBytes 4 src.toNat ++ leBytes 8 cseq

/-! ### Sending a request's cell (R465, R466, R473) -/

/-- An origin request that fails (R466): FAB_ROUTE_MISS on record 43. -/
def Die.originMiss (d : Die) (s : Nat) (code fch : Nat) (dst : W32) : Die :=
  (d.missCount (some s)).record 43 0x0A (some s) code dst.toNat fch 0

/-- Why the slot may not send at all: a confidential slot whose job holds no key (R466, R473). -/
def Die.originStop (d : Die) (s : Nat) : Option Nat :=
  if d.isConf s && !(d.job (d.slot s).jobId).held then some 3 else none

/-- Port `p` takes a DATA cell of the die's own: FAB runs, there is a credit beyond the `ahead` that are promised, and the die has an
address. While FAB_ADDR is not assigned a request waits here, and fails with FAB_TIMEOUT's cause CREDIT (R454, R477). -/
def Die.takesOwn (d : Die) (p ahead : Nat) : Bool :=
  d.fabRuns && d.fab.assigned && (d.tport p).room false && decide (ahead < (d.tport p).credits)

/-- What becomes of a request on channel FCH of a slot: a failure's cause and DST, or the channel and the egress port (8
for the die itself). -/
def Die.originRoute (d : Die) (s fch : Nat) : (Nat × W32) ⊕ (Nat × Nat) :=
  match d.sendChannel s fch with
  | none => .inl (1, 0)
  | some c =>
    let ch := d.channel c
    match d.originStop s with
    | some code => .inl (code, ch.peer)
    | none =>
      if ch.peer = d.fab.addr ∧ d.fab.assigned = true then .inr (c, 8)
      else
        let e := if ch.pin < 8 then
            (if d.leadsOut ch.pin then some ch.pin else none)
          else d.egress ch.peer
        match e with
        | some p => .inr (c, p)
        | none => .inl (2, ch.peer)

/-- Bytes 8 to 311 of a request's cell, and the die with its CSEQ taken. -/
def Die.buildCell (d : Die) (s c : Nat) (offset : Nat) (data : List Byte) : Die × List Byte :=
  let ch := d.channel c
  let jid := (d.slot s).jobId
  let j := d.job jid
  let k := if (j.key j.cur).isSome then j.cur else if (j.key (!j.cur)).isSome then !j.cur else j.cur
  let cseq := j.cseq k
  let enc := (j.key k).isSome
  let head := leBytes 4 ch.peer.toNat ++ leBytes 4 d.fab.addr.toNat ++ leBytes 4 jid.toNat ++ leBytes 2 ch.rch ++
    leBytes 1 (b2n enc + 2 * b2n (enc && k)) ++ leBytes 1 (data.length - 1) ++ leBytes 5 offset ++
    List.replicate 3 0 ++ leBytes 8 cseq
  let plain := padTo 256 data
  let d := d.updJob jid fun j => j.bump k
  match j.key k with
  | some key =>
    let iv := cellIv d.fab.addr cseq
    let ct := gcmCrypt key iv plain
    (d, head ++ ct ++ leBytes 16 (Config.gcmTag key iv head ct).toNat)
  | none => (d, head ++ plain ++ List.replicate 16 0)

/-! ### The receive checks (R467 to R471) -/

/-- A discard: counted but for a confidential context's, and LAST_DISCARD. -/
def Die.rxDiscard (d : Die) (s : Option Nat) (code : Nat) : Die :=
  let d := d.fabCount s fun f => { f with discards := satInc32 f.discards 1 }
  { d with fab := { d.fab with lastDisc := BitVec.ofNat 4 code } }

/-- A cell that fails R471: FAB_AUTH_FAILS and INTEGRITY_FAIL against the channel, no abort. -/
def Die.authFail (d : Die) (c : Nat) (cell : List Byte) : Die :=
  let s := (d.channel c).slotOf
  let d := d.fabCount (some s) fun f => { f with authFails := satInc32 f.authFails 1 }
  let d := d.record 33 0x08 (some s) c (cellSrc cell).toNat (cellCseq cell % 2 ^ 32) (cellCseq cell / 2 ^ 32)
  { d with sec := { d.sec with intFails := satInc32 d.sec.intFails 1 } }

/-- A CSEQ not taken before that lies above the highest one taken less 1,024. -/
def freshCseq (taken : List Nat) (n : Nat) : Bool :=
  decide (taken.foldl max 0 < n + 1024 ∨ taken = []) && !taken.contains n

def takeCseq (taken : List Nat) (n : Nat) : List Nat :=
  let m := max n (taken.foldl max 0)
  (n :: taken).filter fun k => decide (m < k + 1024)

/-- R471 and R473: the plaintext of a cell that passes, and the channel with its CSEQ taken. -/
def Die.cellAuth (d : Die) (c : Nat) (cell : List Byte) : Option (List Byte × Channel) :=
  let ch := d.channel c
  if cellEnc cell then
    let k := cellEpoch cell
    match (d.job (cellJob cell)).key k with
    | none => none
    | some key =>
      let taken := if k then ch.taken1 else ch.taken0
      let n := cellCseq cell
      match gcmOpen key (cellIv (cellSrc cell) n) ((cell.drop 8).take 32) (cellPayload cell) (cellTag cell) with
      | none => none
      | some plain =>
        if freshCseq taken n then
          let t := takeCseq taken n
          some (plain, if k then { ch with taken1 := t } else { ch with taken0 := t })
        else none
  else if d.isConf ch.slotOf then none
  else some (cellPayload cell, ch)

/-- The window check of R467. -/
def Channel.inWindow (c : Channel) (cell : List Byte) : Bool :=
  decide (cellOffset cell + cellLen cell ≤ c.winSize) &&
    (if c.space = 0 then decide (cellLen cell = 256 ∧ cellOffset cell % 256 = 0)
     else decide (cellLen cell % 8 = 0 ∧ cellOffset cell % 8 = 0))

/-- The write of a cell's payload, as a transfer request of the slot (R258). -/
def Die.landBytes (d : Die) (s space a : Nat) (bytes : List Byte) : Die :=
  if space = 0 then
    match (d.slot s).phys a bytes.length with
    | some p => { d with st := { d.st with hbm := Mem.write d.st.hbm p bytes } }
    | none => d.grantViol s
  else if d.granted s space a bytes.length then d.storeWrite space a bytes
  else d.grantViol s

/-- The write of a cell of `len` bytes at `offset` of receive channel `c` falls on a bank port that the present cycle's slot
actions use (R229): the cell is not taken in such a cycle. -/
def Die.landHeld (d : Die) (c offset len : Nat) : Bool :=
  let ch := d.channel c
  ch.isRecv && decide ((d.slot ch.slotOf).state = .armed ∧ 1 ≤ ch.space ∧ ch.space ≤ 3) &&
    d.portTaken { space := ch.space, addr := (ch.winBase + offset : Nat), len := len, write := true }

/-- A DATA cell addressed to the die (R467, R468). -/
def Die.receiveCell (d : Die) (cell : List Byte) : Die :=
  let c := cellRch cell
  let ch := d.channel c
  let s := ch.slotOf
  let x := d.slot s
  if !(ch.isRecv && d.fab.assigned) then d.rxDiscard none 1
  else if x.state ≠ .armed then d.rxDiscard (some s) 2
  else if cellSrc cell ≠ ch.peer then d.rxDiscard (some s) 3
  else if cellJob cell ≠ x.jobId then d.rxDiscard (some s) 4
  else
    match d.cellAuth c cell with
    | none => d.authFail c cell
    | some (plain, ch') =>
      let d := d.updChannel c fun _ => ch'
      if !ch.inWindow cell then d.rxDiscard (some s) 6
      else
        let d := d.landBytes s ch.space (ch.winBase + cellOffset cell) (plain.take (cellLen cell))
        let n := ch.landed + 1
        let d := d.updChannel c fun ch => { ch with w := setNth ch.w 7 n }
        if ch.sigCells ≠ 0 ∧ n.toNat % ch.sigCells = 0 then d.logTallyAdd s ch.tallyOf 1 else d

/-! ### Transit (R461) -/

def Die.transitMiss (d : Die) (p code : Nat) (cell : List Byte) : Die :=
  let d := if code = 4 then d.fabCount none fun f => { f with ttlDrops := satInc32 f.ttlDrops 1 } else d.missCount none
  d.record 44 0x0A none code (cellDst cell).toNat p (cellSrc cell).toNat

/-- A cell accepted on port p. -/
def Die.routeCell (d : Die) (p : Nat) (cell : List Byte) : Die :=
  if !d.fab.assigned then (d.rxDiscard none 1).creditBack p false
  else if cellDst cell = d.fab.addr then (d.receiveCell cell).creditBack p false
  else if cellTtl cell ≤ 1 then (d.transitMiss p 4 cell).creditBack p false
  else
    match d.egress (cellDst cell) with
    | none => (d.transitMiss p 2 cell).creditBack p false
    | some e =>
      let d := d.updTport p fun x => { x with inbuf := x.inbuf ++ [(e, setNth cell 7 (BitVec.ofNat 8 (cellTtl cell - 1)))] }
      if (d.tport e).state = .asleep then d.wakePeer e else d

/-- Whom egress port `e` serves, in order (R461): the ingress ports, and 8 for the die's own threads. -/
def Die.serveOrder (d : Die) (e : Nat) : List Nat := (List.range 9).map fun i => ((d.tport e).lastIn + 1 + i) % 9

/-- A thread's cell for egress port `e` stands ready, and may leave: its source has been read, and the die has an address (R454). -/
def Die.ownReady (d : Die) (e : Nat) : Bool :=
  d.fab.assigned && d.xfr.threads.any fun c => c.2.out.any fun r => decide (r.dstSpace = 4 ∧ r.port = e) && r.data.isSome

/-- A cell of ingress port `q` waits for egress port `e`. -/
def Die.waitsFor (d : Die) (e q : Nat) : Bool := (d.tport q).inbuf.any fun c => decide (c.1 = e)

/-- Whose turn it is at egress port `e`, when the die's threads have a cell for it or not. -/
def Die.served (d : Die) (e : Nat) (own : Bool) : Option Nat :=
  (d.serveOrder e).find? fun q => if q = 8 then own else d.waitsFor e q

/-- The next cell that egress port `e` forwards: its ingress port, and the cell; none while the die's threads are served. -/
def Die.nextForward (d : Die) (e : Nat) : Option (Nat × List Byte) :=
  match d.served e (d.ownReady e) with
  | some q => ((d.tport q).inbuf.find? fun c => decide (c.1 = e)).map fun c => (q, c.2)
  | none => none

/-- Port `p` has a DATA or a TOPO cell that could go. -/
def Die.offers (d : Die) (p : Nat) : Bool :=
  let x := d.tport p
  (x.room false && (d.ownReady p || (List.range 8).any fun q => d.waitsFor p q)) ||
    (x.room true && (List.range 8).any fun q => (d.tport q).inbuf1.any fun c => decide (c.1 = p))

/-- Port `p`'s module carries its cell next (R456): no loop message is ready, and no port of the module that has a cell to go
comes before it in the round. -/
def Die.moduleTurn (d : Die) (p : Nat) : Bool :=
  let m := p / 4
  !d.msgReady &&
    decide (((List.range 4).map fun i => 4 * m + (Tab.read 3 d.fab.modTurn m + 1 + i) % 4).find? (fun q => decide (q = p) || d.offers q) = some p)

/-- A DATA cell leaves on port `p`, served for `q`. -/
def Die.dataOut (d : Die) (p q ttl : Nat) (body : List Byte) : Die :=
  (d.sendCell p 0 ttl body).updTport p fun y => { y with lastIn := q }

/-- The next TOPO cell that waits for port `e`. -/
def Die.nextTopo (d : Die) (e : Nat) : Option (Nat × List Byte) :=
  (List.range 8).findSome? fun q => ((d.tport q).inbuf1.find? fun c => decide (c.1 = e)).map fun c => (q, c.2)

def removeFirst (e : Nat) : List (Nat × List Byte) → List (Nat × List Byte)
  | [] => []
  | c :: t => if c.1 = e then t else c :: removeFirst e t

/-- The first cell of ingress port `q` that waits for port `e` leaves its buffer, and its credit returns. -/
def Die.takeIn (d : Die) (q e : Nat) (vc1 : Bool) : Die :=
  (d.updTport q fun y =>
    if vc1 then { y with inbuf1 := removeFirst e y.inbuf1 } else { y with inbuf := removeFirst e y.inbuf }).creditBack q vc1

/-- Port `e` forwards its next DATA cell (R461). -/
def Die.forwardData (d : Die) (e : Nat) : Die :=
  match d.nextForward e with
  | none => d
  | some (q, cell) =>
    let x := d.tport e
    if !d.fab.assigned then (d.takeIn q e false).rxDiscard none 1
    else if x.state = .asleep then d.wakePeer e
    else if x.rests then d
    else if x.state ≠ .up then (d.takeIn q e false).transitMiss q 2 cell
    else if x.room false && d.moduleTurn e then
      let d := (d.takeIn q e false).dataOut e q (cellTtl cell) (cellBody cell)
      { d with fab := { d.fab with fwdCells := inc64 d.fab.fwdCells 1 } }
    else d

/-- Port `e` sends the next cell that waits for it: a TOPO cell where one may go, else a DATA cell. -/
def Die.forwardCell (d : Die) (e : Nat) : Die :=
  match d.nextTopo e with
  | some (q, cell) =>
    let x := d.tport e
    if x.state = .asleep then d.wakePeer e
    else if x.rests then d
    else if x.state ≠ .up then d.takeIn q e true
    else if x.room true && d.moduleTurn e then (d.takeIn q e true).sendCell e 3 (cellTtl cell) (cellBody cell)
    else d.forwardData e
  | none => d.forwardData e

/-! ### HELLO and TOPO (R474, R475) -/

/-- A cell's body with another payload: the rest stays as it came (R457). -/
def passOn (cell payload : List Byte) : List Byte := (cellBody cell).take 32 ++ padTo 256 payload ++ (cellBody cell).drop 288

/-- A whole cell's body with JOB 0 and ENC 0. -/
def plainBody (dst src : W32) (payload : List Byte) : List Byte :=
  leBytes 4 dst.toNat ++ leBytes 4 src.toNat ++ List.replicate 7 0 ++ leBytes 1 255 ++ List.replicate 16 0 ++
    padTo 256 payload ++ List.replicate 16 0

def Die.helloPayload (d : Die) (p : Nat) (nonce : W64) : List Byte :=
  leBytes 4 d.fab.addr.toNat ++ leBytes 1 p ++ List.replicate 3 0 ++ leBytes 4 d.variant.caps.toNat ++ leBytes 8 nonce.toNat ++
    leBytes 8 (d.tport p).echo.toNat ++ leBytes 4 (d.time.reading.toNat % 2 ^ 32)

def Die.helloOut (d : Die) (p : Nat) (nonce : W64) : Die :=
  let x := d.tport p
  if (x.state = .training ∨ x.room true) ∧ d.moduleTurn p = true then
    let d := d.updTport p fun x => { x with nonce := some nonce, helloAt := d.refNs }
    d.sendCell p 2 0 (plainBody 0xFFFFFFFF d.fab.addr (d.helloPayload p nonce))
  else d

/-- The port comes UP: LSEQ and credits start again. -/
def FabPort.bringUp (x : FabPort) : FabPort :=
  { x with state := .up, txSeq := 0, acked := 4095, rxSeq := 4095, credits := 512, credits1 := 16, unackedRx := 0,
           ret0 := 0, ret1 := 0, replayCnt := 0, replayBuf := [], wakeHeld := false, waking := false, woken := false,
           inReset := false }

/-- A HELLO taken on a port. -/
def Die.helloIn (d : Die) (p : Nat) (cell : List Byte) : Die :=
  let pl := cellPayload cell
  let x := d.tport p
  let echo := BitVec.ofNat 64 (cellField pl 20 8)
  let good := decide (x.nonce = some echo)
  let half := (d.refNs - x.helloAt) / 2
  let d := d.updTport p fun x =>
    { x with peer := w32 (cellField pl 0 4), peerPort := BitVec.ofNat 3 (cellField pl 4 1),
             echo := BitVec.ofNat 64 (cellField pl 12 8), waking := false,
             latency := if good then BitVec.ofNat 16 (min 65535 half) else x.latency,
             woken := x.woken || decide (x.state = .asleep), state := if x.state = .asleep then .training else x.state }
  if x.state ≠ .up then (if good then d.updTport p FabPort.bringUp else d) else d.creditBack p true

/-- STATE of FAB_PORTp_STATUS. -/
def PortState.code : PortState → Nat
  | .disabled => 0 | .training => 1 | .up => 2 | .asleep => 3 | .failed => 4

/-- What the last hop adds to its answer: FAB_ADDR, and per port STATE, PEER, PEER_PORT and LATENCY. -/
def Die.topoAnswer (d : Die) : List Byte :=
  leBytes 4 d.fab.addr.toNat ++ (List.range 8).flatMap fun p =>
    let x := d.tport p
    leBytes 1 x.state.code ++ leBytes 4 x.peer.toNat ++ leBytes 1 x.peerPort.toNat ++ leBytes 2 x.latency.toNat

/-- A TOPO cell that came in by port `p` goes on by port `e`, or waits in its buffer for it. -/
def Die.topoOn (d : Die) (p e : Nat) (cell body : List Byte) : Die :=
  let x := d.tport e
  let wait (d : Die) : Die :=
    d.updTport p fun y => { y with inbuf1 := y.inbuf1 ++ [(e, List.replicate 7 0 ++ leBytes 1 (cellTtl cell) ++ body)] }
  if 8 ≤ e then d.creditBack p true
  else if x.state = .asleep then (wait d).wakePeer e
  else if x.rests then wait d
  else if x.state ≠ .up then d.creditBack p true
  else if x.room true && (d.nextTopo e).isNone && d.moduleTurn e then (d.creditBack p true).sendCell e 3 (cellTtl cell) body
  else wait d

/-- A TOPO probe or answer accepted on port p. A probe that passes on leaves the port it came in by in the route, and the
answer retraces those. -/
def Die.topoIn (d : Die) (p : Nat) (cell : List Byte) : Die :=
  let pl := cellPayload cell
  let resp := bit (nth 0 pl 0).toNat 0
  let hops := (nth 0 pl 1).toNat
  let idx := (nth 0 pl 2).toNat
  if hops = 0 ∨ 14 < hops then d.creditBack p true
  else if !resp then
    if idx < hops then
      d.topoOn p (nth 0 pl (3 + idx)).toNat cell
        (passOn cell (setNth (setNth pl 2 (BitVec.ofNat 8 (idx + 1))) (3 + idx) (BitVec.ofNat 8 p)))
    else d.topoOn p p cell (plainBody (cellDst cell) (cellSrc cell)
      ([1, BitVec.ofNat 8 hops, BitVec.ofNat 8 hops] ++ (pl.drop 3).take 29 ++ d.topoAnswer))
  else if idx = 0 then d.creditBack p true
  else d.topoOn p (nth 0 pl (3 + (idx - 1))).toNat cell (passOn cell (setNth pl 2 (BitVec.ofNat 8 (idx - 1))))

/-! ### Failures of threads on the fabric (R260, R479) -/

/-- A fault has met a request of thread t: it stops, and THREAD_FAIL acts on the cause. -/
def Thread.fail (t : Thread) (cause : Nat) : Thread :=
  if t.state = .failed then t
  else { t with state := .failed, failed := true, stopping := true, inStep := false, failDue := some cause, pass := t.closingPass }

/-- A thread with requests on port p fails; those requests complete with an error. -/
def Thread.failPort (t : Thread) (p : Nat) : Thread :=
  if t.out.any (fun r => decide (r.dstSpace = 4 ∧ r.port = p)) then
    { (t.fail 0x09) with out := t.out.filter (fun r => decide (r.dstSpace ≠ 4 ∨ r.port ≠ p)) }
  else t

def Die.failPort (d : Die) (p : Nat) : Die :=
  { d with xfr := { d.xfr with threads := Tab.mapVal {} (fun t : Thread => t.failPort p) d.xfr.threads } }

/-- A fabric port reset (R479). -/
def Die.portReset (d : Die) (p : Nat) : Die :=
  (d.failPort p).updTport p fun x =>
    { x with replayBuf := [], inbuf := [], inbuf1 := [], credits := 0, credits1 := 0, ret0 := 0, ret1 := 0, unackedRx := 0, replayCnt := 0,
             txSeq := 0, acked := 4095, rxSeq := 4095, waking := false, woken := false, inReset := true,
             state := if x.state = .failed then .failed else .training }

/-! ### Reports (R478, R604, R605) -/

/-- A session whose requester meets R524: its chain ends in the operator root in force. -/
def Die.manages (d : Die) (x : Session) : Bool :=
  x.open_ && decide (x.path = .mgmtPort) && x.mutualAuth && decide (0 < d.fuses.rootRow ∧ x.rootDigest = d.fuses.root) && x.kemMixed

/-- PEER_FAIL in every session that meets R524. -/
def Die.sendPeerFail (d : Die) (e : PeerFail) (final : Bool) : Die :=
  let msg := leBytes 4 e.job.toNat ++ leBytes 4 e.peer.toNat ++ leBytes 4 d.fab.addr.toNat ++ [e.cause] ++
    leBytes 1 (b2n final) ++ leBytes 2 e.count ++ leBytes 8 e.time.toNat
  (d.mgmt.sessions.filter d.manages).foldl (fun (d : Die) x => d.send (.peerFail x.id msg)) d

/-- A peer-failure report (R604). DEDUCED (log entry 130): FIRST_TIME, and the clock of the window. -/
def Die.peerReport (d : Die) (job peer : W32) (cause : Nat) : Die :=
  if d.fab.peerFails.any fun e => decide (e.job = job ∧ e.peer = peer) then
    { d with fab := { d.fab with peerFails := d.fab.peerFails.map fun e =>
        if e.job = job ∧ e.peer = peer then { e with count := satAdd 0xFFFF e.count 1 } else e } }
  else
    let e : PeerFail := { job := job, peer := peer, cause := BitVec.ofNat 8 cause, count := 1, time := d.time.reading,
                            opened := d.refNs }
    let d := d.sendPeerFail e false
    if d.fab.peerFails.length < 64 then { d with fab := { d.fab with peerFails := d.fab.peerFails ++ [e] } } else d

/-! ### Cells: the commands -/

/-- The onward copy of a DATA cell had begun when its CRC failed, and is cut short (R460): the next LSEQ, for another die, by
a port that sends what comes next to it. -/
def Die.cutOnward (d : Die) (p : Nat) (cell : List Byte) : Die :=
  if !cellCrcGood cell && d.fab.assigned && decide (cellLseq cell = ((d.tport p).rxSeq + 1) % 4096 ∧ cellDst cell ≠ d.fab.addr ∧ 1 < cellTtl cell) then
    match d.egress (cellDst cell) with
    | some e =>
      if (d.tport e).room false && (d.served e (d.ownReady e)).isNone && d.moduleTurn e then d.send (.cellCut e) else d
    | none => d
  else d

/-- A numbered cell of one kind on a port that takes it, while FAB runs (R548, R554). -/
def Die.onCell (d : Die) (p kind : Nat) (cell : List Byte) (f : Die → Die) : Die :=
  let st := (d.tport p).state
  if d.fabRuns = true ∧ d.portPresent p = true ∧ cellClass cell = 4 ∧ cellKind cell = kind ∧ (st = .up ∨ (kind = 2 ∧ (st = .training ∨ st = .asleep))) then
    let a := (if kind = 0 then d.cutOnward p cell else d).acceptCell p cell
    if a.2 then f (a.1.rxCount p) else a.1
  else d

/-- DATA_CELL (R461); one for the die itself arrives in a cycle that leaves its bank port free (R467). -/
def execDataCell (p : Fin 8) (cell : List Byte) (s : State) : Host.Outcome State Fault Refusal :=
  s.act fun d =>
    if d.fabRuns = true ∧ cellDst cell = d.fab.addr ∧ d.landHeld (cellRch cell) (cellOffset cell) (cellLen cell) = true then d
    else d.onCell p.val 0 cell fun d => d.routeCell p.val cell

/-- CELL_FORWARD (R461): port p sends the next cell that waits for it. -/
def execCellForward (p : Fin 8) (s : State) : Host.Outcome State Fault Refusal :=
  s.act fun d => if d.fabRuns then d.forwardCell p.val else d

/-- LINK_CELL (R457, R458, R476). -/
def execLinkCell (p : Fin 8) (cell : List Byte) (s : State) : Host.Outcome State Fault Refusal :=
  s.act fun d =>
    if d.fabRuns ∧ d.portPresent p.val ∧ (d.tport p.val).state = .up ∧ cellClass cell = 4 ∧ cellKind cell = 1 then
      if linkCrcGood cell then
        let d := d.takeAck p.val cell
        if cellSleep cell then d.updTport p.val fun x => { x with state := .asleep } else d
      else d.updTport p.val fun x => { x with crcErrs := satInc32 x.crcErrs 1 }
    else d

/-- HELLO_CELL (R474). -/
def execHelloCell (p : Fin 8) (cell : List Byte) (s : State) : Host.Outcome State Fault Refusal :=
  s.act fun d => d.onCell p.val 2 cell fun d => d.helloIn p.val cell

/-- TOPO_CELL (R475). -/
def execTopoCell (p : Fin 8) (cell : List Byte) (s : State) : Host.Outcome State Fault Refusal :=
  s.act fun d => d.onCell p.val 3 cell fun d => d.topoIn p.val cell

/-- HELLO_SEND (R474). -/
def execHelloSend (p : Fin 8) (nonce : W64) (s : State) : Host.Outcome State Fault Refusal :=
  s.act fun d =>
    if d.fabRuns = true ∧ ((d.tport p.val).state = .training ∨ (d.tport p.val).state = .up) then d.helloOut p.val nonce else d

/-- LINK_ACK (R458): an acknowledgement in a LINK cell. -/
def execLinkAck (p : Fin 8) (s : State) : Host.Outcome State Fault Refusal :=
  s.act fun d =>
    let x := d.tport p.val
    if d.fabRuns = true ∧ x.state = .up ∧ (0 < x.unackedRx ∨ 0 < x.ret0 ∨ 0 < x.ret1) ∧ d.moduleTurn p.val = true then d.sendLink p.val false false else d

/-- REPLAY_TIMER (R458). -/
def execReplayTimer (p : Fin 8) (s : State) : Host.Outcome State Fault Refusal :=
  s.act fun d =>
    let x := d.tport p.val
    if d.fabRuns = true ∧ x.state = .up ∧ x.replayBuf ≠ [] ∧ d.moduleTurn p.val = true then d.replay p.val else d

/-- PORT_SLEEP (R476). -/
def execPortSleep (p : Fin 8) (s : State) : Host.Outcome State Fault Refusal :=
  s.act fun d =>
    let x := d.tport p.val
    if d.fabRuns = true ∧ x.state = .up ∧ x.replayBuf = [] ∧ d.moduleTurn p.val = true then (d.sendLink p.val false true).updTport p.val fun x => { x with state := .asleep } else d

/-- FAB_WAKE (R476): held as a wake request until the port is UP; an active die trains the port at once. -/
def execFabWake (p : Fin 8) (s : State) : Host.Outcome State Fault Refusal :=
  s.act fun d =>
    if d.portPresent p.val ∧ (d.tport p.val).state = .asleep then
      d.updTport p.val fun x =>
        { x with wakeHeld := true, woken := decide (d.pwr.state = .active ∧ d.pwr.tripped = false),
                 state := if d.pwr.state = .active ∧ d.pwr.tripped = false then .training else x.state }
    else d

/-- WAKE_RESEND (R476). -/
def execWakeResend (p : Fin 8) (s : State) : Host.Outcome State Fault Refusal :=
  s.act fun d => if d.fabRuns = true ∧ (d.tport p.val).waking = true ∧ (d.tport p.val).state = .asleep then d.send (.wakeSet p.val) else d

end Sys2Proof.Machine
end

