-- ==== Sys2Proof/Machine/Kv.lean ====
section
/-! DEFINITION. The KV page manager: grants, counts, the command port, generations and retires (R343 to R362), passes
(R365), templates (R363). -/

namespace Sys2Proof.Machine

/-! ### Tables (R347) -/

def halfKey (q : Nat) (h : Bool) : Nat := q * 8192 + b2n h * 4096

/-- Where entry `i` of a half lies. -/
def Die.entryAddr (d : Die) (q : Nat) (h : Bool) (i : Nat) : Nat :=
  wbits d.kvp.ptBase 19 0 * 0x100000 + 32768 * q + 16384 * b2n h + 4 * i

/-- The page that entry `i` of a half maps. -/
def Kvp.entry (k : Kvp) (q : Nat) (h : Bool) (i : Nat) : Option Nat :=
  let w := Tab.read 0 k.tables (halfKey q h + i)
  if w.getLsbD 31 then some (wbits w 16 0) else none

def Kvp.setEntry (k : Kvp) (q : Nat) (h : Bool) (i : Nat) (p : Option Nat) : Kvp :=
  { k with tables := Tab.write 0 k.tables (halfKey q h + i) (match p with | some p => w32 (0x80000000 + p) | none => 0) }

/-- The valid entries of a half: index and page. -/
def Kvp.half (k : Kvp) (q : Nat) (h : Bool) : List (Nat × Nat) :=
  (k.tables.filter fun c => decide (halfKey q h ≤ c.1 ∧ c.1 < halfKey q h + 4096)).map fun c =>
    (c.1 - halfKey q h, wbits c.2 16 0)

/-- MAPPED of a half (R348). -/
def Kvp.mapped (k : Kvp) (q : Nat) (h : Bool) : Nat := (k.half q h).foldl (fun (m : Nat) e => max m (e.1 + 1)) 0

def Kvp.chain (k : Kvp) (s : Nat) : List Nat := Tab.read [] k.chains s
def Kvp.setChain (k : Kvp) (s : Nat) (l : List Nat) : Kvp := { k with chains := Tab.write [] k.chains s l }

/-! ### Grant and release (R345) -/

/-- Tables and state of a sequence window are gone: both halves invalid, generation 0, a READY shadow. -/
def Kvp.resetSeqs (k : Kvp) (base n : Nat) : Kvp :=
  { k with tables := k.tables.filter fun c => decide (c.1 < base * 8192 ∨ (base + n) * 8192 ≤ c.1),
           seqs := k.seqs.filter fun c => decide (c.1 < base ∨ base + n ≤ c.1) }

def Kvp.resetPages (k : Kvp) (base n : Nat) : Kvp :=
  { k with pages := k.pages.filter fun c => decide (c.1 < base ∨ base + n ≤ c.1) }

/-- What a grant sets up: the range FREE and chained in ascending order. -/
def Die.kvGrant (d : Die) (s : Nat) : Die :=
  let x := d.slot s
  let k := (d.kvp.resetSeqs x.seqBase x.seqCount).resetPages x.firstPage x.pages
  { d with kvp := k.setChain s ((List.range x.pages).map fun i => x.firstPage + i) }

/-- What a release undoes: pages UNGRANTED, tables discarded. -/
def Die.kvRelease (d : Die) (s : Nat) : Die :=
  let x := d.slot s
  let k := (d.kvp.resetSeqs x.seqBase x.seqCount).resetPages x.firstPage x.pages
  { d with kvp := k.setChain s [] }

/-- The slot that owns a page. -/
def Die.pageOwner (d : Die) (p : Nat) : Option Nat :=
  firstBelow 64 fun s =>
    let x := d.slot s
    x.isGranted && decide (x.firstPage ≤ p ∧ p < x.firstPage + x.pages)

/-! ### Counts (R350 to R353) -/

/-- A page with neither REFS nor PINS returns to the head of its owner's chain (R352). -/
def Die.pageReturn (d : Die) (p : Nat) : Die :=
  let x := d.page p
  if x.live && !x.kept && decide (x.refs = 0 ∧ x.pins = 0) then
    let d := d.updPage p fun _ => {}
    match d.pageOwner p with
    | some s => { d with kvp := d.kvp.setChain s (p :: d.kvp.chain s) }
    | none => d
  else d

/-- KV_REF_UNDERFLOW (R353). -/
def Die.refUnderflow (d : Die) (p which op : Nat) : Die :=
  let owner := d.pageOwner p
  let d := d.updPage p fun x => { x with kept := true }
  let d := d.record 31 0x07 owner p which op 0
  match owner with
  | some s => d.abortSlot s 0x07
  | none => d

def Die.refsSub (d : Die) (p op : Nat) : Die :=
  if (d.page p).refs = 0 then d.refUnderflow p 0 op
  else (d.updPage p fun x => { x with refs := x.refs - 1 }).pageReturn p

def Die.pinsSub (d : Die) (p : Nat) : Die :=
  if (d.page p).pins = 0 then d.refUnderflow p 1 8
  else (d.updPage p fun x => { x with pins := x.pins - 1 }).pageReturn p

/-! ### Entering a command (R355) -/

/-- A write of KVP_CMDs_GO or KVP_PUBLISHs enters a command. -/
def Die.kvEnter (d : Die) (fn s op : Nat) (arg2 : W32) : Die :=
  let c := d.kvCmd s
  if c.pending then d.updKvCmd s fun c => { c with overrun := true }
  else
    let d := d.updKvCmd s fun c => { c with pending := true, done := false, overrun := false }
    { d with kvp := { d.kvp with queue := d.kvp.queue ++ [.command s op c.arg0 c.arg1 arg2 fn] } }

/-- The functions that reach a slot's command page (R428). -/
def kvReach (fn s : Nat) : Bool := decide (fn = 0 ∨ fn = s)

def Die.kvGo (d : Die) (fn s op : Nat) : Die :=
  if kvReach fn s && d.hostOpen then d.kvEnter fn s op (d.kvCmd s).arg2 else d

def Die.kvPublishWrite (d : Die) (fn s : Nat) (len : W32) : Die :=
  if kvReach fn s && d.hostOpen then d.kvEnter fn s 5 len else d

/-! ### Running a command (R356 to R360) -/

/-- Result of a command: STATUS, and RES1 when it succeeds. -/
structure KvRes where
  die    : Die
  status : Nat
  res1   : Option Nat := none

/-- Retire enters the queue when the half that is not active has no holds (R361). -/
def Die.retireIfFree (d : Die) (q : Nat) : Die :=
  let x := d.seq q
  let hold := if x.half then x.hold0 else x.hold1
  if x.shadow = .retiring ∧ hold = 0 ∧ d.kvp.queue.contains (.retire q) = false then
    { d with kvp := { d.kvp with queue := d.kvp.queue ++ [.retire q] } }
  else d

/-- PUBLISH (R360). -/
def Die.kvPublish (d : Die) (q gen len : Nat) : Die :=
  let h := !(d.seq q).half
  let d := (d.kvp.half q h).foldl (fun (d : Die) e => d.updPage e.2 fun x => { x with pins := x.pins + 1 }) d
  let d := d.updSeq q fun x => { x with gen := BitVec.ofNat 16 gen, half := h, len := len, shadow := .retiring }
  d.retireIfFree q

/-- Take the head of a slot's chain as a LIVE page with REFS 1. -/
def Die.takePage (d : Die) (s p : Nat) (rest : List Nat) : Die :=
  Die.updPage { d with kvp := d.kvp.setChain s rest } p fun _ => { live := true, refs := 1, pins := 0 }

def Die.mapEntry (d : Die) (q : Nat) (h : Bool) (i : Nat) (p : Option Nat) : Die :=
  { d with kvp := d.kvp.setEntry q h i p }

/-- The edit of a command whose generation checks pass (R356, R357). -/
def Die.kvEdit (d : Die) (s op q : Nat) (h : Bool) (idx srcQ srcIdx gen len : Nat) : KvRes :=
  let cur := d.kvp.entry q h idx
  if op = 1 then
    match cur, d.kvp.chain s with
    | some _, _ => { die := d, status := 3 }
    | none, [] => { die := d, status := 5 }
    | none, p :: rest => { die := (d.takePage s p rest).mapEntry q h idx (some p), status := 0, res1 := some p }
  else if op = 2 then
    match cur, d.kvp.entry srcQ (d.seq srcQ).half srcIdx with
    | some _, _ => { die := d, status := 3 }
    | none, none => { die := d, status := 4 }
    | none, some p =>
      { die := (d.updPage p fun x => { x with refs := x.refs + 1 }).mapEntry q h idx (some p), status := 0, res1 := some p }
  else if op = 3 then
    match cur with
    | none => { die := d, status := 4 }
    | some p =>
      if (d.page p).refs = 1 then { die := d, status := 0, res1 := some p }
      else
        match d.kvp.chain s with
        | [] => { die := d, status := 5 }
        | n :: rest =>
          let d := d.takePage s n rest
          let d := { d with st := { d.st with hbm := Mem.copy d.st.hbm (d.poolBase + p * pageBytes) (d.poolBase + n * pageBytes) pageBytes } }
          let d := if d.isConf s then d else { d with kvp := { d.kvp with copies := satInc32 d.kvp.copies 1 } }
          { die := (d.mapEntry q h idx (some n)).refsSub p 3, status := 0, res1 := some n }
  else if op = 4 then
    match cur with
    | none => { die := d, status := 4 }
    | some p => { die := (d.mapEntry q h idx none).refsSub p 4, status := 0, res1 := some p }
  else { die := d.kvPublish q gen len, status := 0, res1 := some len }

/-- RES1 of a QUERY. -/
def Die.kvQuery (d : Die) (q : Nat) : Nat :=
  let x := d.seq q
  let sh := match x.shadow with | .ready => 0 | .retiring => 1 | .copying => 2
  sh * 2 ^ 30 + d.kvp.mapped q x.half * 2 ^ 17 + x.len

/-- PT_WRITE_PROTECT of the command port (R358). -/
def Die.ptProtect (d : Die) (s seq gen idx op : Nat) : Die :=
  (d.record 29 0x06 (some s) (seq * 0x10000 + gen) idx op 0).abortSlot s 0x06

/-- COW copies a page that others share: the page and the one that takes its place (R356). -/
def Die.cowPages (d : Die) (s q : Nat) (h : Bool) (idx : Nat) : Option (Nat × Nat) :=
  match d.kvp.entry q h idx, d.kvp.chain s with
  | some p, n :: _ => if (d.page p).refs = 1 then none else some (p, n)
  | _, _ => none

/-- The HBM4 ranges that a command's action reads, or writes in part: table entries, and the page that a copy reads. -/
def Die.kvRanges (d : Die) (s op q : Nat) (h : Bool) (idx srcQ srcIdx : Nat) : List (Nat × Nat) :=
  if op = 5 then [(d.entryAddr q h 0, 4 * d.kvp.mapped q h)]
  else
    (d.entryAddr q h idx, 4) ::
      (if op = 2 then [(d.entryAddr srcQ (d.seq srcQ).half srcIdx, 4)]
       else if op = 3 then
         match d.cowPages s q h idx with
         | some (p, _) => [(d.poolBase + p * pageBytes, pageBytes)]
         | none => []
       else [])

/-- The page that a copy writes. -/
def Die.kvWrites (d : Die) (s op q : Nat) (h : Bool) (idx : Nat) : List (Nat × Nat) :=
  if op = 3 then
    match d.cowPages s q h idx with
    | some (_, n) => [(d.poolBase + n * pageBytes, pageBytes)]
    | none => []
  else []

/-- A COW's copy waits for a scrub of either page (R504). -/
def Die.kvWaits (d : Die) (s op : Nat) (a0 a1 : W32) : Bool :=
  let x := d.slot s
  let q := x.seqBase + wbits a0 27 16
  decide (op = 3 ∧ x.isGranted = true ∧ wbits a0 27 16 < x.seqCount ∧ wbits a0 15 0 = ((d.seq q).gen.toNat + 1) % 65536 ∧
      (d.seq q).shadow = .ready) &&
    (match d.cowPages s q (!(d.seq q).half) (wbits a1 11 0) with
     | some (p, n) => d.scrubbing (d.poolBase + p * pageBytes) pageBytes || d.scrubbing (d.poolBase + n * pageBytes) pageBytes
     | none => false)

/-- Nothing on record keeps a range from being read: no failed channel, no erased key. -/
def Die.kvSound (d : Die) (rs : List (Nat × Nat)) : Bool := !d.hbm.failed && !d.onDead rs && (d.lost rs []).isNone

/-- The checks of R357 in order, then the action. MAPPED, UNMAPPED and NO_PAGE come before FAILED, where the target entry itself
can be read: `acc` is what the accesses after them meet. -/
def Die.kvRun (d : Die) (s op : Nat) (a0 a1 a2 : W32) (acc : Access) : KvRes :=
  let x := d.slot s
  let seq := wbits a0 27 16
  let gen := wbits a0 15 0
  let src := wbits a1 27 16
  let idx := wbits a1 11 0
  let z := wbits a2 16 0
  let range := op = 0 ∨ 6 < op ∨ x.isGranted = false ∨ x.seqCount ≤ seq ∨
    (op = 2 ∧ (x.seqCount ≤ src ∨ 4095 < z)) ∨ (op = 5 ∧ 65536 < z)
  if range then { die := d, status := 6 }
  else
    let q := x.seqBase + seq
    let st := d.seq q
    if op = 6 then { die := d, status := 0, res1 := some (d.kvQuery q) }
    else if gen = st.gen.toNat then { die := d.ptProtect s seq gen idx op, status := 9 }
    else if gen = (st.gen.toNat + 1) % 65536 then
      if st.shadow ≠ .ready then { die := d, status := 1 }
      else if (d.kvEdit s op q (!st.half) idx (x.seqBase + src) z gen z).status ≠ 0 ∧ d.kvSound [(d.entryAddr q (!st.half) idx, 4)] = true then
        d.kvEdit s op q (!st.half) idx (x.seqBase + src) z gen z
      else
        let a := d.accessed acc (d.kvRanges s op q (!st.half) idx (x.seqBase + src) z) (d.kvWrites s op q (!st.half) idx) (some s)
        if a.2 || d.hbm.failed then { die := a.1, status := 7 }
        else a.1.kvEdit s op q (!st.half) idx (x.seqBase + src) z gen z
    else { die := d, status := 2 }

/-- Completion (R355, R359). -/
def KvRes.complete (r : KvRes) (s : Nat) (a0 : W32) : Die :=
  let x := r.die.slot s
  let seq := wbits a0 27 16
  let d := r.die.updKvCmd s fun c =>
    { c with pending := false, done := true, status := BitVec.ofNat 4 r.status,
             gen := if x.isGranted = true ∧ seq < x.seqCount then (r.die.seq (x.seqBase + seq)).gen else c.gen,
             res1 := match r.res1 with | some v => w32 v | none => c.res1 }
  { d with kvp := { d.kvp with cmds := inc64 d.kvp.cmds 1 } }

/-! ### Retire (R361) -/

/-- Copy the active entries into the retired half, and invalidate the others there. -/
def Kvp.copyHalf (k : Kvp) (q : Nat) (active : Bool) : Kvp :=
  let lo := halfKey q (!active)
  let t := k.tables.filter fun c => decide (c.1 < lo ∨ lo + 4096 ≤ c.1)
  { k with tables := (k.half q active).foldl (fun (t : Tab W32) e => Tab.write 0 t (lo + e.1) (w32 (0x80000000 + e.2))) t }

/-- The slot whose window holds a sequence. -/
def Die.seqOwner (d : Die) (q : Nat) : Option Nat :=
  firstBelow 64 fun s =>
    let x := d.slot s
    x.isGranted && decide (x.seqBase ≤ q ∧ q < x.seqBase + x.seqCount)

def Die.kvRetire (d : Die) (q : Nat) (acc : Access) : Die :=
  let active := (d.seq q).half
  let d := d.updSeq q fun x => { x with shadow := .copying }
  let a := d.accessed acc [(d.entryAddr q false 0, 32768)] [] (d.seqOwner q)
  if a.2 || d.hbm.failed then a.1
  else
    let d := (a.1.kvp.half q (!active)).foldl (fun (d : Die) e => d.pinsSub e.2) a.1
    let d := { d with kvp := d.kvp.copyHalf q active }
    d.updSeq q fun x => { x with shadow := .ready }

/-! ### Passes (R365, R370) -/

/-- Open a pass on a physical sequence: snapshot and hold. -/
def Die.openPass (d : Die) (t q : Nat) : Die :=
  let x := d.seq q
  let d := d.updSeq q fun x => if x.half then { x with hold1 := x.hold1 + 1 } else { x with hold0 := x.hold0 + 1 }
  d.updThread t fun y => { y with pass := some { seq := q, half := x.half, gen := x.gen, len := x.len } }

/-- Release the hold of a thread's pass; a RETIRING half without holds retires. -/
def Die.closePass (d : Die) (t : Nat) : Die :=
  match (d.thread t).pass with
  | some p =>
    let d := d.updSeq p.seq fun x => if p.half then { x with hold1 := x.hold1 - 1 } else { x with hold0 := x.hold0 - 1 }
    let d := d.updThread t fun y => { y with pass := none }
    d.retireIfFree p.seq
  | none => d

/-! ### The commands -/

/-- ALLOCATE (R355): the write of KVP_CMDs_GO that enters it. -/
def execAllocate (fn sl : Fin 64) (s : State) : Host.Outcome State Fault Refusal :=
  s.act fun d => d.hostMsg (.wr fn.val (offKv sl.val 0xC) 4 1) fun d => d.kvGo fn.val sl.val 1

/-- SHARE (R355). -/
def execShare (fn sl : Fin 64) (s : State) : Host.Outcome State Fault Refusal :=
  s.act fun d => d.hostMsg (.wr fn.val (offKv sl.val 0xC) 4 2) fun d => d.kvGo fn.val sl.val 2

/-- COW (R355). -/
def execCow (fn sl : Fin 64) (s : State) : Host.Outcome State Fault Refusal :=
  s.act fun d => d.hostMsg (.wr fn.val (offKv sl.val 0xC) 4 3) fun d => d.kvGo fn.val sl.val 3

/-- FREE (R355). -/
def execFree (fn sl : Fin 64) (s : State) : Host.Outcome State Fault Refusal :=
  s.act fun d => d.hostMsg (.wr fn.val (offKv sl.val 0xC) 4 4) fun d => d.kvGo fn.val sl.val 4

/-- PUBLISH (R355): a write of LEN to KVP_PUBLISHs. -/
def execPublish (fn sl : Fin 64) (len : BitVec 17) (s : State) : Host.Outcome State Fault Refusal :=
  s.act fun d => d.hostMsg (.wr fn.val (offKv sl.val 0x18) 4 (w32 len.toNat)) fun d => d.kvPublishWrite fn.val sl.val (w32 len.toNat)

/-- QUERY (R355). -/
def execQuery (fn sl : Fin 64) (s : State) : Host.Outcome State Fault Refusal :=
  s.act fun d => d.hostMsg (.wr fn.val (offKv sl.val 0xC) 4 6) fun d => d.kvGo fn.val sl.val 6

/-- KVP_QUEUE_HEAD (R354): the command at the head of the queue runs to completion, while XFR, whose clock and power the KV page manager has
(R553), runs. -/
def execKvpQueueHead (acc : Access) (s : State) : Host.Outcome State Fault Refusal :=
  s.act fun d =>
    match d.kvp.queue with
    | .command sl op a0 a1 a2 _ :: rest =>
      if !d.xfrRuns || d.kvWaits sl op a0 a1 then d
      else KvRes.complete (Die.kvRun { d with kvp := { d.kvp with queue := rest } } sl op a0 a1 a2 acc) sl a0
    | _ => d

/-- RETIRE (R361): the retire at the head of the queue runs. -/
def execRetire (acc : Access) (s : State) : Host.Outcome State Fault Refusal :=
  s.act fun d =>
    match d.kvp.queue with
    | .retire q :: rest => if d.xfrRuns then Die.kvRetire { d with kvp := { d.kvp with queue := rest } } q acc else d
    | _ => d

end Sys2Proof.Machine
end

