-- ==== Sys2Proof/Machine/Transfer.lean ====
section
/-! DEFINITION. Transfer threads: steps (R242 to R255), requests (R238 to R241, R256 to R258), walks (R363 to R370),
failures (R260), and the HBM4 events of R232, R235 and R236. -/

namespace Sys2Proof.Machine

/-! ### Steps in the transfer program store (R242 to R248) -/

/-- Word `k` (64 bits) of the step at unit `u`. -/
def Stores.xword (st : Stores) (u k : Nat) : Nat := Mem.le st.xprog (16 * u + 8 * k) 8

def xKind (w : Nat) : Nat := bitsOf w 7 0

/-- Units of a step of a kind (R243). -/
def xUnits (kind : Nat) : Nat := if kind = 2 then 4 else if kind = 1 ∨ kind = 3 ∨ kind = 4 then 2 else 1

def Stores.xkind (st : Stores) (u : Nat) : Nat := xKind (st.xword u 0)

/-- The steps of the program from unit `u`, in store order up to its END (R242). -/
def Stores.xsteps (st : Stores) : Nat → Nat → List Nat
  | 0, _ => []
  | n + 1, u => if st.xkind u = 0 then [u] else u :: st.xsteps n (u + xUnits (st.xkind u))

/-- Index of the step at `pc` within the program from `entry`. -/
def Stores.stepIndex (st : Stores) (entry pc : Nat) : Nat := (st.xsteps 64 entry).findIdx (· == pc)

/-- Tallies that the program's SIGNAL steps name. -/
def Stores.signalTallies (st : Stores) (entry : Nat) : List Nat :=
  ((st.xsteps 64 entry).filter fun u => st.xkind u = 5).map fun u => bitsOf (st.xword u 0) 15 8

/-- An endpoint (R244). -/
structure Endpoint where
  space  : Nat
  useArg : Bool
  useX   : Bool
  istr   : Nat
  fch    : Nat
  base   : Nat

def endpoint (w : Nat) : Endpoint :=
  { space := bitsOf w 63 61, useArg := bit w 60, useX := bit w 59, istr := bitsOf w 58 48, fch := bitsOf w 47 40,
    base := bitsOf w 39 0 }

/-- The effective address (R244). -/
def Endpoint.addr (e : Endpoint) (t : Thread) (x : BitVec 40) : Int :=
  (e.base + t.idx * e.istr * 256 + (if e.useArg then t.arg.toNat * 256 else 0) : Nat) + (if e.useX then x.toInt else 0)

/-! ### Walks (R247, R363 to R369) -/

structure Template where
  pgOff   : Nat
  pgLen   : Nat
  dstride : Int
  tokOff  : Bool
  lenOut  : Bool
  lenDst  : Nat

def Die.template (d : Die) (s i : Nat) : Template :=
  let base := match (d.slot s).seg with
    | some g => if i < g.tmplCount then some (32 * (g.tmplBase + i)) else none
    | none => none
  match base with
  | some a =>
    let w (o n : Nat) : Nat := Mem.le d.st.tmpl (a + o) n
    { pgOff := w 0 4, pgLen := w 4 4, dstride := sext 32 (w 8 4), tokOff := bit (w 12 1) 0, lenOut := bit (w 12 1) 1, lenDst := w 16 8 }
  | none => { pgOff := 0, pgLen := 0, dstride := 0, tokOff := false, lenOut := false, lenDst := 0 }

def walkSeq (t : Thread) (w : Nat) : Nat := if bit w 28 then wbits t.arg 11 0 else bitsOf w 27 16
def walkPass (w : Nat) : Nat := bitsOf w 30 29
def walkFirst (w : Nat) : Nat := bitsOf w 43 32
def walkPages (w : Nat) : Nat := bitsOf w 56 44

/-! ### The requests of a step -/

/-- Number of elements, or pages, of the step at the thread's pc. -/
def Die.elems (d : Die) (t : Thread) : Nat :=
  let w := d.st.xword t.pc 0
  let k := xKind w
  if k = 1 then 1
  else if k = 2 then
    let c := d.st.xword t.pc 3
    (bitsOf c 15 0 + 1) * (bitsOf c 31 16 + 1) * (bitsOf c 47 32 + 1) * (bitsOf c 63 48 + 1)
  else walkPages w

/-- One element: source and destination address, its bytes, the spaces, and the fabric channel number. A page-pool side
has space 8 and an offset within the page. -/
structure Elem where
  srcSpace : Nat
  src      : Int
  dstSpace : Nat
  dst      : Int
  len      : Nat
  fch      : Nat := 0

/-- Σ ik·STRk of STRIDE element `e`, for the four strides of words `k` and `k + 1` (R246). -/
def strideOff (c s0 s1 e : Nat) : Int :=
  let n1 := bitsOf c 15 0 + 1
  let n2 := bitsOf c 31 16 + 1
  let n3 := bitsOf c 47 32 + 1
  ((e % n1 : Nat) : Int) * sext 32 s0 + ((e / n1 % n2 : Nat) : Int) * sext 32 (s0 / 2 ^ 32) +
    ((e / n1 / n2 % n3 : Nat) : Int) * sext 32 s1 + ((e / n1 / n2 / n3 : Nat) : Int) * sext 32 (s1 / 2 ^ 32)

def Die.element (d : Die) (t : Thread) : Elem :=
  let w (k : Nat) : Nat := d.st.xword t.pc k
  let k := xKind (w 0)
  let a := endpoint (w 1)
  let b := endpoint (w 2)
  if k = 1 then
    { srcSpace := a.space, src := a.addr t t.xs, dstSpace := b.space, dst := b.addr t t.xd, len := bitsOf (w 0) 47 16, fch := b.fch }
  else if k = 2 then
    { srcSpace := a.space, src := a.addr t t.xs + strideOff (w 3) (w 4) (w 5) t.elem,
      dstSpace := b.space, dst := b.addr t t.xd + strideOff (w 3) (w 6) (w 7) t.elem, len := bitsOf (w 0) 31 8, fch := b.fch }
  else
    let m := d.template t.slot (bitsOf (w 0) 15 8)
    let page : Int := (m.pgOff + (if m.tokOff then wbits t.arg 31 16 * 256 else 0) : Nat)
    let far (x : BitVec 40) : Int := a.addr t x + (t.elem : Int) * m.dstride
    if k = 3 then { srcSpace := 8, src := page, dstSpace := a.space, dst := far t.xd, len := m.pgLen, fch := a.fch }
    else { srcSpace := a.space, src := far t.xs, dstSpace := 8, dst := page, len := m.pgLen }

/-- Where a side of a request falls: an address of its store (physical for HBM4), or none when it is refused (R258, R434).
Threads only read line buffers. -/
def Die.sideAddr (d : Die) (t : Thread) (space : Nat) (a : Int) (n : Nat) (write : Bool) : Option Nat :=
  if space = 0 then (d.slot t.slot).phys a n
  else if space = 8 then
    match t.page with
    | some p => if t.outside = false ∧ 0 ≤ a ∧ a + n ≤ pageBytes then some (d.poolBase + p * pageBytes + a.toNat) else none
    | none => none
  else if space ≤ 3 ∧ ¬ (space = 3 ∧ write) ∧ d.granted t.slot space a n = true then some a.toNat
  else none

/-- The length record of R369 as a request. -/
def Die.lenRequest (d : Die) (t : Thread) : Req :=
  let m := d.template t.slot (bitsOf (d.st.xword t.pc 0) 15 8)
  let e := endpoint m.lenDst
  let a := e.addr t t.xd
  let p := t.pass.getD { seq := 0, half := false, gen := 0, len := 0 }
  let ok := if e.space = 1 ∨ e.space = 2 then d.sideAddr t e.space a 8 true else none
  { srcSpace := 9, srcAddr := 0, dstSpace := e.space, dstAddr := ok.getD 0, len := 8, srcOk := true, dstOk := ok.isSome,
    data := some (leBytes 4 p.len ++ leBytes 2 p.gen.toNat ++ [0, 0]) }

/-- The next request of the current step: at most 256 bytes, never across a 256-byte
boundary of the source (R240). The source of an unmapped page is zero bytes (R366). -/
def Die.nextRequest (d : Die) (t : Thread) : Req :=
  if t.lenRec then d.lenRequest t
  else
    let e := d.element t
    let src := e.src + (t.off : Int)
    let dst := e.dst + (t.off : Int)
    let n := min (e.len - t.off) (256 - wrapNat 8 src)
    let zero := decide (e.srcSpace = 8 ∧ t.page = none ∧ t.outside = false)
    let sa := d.sideAddr t e.srcSpace src n false
    let da := if e.dstSpace = 4 then some (wrapNat 40 dst) else d.sideAddr t e.dstSpace dst n true
    { srcSpace := if e.srcSpace = 8 then 0 else e.srcSpace, srcAddr := sa.getD 0,
      dstSpace := if e.dstSpace = 8 then 0 else e.dstSpace, dstAddr := da.getD 0, len := n,
      srcOk := zero || sa.isSome, dstOk := da.isSome,
      fch := e.fch, data := if zero || sa.isNone then some (List.replicate n 0) else none }

/-! ### Failure and the end of a step -/

/-- The access met a word that cannot be corrected. -/
def accessMetWord : Access → Bool
  | .ecc e => eccBad e
  | _ => false

/-- The cause with which an access that failed fails its thread (R260). -/
def failCause : Access → Nat
  | .ok => 0
  | .ecc _ => 0x02
  | .crcFail _ => 0x0E
  | .delivered _ _ _ => 0x08


def Die.failThread (d : Die) (t cause : Nat) : Die := d.updThread t fun x => x.fail cause

/-- The thread's next step is at `pc`; a thread that STOP has named ends here (R100). -/
def Die.toStep (d : Die) (t pc : Nat) : Die :=
  d.updThread t fun x =>
    let x := { x with pc := pc, inStep := false, elem := 0, off := 0, page := none, lenRec := false, outside := false,
                      step := d.st.stepIndex x.entry pc }
    if x.stopping then { x with state := .stopped, pass := x.closingPass } else x

/-- The current step has issued its last request: a closing walk's pass is to close (R365). -/
def Die.stepOver (d : Die) (t : Nat) : Die :=
  let x := d.thread t
  let w := d.st.xword x.pc 0
  let k := xKind w
  let once := match x.pass with | some p => p.once | none => false
  let d := if (k = 3 ∨ k = 4) ∧ (2 ≤ walkPass w ∨ once = true) ∧ x.outside = false then
      d.updThread t fun x => { x with pass := x.pass.map fun p => { p with closing := true, upTo := some d.xfr.issued } }
    else d
  d.toStep t (x.pc + xUnits k)

/-- A KVP count that a confidential context's events do not make (R380). -/
def Die.kvCount (d : Die) (s : Nat) (f : Kvp → Kvp) : Die := if d.isConf s then d else { d with kvp := f d.kvp }

/-- The block of 64 entries that holds an entry, as it is fetched (R366): the table's tag can fail, and its channel (R497). The
thread then fails. -/
def Die.fetchEntry (d : Die) (t q : Nat) (h : Bool) (i : Nat) (walk : Access) : Die × Bool :=
  let r := d.accessedBy walk [(d.entryAddr q h i, 4)] [] (some (d.thread t).slot) { code := 1, thread := t }
  if r.2 then (r.1.failThread t (if d.onDead [(d.entryAddr q h i, 4)] then 0x0E else failCause walk), true) else r

/-- Resolve the page of the walk's current element (R366, R368): true when the element has requests. `walk` says what the
fetch of its table entry met. -/
def Die.resolvePage (d : Die) (t : Nat) (walk : Access) : Die × Bool :=
  let x := d.thread t
  let w := d.st.xword x.pc 0
  let i := walkFirst w + x.elem
  if x.outside then (d, true)
  else
    match x.pass with
    | none => (d, false)
    | some p =>
      let f := d.fetchEntry t p.seq p.half i walk
      if f.2 then (f.1, false)
      else
      let d := f.1.kvCount x.slot fun k => { k with walkPages := inc64 k.walkPages 1 }
      match d.kvp.entry p.seq p.half i with
      | some pg =>
        if xKind w = 4 ∧ 2 ≤ (d.page pg).refs then
          ((d.record 30 0x06 (some x.slot) pg i t 0).failThread t 0x06, false)
        else (d.updThread t fun x => { x with page := some pg }, true)
      | none =>
        (Die.updThread (d.kvCount x.slot fun k => { k with unmapped := satInc32 k.unmapped 1 }) t
          (fun x => { x with page := none }), decide (xKind w = 3))

/-- The words that were in error are met once. -/
def laterAccess : Access → Access
  | .ecc _ => .ok
  | a => a

/-- Go on to the next element that has a request, or past the step when there is none. -/
def Die.settle (d : Die) (t : Nat) : Nat → Access → Die
  | 0, _ => d
  | n + 1, walk =>
    let x := d.thread t
    if !x.inStep || x.state ≠ .running then d
    else if d.elems x ≤ x.elem || (d.element x).len = 0 then (if x.lenRec then d else d.stepOver t)
    else
      let k := xKind (d.st.xword x.pc 0)
      if k = 1 ∨ k = 2 then d
      else
        let r := d.resolvePage t walk
        if r.2 then r.1
        else Die.settle (r.1.updThread t fun x => { x with elem := x.elem + 1 }) t n (laterAccess walk)

/-- A request has been taken from the step. -/
def Die.requestTaken (d : Die) (t n : Nat) (walk : Access) : Die :=
  let x := d.thread t
  if x.lenRec then
    let d := d.updThread t fun x => { x with lenRec := false }
    if d.elems x ≤ x.elem || (d.element x).len = 0 then d.stepOver t else d
  else if x.off + n < (d.element x).len then d.updThread t fun x => { x with off := x.off + n }
  else (d.updThread t fun x => { x with elem := x.elem + 1, off := 0, page := none }).settle t 4097 walk

/-! ### Taking up a step -/

/-- Thread t is at a step of a kind and may take it up, while XFR runs (R548, R554). -/
def Die.atStep (d : Die) (t kind : Nat) : Bool :=
  let x := d.thread t
  d.xfrRuns && decide (x.state = .running) && !x.inStep && !x.stopping && decide (d.st.xkind x.pc = kind)

/-- What the check code found as the step was read; an uncorrectable word ends the context and the thread. -/
def Die.stepFetch (d : Die) (t : Nat) (e : Ecc) : Die × Bool :=
  let s := (d.thread t).slot
  let d := d.ecc e (some s) { code := 1, thread := t }
  if eccBad e then (d.failThread t 0x02, true) else (d, false)

/-- The step reads its words and runs. -/
def Die.runStep (d : Die) (t kind : Nat) (e : Ecc) (f : Die → Die) : Die :=
  if d.atStep t kind then
    let r := d.stepFetch t e
    if r.2 then r.1 else f r.1
  else d

/-- ABSENT_UNIT of a step (R249): working store 1 on a part without it, or a channel pinned to an absent port. -/
def Die.stepAbsent (d : Die) (x : Thread) (ends : List Nat) : Bool :=
  ends.any fun w =>
    let e := endpoint w
    (decide (e.space = 2) && !d.hasTe1) ||
    (decide (e.space = 4) && (match d.sendChannel x.slot e.fch with
      | some c => decide ((d.channel c).pin < 8) && !d.portPresent (d.channel c).pin
      | none => false))

def Die.absentStep (d : Die) (t : Nat) : Die :=
  let x := d.thread t
  (d.record 24 0x04 (some x.slot) t (d.st.stepIndex x.entry x.pc) 0 0).failThread t 0x04

/-- MOVE and STRIDE take up their requests (R245, R246, R250). -/
def Die.moveStep (d : Die) (t : Nat) : Die :=
  let x := d.thread t
  if d.stepAbsent x [d.st.xword x.pc 1, d.st.xword x.pc 2] then d.absentStep t
  else (d.updThread t fun x => { x with inStep := true, elem := 0, off := 0 }).settle t 1 .ok

/-- GATHER and SCATTER: the pass (R365, R367), then their pages (R366). A step that needs the thread's one pass closed
first waits for PASS_CLOSE. The first page is resolved with the snapshot, and the length record is the first request (R369). -/
def Die.walkStep (d : Die) (t : Nat) (walk : Access) : Die :=
  let x := d.thread t
  let w := d.st.xword x.pc 0
  let sl := d.slot x.slot
  let q := walkSeq x w
  let p := walkPass w
  let phys := sl.seqBase + q
  let begin_ (d : Die) (len out : Bool) : Die :=
    (d.updThread t fun x =>
      { x with inStep := true, elem := 0, off := 0, page := none, lenRec := len, outside := out,
               pass := x.pass.map fun y => { y with from_ := d.xfr.issued } }).settle t 4097 walk
  let open_ (d : Die) : Die :=
    begin_ ((d.openPass t phys).updThread t fun x => { x with pass := x.pass.map fun y => { y with once := decide (p = 0) } })
      (d.template x.slot (bitsOf w 15 8)).lenOut false
  if d.stepAbsent x [d.st.xword x.pc 1] then d.absentStep t
  else if sl.seqCount ≤ q then begin_ d false true
  else
    match x.pass with
    | none => open_ d
    | some ps =>
      if ps.closing then d
      else if p = 1 ∨ p = 3 then
        if x.out.isEmpty then open_ (d.closePass t)
        else d.updThread t fun x => { x with pass := x.closingPass }
      else if ps.seq = phys then begin_ d false false
      else begin_ d false true

/-! ### Requests (R238 to R240, R256 to R258) -/

/-- The HBM4 ranges of a request's sides; a destination may reach into a second block. -/
def Req.reads (r : Req) : List (Nat × Nat) := if r.srcSpace = 0 ∧ r.srcOk = true then [(r.srcAddr, r.len)] else []
def Req.writes (r : Req) : List (Nat × Nat) := if r.dstSpace = 0 ∧ r.dstOk = true then [(r.dstAddr, r.len)] else []

/-- Channels that a request's HBM4 sides lie on; a channel's failure ends every request on it, read or not (R236). -/
def Die.reqChannels (d : Die) (r : Req) : List Nat :=
  (r.reads ++ r.writes).flatMap fun x => (List.range (ceilDiv (x.1 % 256 + x.2) 256)).map fun i => d.channelOf (x.1 + 256 * i)

/-- Requests in flight with a side on a channel: its queue holds no others. -/
def Die.onChannel (d : Die) (c : Nat) : Nat :=
  d.xfr.threads.foldl (fun (n : Nat) e => n + (e.2.out.filter fun r => (d.reqChannels r).contains c).length) 0

/-- A channel that a request needs may have its queue of 64 full (R238). -/
def Die.mayFill (d : Die) (r : Req) : Bool := (d.reqChannels r).any fun c => decide (64 ≤ d.onChannel c)

/-- The bytes a request reads (R257): each 64-bit word of the source as it stood at some instant since the issue. `picks` says
at which, by index into the source's history; a word that it does not name is read now. -/
def Die.reqRead (d : Die) (r : Req) (picks : List Nat) : List Byte :=
  match r.data with
  | some b => b
  | none =>
    let past := Tab.read [] d.seen r.serial
    let now := d.st.source r
    (List.range r.len).map fun i =>
      nth 0 (nth now past (nth past.length picks ((r.srcAddr + i) / 8 - r.srcAddr / 8))) i

/-- The source of a request is read through a bank port of an on-die store. -/
def Req.readPort (r : Req) : Option PortUse :=
  if r.srcOk = true ∧ 1 ≤ r.srcSpace ∧ r.srcSpace ≤ 3 then
    some { space := r.srcSpace, addr := r.srcAddr, len := r.len, write := false }
  else none

/-- Its destination is written through one. -/
def Req.writePort (r : Req) : Option PortUse :=
  if r.dstOk = true ∧ 1 ≤ r.dstSpace ∧ r.dstSpace ≤ 3 then
    some { space := r.dstSpace, addr := r.dstAddr, len := r.len, write := true }
  else none

/-- A request waits at a bank port that slot actions of the present cycle use (R229); one to the die itself waits where its cell
lands (R467). -/
def Die.portHeld (d : Die) (r : Req) : Bool :=
  (r.data.isNone && (r.readPort.map d.portTaken).getD false) || (r.writePort.map d.portTaken).getD false ||
    (decide (r.dstSpace = 4 ∧ r.port = 8) && d.landHeld (d.channel r.chan).rch r.dstAddr r.len)

def Die.xfrCount (d : Die) (s : Nat) (f : Xfr → Xfr) : Die := if d.isConf s then d else { d with xfr := f d.xfr }

/-- Requests outstanding over all threads but confidential contexts' (R261). -/
def Die.inflight (d : Die) : Nat :=
  d.xfr.threads.foldl (fun (n : Nat) c => if d.isConf c.2.slot then n else n + c.2.out.length) 0

/-- Threads that run, but for confidential contexts' (R261). -/
def Die.threadsRunning (d : Die) : Nat := (d.xfr.threads.filter fun c => c.2.running && !d.isConf c.2.slot).length

/-- Requests outstanding towards port p. -/
def Xfr.toPort (x : Xfr) (p : Nat) : Nat :=
  x.threads.foldl (fun (n : Nat) c => n + (c.2.out.filter fun r => decide (r.dstSpace = 4 ∧ r.port = p)).length) 0

/-- XFR_HBM_RD_BYTES (R263). -/
def Die.countRead (d : Die) (s : Nat) (r : Req) : Die :=
  if r.data.isNone ∧ r.srcSpace = 0 ∧ r.srcOk = true then d.xfrCount s fun x => { x with rdBytes := inc64 x.rdBytes r.len }
  else d

/-- The request issues: checked against the grant (R258), outstanding until its write completes. `readNow` has its source read at
this instant (R257), unless a bank port is taken; a read that meets a failed channel or an erased key waits for its completion,
which ends it in an error (R236, R496). -/
def Die.putOut (d : Die) (t : Nat) (r : Req) (readNow : Bool) (walk : Access) : Die :=
  let s := (d.thread t).slot
  let d := if r.srcOk && r.dstOk then d else d.grantViol s
  let r := { r with serial := d.xfr.issued }
  let now := readNow && !(r.readPort.map d.portTaken).getD false && !d.onDead r.reads && (d.lost r.reads []).isNone
  let d := if now then d.landReadable.countRead s r else d
  let r := if now then { r with data := some (d.reqRead r []) } else r
  let d := d.updThread t fun x => { x with out := x.out ++ [r], held := false }
  let d := { d with xfr := { d.xfr with issued := d.xfr.issued + 1, turn := Tab.write 255 d.xfr.turn (t / 256) (t % 256) } }
  let n := d.inflight
  let d := if d.xfr.reqPeak.toNat < n then d.xfrCount s fun x => { x with reqPeak := BitVec.ofNat 16 n } else d
  d.requestTaken t r.len walk

/-- A scrub or an initialisation covers a side of the request (R504). -/
def Die.reqScrubbed (d : Die) (r : Req) : Bool :=
  (decide (r.srcSpace = 0 ∧ r.srcOk = true) && d.scrubbing r.srcAddr r.len) ||
    (decide (r.dstSpace = 0 ∧ r.dstOk = true) && d.scrubbing r.dstAddr r.len)

/-- A request of thread `x` is ready. -/
def Thread.ready (x : Thread) : Bool := decide (x.state = .running) && x.inStep

/-- Thread `x` has a request ready and none of the limits of R259 can hold it: its cluster does not skip it. -/
def Die.mayIssue (d : Die) (x : Thread) : Bool :=
  x.ready && decide (x.out.length < 8) &&
    (let r := d.nextRequest x
     !d.mayFill r && !d.reqScrubbed r &&
       (decide (r.dstSpace ≠ 4) ||
         (match d.originRoute x.slot r.fch with
          | .inl _ => true
          | .inr (_, p) => decide (p = 8) || d.takesOwn p (d.xfr.toPort p))))

/-- Its cluster comes to thread `t` next (R238): no thread that may issue stands between the one that issued last and it. -/
def Die.clusterTurn (d : Die) (t : Nat) : Bool :=
  let last := Tab.read 255 d.xfr.turn (t / 256)
  let after (u : Nat) : Nat := (u % 256 + 255 - last) % 256
  d.xfr.threads.all fun c => !(decide (c.1 / 256 = t / 256 ∧ after c.1 < after t) && d.mayIssue c.2)

/-- A limit of R259 that XFR_LIMIT_CYCLES counts holds thread `x`'s next request. -/
def Die.limitHeld (d : Die) (x : Thread) : Bool :=
  x.ready && (decide (8 ≤ x.out.length) || (x.held && d.mayFill (d.nextRequest x)))

/-- REQUEST_ISSUE's effect: the cluster's turn (R238), limits (R259), then the fabric's route (R466), then issue. A channel
queue can be full only with 64 requests. -/
def Die.issueRequest (d : Die) (t : Nat) (room readNow : Bool) (walk : Access) : Die :=
  let x := d.thread t
  if !d.xfrRuns || !x.ready || !d.clusterTurn t then d
  else
    let r := d.nextRequest x
    if 8 ≤ x.out.length then d
    else if !room && d.mayFill r then d.updThread t fun x => { x with held := true }
    else if d.reqScrubbed r then d
    else if r.dstSpace = 4 then
      match d.originRoute x.slot r.fch with
      | .inl (code, dst) => (d.originMiss x.slot code r.fch dst).failThread t 0x0A
      | .inr (c, p) =>
        let y := d.tport p
        if p = 8 then d.putOut t { r with chan := c, port := 8 } readNow walk
        else if y.state = .asleep then (if d.fabRuns && d.fab.assigned then d.wakePeer p else d)
        else if d.takesOwn p (d.xfr.toPort p) then d.putOut t { r with chan := c, port := p } readNow walk
        else d
    else d.putOut t r readNow walk

/-- The request is no longer outstanding. -/
def Die.takeOut (d : Die) (t i : Nat) : Die := d.updThread t fun x => { x with out := x.out.eraseIdx i }

/-- A request ends in an error: nothing is written and its thread fails (R260). -/
def Die.requestError (d : Die) (t i cause : Nat) : Die := (d.takeOut t i).failThread t cause

/-- XFR_PORT_WAIT (R263): the request has waited at a port in the `n` issue cycles up to the present one, of which those that
another request's wait has counted add nothing. -/
def Die.portWaited (d : Die) (s n : Nat) : Die :=
  let now := d.iss.cyc + 1
  d.xfrCount s fun x =>
    let fresh := (List.range n).filter fun i => !x.waited.any fun w => decide (w.1 ≤ now - 1 - i ∧ now - 1 - i < w.2)
    { x with portWait := inc64 x.portWait (fresh.filter fun i => decide (i < now)).length,
             waited := if n = 0 then x.waited else (now - n, now) :: x.waited }

/-- A fabric request leaves in issue order on its channel (R469). -/
def Die.cellTurn (d : Die) (s : Nat) (r : Req) : Bool :=
  d.xfr.threads.all fun c =>
    decide (c.2.slot ≠ s) || c.2.out.all fun q => !(decide (q.dstSpace = 4 ∧ q.chan = r.chan ∧ q.serial < r.serial))

/-- A fabric request goes to its port (R465), unless its channel has gone since it issued (R466): it leaves when the port has a credit and serves the die's threads; until then it
stands ready there, its source read. -/
def Die.sendRequest (d : Die) (t i : Nat) (r : Req) (bytes : List Byte) : Die :=
  let x := d.thread t
  match d.originStop x.slot with
  | some code => (d.originMiss x.slot code r.fch (d.channel r.chan).peer).requestError t i 0x0A
  | none =>
    if d.sendChannel x.slot r.fch ≠ some r.chan then (d.originMiss x.slot 1 r.fch 0).requestError t i 0x0A
    else if r.port = 8 then
      let b := (d.takeOut t i).buildCell x.slot r.chan r.dstAddr bytes
      b.1.receiveCell (List.replicate 8 0 ++ b.2 ++ List.replicate 4 0)
    else if d.takesOwn r.port 0 && decide (d.served r.port true = some 8) && d.moduleTurn r.port then
      let b := (d.takeOut t i).buildCell x.slot r.chan r.dstAddr bytes
      b.1.dataOut r.port 8 32 b.2
    else
      let d := d.updThread t fun x => { x with out := setNth x.out i { r with data := some bytes } }
      if (d.tport r.port).state = .asleep then d.wakePeer r.port else d

/-- The request has met no error: its write lands, a failed thread's too (R260, R368). -/
def Die.finishRequest (d : Die) (t i : Nat) (r : Req) (picks : List Nat) : Die :=
  let x := d.thread t
  let d := if r.data = none ∧ r.readPort.isSome = true then d.landReadable else d
  let bytes := d.reqRead r picks
  let d := d.countRead x.slot r
  if r.dstSpace = 4 then d.sendRequest t i r bytes
  else
    let d := d.takeOut t i
    if !r.dstOk then d
    else if r.dstSpace = 0 then
      let d := { d with st := { d.st with hbm := Mem.write d.st.hbm r.dstAddr bytes } }
      d.xfrCount x.slot fun y => { y with wrBytes := inc64 y.wrBytes r.len }
    else d.storeWrite r.dstSpace r.dstAddr bytes

/-- REQUEST_COMPLETE's effect on request `i` of thread t. -/
def Die.completeRequest (d : Die) (t i portWait : Nat) (picks : List Nat) (res : Access) : Die :=
  let x := d.thread t
  match x.out[i]? with
  | none => d
  | some r =>
    if !d.xfrRuns || d.portHeld r || (decide (r.dstSpace = 4) && !d.cellTurn x.slot r) then d
    else
      let dead := d.onDead (r.reads ++ r.writes)
      let lost := (d.lost (if r.data = none then r.reads else []) r.writes).isSome
      let d := d.portWaited x.slot portWait
      let a := d.accessedBy res (if r.data = none then r.reads else []) r.writes (some x.slot) { code := 1, thread := t }
      if dead then d.requestError t i 0x0E
      else if a.2 then a.1.requestError t i (if lost && !accessMetWord res then 0x08 else failCause res)
      else a.1.finishRequest t i r picks

/-! ### SIGNAL, WAIT, LOOP, END (R251 to R255) -/

def Die.waitWord (d : Die) (t : Nat) : Nat := d.st.xword (d.thread t).pc 0

/-- The tally of a waiting thread's WAIT. -/
def Die.threadTally (d : Die) (t : Nat) : Option Nat := d.physTally (d.thread t).slot (bitsOf (d.waitWord t) 15 8)

/-- The target of its WAIT. -/
def Die.threadTarget (d : Die) (t : Nat) : Nat := bitsOf (d.waitWord t) 63 40

/-- It waits on a tally that meets the target without an error. -/
def Die.threadMet (d : Die) (t : Nat) : Bool :=
  decide ((d.thread t).state = .waiting) &&
    match d.threadTally t with
    | none => false
    | some p => !(d.tally p).err && decide (d.threadTarget t ≤ (d.tally p).value.toNat)

/-- A waiting thread is released (R252, R253): CONSUME takes the target from the tally. -/
def Die.threadRelease (d : Die) (t : Nat) : Die :=
  let d := match d.threadTally t with
    | some p => if bit (d.waitWord t) 16 then d.updTally p fun y => { y with value := y.value - BitVec.ofNat 24 (d.threadTarget t) } else d
    | none => d
  (d.updThread t fun x => { x with state := .running }).toStep t ((d.thread t).pc + 1)

/-- The bundle stream waits on tally `p` with a CONSUME that can be released: it goes first (R253). -/
def Die.bundleTakes (d : Die) (p : Nat) : Bool :=
  match d.iss.run with
  | some r =>
    (match r.phase with
     | .stalled _ _ => true
     | _ => false) && bundleConsume r.bundle && decide (d.physTally r.slot (bundleTally r.bundle) = some p) &&
      !(d.tally p).err && decide (bundleTarget r.bundle ≤ (d.tally p).value.toNat)
  | none => false

/-- A thread waits on tally `p` with a CONSUME that can be released. -/
def Die.threadTakes (d : Die) (p : Nat) : Bool :=
  !(d.tally p).err && d.xfr.threads.any fun c =>
    decide (c.2.state = .waiting ∧ d.threadTally c.1 = some p) && bit (d.waitWord c.1) 16 &&
      decide (bitsOf (d.waitWord c.1) 63 40 ≤ (d.tally p).value.toNat)

/-- Another waiting thread of lower number whose CONSUME the same tally can release goes first (R253). -/
def Die.lowerWaiter (d : Die) (t : Nat) : Bool :=
  match d.threadTally t with
  | none => false
  | some p =>
    d.xfr.threads.any fun c =>
      decide (c.1 < t ∧ c.2.state = .waiting ∧ d.threadTally c.1 = some p) && bit (d.waitWord c.1) 16 &&
        decide (bitsOf (d.waitWord c.1) 63 40 ≤ (d.tally p).value.toNat)

/-- LOOP (R254). -/
def loopThread (w x : Nat) (t : Thread) : Thread × Nat :=
  let lv := bitsOf w 9 8
  let count := if bitsOf w 47 24 = 0 then 16777216 else bitsOf w 47 24
  let dxs := sext 32 x
  let dxd := sext 32 (x / 2 ^ 32)
  let c := nth 0 t.ctr lv + 1
  if c < count then
    ({ t with ctr := setNth t.ctr lv c, xs := t.xs + BitVec.ofInt 40 dxs, xd := t.xd + BitVec.ofInt 40 dxd }, t.pc - bitsOf w 23 16)
  else
    ({ t with ctr := setNth t.ctr lv 0, xs := t.xs - BitVec.ofInt 40 ((count - 1 : Nat) * dxs),
              xd := t.xd - BitVec.ofInt 40 ((count - 1 : Nat) * dxd) }, t.pc + 1)

/-- END (R255): the thread stops once its requests have completed; an open pass is to close (R370). -/
def Thread.ended (t : Thread) : Thread := { t with state := .stopped, pass := t.closingPass }

/-! ### THREAD_FAIL, PASS_CLOSE -/

/-- ERR on every tally that a SIGNAL of the thread's program names, and the context's abort (R260). -/
def Die.failNow (d : Die) (t cause : Nat) : Die :=
  let x := d.thread t
  let d := (d.st.signalTallies x.entry).foldl (fun (d : Die) l =>
    match d.physTally x.slot l with
    | some p => d.tallyErr p cause
    | none => d) d
  let d := d.updThread t fun x => { x.fail cause with failDue := none }
  d.abortSlot x.slot cause

/-- The requests that a closing pass waits for, its closing step's, have completed (R365). -/
def Thread.passDone (t : Thread) (p : Pass) : Bool :=
  match p.upTo with
  | none => t.out.isEmpty
  | some n => t.out.all fun r => decide (r.serial < p.from_ ∨ n ≤ r.serial)

/-! ### The commands -/

/-- MOVE (R245). -/
def execMove (t : Fin 4096) (ecc : Ecc) (s : State) : Host.Outcome State Fault Refusal :=
  s.act fun d => d.runStep t.val 1 ecc fun d => d.moveStep t.val

/-- STRIDE (R246). -/
def execStride (t : Fin 4096) (ecc : Ecc) (s : State) : Host.Outcome State Fault Refusal :=
  s.act fun d => d.runStep t.val 2 ecc fun d => d.moveStep t.val

/-- GATHER (R247, R366). -/
def execGather (t : Fin 4096) (ecc : Ecc) (s : State) (walk : Access := .ok) : Host.Outcome State Fault Refusal :=
  s.act fun d => d.runStep t.val 3 ecc fun d => d.walkStep t.val walk

/-- SCATTER (R247, R366, R368). -/
def execScatter (t : Fin 4096) (ecc : Ecc) (s : State) (walk : Access := .ok) : Host.Outcome State Fault Refusal :=
  s.act fun d => d.runStep t.val 4 ecc fun d => d.walkStep t.val walk

/-- SIGNAL (R251): once every earlier request has completed. -/
def execSignal (t : Fin 4096) (ecc : Ecc) (s : State) : Host.Outcome State Fault Refusal :=
  s.act fun d =>
    if (d.thread t.val).out.isEmpty then
      d.runStep t.val 5 ecc fun d =>
        let x := d.thread t.val
        let w := d.st.xword x.pc 0
        (d.logTallyAdd x.slot (bitsOf w 15 8) (bitsOf w 31 16 + 1)).toStep t.val (x.pc + 1)
    else d

/-- WAIT (R252): the thread begins to wait. -/
def execWait (t : Fin 4096) (ecc : Ecc) (s : State) : Host.Outcome State Fault Refusal :=
  s.act fun d => d.runStep t.val 6 ecc fun d => d.updThread t.val fun x => { x with state := .waiting }

/-- The release of thread `t` is due: XFR runs and the tally bank does (R253, R544), what is readable counts (R180), and no CONSUME that
goes first waits on the tally (R253). -/
def Die.threadGoes (d : Die) (t : Nat) : Bool :=
  d.xfrRuns && d.bankRuns && d.threadMet t && !((d.threadTally t).map d.bundleTakes).getD false && !d.lowerWaiter t

/-- THREAD_WAIT_RELEASE (R252, R253). -/
def execThreadWaitRelease (t : Fin 4096) (s : State) : Host.Outcome State Fault Refusal :=
  s.act fun d => if d.landReadable.threadGoes t.val then d.landReadable.threadRelease t.val else d

/-- LOOP (R254). -/
def execLoop (t : Fin 4096) (ecc : Ecc) (s : State) : Host.Outcome State Fault Refusal :=
  s.act fun d => d.runStep t.val 7 ecc fun d =>
    let x := d.thread t.val
    let r := loopThread (d.st.xword x.pc 0) (d.st.xword x.pc 1) x
    (d.updThread t.val fun _ => r.1).toStep t.val r.2

/-- END (R255). -/
def execEndStep (t : Fin 4096) (ecc : Ecc) (s : State) : Host.Outcome State Fault Refusal :=
  s.act fun d =>
    if (d.thread t.val).out.isEmpty then d.runStep t.val 0 ecc fun d => d.updThread t.val Thread.ended else d

/-- REQUEST_ISSUE (R238, R240, R258, R259). -/
def execRequestIssue (t : Fin 4096) (room readNow : Bool) (s : State) (walk : Access := .ok) : Host.Outcome State Fault Refusal :=
  s.act fun d => d.issueRequest t.val room readNow walk

/-- REQUEST_COMPLETE (R240). -/
def execRequestComplete (t : Fin 4096) (which portWait : Nat) (res : Access) (s : State) (picks : List Nat := []) :
    Host.Outcome State Fault Refusal :=
  s.act fun d => d.completeRequest t.val which portWait picks res

/-- THREAD_FAIL (R252, R260): a fault has met the thread, or the tally it waits on has its error bit set. -/
def execThreadFail (t : Fin 4096) (s : State) : Host.Outcome State Fault Refusal :=
  s.act fun d =>
    let x := d.thread t.val
    match x.failDue with
    | some c => if d.xfrRuns then d.failNow t.val c else d
    | none =>
      if x.state = .waiting ∧ d.xfrRuns = true then
        match d.threadTally t.val with
        | some p => if (d.tally p).err then d.failNow t.val (d.tally p).cause else d
        | none => d
      else d

/-- PASS_CLOSE (R365, R370). -/
def execPassClose (t : Fin 4096) (s : State) : Host.Outcome State Fault Refusal :=
  s.act fun d =>
    let x := d.thread t.val
    match x.pass with
    | some p => if d.xfrRuns && p.closing && x.passDone p then d.closePass t.val else d
    | none => d

/-! ### HBM4 (R232, R235, R236) -/

/-- HBM_PHY_LOCK_LOSS (R236). -/
def execHbmPhyLockLoss (channel : Fin 128) (s : State) : Host.Outcome State Fault Refusal :=
  s.act fun d => if d.popSites.contains (channel.val / 32) then d.channelFail channel.val 3 else d

/-- Words of HBM4 in use. -/
def Die.hbmWords (d : Die) : Nat := d.hbm.groupsInUse.length * (d.hbm.capacity / 4) * 2 ^ 30 / 8

/-- The patrol moves to its next word; a pass ends at the last (R235). -/
def Hbm.patrolOn (h : Hbm) (words : Nat) : Hbm :=
  if h.patrolPos + 1 < words then { h with patrolPos := h.patrolPos + 1 }
  else { h with patrolPos := 0, patrol := h.patrol + 1 }

/-- The patrol goes on: it pauses in a sleep state, and resumes at cycle 4 of the exit from Dusk, with the die active after another
(R553, R559). -/
def Die.patrols (d : Die) : Bool :=
  d.awake || (d.pwr.entry.isNone && d.pwr.exiting && decide (d.pwr.state = .dusk ∧ 4 ≤ d.seqAt))

/-- PATROL_READ (R235): the operand says what the check code found in the word the patrol has come to. -/
def execPatrolRead (found : Ecc) (s : State) : Host.Outcome State Fault Refusal :=
  s.act fun d =>
    if d.hbm.selfRef || !d.patrols || decide (d.hbm.groups = 0) then d
    else
      let off := 8 * d.hbm.patrolPos
      let store := 7 + d.channelOf off / 32
      let d := d.ecc ((found.take 1).map fun w => { w with store := store, off := off }) none { code := 2 }
      { d with hbm := d.hbm.patrolOn d.hbmWords }

/-- HBM_REFRESH (R232): a refresh or refresh management operation of a trained site; none while in self-refresh. -/
def execHbmRefresh (site : Fin 4) (s : State) : Host.Outcome State Fault Refusal :=
  s.act fun d =>
    if bit d.hbm.trained.toNat site.val && !d.hbm.selfRef then { d with hbm := { d.hbm with refreshes := d.hbm.refreshes + 1 } }
    else d

/-! ### FAB_TIMEOUT (R477, R478) -/

/-- The egresses that requests of thread t wait for, those that stand at their ports and the next to issue: channel-table entry and
port. The next has no credit where the port has none, or none beyond those of the requests that are out for it; without an address none
goes (R454). -/
def Die.waitingPorts (d : Die) (t : Nat) : List (Nat × Nat) :=
  let x := d.thread t
  (x.out.filter fun r => decide (r.dstSpace = 4 ∧ r.port < 8) && r.data.isSome && !d.takesOwn r.port 0).map
    (fun r => (r.chan, r.port)) ++
  if x.ready && decide (x.out.length < 8 ∧ (d.nextRequest x).dstSpace = 4) then
    match d.originRoute x.slot (d.nextRequest x).fch with
    | .inr (c, p) => if p < 8 ∧ d.takesOwn p (d.xfr.toPort p) = false then [(c, p)] else []
    | .inl _ => []
  else []

/-- A request of thread t waits for port `p`. -/
def Die.waitsAt (d : Die) (t p : Nat) : Bool := (d.waitingPorts t).any fun x => decide (x.2 = p)

def Die.portCause (d : Die) (p cause : Nat) : Die := d.updTport p fun x => { x with lastCause := BitVec.ofNat 4 cause }

/-- The request that has waited for a credit ends in an error; the thread's other issued requests complete and land (R260). -/
def Thread.dropWaiting (t : Thread) (chan p : Nat) : Thread :=
  match t.out.findIdx? fun r => decide (r.dstSpace = 4 ∧ r.chan = chan ∧ r.port = p) && r.data.isSome with
  | some i => { t with out := t.out.eraseIdx i }
  | none => t

/-- Port p fails: FAILED, and a fabric port reset. -/
def Die.portFail (d : Die) (p cause : Nat) : Die :=
  let d := (d.record (34 + p) 0x09 none cause 0 (d.tport p).peer.toNat 0).portCause p cause
  Die.portReset (d.updTport p fun x => { x with state := .failed }) p

/-- A bundle or a thread of the slot waits on a tally. -/
def Die.tallyWaited (d : Die) (p : Nat) : Bool :=
  (match d.iss.run with
    | some r => (match r.phase with | .stalled _ _ => decide (d.physTally r.slot (bundleTally r.bundle) = some p) | _ => false)
    | none => false) ||
  d.xfr.threads.any fun c => decide (c.2.state = .waiting ∧ d.threadTally c.1 = some p)

/-- FAB_TIMEOUT (R477): CREDIT of thread t at port p for channel chan, SILENCE of a channel, RETRY, HELLO or WAKE of a port. -/
def Die.fabTimeout (d : Die) (cause p chan t : Nat) : Die :=
  let x := d.tport p
  if cause = 1 then
    if (d.waitingPorts t).contains (chan, p) then
      let s := (d.thread t).slot
      let peer := (d.channel chan).peer
      let d := (((d.record (34 + p) 0x09 (some s) 1 chan peer.toNat 0).portCause p 1).updThread t fun x => x.dropWaiting chan p).failThread t 0x09
      d.peerReport (d.slot s).jobId peer 1
    else d
  else if cause = 2 then
    let c := d.channel chan
    match d.physTally c.slotOf c.tallyOf with
    | some y =>
      if c.isRecv && c.watch && d.tallyWaited y then
        let d := (d.record 42 0x09 (some c.slotOf) 2 chan c.peer.toNat 0).tallyErr y 0x09
        (d.abortSlot c.slotOf 0x09).peerReport (d.slot c.slotOf).jobId c.peer 2
      else d
    | none => d
  else if cause = 3 then (if x.state = .up ∧ 8 ≤ x.replayCnt then d.portFail p 3 else d)
  else if cause = 4 then (if x.state = .up then d.portFail p 4 else d)
  else if cause = 5 then
    if x.state = .asleep ∧ x.waking = true then
      let late := (d.xfr.threads.filter fun e => d.waitsAt e.1 p).map fun e => e.1
      late.foldl (fun (d : Die) t => d.failThread t 0x09) (d.portFail p 5)
    else d
  else d

/-- FAB_TIMEOUT (R477), while FAB runs. -/
def execFabTimeout (cause : BitVec 4) (p : Fin 8) (chan t : Fin 4096) (s : State) : Host.Outcome State Fault Refusal :=
  s.act fun d => if d.fabRuns then d.fabTimeout cause.toNat p.val chan.val t.val else d

/-- The window of a peer-failure entry (R604): 10 ms, in ns. -/
def peerWindow : Nat := 10000000

/-- PEER_FAIL_WINDOW_END (R604): the entry's window ends, 10 ms after it opened. -/
def execPeerFailWindowEnd (job peer : W32) (s : State) : Host.Outcome State Fault Refusal :=
  s.act fun d =>
    match d.fab.peerFails.find? fun e => decide (e.job = job ∧ e.peer = peer) with
    | none => d
    | some e =>
      if d.refNs < e.opened + peerWindow then d
      else
        let d := { d with fab := { d.fab with peerFails := d.fab.peerFails.filter fun x => decide (x ≠ e) } }
        if 1 < e.count then d.sendPeerFail e true else d

end Sys2Proof.Machine
end

