-- ==== Sys2Proof/Machine/Loader.lean ====
section
/-! DEFINITION. The schedule image (R67, R68), the loader's checks in order (R69, and the rules that name a code of it), the
static length, and the placement of a segment (R36, R37, R48, R76, R84, R168, R322, R363). -/

namespace Sys2Proof.Machine

/-! ### The image -/

structure Image where
  bytes   : List Byte
  caps    : Nat
  bundles : List (BitVec 512)
  tallies : Nat
  threads : Nat
  xbytes  : Nat
  static  : Nat
  /-- sound tables: kind, unit, bytes; and whether a descriptor breaks R68 -/
  tables  : List (Nat × Nat × List Byte)
  bad     : Bool

def le (b : List Byte) (a n : Nat) : Nat := leNat ((b.drop a).take n)

/-- Bits [31:28], [23:21], [11] and [7] of GLB_CAPS are reserved (R3). -/
def capsReserved (c : Nat) : Bool := decide (c &&& 0xF0E00880 ≠ 0)

/-- Header checks of BAD_FORMAT (R67, R69). -/
def headerGood (b : List Byte) : Bool :=
  let bundles := le b 0x0C 4
  let tallies := le b 0x10 2
  decide (0x40 ≤ b.length ∧ le b 0 4 = 0x325A5842 ∧ le b 4 2 = 2 ∧ le b 6 2 = 0 ∧ 1 ≤ bundles ∧ bundles ≤ 65536 ∧
    1 ≤ tallies ∧ tallies ≤ 256 ∧ le b 0x12 2 ≤ 4096 ∧ 0x40 + 64 * bundles + 16 * le b 0x20 2 ≤ b.length) &&
  ((b.drop 0x22).take 30).all (· == 0) && !capsReserved (le b 8 4)

/-- Units that a table kind allows (R68). -/
def tableUnits (kind : Nat) : Nat := if kind = 1 then 2 else if kind = 2 then 6 else if 3 ≤ kind ∧ kind ≤ 6 then 1 else 0

/-- One table descriptor (R68). -/
structure TableDesc where
  kind : Nat
  unit : Nat
  off  : Nat
  size : Nat
  resv : Bool
deriving DecidableEq, Repr

def tableDescAt (b : List Byte) (d : Nat) : TableDesc :=
  { kind := le b d 2, unit := le b (d + 2) 1, off := le b (d + 4) 4, size := le b (d + 8) 4,
    resv := decide (le b (d + 3) 1 ≠ 0 ∨ le b (d + 12) 4 ≠ 0) }

def imageDescs (b : List Byte) : List TableDesc :=
  (List.range (le b 0x20 2)).map fun i => tableDescAt b (0x40 + 64 * le b 0x0C 4 + 16 * i)

/-- Two tables share a byte; a table of 0 bytes shares none (DESIGN CHOICE: log entry 86). -/
def TableDesc.meets (t u : TableDesc) : Bool :=
  decide (0 < t.size ∧ 0 < u.size ∧ t.off < u.off + u.size ∧ u.off < t.off + t.size)

/-- Descriptor `i` passes every check of R68 against the others: both of two tables that overlap fail, and of two descriptors
with one KIND and UNIT the second. DESIGN CHOICE (log entry 86): an OFFSET that is no multiple of 64 fails here. -/
def descSound (b : List Byte) (ds : List TableDesc) (i : Nat) (t : TableDesc) : Bool :=
  decide (t.unit < tableUnits t.kind ∧ t.off % 64 = 0 ∧ t.off + t.size ≤ b.length ∧ ¬ (t.kind = 3 ∧ t.size ≠ le b 0x14 4)) &&
  decide (t.size = 0 ∨ 0x40 + 64 * le b 0x0C 4 + 16 * le b 0x20 2 ≤ t.off) &&
  ds.zipIdx.all fun u => decide (u.2 = i) ||
    (!t.meets u.1 && !(decide (u.2 < i) && decide (u.1.kind = t.kind ∧ u.1.unit = t.unit)))

def soundDescs (b : List Byte) : List TableDesc :=
  let ds := imageDescs b
  (ds.zipIdx.filter fun u => descSound b ds u.2 u.1).map Prod.fst

def parseImage (b : List Byte) : Image :=
  let ts := soundDescs b
  { bytes := b, caps := le b 8 4, tallies := le b 0x10 2, threads := le b 0x12 2, xbytes := le b 0x14 4, static := le b 0x18 8,
    bundles := (List.range (le b 0x0C 4)).map fun a => BitVec.ofNat 512 (le b (0x40 + 64 * a) 64),
    tables := ts.map fun t => (t.kind, t.unit, (b.drop t.off).take t.size), bad := decide (ts.length ≠ le b 0x20 2) }

def Image.table (m : Image) (kind unit : Nat) : List Byte :=
  match m.tables.find? fun t => decide (t.1 = kind ∧ t.2.1 = unit) with
  | some t => t.2.2
  | none => []

/-! ### Slot words: reserved bits and fields (R81 to R83, R88 to R113, R140, R372) -/

/-- A word whose opcode is 0 must be 0. -/
def nopWord (k w : Nat) : Bool := decide (slotOp k w = 0)

def hold (b : BitVec 512) : Nat := bundleHold b + 1

/-- Slots 0 and 1. -/
def engineWordBad (w h : Nat) : Bool :=
  let op := slotOp 0 w
  let fmt := bitsOf w 57 55
  let gate := bitsOf w 53 52
  if op = 1 then decide (fmt = 7 ∨ bitsOf w 30 0 ≠ 0)
  else if op = 2 then
    decide (fmt = 7 ∨ bitsOf w 51 50 = 3 ∨ bitsOf w 16 0 ≠ 0 ∨
      (gate ≠ 0 ∧ ¬ (fmt = 4 ∨ fmt = 5 ∨ fmt = 6)) ∨ (bitsOf w 25 18 ≠ 0 ∧ gate ≠ 3) ∨ (bit w 17 = true ∧ gate ≠ 2) ∨
      (gate = 3 ∧ fmt = 6) ∨ (fmt = 6 ∧ h % 2 = 1))
  else decide (w ≠ 0)

/-- Slot 2 (R96 to R98, R140, R372). -/
def vectorWordBad (w ext h : Nat) : Bool :=
  let op := slotOp 2 w
  let vfmt := bitsOf w 41 39
  let bext := bit w 38
  if op = 0 then decide (w ≠ 0)
  else
    decide (15 < op ∨ 2 < vfmt ∨ bitsOf w 4 0 ≠ 0) ||
    (decide (op = 10) && decide (bitsOf w 26 19 ≠ 0 ∨ bitsOf w 18 16 = 7)) ||
    (bext && decide ((op ≠ 10 ∧ bitsOf w 26 16 ≠ 0) ∨ (vfmt = 1 ∧ ext % 65536 ≠ 0))) ||
    (decide (vfmt = 2) && decide (op = 7 ∨ op = 8 ∨ op = 9 ∨ op = 14)) ||
    (decide (op = 14) && decide (vfmt ≠ 0 ∨ bext = true ∨ h < 3))

/-- Slot 3. -/
def transferWordBad (w : Nat) : Bool :=
  let op := slotOp 3 w
  if op = 1 then decide (bitsOf w 16 0 ≠ 0)
  else if op = 2 then decide (bitsOf w 33 0 ≠ 0)
  else decide (w ≠ 0)

/-- Slot 4 (R103 to R107); opcode 0 is the no-operation whatever UNIT holds. -/
def auxWordBad (w h : Nat) : Bool :=
  let op := slotOp 4 w
  if op = 0 then decide (w % 2 ^ 63 ≠ 0)
  else if slot4Mica w then
    let n := bitsOf w 56 53
    decide (4 < op ∨ bitsOf w 18 0 ≠ 0 ∨ n < 4 ∨ 12 < n ∨ (op = 4 ∧ 10 < n) ∨ (op ≠ 3 ∧ bitsOf w 40 30 ≠ 0) ∨
      (op ≠ 3 ∧ h % (2 ^ n / 16) ≠ 0))
  else if op = 1 then decide (bitsOf w 56 55 = 3 ∨ bitsOf w 43 0 ≠ 0)
  else if op = 2 then decide (bitsOf w 56 55 = 3 ∨ bitsOf w 54 53 = 3 ∨ bitsOf w 30 0 ≠ 0)
  else true

/-- Slots 5 and 6. -/
def postWordBad (w : Nat) : Bool :=
  let op := slotOp 5 w
  if op = 0 then decide (w ≠ 0) else decide (6 < op ∨ bitsOf w 29 0 ≠ 0)

def syncWordBad (w : Nat) : Bool :=
  let op := slotOp 6 w
  if op = 1 then decide (bitsOf w 33 0 ≠ 0)
  else if op = 2 then decide (bitsOf w 33 0 ≠ 0)
  else if op = 3 then decide (bitsOf w 28 0 ≠ 0)
  else if op = 4 then decide (bitsOf w 49 0 ≠ 0)
  else decide (w ≠ 0)

/-- The header (R81). -/
def headerBad (b : BitVec 512) : Bool :=
  let h := bitsOf b.toNat 31 0
  decide (bitsOf h 31 27 ≠ 0) || (!bit h 17 && decide (bitsOf h 26 18 ≠ 0)) ||
    (decide (bitsOf h 13 12 ≠ 2) && decide (bitsOf h 16 14 ≠ 0))

def bundleFormatBad (b : BitVec 512) : Bool :=
  let w (k : Nat) : Nat := slotWord b k
  headerBad b || engineWordBad (w 0) (hold b) || engineWordBad (w 1) (hold b) || vectorWordBad (w 2) (bundleExt b) (hold b) ||
    transferWordBad (w 3) || auxWordBad (w 4) (hold b) || postWordBad (w 5) || syncWordBad (w 6)

/-! ### Address-generator programs named (R193, R205, R298, R314, R325) -/

/-- What names a program: unit, index, role, and the outputs per token of a DST of an engine or Flint. -/
inductive Role where
  | weights | source | dest | operandB
deriving DecidableEq

structure Ref where
  unit : Nat
  idx  : Nat
  role : Role
  op   : Nat
  outs : Nat := 0
  w    : Nat

/-- Operations of slot 2 that read SRC_B. -/
def readsB (op : Nat) : Bool := decide (op = 1 ∨ op = 2 ∨ op = 3 ∨ op = 4 ∨ op = 5 ∨ op = 6 ∨ op = 14)

/-- The programs that a bundle names, with what it does with each. A VHAD names SRC_B where that is not 0: DESIGN CHOICE (log entry 117). -/
def bundleRefs (b : BitVec 512) : List Ref :=
  let w (k : Nat) : Nat := slotWord b k
  let engine (k : Nat) : List Ref :=
    let x := w k
    if slotOp k x = 1 then [{ unit := k, idx := bitsOf x 53 43, role := .weights, op := 1, w := x }]
    else if slotOp k x = 2 then
      [{ unit := k, idx := bitsOf x 47 37, role := .source, op := 2, w := x },
       { unit := k, idx := bitsOf x 36 26, role := .dest, op := 2, outs := if bitsOf x 57 55 < 4 then 512 else 256, w := x }]
    else []
  let v := w 2
  let vec : List Ref :=
    if slotOp 2 v = 0 ∨ 15 < slotOp 2 v then []
    else
      [{ unit := 5, idx := bitsOf v 37 27, role := .source, op := slotOp 2 v, w := v },
       { unit := 5, idx := bitsOf v 15 5, role := .dest, op := slotOp 2 v, w := v }] ++
      (if !bit v 38 && (readsB (slotOp 2 v) || (decide (slotOp 2 v = 15) && decide (bitsOf v 26 16 ≠ 0))) then
        [{ unit := 5, idx := bitsOf v 26 16, role := .operandB, op := slotOp 2 v, w := v }] else [])
  let a := w 4
  let aux : List Ref :=
    if slotOp 4 a = 0 then []
    else if slot4Mica a then
      (if 4 < slotOp 4 a then [] else
      [{ unit := 3, idx := bitsOf a 51 41, role := .source, op := slotOp 4 a, w := a },
       { unit := 3, idx := bitsOf a 29 19, role := .dest, op := slotOp 4 a, w := a }] ++
      (if slotOp 4 a = 3 then [{ unit := 3, idx := bitsOf a 40 30, role := .source, op := 3, w := a }] else []))
    else if slotOp 4 a = 1 then [{ unit := 2, idx := bitsOf a 54 44, role := .weights, op := 1, w := a }]
    else if slotOp 4 a = 2 then
      [{ unit := 2, idx := bitsOf a 52 42, role := .source, op := 2, w := a },
       { unit := 2, idx := bitsOf a 41 31, role := .dest, op := 2, outs := 64, w := a }]
    else []
  let p := w 5
  let post : List Ref :=
    if slotOp 5 p = 0 ∨ 6 < slotOp 5 p then []
    else [{ unit := 4, idx := bitsOf p 57 47, role := .source, op := slotOp 5 p, w := p },
          { unit := 4, idx := bitsOf p 46 36, role := .dest, op := slotOp 5 p, w := p }]
  engine 0 ++ engine 1 ++ vec ++ aux ++ post

/-- A program of the image: words of its table entry; NULL beyond the table (R84, R298). -/
def Image.prog (m : Image) (unit idx : Nat) : Prog :=
  let t := m.table 2 unit
  let w (k : Nat) : Nat := if 64 * idx + 64 ≤ t.length then le t (64 * idx + 8 * k) 8 else 0
  { w0 := w 0, w1 := w 1, w2 := w 2, w3 := w 3, w4 := w 4, w5 := w 5, w6 := w 6, w7 := w 7 }

/-- Row bytes of a unit (R301). A result row has 4 bytes a value, and two tokens where there are 512 outputs (R134); the post
unit's holds up to 256 channels of 4 bytes (R324, R331). DEDUCED: log entry 84. -/
def unitRowBytes (unit : Nat) (p : Prog) (r : Ref) : Nat :=
  if unit ≤ 1 then
    (if r.role = .dest then (if r.outs = 512 then 4096 else 1024)
     else 256)
  else if unit = 2 then (if r.role = .dest then 256 else 64)
  else if unit = 3 then (if r.op = 4 then 16 * (p.ebits / 8) else 32 * (p.ebits / 8))
  else if unit = 4 then (if r.role = .dest then 1024 else 256)
  else 256 * p.ebits / 8

/-- Row elements of a unit: an engine's are the K of R120. -/
def unitRowElems (unit : Nat) (p : Prog) (r : Ref) : Nat :=
  if p.ebits = 0 then 0
  else if unit ≤ 1 then ((Fmt.ofCode p.efmt).map Fmt.kLen).getD 256
  else unitRowBytes unit p r * 8 / p.ebits

/-- EFMT codes a role of a unit accepts (R193, R324). -/
def fmtAccepted (r : Ref) (e : Nat) : Bool :=
  let w := r.w
  let final := decide (bitsOf w 51 50 = 2)
  if r.unit ≤ 1 then
    (match r.role with
     | .weights => decide (e < 7)
     | .source => decide (e < 7)
     | _ => if final then decide (e < 7 ∨ e = 8 ∨ e = 9) else decide (e = 8 ∨ e = 9))
  else if r.unit = 2 then
    (match r.role with
     | .weights => decide (e = 2 ∨ e = 3 ∨ e = 4)
     | .source => decide (e = 2 ∨ e = 3 ∨ e = 4)
     | _ => if bitsOf w 54 53 = 2 then decide (e < 7 ∨ e = 8 ∨ e = 9) else decide (e = 8 ∨ e = 9))
  else if r.unit = 3 then decide (e = 8 ∨ e = 5)
  else if r.unit = 5 then
    (if r.op = 10 then decide (e < 7 ∨ e = 8 ∨ e = 9) else decide (e = 8 ∨ e = 9 ∨ e = 5))
  else if r.op = 6 then (if r.role = .dest then decide (e = 9) else decide (e = 6 ∨ e = 5 ∨ e = 9 ∨ e = 8))
  else if r.op = 4 ∨ r.op = 5 then decide (e = 4 ∨ e = 6 ∨ e = 5 ∨ e = 8)
  else decide (e = 4 ∨ e = 6 ∨ e = 9 ∨ e = 5 ∨ e = 8)

/-- Reserved bits of a program's words, and fields that must be 0 for its KIND (R293 to R297). -/
def progReserved (p : Prog) : Bool :=
  bit p.w0 7 ||
  (if p.kind = 1 then decide (bitsOf p.w4 63 32 ≠ 0 ∨ p.w5 ≠ 0)
   else
     decide (p.rowb ≠ 0 ∨ bitsOf p.w1 15 14 ≠ 0 ∨ bitsOf p.w1 31 30 ≠ 0 ∨ bitsOf p.w1 39 38 ≠ 0 ∨ bitsOf p.w1 63 46 ≠ 0 ∨
       bitsOf p.w2 7 6 ≠ 0 ∨ bitsOf p.w2 15 14 ≠ 0 ∨ bitsOf p.w3 11 10 ≠ 0 ∨ bitsOf p.w3 47 41 ≠ 0 ∨ bitsOf p.w3 63 60 ≠ 0 ∨
       bitsOf p.w5 15 12 ≠ 0 ∨ bitsOf p.w5 31 28 ≠ 0 ∨ bitsOf p.w5 47 44 ≠ 0 ∨ bit p.w5 63 = true) ||
     (decide (p.kind = 2) && decide (bitsOf p.w5 62 48 ≠ 0)) || decide (p.pack = 3)) ||
  decide (bitsOf p.w6 31 8 ≠ 0 ∨ bitsOf p.w7 47 42 ≠ 0 ∨ bitsOf p.w7 63 58 ≠ 0)

/-- Fields of CONV and STRIPE (R296, R298). -/
def convBad (p : Prog) (elems : Nat) : Bool :=
  decide (p.ih = 0 ∨ 8192 < p.ih ∨ p.iw = 0 ∨ 8192 < p.iw ∨ p.dy = 0 ∨ p.dx = 0 ∨ p.kh * p.kw < p.t0 + p.nt ∨
    p.cpt = 0 ∨ 256 < p.cpt ∨ elems < p.q * p.nt * p.cpt ∨ (p.pack = 0 ∧ bitsOf p.w3 9 4 ≠ 0)) ||
  (decide (p.ebits = 4) && decide (p.c0 % 2 = 1 ∨ p.cpt % 2 = 1 ∨ p.gstep % 2 = 1 ∨ p.pstep % 2 = 1)) ||
  (p.swalk && decide (p.c0 % 32 ≠ 0 ∨ p.cpt % 32 ≠ 0 ∨ p.gstep % 32 ≠ 0 ∨ p.pstep % 32 ≠ 0)) ||
  (decide (p.kind = 3) && decide (p.space ≠ 3 ∨ p.stripeSlots < 2 ∨ p.stripeRows = 0 ∨ 64 < p.stripeRows))

def strides (p : Prog) : List Nat := [bitsOf p.w2 31 0, bitsOf p.w2 63 32, bitsOf p.w3 31 0, bitsOf p.w3 63 32]

/-- The action's own format admits block scales: the FMT of a WLOAD or STREAM, the target of a VCVT's result (R89, R205). -/
def walkFmt (r : Ref) : Bool :=
  if r.unit ≤ 1 then decide (bitsOf r.w 57 55 ≤ 4)
  else if r.unit = 5 ∧ r.op = 10 ∧ r.role = .dest then decide (bitsOf r.w 18 16 ≤ 4)
  else true

/-- Scale walks and records (R205, R167, R193). -/
def scaleBad (p : Prog) (r : Ref) : Bool :=
  let blocked := decide (p.efmt ≤ 4) && walkFmt r
  (p.swalk && (p.record || !blocked || decide (r.unit = 2 ∨ r.unit = 3 ∨ r.unit = 4) || (decide (r.unit = 5) && decide (r.op ≠ 10)) ||
    (decide (r.unit ≤ 1 ∧ r.op = 2 ∧ r.role = .source) && decide (bitsOf r.w 53 52 ≠ 0)) || (decide (r.unit ≤ 1) && decide (r.role = .dest)))) ||
  (p.record && !(decide (r.unit ≤ 1 ∧ r.op = 2 ∧ r.role = .source) || decide (r.unit = 5 ∧ (r.op = 10 ∨ r.op = 13)))) ||
  (decide (p.swalk = false ∧ p.tag0 ≠ 0))

/-- Fields without a use for the role (R293, R297, R298). -/
def uselessBad (p : Prog) (r : Ref) : Bool :=
  let dst := decide (r.role = .dest)
  let srcA := decide (r.unit = 5 ∧ r.op = 15 ∧ r.role = .source)
  let side := dst && decide (r.unit ≤ 1)
  let colrec := dst && decide (r.unit = 2)
  decide (p.hadStage ≠ 0 ∧ srcA = false) || decide (9 < p.hadStage) || decide (p.macc = true ∧ (dst && decide (r.unit = 3)) = false) ||
  decide (p.sidecar = true ∧ side = false) || decide (p.scbase ≠ 0 ∧ p.sidecar = false) ||
  decide (p.sbase ≠ 0 ∧ p.swalk = false ∧ p.record = false ∧ colrec = false) ||
  decide ((p.ncol ≠ 0 ∨ p.col0 ≠ 0) ∧ dst = false) || decide (p.ncol = 0 ∧ p.col0 ≠ 0) ||
  decide (dst = true ∧ r.unit ≤ 2 ∧ r.outs < p.col0 + p.ncol) || decide (p.gstr ≠ 0 ∧ p.kind = 1 ∧ r.unit ≠ 5)

/-- The program that an action names breaks a rule under BAD_FORMAT. -/
def Image.refBad (m : Image) (r : Ref) : Bool :=
  let p := m.prog r.unit r.idx
  let stride4 := strides p
  let store := decide (p.space = 1 ∨ p.space = 2 ∨ (p.space = 3 ∧ r.role ≠ .dest ∧ (r.unit ≤ 2 ∨ r.unit = 4)))
  decide (p.kind = 0 ∨ 3 < p.kind) || !fmtAccepted r p.efmt || !store || decide (r.unit = 5 ∧ p.space ≠ 1) ||
  decide (r.role = .dest ∧ p.kind ≠ 1) || progReserved p || scaleBad p r || uselessBad p r ||
  (if p.kind = 1 then
     decide (p.rowb = 0 ∨ unitRowBytes r.unit p r < p.rowb) ||
     (p.swalk && (decide (p.rowb % p.blockBytes ≠ 0) || stride4.any (fun s => decide (s % p.blockBytes ≠ 0))))
   else convBad p (unitRowElems r.unit p r)) ||
  decide (r.unit = 2 ∧ r.role = .dest ∧ p.sbase % 512 ≠ 0)

/-! ### Post-unit actions (R323, R325) -/

def Image.descWord (m : Image) (i o n : Nat) : Nat := le (m.table 6 0) (32 * i + o) n

/-- A pooling or crop source describes the image only. -/
def imageOnly (p : Prog) : Bool :=
  decide (p.kh = 1 ∧ p.kw = 1 ∧ p.sy = 1 ∧ p.sx = 1 ∧ p.t0 = 0 ∧ p.nt = 1 ∧ p.pack = 0)

def Image.postBad (m : Image) (te1 : Bool) (b : BitVec 512) : Bool :=
  let w := slotWord b 5
  let op := slotOp 5 w
  if op = 0 ∨ 6 < op then false
  else
    let i := bitsOf w 35 30
    let src := m.prog 4 (bitsOf w 57 47)
    let dst := m.prog 4 (bitsOf w 46 36)
    let f (o n : Nat) : Nat := m.descWord i o n
    let h := hold b
    let pool := decide (op ≤ 3)
    let crop := decide (op = 4 ∨ op = 5)
    let outs := (f 6 1 % 64 + 1) * (f 7 1 % 64 + 1)
    let unused :=
      (!pool && decide (f 2 1 ≠ 0 ∨ f 3 1 ≠ 0)) || (decide (op ≠ 2 ∧ op ≠ 3) && decide (f 4 2 ≠ 0)) ||
      (!crop && decide (f 6 1 ≠ 0 ∨ f 7 1 ≠ 0 ∨ f 8 2 ≠ 0 ∨ f 10 1 ≠ 0 ∨ f 12 4 ≠ 0 ∨ f 16 4 ≠ 0)) ||
      (decide (op ≠ 6) && decide (f 0 2 ≠ 0)) || decide (f 11 1 ≠ 0 ∨ f 20 4 ≠ 0 ∨ f 24 8 ≠ 0)
    unused ||
    (pool && (!(decide (src.kind = 2 ∨ src.kind = 3)) || !imageOnly src || decide (h % ((f 2 1 % 16 + 1) * (f 2 1 / 16 + 1)) ≠ 0))) ||
    (crop && (decide (src.kind ≠ 2) || !imageOnly src || decide (src.pt ≠ 0 ∨ src.pb ≠ 0 ∨ src.pl ≠ 0 ∨ src.pr ≠ 0 ∨ src.npass ≠ 1) ||
      decide (f 6 1 / 64 ≠ 0 ∨ f 7 1 / 64 ≠ 0 ∨ f 8 2 / 4096 ≠ 0 ∨ 1 < f 10 1) ||
      (let bb := f 12 4; decide (¬ (bitsOf bb 31 30 = 1 ∨ (bitsOf bb 31 30 = 2 ∧ te1 = true)) ∨ bitsOf bb 29 26 ≠ 0 ∨ bb % 16 ≠ 0)) ||
      decide (h % (if op = 4 then 4 * outs else outs) ≠ 0))) ||
    (decide (op = 6) && (decide (src.kind ≠ 1 ∨ src.rowb ≠ 256 ∨ dst.rowb ≠ 8 ∨ f 0 2 = 0) ||
      (let need := ceilDiv (f 0 2 * (src.ebits / 8)) 256; decide (need ≠ 0 ∧ h % need ≠ 0))))

/-- A record action that selects both sides (R215). -/
def Image.recordSidesBad (m : Image) (b : BitVec 512) : Bool :=
  let w := slotWord b 2
  let op := slotOp 2 w
  decide (op = 10 ∨ op = 13) && decide (bitsOf w 49 42 ≠ 0 ∧ bitsOf w 57 50 ≠ 0) &&
    ((m.prog 5 (bitsOf w 37 27)).record || (m.prog 5 (bitsOf w 15 5)).record)

/-! ### Transfer programs (R242, R249, R364) -/

def Image.xword (m : Image) (u k : Nat) : Nat := le (m.table 3 0) (16 * u + 8 * k) 8

/-- The steps from unit `u`: their units, and whether the program ends inside the segment's transfer programs. -/
def Image.xsteps (m : Image) : Nat → Nat → List Nat × Bool
  | 0, _ => ([], false)
  | n + 1, u =>
    let k := xKind (m.xword u 0)
    if (m.table 3 0).length < 16 * (u + xUnits k) ∨ 7 < k then ([], false)
    else if k = 0 then ([u], true)
    else let r := m.xsteps n (u + xUnits k); (u :: r.1, r.2)

/-- Alignment of an endpoint (R249): 256 bytes for HBM4, 8 on-die. -/
def spaceAlign (space : Nat) : Nat := if space = 0 then 256 else if space ≤ 3 then 8 else 1

/-- Every DXS (`source`) or DXD of the program. -/
def Image.deltas (m : Image) (steps : List Nat) (source : Bool) : List Nat :=
  (steps.filter fun u => decide (xKind (m.xword u 0) = 7)).map fun u =>
    let x := m.xword u 1
    if source then x % 2 ^ 32 else x / 2 ^ 32

/-- An endpoint that breaks the alignment `a`: its BASE, or with USE_X a delta of its side. -/
def Image.unaligned (m : Image) (steps : List Nat) (e : Endpoint) (source : Bool) (a : Nat) : Bool :=
  decide (e.base % a ≠ 0) || (e.useX && (m.deltas steps source).any fun x => decide (x % a ≠ 0))

def Image.endBad (m : Image) (steps : List Nat) (w : Nat) (source : Bool) : Bool :=
  let e := endpoint w
  decide (4 < e.space ∨ (e.space = 4 ∧ source = true) ∨ (e.space ≠ 4 ∧ e.fch ≠ 0)) ||
    (decide (e.space ≤ 3) && m.unaligned steps e source (spaceAlign e.space))

def Image.template (m : Image) (i : Nat) : Nat → Nat → Nat := fun o n => le (m.table 4 0) (32 * i + o) n

/-- One step's own checks. -/
def Image.stepBad (m : Image) (steps : List Nat) (u : Nat) : Bool :=
  let w (k : Nat) : Nat := m.xword u k
  let k := xKind (w 0)
  if k = 0 then decide (w 0 ≠ 0 ∨ w 1 ≠ 0)
  else if k = 1 then
    let len := bitsOf (w 0) 47 16
    let a := endpoint (w 1)
    let b := endpoint (w 2)
    decide (bitsOf (w 0) 15 8 ≠ 0 ∨ bitsOf (w 0) 63 48 ≠ 0 ∨ w 3 ≠ 0 ∨ len = 0 ∨
      (a.space ≤ 3 ∧ len % spaceAlign a.space ≠ 0) ∨ (b.space ≤ 3 ∧ len % spaceAlign b.space ≠ 0)) ||
    m.endBad steps (w 1) true || m.endBad steps (w 2) false
  else if k = 2 then
    let elem := bitsOf (w 0) 31 8
    let a := endpoint (w 1)
    let b := endpoint (w 2)
    let off (s : Nat) (v : List Nat) : Bool := decide (s ≤ 3) && v.any fun x => decide (x % spaceAlign s ≠ 0)
    let halves (x y : Nat) : List Nat := [x % 2 ^ 32, x / 2 ^ 32, y % 2 ^ 32, y / 2 ^ 32]
    decide (bitsOf (w 0) 63 32 ≠ 0 ∨ elem = 0) || off a.space (elem :: halves (w 4) (w 5)) || off b.space (elem :: halves (w 6) (w 7)) ||
    m.endBad steps (w 1) true || m.endBad steps (w 2) false
  else if k = 3 ∨ k = 4 then
    let e := endpoint (w 1)
    let i := bitsOf (w 0) 15 8
    let t := m.template i
    let ld := endpoint (t 0x10 8)
    let pages := walkPages (w 0)
    decide (bit (w 0) 31 = true ∨ bitsOf (w 0) 63 57 ≠ 0 ∨ w 2 ≠ 0 ∨ w 3 ≠ 0 ∨ pages = 0 ∨ 4096 < pages ∨
      4096 < walkFirst (w 0) + pages ∨ (m.table 4 0).length < 32 * i + 32 ∨ e.space = 3) ||
    decide (t 0 4 % 256 ≠ 0 ∨ t 4 4 < 256 ∨ 65536 < t 4 4 ∨ t 4 4 % 256 ≠ 0 ∨ 65536 < t 0 4 + t 4 4 ∨
      (e.space ≤ 3 ∧ t 8 4 % spaceAlign e.space ≠ 0) ∨ t 12 1 / 4 ≠ 0 ∨ t 13 3 ≠ 0 ∨ t 24 8 ≠ 0) ||
    m.unaligned steps ld false (spaceAlign e.space) ||
    (bit (t 12 1) 1 && (decide (¬ (ld.space = 1 ∨ ld.space = 2)) || m.endBad steps (t 16 8) false)) || m.endBad steps (w 1) (decide (k = 4))
  else if k = 5 then decide (bitsOf (w 0) 63 32 ≠ 0 ∨ w 1 ≠ 0)
  else if k = 6 then decide (bitsOf (w 0) 39 17 ≠ 0 ∨ w 1 ≠ 0)
  else decide (bitsOf (w 0) 15 10 ≠ 0 ∨ bitsOf (w 0) 63 48 ≠ 0)

/-- The loops of a program: first and last unit of each body and its LEVEL. -/
def Image.xloops (m : Image) (steps : List Nat) : List (Nat × Nat × Nat) :=
  (steps.filter fun u => decide (xKind (m.xword u 0) = 7)).map fun u =>
    let w := m.xword u 0
    (u - bitsOf w 23 16, u, bitsOf w 9 8)

/-- BACK lands on a step, bodies nest, and no body holds a LOOP of its own LEVEL. -/
def Image.loopsBad (m : Image) (steps : List Nat) : Bool :=
  let ls := m.xloops steps
  (steps.filter fun u => decide (xKind (m.xword u 0) = 7)).any (fun u => decide (u < bitsOf (m.xword u 0) 23 16)) ||
  ls.any fun a => !steps.contains a.1 || ls.any fun b =>
    decide (a.2.1 < b.2.1 ∧ a.1 < b.1 ∧ b.1 ≤ a.2.1) ||
    (decide (a.2.1 < b.2.1 ∧ b.1 ≤ a.1) && decide (a.2.2 = b.2.2))

/-- Program from a LAUNCH's ENTRY: BAD_FORMAT. -/
def Image.xprogBad (m : Image) (entry : Nat) : Bool :=
  let s := m.xsteps 64 entry
  !s.2 || s.1.any (m.stepBad s.1) || m.loopsBad s.1

def Image.entries (m : Image) : List Nat :=
  ((m.bundles.map fun b => slotWord b 3).filter fun w => decide (slotOp 3 w = 1)).map fun w => bitsOf w 33 18

/-- ABSENT_TARGET of a program (R249, R464). -/
def Die.xprogAbsent (d : Die) (s : Nat) (m : Image) (entry : Nat) : Bool :=
  (m.xsteps 64 entry).1.any fun u =>
    let k := xKind (m.xword u 0)
    let ends := if k = 1 ∨ k = 2 then [m.xword u 1, m.xword u 2]
      else if k = 3 ∨ k = 4 then
        m.xword u 1 :: (if bit (m.template (bitsOf (m.xword u 0) 15 8) 12 1) 1 then [m.template (bitsOf (m.xword u 0) 15 8) 16 8] else [])
      else []
    ends.any fun w =>
      let e := endpoint w
      (decide (e.space = 2) && !d.hasTe1) ||
      (decide (e.space = 4) && (match d.sendChannel s e.fch with
        | none => true
        | some c => decide ((d.channel c).pin < 8) && !d.portPresent (d.channel c).pin))

/-! ### The checks in order (R69) -/

def capsMissing (req caps : Nat) : Bool :=
  ([(27, 24), (20, 16), (15, 12), (10, 8), (3, 0)] : List (Nat × Nat)).any (fun f => decide (bitsOf caps f.1 f.2 < bitsOf req f.1 f.2)) ||
    ([4, 5, 6] : List Nat).any fun b => bit req b && !bit caps b

/-- A bundle names an absent unit, program store or instance (R7, R86). -/
def Die.bundleAbsent (d : Die) (m : Image) (b : BitVec 512) : Bool :=
  let w (k : Nat) : Nat := slotWord b k
  (decide (slotOp 4 (w 4) ≠ 0) && slot4Mica (w 4) && !d.hasMica) ||
  (!d.hasTe1 &&
    (decide (slotOp 1 (w 1) ≠ 0) || (decide (slotOp 2 (w 2) ≠ 0) && decide (bitsOf (w 2) 57 50 ≠ 0)) ||
     (bundleRefs b).any (fun r => decide ((m.prog r.unit r.idx).space = 2)) ||
     (decide (slotOp 5 (w 5) = 4 ∨ slotOp 5 (w 5) = 5) && decide (m.descWord (bitsOf (w 5) 35 30) 12 4 / 2 ^ 30 = 2)) ||
     (decide (slotOp 6 (w 6) = 2) && (decide (4 ≤ bitsOf (w 6) 57 55) || bit (w 6) 54)) ||
     (decide (slotOp 6 (w 6) = 3) && (decide (bitsOf (w 6) 57 54 ≠ 0) || bit (w 6) 49))))

def Die.tableAbsent (d : Die) (m : Image) : Bool :=
  m.tables.any fun t =>
    (decide ((t.1 = 1 ∨ t.1 = 2) ∧ t.2.1 = 1) && !d.hasTe1) || (decide (t.1 = 2 ∧ t.2.1 = 3) && !d.hasMica)

/-- Depth of open loops through the bundles; none when the structure breaks (R69 0x04). -/
def loopDepth : List (BitVec 512) → Nat → Bool
  | [], _ => false
  | b :: t, n =>
    let op := bundleLoopOp b
    if op = 1 then (if n < 8 then loopDepth t (n + 1) else false)
    else if op = 2 then (if bundleLoopDepth b + 1 ≤ n then loopDepth t (n - (bundleLoopDepth b + 1)) else false)
    else if op = 3 then (if n ≠ 0 then false else match t with | [] => true | _ => loopDepth t n)
    else loopDepth t n

/-- Users of the extension word (R82). -/
def extUsers (b : BitVec 512) : Nat :=
  b2n (decide (bundleLoopOp b = 1)) + b2n (bundleWait b) +
    b2n (decide (slotOp 2 (slotWord b 2) ≠ 0) && bit (slotWord b 2) 38) +
    b2n (decide (slotOp 3 (slotWord b 3) = 1) && bit (slotWord b 3) 17)

def extBad (b : BitVec 512) : Bool :=
  decide (1 < extUsers b ∨ (extUsers b = 0 ∧ bundleExt b ≠ 0)) ||
    (decide (bundleLoopOp b = 1 ∨ bundleWait b = true) && decide (bundleExt b / 2 ^ 24 ≠ 0))

def elasticBad (b : BitVec 512) : Bool :=
  bundleElastic b && ([2, 4, 5] : List Nat).any fun k => decide (slotOp k (slotWord b k) ≠ 0)

def tallyOver (b : BitVec 512) (n : Nat) : Bool :=
  (bundleWait b && decide (n ≤ bundleTally b)) ||
  ([0, 1] : List Nat).any (fun k => decide (slotOp k (slotWord b k) = 2) && decide (n ≤ bitsOf (slotWord b k) 25 18)) ||
  (decide (slotOp 6 (slotWord b 6) = 1) && decide (n ≤ bitsOf (slotWord b 6) 57 50))

def Image.xtallyOver (m : Image) (entry : Nat) : Bool :=
  (m.xsteps 64 entry).1.any fun u =>
    decide ((xKind (m.xword u 0) = 5 ∨ xKind (m.xword u 0) = 6) ∧ m.tallies ≤ bitsOf (m.xword u 0) 15 8)

/-- TABLE_BAD of the sizes (R84, R168, R298, R322, R363, R564). -/
def Image.sizeBad (m : Image) : Bool :=
  m.tables.any (fun t =>
    let n := t.2.2.length
    (decide (t.1 = 1) && decide (n % 8192 ≠ 0)) || (decide (t.1 = 2) && decide (n % 64 ≠ 0 ∨ 131072 < n)) ||
    (decide (t.1 = 4) && decide (n % 32 ≠ 0 ∨ 8192 < n)) || (decide (t.1 = 5) && decide (n ≠ 16 * ceilDiv m.bundles.length 1024)) ||
    (decide (t.1 = 6) && decide (n ≠ 2048))) ||
  m.bundles.any fun b => ([0, 1] : List Nat).any fun k =>
    let w := slotWord b k
    decide (slotOp k w = 1) &&
      decide ((m.table 1 k).length / 8192 < bitsOf w 42 31 + (if bitsOf w 57 55 < 4 then 2 else 1))

/-- The static length (R39, R44, R45): cycles of each open body so far, with its count. -/
def closeBodies : Nat → List (Nat × Nat) → List (Nat × Nat)
  | 0, st => st
  | n + 1, (c, k) :: (c', k') :: st => closeBodies n ((c' + c * k, k') :: st)
  | _ + 1, st => st

def staticFrom : List (BitVec 512) → List (Nat × Nat) → Nat
  | [], st => (st.map (·.1)).getLastD 0
  | b :: t, st =>
    let st := match st with
      | (c, k) :: r => (c + hold b, k) :: r
      | [] => [(hold b, 1)]
    let op := bundleLoopOp b
    if op = 1 then staticFrom t ((0, if bundleExt b % 2 ^ 24 = 0 then 16777216 else bundleExt b % 2 ^ 24) :: st)
    else if op = 2 then staticFrom t (closeBodies (bundleLoopDepth b + 1) st)
    else if op = 3 then (st.map (·.1)).getLastD 0
    else staticFrom t st

def staticLength (bs : List (BitVec 512)) : Nat := staticFrom bs [(0, 1)]

/-! ### Placement -/

/-- The lowest base at which `n` fits below `size` beside the ranges taken (R37). -/
def placeIn (taken : List (Nat × Nat)) (size n : Nat) : Option Nat :=
  let tops := 0 :: taken.map fun r => r.1 + r.2
  let fits := tops.filter fun b => decide (b + n ≤ size) && taken.all fun r => decide (b + n ≤ r.1 ∨ r.1 + r.2 ≤ b)
  fits.foldl (fun (best : Option Nat) b => match best with | some x => some (min x b) | none => some b) none

/-- Ranges that loaded segments hold of a resource. -/
def Die.taken (d : Die) (f : Segment → Nat × Nat) : List (Nat × Nat) :=
  (d.ctx.slots.filterMap fun c => c.2.seg.map f).filter fun r => decide (r.2 ≠ 0)

def Die.place (d : Die) (size n : Nat) (f : Segment → Nat × Nat) : Option Nat :=
  if n = 0 then some 0 else placeIn (d.taken f) size n

/-- Where a piece of a prologue stands in the instruction store (R506). -/
def Die.prologueRoom (d : Die) : List (Nat × Nat) := d.sec.prologues.filterMap fun p => p.place.map fun b => (b, 1)

/-- A place for `n` bundles. -/
def Die.placeBundles (d : Die) (n : Nat) : Option Nat :=
  placeIn (d.taken (fun g => (g.base, g.bundles)) ++ d.prologueRoom) 65536 n

/-- The statistics tables' places: the top of the grant on the engine's own side (R168). -/
def Slot.statPlace (x : Slot) (te n : Nat) : Option Nat :=
  let r := x.range (1 + te)
  if n ≤ r.2 then some (r.1 + r.2 - n) else none

/-- Engines that a segment's bundles use: their slots, and lane groups of their side (R581). -/
def usesEngine (bs : List (BitVec 512)) (te : Nat) : Bool :=
  bs.any fun b => decide (slotOp te (slotWord b te) ≠ 0) ||
    (decide (slotOp 2 (slotWord b 2) ≠ 0) &&
      decide ((if te = 0 then bitsOf (slotWord b 2) 49 42 else bitsOf (slotWord b 2) 57 50) ≠ 0))

/-- Forecast energy of a run in each gating mode: the sum of the table's entries (R564). -/
def Image.energy (m : Image) : List Nat :=
  let t := m.table 5 0
  (List.range 4).map fun k => (List.range (t.length / 16)).foldl (fun (n : Nat) j => n + le t (16 * j + 4 * k) 4) 0

/-- The segment of an image, or none for NO_SPACE. -/
def Die.placeImage (d : Die) (s : Nat) (m : Image) : Option Segment := do
  let base ← d.placeBundles m.bundles.length
  let tally ← d.place 256 m.tallies fun g => (g.tallyBase, g.tallies)
  let thr ← d.place 4096 m.threads fun g => (g.thrBase, g.threads)
  let xu := ceilDiv m.xbytes 16
  let x ← d.place 65536 xu fun g => (g.xBase, g.xUnits)
  let tm := min 256 ((m.table 4 0).length / 32)
  let tb ← d.place 4096 tm fun g => (g.tmplBase, g.tmplCount)
  let db ← d.place 64 1 fun g => (g.descBase / 64, 1)
  let counts := (List.range 6).map fun u => min 2048 ((m.table 2 u).length / 64)
  let bases ← (List.range 6).mapM fun u =>
    d.place 8192 (nth 0 counts u) fun g => (nth 0 g.agBase u, nth 0 g.agCount u)
  let n0 := (m.table 1 0).length
  let n1 := (m.table 1 1).length
  let s0 ← (d.slot s).statPlace 0 n0
  let s1 ← (d.slot s).statPlace 1 n1
  some { base := base, bundles := m.bundles.length, tallyBase := tally, tallies := m.tallies, thrBase := thr, threads := m.threads,
         xBase := x, xUnits := xu, agBase := bases, agCount := counts, tmplBase := tb, tmplCount := tm, descBase := 64 * db,
         hasDesc := !(m.table 6 0).isEmpty, statBase0 := s0, statCnt0 := n0 / 8192, statBase1 := s1, statCnt1 := n1 / 8192,
         statics := staticLength m.bundles, energy := m.energy, usesE0 := usesEngine m.bundles 0, usesE1 := usesEngine m.bundles 1 }

/-- The load status of R69, with the segment when it is OK. -/
def Die.checkImage (d : Die) (s : Nat) (b : List Byte) : Nat × Option (Image × Segment) :=
  if !headerGood b || (imageDescs b).any (·.resv) then (1, none)
  else
    let m := parseImage b
    if m.bundles.any bundleFormatBad || (m.bundles.flatMap bundleRefs).any m.refBad || m.bundles.any (m.postBad d.hasTe1) ||
        m.bundles.any m.recordSidesBad || m.entries.any m.xprogBad then (1, none)
    else if capsMissing m.caps d.variant.caps.toNat then (2, none)
    else if m.bundles.any (d.bundleAbsent m) || m.entries.any (d.xprogAbsent s m) || d.tableAbsent m then (3, none)
    else if !loopDepth m.bundles 0 then (4, none)
    else if m.bundles.any extBad then (5, none)
    else if m.bundles.any elasticBad then (6, none)
    else if m.bundles.any (tallyOver · m.tallies) || m.entries.any m.xtallyOver then (7, none)
    else
      match d.placeImage s m with
      | none => (8, none)
      | some g =>
        if m.bad || m.sizeBad then (9, none)
        else if g.statics ≠ m.static then (10, none)
        else (0, some (m, g))

/-- The tables go to their units, the windows are assigned (R65, R76, R438). -/
def Die.installImage (d : Die) (s : Nat) (m : Image) (g : Segment) : Die :=
  let st := d.st
  let ag := (List.range 6).foldl (fun (a : Tab Byte) u =>
    Mem.write a (u * unitBytes + 64 * nth 0 g.agBase u) (m.table 2 u)) st.ag
  let st := { st with
    instr := Mem.write st.instr (64 * g.base) ((m.bytes.drop 0x40).take (64 * g.bundles)),
    xprog := Mem.write st.xprog (16 * g.xBase) (m.table 3 0),
    tmpl := Mem.write st.tmpl (32 * g.tmplBase) (m.table 4 0),
    desc := Mem.write (Mem.zero st.desc (32 * g.descBase) 2048) (32 * g.descBase) (m.table 6 0),
    ag := ag,
    ws0 := Mem.write st.ws0 g.statBase0 (m.table 1 0),
    ws1 := Mem.write st.ws1 g.statBase1 (m.table 1 1) }
  let d := Die.clearTallies { d with st := st } g.tallyBase g.tallies
  let own (n : Nat) : Bool := decide (g.thrBase ≤ n ∧ n < g.thrBase + g.threads)
  let threads := (List.range g.threads).foldl (fun (t : Tab Thread) i => Tab.write {} t (g.thrBase + i) { slot := s })
    (d.xfr.threads.filter fun c => !own c.1)
  { d with xfr := { d.xfr with threads := threads } }

end Sys2Proof.Machine
end

