-- ==== Sys2Proof/Machine/Context.lean ====
section
/-! DEFINITION. Context slots, their commands and the calendar (R427 to R448, R487, R488): GRANT, LOAD, ARM, DISARM, ABORT,
UNLOAD, RELEASE, the dispatcher and the runs. -/

namespace Sys2Proof.Machine

/-! ### Completion of a command (R436, R437) -/

def stOk : Nat := 0
def stState : Nat := 1
def stDenied : Nat := 2
def stOverlap : Nat := 3
def stRange : Nat := 4
def stConf : Nat := 5
def stBusy : Nat := 6
def stLoad : Nat := 7
def stImage : Nat := 8

/-- Completion writes CMD_STATUS and clears BUSY. -/
def Die.ctxDone (d : Die) (s status : Nat) : Die :=
  d.updSlot s fun x => { x with busy := .idle, status := BitVec.ofNat 4 status }

/-- CLEAN is set when every slot is FREE and no scrub, initialisation or sweep is in progress (R579). -/
def Die.cleanCheck (d : Die) : Die :=
  if (d.ctx.slots.all fun c => decide (c.2.state = .free)) && d.sec.scrubs.isEmpty && !d.sec.prots.any (fun c => c.2.sweeping) then
    { d with boot := { d.boot with clean := true } }
  else d

/-! ### GRANT (R433, R504, R506) -/

def rangesMeet (a n b m : Nat) : Bool := decide (n ≠ 0 ∧ m ≠ 0 ∧ a < b + m ∧ b < a + n)

/-- Two slots' grants meet. -/
def Slot.meets (x y : Slot) : Bool :=
  rangesMeet x.memFirst x.memBytes y.memFirst y.memBytes ||
    ([1, 2, 3] : List Nat).any (fun sp => rangesMeet (x.range sp).1 (x.range sp).2 (y.range sp).1 (y.range sp).2) ||
    rangesMeet x.seqBase x.seqCount y.seqBase y.seqCount || rangesMeet x.firstPage x.pages y.firstPage y.pages

/-- RANGE of R433. -/
def Die.grantRange (d : Die) (s : Nat) : Bool :=
  let x := d.slot s
  decide (wbits x.memSize 17 0 = 0 ∨ wbits d.ctx.memLimit 17 0 < wbits x.memBase 17 0 + wbits x.memSize 17 0) ||
    ([x.ws0, x.ws1, x.lb] : List W32).any (fun w => decide (1024 < wbits w 9 0 + wbits w 26 16)) ||
    decide (x.firstPage % 16 ≠ 0 ∨ x.pages % 16 ≠ 0 ∨ d.kvp.poolPages.toNat < x.firstPage + x.pages) ||
    decide (4096 < x.seqBase + x.seqCount) || (!d.hasTe1 && decide (wbits x.ws1 26 16 ≠ 0))

def Die.grantOverlap (d : Die) (s : Nat) : Bool :=
  d.ctx.slots.any fun c => decide (c.1 ≠ s) && c.2.isGranted && (d.slot s).meets c.2

/-- Issue cycles of an entry prologue: 8 KiB of each range in a cycle, the ranges side by side (R506). -/
def Slot.prologueCycles (x : Slot) : Nat :=
  ([1, 2, 3] : List Nat).foldl (fun (n : Nat) sp => max n ((x.range sp).2 / 8192)) 0

/-- A GRANT completes once its prologue has run and no scrub covers its ranges. -/
def Die.grantDone (d : Die) (s : Nat) : Die :=
  let x := d.slot s
  if x.busy = .grant ∧ (d.sec.prologues.any fun p => decide (p.slot = s ∧ p.lock = false)) = false ∧
      d.scrubbing x.memFirst x.memBytes = false ∧
      d.scrubbing (d.poolBase + x.firstPage * pageBytes) (x.pages * pageBytes) = false then d.ctxDone s stOk
  else d

/-- Every GRANT that may now complete. -/
def Die.grantsDone (d : Die) : Die := forUpto 64 (fun s d => d.grantDone s) d

def Die.grantSlot (d : Die) (s : Nat) : Die :=
  if d.glb.service = 0 ∨ d.glb.service = 1 ∨ d.boot.full = false ∨ d.boot.warm = true ∨ d.fuses.lifecycle = 3 then d.ctxDone s stState
  else if d.grantRange s then d.ctxDone s stRange
  else if d.grantOverlap s then d.ctxDone s stOverlap
  else
    let d := d.updSlot s fun x =>
      { x with state := .granted, busy := .grant, conf := false, seg := none, runsLeft := 0, runsDone := 0, runNum := 0,
               marks := [], lastCyc := 0, cause := 0 }
    let d := (d.kvGrant s).updProt s fun q => { q with lastConf := false }
    let n := (d.slot s).prologueCycles
    let d := { d with boot := { d.boot with clean := false },
                      sec := { d.sec with prologues :=
                        if n = 0 then d.sec.prologues else d.sec.prologues ++ [({ slot := s, left := n, lock := false } : Prologue)] } }
    d.grantDone s

/-! ### LOAD (R438) -/

def Slot.imageAddr (x : Slot) : Nat := x.imageLo.toNat + wbits x.imageHi 7 0 * 2 ^ 32

def Die.loadSlot (d : Die) (s : Nat) : Die :=
  let x := d.slot s
  if (d.prot s).protected_ ∧ (d.prot s).tdi = .locked then d.ctxDone s stState
  else if (d.prot s).init then d.ctxDone s stState
  else if x.phys x.imageAddr x.imageLen.toNat = none then d.ctxDone s stImage
  else d.updSlot s fun x => { x with state := .loading, busy := .load }

/-- A LOAD ends without a segment. -/
def Die.loadFailed (d : Die) (s status : Nat) : Die :=
  (d.updSlot s fun x => { x with state := .granted }).ctxDone s status

/-- The loader has read and checked the image (R69, R438). -/
def Die.loadEnd (d : Die) (s : Nat) (acc : Access) : Die :=
  let x := d.slot s
  match x.phys x.imageAddr x.imageLen.toNat with
  | none => d.loadFailed s stImage
  | some p =>
    let a := d.accessed acc [(p, x.imageLen.toNat)] [] (some s)
    if (d.prot s).departing then a.1.loadFailed s stState
    else if a.2 || d.hbm.failed then a.1.loadFailed s stImage
    else
      let d := a.1
      match d.checkImage s (Mem.read d.st.hbm p x.imageLen.toNat) with
      | (_, some (m, g)) =>
        ((d.installImage s m g).updSlot s fun x =>
          { x with state := .loaded, seg := some g, runsDone := 0, runNum := 0, loadStat := 0 }).ctxDone s stOk
      | (c, none) => (d.updSlot s fun x => { x with loadStat := BitVec.ofNat 4 c }).loadFailed s stLoad

/-! ### DISARM, UNLOAD, RELEASE (R435, R440) -/

def Die.disarmSlot (d : Die) (s : Nat) : Die :=
  let d := { d with ctx := { d.ctx with cal := d.ctx.cal.dropPending s } }
  (d.updSlot s fun x => { x with state := .loaded, conf := false, runsLeft := 0 }).ctxDone s stOk

/-- Steps 1 and 2 of R440 begin; an UNLOAD or RELEASE by the physical function is an error event of a TDI (R485). -/
def Die.unloadSlot (d : Die) (fn s : Nat) (release : Bool) : Die :=
  let d := d.updSlot s fun x => { x with busy := .unload release }
  let t := (d.prot s).tdi
  if fn = 0 ∧ s ≠ 0 ∧ (t = .locked ∨ t = .run) then d.tdiError s release else d.stopUnits s

/-- Nothing of the slot is still under way: its threads have stopped, no launch of it is on its way, no command of it is in
the KVP queue, no run of it holds issue. -/
def Die.slotQuiet (d : Die) (s : Nat) : Bool :=
  !d.slotRunning s && !d.holdsIssue s && !d.iss.fifo.any (fun e => decide (e.slot = s)) &&
    !d.kvp.queue.any fun k => match k with | .command sl _ _ _ _ _ => decide (sl = s) | .retire _ => false

/-- Passes that the slot's threads still hold close: their requests have completed (R370). -/
def Die.closePasses (d : Die) (s : Nat) : Die :=
  (d.xfr.threads.filter fun c => decide (c.2.slot = s)).foldl (fun (d : Die) c => d.closePass c.1) d

/-- Step 4 of R440: the segment and every window are free. The tallies and threads of the windows read as they stand until
the windows are assigned again (R76, R264). -/
def Die.freeSegment (d : Die) (s : Nat) : Die :=
  (d.closePasses s).updSlot s fun x => { x with seg := none, state := .granted, conf := false, runsLeft := 0, cause := 0 }

/-- The slot becomes FREE: its pages, sequences and channels go (R345, R464). -/
def Die.freeSlot (d : Die) (s : Nat) : Die :=
  ((d.kvRelease s).channelsRelease s).updSlot s fun x => { x with state := .free }

def Slot.scrub (x : Slot) (s : Nat) (initKey : Nat) (depart release : Bool) : Scrub :=
  { slot := s, memBase := wbits x.memBase 17 0, memSize := wbits x.memSize 17 0, pageBase := x.firstPage, pageCnt := x.pages,
    initKey := initKey, depart := depart, release := release }

def Die.addScrub (d : Die) (s initKey : Nat) (depart : Bool) (release : Bool := false) : Die :=
  { d with sec := { d.sec with scrubs := d.sec.scrubs ++ [(d.slot s).scrub s initKey depart release] } }

/-- UNLOAD_RELEASE_DONE: step 4 of R440, and what follows it for a RELEASE or a departure (R486, R504). -/
def Die.unloadEnd (d : Die) (s : Nat) : Die :=
  let x := d.slot s
  let q := d.prot s
  if q.departing then
    if d.sec.scrubs.any fun c => decide (c.slot = s) && c.depart then d
    else
      let d := ((d.freeSegment s).kvGrant s).addScrub s 0 true
      match x.busy with
      | .unload false => d.ctxDone s stOk
      | .load => d.ctxDone s stState
      | _ => d
  else
    match x.busy with
    | .unload false => (d.freeSegment s).ctxDone s stOk
    | .unload true =>
      if d.sec.scrubs.any fun c => decide (c.slot = s) && c.release then d
      else
        let d := (d.freeSegment s).addScrub s 0 false q.lastConf
        if q.lastConf then d else (d.freeSlot s).ctxDone s stOk
    | _ => d

/-! ### The command register (R435, R437) -/

/-- The command may be issued by the function (R435). -/
def ctxDenied (fn s op : Nat) : Bool :=
  if op = 1 ∨ op = 6 then decide (fn ≠ 0) else if op = 2 then decide (fn ≠ s) else decide (fn ≠ 0 ∧ fn ≠ s)

def ctxStateOk (st : SlotState) (op : Nat) : Bool :=
  if op = 1 then decide (st = .free)
  else if op = 2 then decide (st = .granted)
  else if op = 3 ∨ op = 4 then decide (st = .armed)
  else if op = 5 then decide (st = .loaded ∨ st = .aborted)
  else decide (st = .granted ∨ st = .loaded ∨ st = .aborted)

def Die.ctxAct (d : Die) (fn s op : Nat) : Die :=
  if op = 1 then d.grantSlot s
  else if op = 2 then d.loadSlot s
  else if op = 3 then d.disarmSlot s
  else if op = 4 then (d.abortSlot s 0).ctxDone s stOk
  else if op = 5 then d.unloadSlot fn s false
  else d.unloadSlot fn s true

/-- A write of CTX_CMDs by a function. -/
def Die.ctxCmd (d : Die) (fn s op : Nat) : Die :=
  if !kvReach fn s || (!d.hostOpen && decide (op ≠ 1)) then d
  else if (d.slot s).busy ≠ .idle then d.updSlot s fun x => { x with overrun := true }
  else
    let d := d.updSlot s fun x => { x with overrun := false }
    if op = 0 ∨ 6 < op then d
    else if ctxDenied fn s op then d.ctxDone s stDenied
    else if !ctxStateOk (d.slot s).state op || (d.prot s).departing then d.ctxDone s stState
    else d.ctxAct fn s op

/-! ### ARM (R439, R487) -/

/-- The confidential preconditions of R487. -/
def Die.confReady (d : Die) (s : Nat) : Bool :=
  d.variant.hasConf && (d.prot s).protected_ && decide ((d.prot s).tdi = .run) && !d.sec.debugOpen

/-- Loops bound to a slot resume when it is armed (R397, R405). -/
def Loop.armed (l : Loop) (s : Nat) : Loop :=
  if l.enable && !l.unbound && decide (l.slot.toNat = s) then { l with abortedCtx := false, sentCmd := false, consec := 0 } else l

def Die.armNow (d : Die) (s runs : Nat) (conf : Bool) : Die :=
  let x := d.slot s
  let d := match x.seg with
    | some g => if x.state = SlotState.aborted then d.clearTallies g.tallyBase g.tallies else d
    | none => d
  let d := d.updSlot s fun x =>
    { x with state := .armed, conf := conf, runsLeft := BitVec.ofNat 16 runs, cause := 0, armTick := d.boot.sinceRst + 1 }
  let d := (d.channelsArm s).updProt s fun q => { q with lastConf := conf }
  { d with fld := { d.fld with loops := Tab.mapVal {} (fun l : Loop => l.armed s) d.fld.loops } }

/-- An UNLOAD or a RELEASE of the slot is in progress. -/
def Slot.unloading (x : Slot) : Bool :=
  match x.busy with
  | .unload _ => true
  | _ => false

/-- A write of CTX_ARMs by a function. While BUSY it is ignored (R437), and beside an UNLOAD or a RELEASE it gives STATE (R447). -/
def Die.armSlot (d : Die) (fn s : Nat) (runs : W32) : Die :=
  if !(kvReach fn s && d.hostOpen) then d
  else if (d.slot s).busy ≠ .idle then
    d.updSlot s fun x => { x with overrun := true, status := if x.unloading then BitVec.ofNat 4 stState else x.status }
  else
    let d := d.updSlot s fun x => { x with overrun := false }
    let x := d.slot s
    let conf := x.runCtrl.getLsbD 0
    if fn ≠ s then d.ctxDone s stDenied
    else if ¬ (x.state = .loaded ∨ x.state = .aborted) ∨ (d.prot s).departing = true then d.ctxDone s stState
    else if (conf && !d.confReady s) || (!conf && (d.prot s).protected_) then d.ctxDone s stConf
    else if x.state = .aborted ∧ d.slotRunning s = true then d.ctxDone s stBusy
    else (d.armNow s (wbits runs 15 0) conf).ctxDone s stOk

/-! ### The calendar (R441, R445, R446) -/

def Cal.bank (c : Cal) (b : Bool) : Tab W32 := if b then c.bank1 else c.bank0
def Cal.count (c : Cal) (b : Bool) : Nat := if b then c.count1.toNat else c.count0.toNat
def Cal.entry (c : Cal) (b : Bool) (i : Nat) : W32 := Tab.read 0 (c.bank b) i
/-- OFFSET of an entry, in ns. -/
def Cal.offset (c : Cal) (b : Bool) (i : Nat) : Nat := 10 * wbits (c.entry b i) 23 0
def Cal.start (c : Cal) (k : Int) : Int := (c.phase.toNat : Int) + k * c.quantum.toNat
/-- The first quantum whose start is at or after a time. -/
def Cal.firstFrom (c : Cal) (t : Int) : Int := -(((c.phase.toNat : Int) - t) / (c.quantum.toNat : Int))
def Cal.quantumOf (c : Cal) (t : Int) : Int := (t - c.phase.toNat) / (c.quantum.toNat : Int)

/-- What is wrong with a bank (R445): 0 OK, 1 COUNT, 2 ORDER, 3 OFFSET. -/
def Cal.bankErr (c : Cal) (b : Bool) : Nat :=
  let n := c.count b
  if 512 < n then 1
  else if (List.range (n - 1)).any fun i => decide (c.offset b (i + 1) ≤ c.offset b i) then 2
  else if (List.range n).any fun i => decide (c.quantum.toNat ≤ c.offset b i) then 3
  else 0

/-- The other bank comes into force. -/
def Cal.flip (c : Cal) : Cal := { c with active := !c.active, swapPend := false }

/-- A write of CTX_CAL_SWAP with GO: checked at once, in force at the next quantum boundary, or at once with the calendar
disabled. -/
def Cal.swap (c : Cal) (now : Int) : Cal :=
  if c.swapPend then c
  else
    let e := c.bankErr (!c.active)
    let c := { c with swapErr := BitVec.ofNat 4 e }
    if e ≠ 0 then c
    else if c.enable then { c with swapPend := true, swapAt := c.firstFrom (now + 1) }
    else c.flip

/-- The code of R446 of an enable. -/
def Cal.check (c : Cal) (timeValid : Bool) : Nat :=
  let q := c.quantum.toNat
  if q < 10000 ∨ 100000000 < q ∨ q % 10 ≠ 0 ∨ q ≤ c.phase.toNat then 1
  else if c.ptp && !timeValid then 2
  else if c.bankErr c.active ≠ 0 then 3
  else 0

def Cal.begin (c : Cal) (now : Int) : Cal :=
  let k := c.firstFrom now
  { c with enable := true, cfgErr := 0, quantumK := k, next := 0, lastDue := some (c.start k - 1) }

def Cal.disable (c : Cal) : Cal :=
  let c := if c.swapPend then c.flip else c
  { c with enable := false, pending := none, next := 0 }

/-- A write of CTX_CAL_CTRL. -/
def Die.calCtrlWrite (d : Die) (v : W32) : Die :=
  let c := d.ctx.cal
  let c :=
    if c.enable then (if v.getLsbD 31 then c else c.disable)
    else
      let c := { c with ptp := v.getLsbD 29 }
      if v.getLsbD 31 then
        let e := c.check d.time.valid
        if e = 0 then c.begin (d.baseNow c.ptp) else { c with cfgErr := BitVec.ofNat 4 e }
      else c
  { d with ctx := { d.ctx with cal := c } }

/-- A write of CTX_CAL_SWAP. -/
def Die.calSwapWrite (d : Die) (v : W32) : Die :=
  if v.getLsbD 0 then { d with ctx := { d.ctx with cal := d.ctx.cal.swap (d.baseNow d.ctx.cal.ptp) } } else d

/-- The next entry to fall due: its quantum and index. It waits at a boundary where a swap takes effect. -/
def Cal.nextEntry (c : Cal) : Option (Int × Nat) :=
  let n := c.count c.active
  if !c.enable || (c.swapPend && decide (c.swapAt ≤ c.quantumK)) then none
  else if c.next < n then some (c.quantumK, c.next)
  else if n = 0 ∨ (c.swapPend = true ∧ c.swapAt ≤ c.quantumK + 1) then none
  else some (c.quantumK + 1, 0)

/-- The boundary where a pending swap takes effect has come, and the old bank has been served. -/
def Cal.swapDue (c : Cal) (now : Int) : Bool :=
  c.swapPend && decide (c.start c.swapAt ≤ now) &&
    decide (c.count c.active = 0 ∨ c.swapAt ≤ c.quantumK ∨ (c.count c.active ≤ c.next ∧ c.swapAt ≤ c.quantumK + 1))

def Cal.swapNow (c : Cal) : Cal := { c.flip with quantumK := max c.swapAt c.quantumK, next := 0 }

/-- Move to the first entry that falls due at or after a time. -/
def Cal.seek (c : Cal) (t : Int) : Cal :=
  let k := c.quantumOf t
  let c := if c.swapPend && decide (c.swapAt ≤ k) then c.flip else c
  { c with quantumK := k, next := countBelow (c.count c.active) fun i => decide (c.start k + c.offset c.active i < t) }

/-- A step of the die time moved the calendar's base (R441, R406): entries carried over do not fall due, and none is taken
twice. -/
def Cal.stepped (c : Cal) (now : Int) : Cal :=
  if c.enable && c.ptp then
    let from_ := match c.lastDue with | some t => max now (t + 1) | none => now
    c.seek from_
  else c

/-! ### Dispatch and runs (R442 to R444, R447) -/

/-- The slot is ARMED, and was so before this reference cycle (R447). -/
def Die.armedBefore (d : Die) (s : Nat) : Bool :=
  decide ((d.slot s).state = .armed ∧ (d.slot s).armTick ≠ d.boot.sinceRst + 1)

/-- An entry that names slot s falls due (R442). -/
def Die.entryDue (d : Die) (s : Nat) : Die :=
  if d.armedBefore s then
    let d := match d.ctx.cal.pending with
      | some p => d.updSlot p fun x => { x with missed := satInc32 x.missed 1 }
      | none => d
    { d with ctx := { d.ctx with cal := { d.ctx.cal with pending := some s } } }
  else d

/-- Every engine, vector, auxiliary and post-unit action has drained (R60). -/
def Die.drained (d : Die) : Bool :=
  !([d.te0.plane0, d.te0.plane1, d.te1.plane0, d.te1.plane1].any fun p => p.statLeft d.iss.cyc) &&
  d.te0.flight.isEmpty && d.te1.flight.isEmpty && d.fln.flight.isEmpty && d.vec.landings.isEmpty && d.mca.jobs.isEmpty &&
    d.pst.jobs.isEmpty

/-- Contexts run in Dawn and full service (R31), and none after a channel failure (R236). -/
def Die.runsContexts (d : Die) : Bool :=
  decide (d.glb.service = 1 ∨ d.glb.service = 2) && !d.hbm.failed

def nextRunNum (n : W32) : W32 := if n = 0xFFFFFFFF then 1 else n + 1

/-- Keys of a segment's program windows in the cursor table. -/
def Segment.ownsCursor (g : Segment) (key : Nat) : Bool :=
  (List.range 6).any fun u =>
    let b := u * 8192 + nth 0 g.agBase u
    decide (b ≤ key ∧ key < b + nth 0 g.agCount u)

/-- The dispatcher starts a run of slot s (R443). -/
def Die.startRun (d : Die) (s : Nat) : Die :=
  match (d.slot s).seg with
  | none => d
  | some g =>
    let r : Run := { slot := s, force0 := d.te0.forceExact, force1 := d.te1.forceExact }
    let unwritten (e : Engine) : Engine := { e with plane0 := e.plane0.unwritten, plane1 := e.plane1.unwritten, pend16 := [] }
    let d := { d with
      iss := { d.iss with run := some r, cursors := d.iss.cursors.filter fun c => !g.ownsCursor c.1 },
      te0 := unwritten d.te0,
      te1 := unwritten d.te1,
      fln := { d.fln with rows := [], next := 0 },
      pst := { d.pst with box := [], sample := 0, taps := [], boxOut := [], boxCur := d.pst.boxCur.filter fun c => decide (c.1 < g.descBase ∨ g.descBase + 64 ≤ c.1) } }
    d.updSlot s fun x => { x with runNum := nextRunNum x.runNum, marks := [] }

/-- The slot's segment uses an engine that is in reset (R581): the entry waits. -/
def Die.engineHeld (d : Die) (s : Nat) : Bool :=
  match (d.slot s).seg with
  | some g => (g.usesE0 && d.te0.inReset) || (g.usesE1 && d.te1.inReset)
  | none => false

/-- The dispatcher looks at its pending entry (R442); where no segment may start, the entry goes unserved (R236). -/
def Die.dispatch (d : Die) : Die :=
  match d.ctx.cal.pending with
  | none => d
  | some s =>
    if d.iss.run.isNone && d.drained && d.issueRuns && !d.engineHeld s then
      let d := { d with ctx := { d.ctx with cal := { d.ctx.cal with pending := none } } }
      if (d.slot s).state = .armed ∧ d.runsContexts = true then d.startRun s else d
    else d

/-- PWR_FCAST0 to PWR_FCAST3 at the end of a run (R565): the sums in µJ, 0 for a confidential context. -/
def Die.forecast (d : Die) (s : Nat) : Die :=
  let e := match (d.slot s).seg with | some g => g.energy | none => []
  let uj (m : Nat) : W32 := if d.isConf s then 0 else w32 (min 0xFFFFFFFF (nth 0 e m / 1000))
  { d with pwr := { d.pwr with fcast := (List.range 4).foldl (fun (t : Tab W32) m => Tab.write 0 t m (uj m)) d.pwr.fcast } }

/-- The end of a run (R444). -/
def Die.endRun (d₀ : Die) : Die :=
  let d := d₀.tallyReadable
  match d.iss.run with
  | none => d₀
  | some r =>
    if r.phase = .drain ∧ d.drained = true then
      let x := d.slot r.slot
      let last := decide (x.state = .armed ∧ x.runsLeft = 1)
      let d := Die.forecast { d with iss := { d.iss with run := none } } r.slot
      let d := d.updSlot r.slot fun x =>
        { x with runsDone := wrapInc32 x.runsDone 1, lastCyc := w32 (min 0xFFFFFFFF r.held),
                 runsLeft := if x.state = .armed then x.runsLeft - (if x.runsLeft = 0 then 0 else 1) else x.runsLeft,
                 state := if last then .loaded else x.state, conf := x.conf && !last }
      if x.runCtrl.getLsbD 1 then d.intr r.slot 0 else d
    else d₀

/-! ### The commands -/

/-- GRANT (R433): OP 0x1 written to CTX_CMDs. -/
def execGrant (fn sl : Fin 64) (s : State) : Host.Outcome State Fault Refusal :=
  s.act fun d => d.hostMsg (.wr fn.val (offSlot sl.val 0x40) 4 1) fun d => d.ctxCmd fn.val sl.val 1

/-- LOAD (R438). -/
def execLoad (fn sl : Fin 64) (s : State) : Host.Outcome State Fault Refusal :=
  s.act fun d => d.hostMsg (.wr fn.val (offSlot sl.val 0x40) 4 2) fun d => d.ctxCmd fn.val sl.val 2

/-- LOAD_COMPLETE (R438): the loader ends a LOAD in progress. -/
def execLoadComplete (sl : Fin 64) (acc : Access) (s : State) : Host.Outcome State Fault Refusal :=
  s.act fun d => if (d.slot sl.val).busy = .load then d.loadEnd sl.val acc else d

/-- ARM (R439): RUNS written to CTX_ARMs. -/
def execArm (fn sl : Fin 64) (runs : W32) (s : State) : Host.Outcome State Fault Refusal :=
  s.act fun d => d.hostMsg (.wr fn.val (offSlot sl.val 0x44) 4 runs) fun d => d.armSlot fn.val sl.val runs

/-- DISARM (R435). -/
def execDisarm (fn sl : Fin 64) (s : State) : Host.Outcome State Fault Refusal :=
  s.act fun d => d.hostMsg (.wr fn.val (offSlot sl.val 0x40) 4 3) fun d => d.ctxCmd fn.val sl.val 3

/-- ABORT (R435). -/
def execAbort (fn sl : Fin 64) (s : State) : Host.Outcome State Fault Refusal :=
  s.act fun d => d.hostMsg (.wr fn.val (offSlot sl.val 0x40) 4 4) fun d => d.ctxCmd fn.val sl.val 4

/-- UNLOAD (R440). -/
def execUnload (fn sl : Fin 64) (s : State) : Host.Outcome State Fault Refusal :=
  s.act fun d => d.hostMsg (.wr fn.val (offSlot sl.val 0x40) 4 5) fun d => d.ctxCmd fn.val sl.val 5

/-- RELEASE (R440). -/
def execRelease (fn sl : Fin 64) (s : State) : Host.Outcome State Fault Refusal :=
  s.act fun d => d.hostMsg (.wr fn.val (offSlot sl.val 0x40) 4 6) fun d => d.ctxCmd fn.val sl.val 6

/-- UNLOAD_RELEASE_DONE (R440): nothing of the slot is under way any more. It ends an UNLOAD, a RELEASE or a departure's steps. -/
def execUnloadReleaseDone (sl : Fin 64) (s : State) : Host.Outcome State Fault Refusal :=
  s.act fun d =>
    if ((d.slot sl.val).unloading || (d.prot sl.val).departing) && d.slotQuiet sl.val then (d.unloadEnd sl.val).cleanCheck else d

/-- CAL_ENTRY_DUE (R441, R442): the next entry, once its time has come. -/
def execCalEntryDue (s : State) : Host.Outcome State Fault Refusal :=
  s.act fun d =>
    let c := d.ctx.cal
    match c.nextEntry with
    | none => d
    | some (k, e) =>
      let due := c.start k + c.offset c.active e
      if due ≤ d.baseNow c.ptp then
        let d := { d with ctx := { d.ctx with cal := { c with quantumK := k, next := e + 1, lastDue := some due } } }
        d.entryDue (wbits (c.entry c.active e) 29 24)
      else d

/-- DISPATCH_START (R442, R443). -/
def execDispatchStart (s : State) : Host.Outcome State Fault Refusal := s.act fun d => d.dispatch

/-- RUN_END (R444). -/
def execRunEnd (s : State) : Host.Outcome State Fault Refusal := s.act fun d => d.endRun

/-- CAL_SWAP (R445): a write of CTX_CAL_SWAP. -/
def execCalSwap (fn : Fin 64) (val : W32) (s : State) : Host.Outcome State Fault Refusal :=
  s.act fun d => d.pfWr fn.val (offCtx 0xC) val fun d => d.calSwapWrite val

/-- CAL_SWAP_EFFECT (R445): the quantum boundary of a pending swap. -/
def execCalSwapEffect (s : State) : Host.Outcome State Fault Refusal :=
  s.act fun d =>
    let c := d.ctx.cal
    if c.swapDue (d.baseNow c.ptp) then { d with ctx := { d.ctx with cal := c.swapNow } } else d

/-- CAL_ENABLE (R446): a write of CTX_CAL_CTRL that sets ENABLE. -/
def execCalEnable (fn : Fin 64) (val : W32) (s : State) : Host.Outcome State Fault Refusal :=
  s.act fun d => if val.getLsbD 31 then d.pfWr fn.val (offCtx 0) val fun d => d.calCtrlWrite val else d

/-- CAL_DISABLE (R446): a write that clears ENABLE. -/
def execCalDisable (fn : Fin 64) (val : W32) (s : State) : Host.Outcome State Fault Refusal :=
  s.act fun d => if val.getLsbD 31 then d else d.pfWr fn.val (offCtx 0) val fun d => d.calCtrlWrite val

end Sys2Proof.Machine
end

