-- ==== Sys2Proof/Machine/Nightwatch.lean ====
section
/-! DEFINITION. Nightwatch: its sources (R410 to R412), its network (R413, R414), its outputs (R416 to R419), its enable
(R424, R425). -/

namespace Sys2Proof.Machine

/-! ### Running, restarting, the source (R410, R416, R425) -/

/-- ENABLE takes effect only with a LOADED package. -/
def Nwt.runs (n : Nwt) : Bool := n.enable && n.pkg == 1

/-- A restart (R416). -/
def Nwt.restart (n : Nwt) : Nwt :=
  { n with warmup := 8, fresh := true, present := false, logit := 0, bg := [] }

/-! ### Taking a frame (R411, R412, R416) -/

def nwtMinGap : Nat := 1200000
def nwtRestartGap : Nat := 38400000

def Die.nwtSkipped (d : Die) : Die := { d with nwt := { d.nwt with skipped := satInc32 d.nwt.skipped 1 } }

/-- A complete luma frame whose SOF came at `sof` (PWR_AON) is taken unless it follows the last one too closely. -/
def Die.nwtTake (d : Die) (sof : Nat) (luma : List Byte) : Die :=
  let n := d.nwt
  match n.lastSof with
  | some l =>
    if sof < l + nwtMinGap then d.nwtSkipped
    else
      let n := if l + nwtRestartGap < sof then n.restart else n
      { d with nwt := { n with lastSof := some sof, work := some luma, frames := satInc32 n.frames 1, taken := n.taken + 1 } }
  | none => { d with nwt := { n with lastSof := some sof, work := some luma, frames := satInc32 n.frames 1, taken := n.taken + 1 } }

/-- Round half to even of a quotient. -/
def rneDiv (a b : Int) : Int :=
  let q := a / b
  let r := a % b
  if b < 2 * r ∨ (2 * r = b ∧ q % 2 = 1) then q + 1 else q

/-- Block size of one axis: RAW blocks hold whole Bayer quads. -/
def nwtBlock (raw : Bool) (n cells : Nat) : Nat :=
  let b := n / cells
  if raw then b / 2 * 2 else b

/-- Reduction of a frame of luma rows (R411); none for one that is too small. -/
def nwtReduce (raw : Bool) (rows : Array (Array Nat)) (w h : Nat) : Option (List Byte) :=
  let bx := nwtBlock raw w 160
  let byy := nwtBlock raw h 120
  if bx = 0 ∨ byy = 0 then none
  else
    let x0 := (w - 160 * bx) / 2
    let y0 := (h - 120 * byy) / 2
    some ((List.range 19200).map fun i =>
      let x := x0 + i % 160 * bx
      let y := y0 + i / 160 * byy
      let sum := (List.range byy).foldl (fun (n : Nat) v =>
        let r := rows.getD (y + v) #[]
        (List.range bx).foldl (fun (n : Nat) u => n + r.getD (x + u) 0) n) 0
      BitVec.ofInt 8 (rneDiv sum (bx * byy : Nat)))

/-- The designated stream's frame has ended without a drop (R411). -/
def Die.nwtIngress (d : Die) (fmt w h : Nat) : Die :=
  let d := d.nwtSync
  let n := d.nwt
  if n.runs && n.inOpen then
    let rows := ((n.inRows.map fun r => r.toArray).reverse).toArray
    let d := { d with nwt := { n with inRows := [], inOpen := false } }
    match nwtReduce (decide (fmt ≤ 2)) rows w h with
    | some luma => d.nwtTake n.sofAt luma
    | none => d.nwtSkipped
  else { d with nwt := { n with inRows := [], inOpen := false } }

/-- A frame of the designated stream was dropped (R411). -/
def Die.nwtDropped (d : Die) : Die :=
  let n := d.nwt
  let d := { d with nwt := { n with inRows := [], inOpen := false } }
  if n.runs && n.inOpen then d.nwtSkipped else d

/-- SOF of the designated stream. -/
def Die.nwtSof (d : Die) : Die :=
  let d := d.nwtSync
  if d.nwt.sideband then d
  else { d with nwt := { d.nwt with inOpen := true, inRows := [], sofAt := d.time.aon.toNat } }

def Die.nwtRow (d : Die) (luma : List Nat) : Die :=
  if d.nwt.inOpen then { d with nwt := { d.nwt with inRows := luma :: d.nwt.inRows } } else d

/-! ### The network (R413, R414). Weights are ordered [output][ky][kx][input] -/

/-- PARAM offsets (R420): each block starts on a multiple of 16 bytes. -/
structure NwtLayer where
  w    : Nat
  b    : Nat
  q    : Nat
  inCh : Nat
  out  : Nat
  step : Nat

def nwtL1 : NwtLayer := { w := 0, b := 144, q := 176, inCh := 2, out := 8, step := 2 }
def nwtL2 : NwtLayer := { w := 192, b := 1344, q := 1408, inCh := 8, out := 16, step := 2 }
def nwtL3 : NwtLayer := { w := 1424, b := 6032, q := 6160, inCh := 16, out := 32, step := 2 }
def nwtL4 : NwtLayer := { w := 6176, b := 15392, q := 15520, inCh := 32, out := 32, step := 1 }
def nwtPresW : Nat := 15536
def nwtPresB : Nat := 15568
def nwtGestW : Nat := 15584
def nwtGestB : Nat := 15872
def nwtThresh : Nat := 15920

def pU (p : Array Byte) (a n : Nat) : Nat :=
  (List.range n).foldl (fun (v : Nat) i => v + (p.getD (a + i) 0).toNat * 256 ^ i) 0
def pI8 (p : Array Byte) (a : Nat) : Int := sext 8 (pU p a 1)
def pI32 (p : Array Byte) (a : Nat) : Int := sext 32 (pU p a 4)

/-- An image of W × H pixels of C channels, in [y][x][channel] order. -/
structure NwtImage where
  w    : Nat
  h    : Nat
  ch   : Nat
  data : Array Nat

def NwtImage.at (m : NwtImage) (y x : Int) (c : Nat) : Nat :=
  if 0 ≤ y ∧ y < m.h ∧ 0 ≤ x ∧ x < m.w then m.data.getD ((y.toNat * m.w + x.toNat) * m.ch + c) 0 else 0

def clampU8 (z : Int) : Nat := if z < 0 then 0 else min 255 z.toNat

def NwtLayer.sum (l : NwtLayer) (p : Array Byte) (m : NwtImage) (y x o : Nat) : Int :=
  (List.range (9 * l.inCh)).foldl (fun (z : Int) k =>
    let c := k % l.inCh
    let kx := k / l.inCh % 3
    let ky := k / l.inCh / 3
    z + (m.at ((y * l.step + ky : Nat) - 1) ((x * l.step + kx : Nat) - 1) c : Int) * pI8 p (l.w + o * 9 * l.inCh + k)) 0

def NwtLayer.run (l : NwtLayer) (p : Array Byte) (m : NwtImage) : NwtImage :=
  let w := m.w / l.step
  let h := m.h / l.step
  let q := pU p l.q 4
  let mul := bitsOf q 15 0
  let sh := bitsOf q 20 16
  let cell (i : Nat) : Nat :=
    let o := i % l.out
    let z := l.sum p m (i / l.out / w) (i / l.out % w) o + pI32 p (l.b + 4 * o)
    clampU8 (rneDiv (z * mul) ((2 ^ sh : Nat) : Int))
  { w := w, h := h, ch := l.out, data := ((List.range (w * h * l.out)).map cell).toArray }

/-- The 32 pooled values. -/
def nwtPool (m : NwtImage) : Array Nat :=
  ((List.range 32).map fun c =>
    (rneDiv ((List.range 300).foldl (fun (n : Nat) i => n + m.data.getD (i * 32 + c) 0) 0 : Nat) 300).toNat).toArray

def nwtHead (p : Array Byte) (v : Array Nat) (w b o : Nat) : Int :=
  (List.range 32).foldl (fun (z : Int) k => z + (v.getD k 0 : Int) * pI8 p (w + 32 * o + k)) (pI32 p (b + 4 * o))

/-- Presence logit and the nine gesture logits of an input. -/
def nwtNetwork (p : Array Byte) (m : NwtImage) : Int × List Int :=
  let v := nwtPool (nwtL4.run p (nwtL3.run p (nwtL2.run p (nwtL1.run p m))))
  (nwtHead p v nwtPresW nwtPresB 0, (List.range 9).map fun o => nwtHead p v nwtGestW nwtGestB o)

/-- BG after a frame, and the input that R413 forms with it. -/
def Nwt.background (n : Nwt) (luma : Array Byte) : Tab Nat × NwtImage :=
  let old := (List.range 19200).foldl (fun (a : Array Nat) _ => a.push 0) #[]
  let old := n.bg.foldl (fun (a : Array Nat) e => a.setIfInBounds e.1 e.2) old
  let px (i : Nat) : Nat := (luma.getD i 0).toNat
  let before (i : Nat) : Nat := if n.fresh then 256 * px i else old.getD i 0
  let after (i : Nat) : Nat := if n.fresh then 256 * px i else ((before i : Int) + ((256 * px i : Nat) - (before i : Int)) / 8).toNat
  let bg : Tab Nat := ((List.range 19200).map fun i => (i, after i)).filter fun c => decide (c.2 ≠ 0)
  let data := ((List.range 38400).map fun j =>
    let i := j / 2
    if j % 2 = 0 then px i else ((px i : Int) - rneDiv (before i) 256).natAbs).toArray
  (bg, { w := 160, h := 120, ch := 2, data := data })

/-! ### Outputs (R417, R418) -/

/-- Index and value of the greatest logit, the lowest index first. -/
def argmaxInt : List Int → Nat → Nat × Int → Nat × Int
  | [], _, b => b
  | z :: t, i, b => argmaxInt t (i + 1) (if b.2 < z then (i, z) else b)

def Nwt.gesture (n : Nwt) (p : Array Byte) (gs : List Int) : Nwt :=
  match gs with
  | [] => n
  | z :: t =>
    let c := argmaxInt t 1 (0, z)
    let others := gs.eraseIdx c.1
    let best := match others with | o :: r => (argmaxInt r 1 (0, o)).2 | [] => 0
    let hold := match n.lastRept with
      | some (cls, k) => decide (cls ≠ c.1) || decide (pU p (nwtThresh + 12) 2 ≤ n.taken - 1 - k)
      | none => true
    if c.1 < 8 ∧ pI32 p (nwtThresh + 8) ≤ c.2 - best ∧ hold = true then
      { n with pend := n.pend ||| (1#8 <<< c.1), lastRept := some (c.1, n.taken - 1),
               last := w32 (0x80000000 + c.1 * 2 ^ 24 + (n.taken - 1) % 2 ^ 24) }
    else n

/-- A frame's outputs land. -/
def Nwt.result (n : Nwt) (luma : List Byte) : Nwt :=
  let p := n.param.toArray
  let b := n.background luma.toArray
  let n := { n with bg := b.1, fresh := false, work := none }
  if n.warmup ≠ 0 then { n with warmup := n.warmup - 1 }
  else
    let o := nwtNetwork p b.2
    let n := { n with logit := BitVec.ofInt 32 o.1,
                      present := if pI32 p nwtThresh ≤ o.1 then true else if o.1 < pI32 p (nwtThresh + 4) then false else n.present }
    n.gesture p o.2

/-- Bytes of the store's weight area: PARAM. -/
def nwtWeightBytes : Nat := 15936

/-- Uncorrectable words of the Nightwatch store, by offset: one in the weight area halts it, with whatever frame it was receiving; one
elsewhere discards the frame whose network runs, and is a restart (R423). -/
def Nwt.storeError (n : Nwt) (offs : List Nat) : Nwt :=
  if offs.any fun off => decide (off < nwtWeightBytes) then
    { n with pkg := 3, work := none, sbOpen := false, sbSkip := false, sbBytes := [], inRows := [], inOpen := false }
  else Nwt.restart { n with work := none }

/-! ### Enable (R424, R425) -/

/-- A write of NWT_CTRL. -/
def Die.nwtCtrlWrite (d : Die) (v : W32) : Die :=
  let n := d.nwt
  let n := if n.enable then n else { n with stream := BitVec.ofNat 4 (wbits v 19 16) }
  let en := v.getLsbD 31 && (n.enable || decide (n.stream.toNat < d.variant.streams))
  let n' := { n with enable := en, wakeGest := BitVec.ofNat 8 (wbits v 15 8), wakePres := v.getLsbD 0 }
  let n' := if en && !n.enable && n'.pkg == 1 then n'.restart else n'
  let n' := if en && n.enable then n' else { n' with work := none, sbOpen := false, sbSkip := false, sbBytes := [], inRows := [], inOpen := false }
  Die.nwtSync { d with nwt := n' }

/-! ### The commands -/

/-- A watch frame is discarded and counted (R410, R412); what else comes of it before its WATCH_EOF, `more`, is passed over. -/
def Die.watchBad (d : Die) (more : Bool) : Die :=
  { d with nwt := { d.nwt with sbErr := satInc32 d.nwt.sbErr 1, sbOpen := false, sbSkip := more, sbBytes := [] } }

/-- A watch message, while Nightwatch runs: taken from the sideband; else its frame is discarded, which counts once, and what
remains of it is passed over up to its WATCH_EOF (R410, R412). -/
def Die.watchMsg (d : Die) (sof eof : Bool) (f : Die → Die) : Die :=
  let d := d.nwtSync
  if !d.nwt.runs then d
  else if d.nwt.sideband then f d
  else if sof || !d.nwt.sbSkip then d.watchBad !eof
  else if eof then { d with nwt := { d.nwt with sbSkip := false } } else d

/-- WATCH_SOF (R412): a frame still open is discarded. -/
def execWatchSof (_number : W32) (s : State) : Host.Outcome State Fault Refusal :=
  s.act fun d => d.watchMsg true false fun d =>
    let d := if d.nwt.sbOpen then d.watchBad true else d
    { d with nwt := { d.nwt with sbOpen := true, sbSkip := false, sbBytes := [], sofAt := d.time.aon.toNat } }

/-- WATCH_DATA (R412): the next 8 luma bytes, in ascending order. -/
def execWatchData (info : BitVec 16) (data : W64) (s : State) : Host.Outcome State Fault Refusal :=
  s.act fun d => d.watchMsg false false fun d =>
    let n := d.nwt
    if n.sbOpen then
      if n.sbBytes.length < 19200 ∧ 8 * info.toNat = n.sbBytes.length then
        { d with nwt := { n with sbBytes := n.sbBytes ++ leBytes 8 data.toNat } }
      else d.watchBad true
    else if n.sbSkip then d else d.watchBad true

/-- WATCH_EOF (R412): a whole frame is taken. -/
def execWatchEof (s : State) : Host.Outcome State Fault Refusal :=
  s.act fun d => d.watchMsg false true fun d =>
    let n := d.nwt
    if n.sbOpen then
      if n.sbBytes.length = 19200 then
        Die.nwtTake { d with nwt := { n with sbOpen := false, sbBytes := [] } } n.sofAt n.sbBytes
      else d.watchBad false
    else if n.sbSkip then { d with nwt := { n with sbSkip := false } } else d.watchBad false

/-- NWT_ENABLE (R425): a write of NWT_CTRL that sets ENABLE. -/
def execNwtEnable (fn : Fin 64) (val : W32) (s : State) : Host.Outcome State Fault Refusal :=
  s.act fun d => if val.getLsbD 31 then d.pfWr fn.val (offNwt 0) val fun d => d.nwtCtrlWrite val else d

/-- NWT_FRAME_RESULT (R415): the outputs of the frame taken land. -/
def execNwtFrameResult (ecc : Ecc) (s : State) : Host.Outcome State Fault Refusal :=
  s.act fun d =>
    if d.nwt.runs then
      match d.nwt.work with
      | none => d
      | some luma =>
        let found : Ecc := ecc.map fun w => { w with store := 6 }
        let d' := d.ecc found none { code := 3 }
        let bad := found.filter fun w => w.uncorr
        if bad.isEmpty then { d' with nwt := d'.nwt.result luma }
        else { d' with nwt := d'.nwt.storeError (bad.map fun w => w.off) }
    else d

end Sys2Proof.Machine
end

