-- ==== Sys2Proof/Machine/Ingress.lean ====
section
/-! DEFINITION. Camera ingress: frames, stripes, drops, the ring (R268 to R279), the die time (R281), stream configuration
(R283, R284). -/

namespace Sys2Proof.Machine

/-! ### Stream registers (R270 to R273, R291) -/

def Stream.enabled (x : Stream) : Bool := x.ctrl.getLsbD 0
def Stream.uint16 (x : Stream) : Bool := decide (wbits x.ctrl 9 8 = 1)
def Stream.fmt (x : Stream) : Nat := wbits x.ctrl 6 4
def Stream.height (x : Stream) : Nat := wbits x.geom 29 16
def Stream.width (x : Stream) : Nat := wbits x.geom 13 0
def Stream.slots (x : Stream) : Nat := wbits x.ring 23 16
def Stream.halo (x : Stream) : Nat := wbits x.ring 13 8
def Stream.stripe (x : Stream) : Nat := wbits x.ring 6 0
def Stream.addr (x : Stream) : Nat := wbits x.base 22 0
def Stream.pitchB (x : Stream) : Nat := wbits x.pitch 15 0
def Stream.slotOf (x : Stream) : Nat := wbits x.bind 21 16
def Stream.freeTally (x : Stream) : Nat := wbits x.bind 15 8
def Stream.readyTally (x : Stream) : Nat := wbits x.bind 7 0

/-- Stripes of a frame (R273). -/
def Stream.stripes (x : Stream) : Nat := ceilDiv x.height x.stripe
def Stream.haloStripes (x : Stream) : Nat := ceilDiv x.halo x.stripe

def wireBytes (fmt w : Nat) : Nat :=
  if fmt = 0 then w else if fmt = 1 then 5 * w / 4 else if fmt = 2 then 3 * w / 2 else if fmt = 3 then 2 * w else 3 * w

def pixelBytes (fmt : Nat) : Nat := if fmt = 3 then 2 else if fmt = 4 then 3 else 1

def Stream.rowStored (x : Stream) : Nat := if x.uint16 then 2 * x.width else x.width * pixelBytes x.fmt
def Stream.region (x : Stream) : Nat := 1024 * x.slots + x.slots * x.stripe * x.pitchB
def Stream.headerAddr (x : Stream) (k : Nat) : Nat := x.addr + 1024 * k
def Stream.rowAddr (x : Stream) (k r : Nat) : Nat := x.addr + 1024 * x.slots + (k * x.stripe + r) * x.pitchB

def Die.streamPresent (d : Die) (m : Nat) : Bool := decide (m < d.variant.streams)

/-- Bound to a confidential context, enabled or not: its counters do not count, and STATUS gives CFG_ERR alone (R291). -/
def Die.streamConf (d : Die) (m : Nat) : Bool := d.isConf (d.stream m).slotOf

def Die.unclaimed (d : Die) : Die := { d with ing := { d.ing with unclaimed := satInc32 d.ing.unclaimed 1 } }

/-! ### Pixels (R270, R271, R411) -/

/-- Samples of one row's wire bytes: RAW samples, or components in wire order. -/
def unpackRow (fmt : Nat) (b : List Byte) : List Nat :=
  if fmt = 1 then
    (List.range (b.length / 5 * 4)).map fun i =>
      let a := i / 4 * 5
      (nth 0 b (a + i % 4)).toNat * 4 + bitsOf (nth 0 b (a + 4)).toNat (2 * (i % 4) + 1) (2 * (i % 4))
  else if fmt = 2 then
    (List.range (b.length / 3 * 2)).map fun i =>
      let a := i / 2 * 3
      (nth 0 b (a + i % 2)).toNat * 16 + bitsOf (nth 0 b (a + 2)).toNat (4 * (i % 2) + 3) (4 * (i % 2))
  else b.map BitVec.toNat

/-- One converted sample and whether it saturated (R271). -/
def Stream.convert (x : Stream) (p : Nat) : Int × Bool :=
  let z := rneDiv ((p : Int) - (wbits x.conv 15 0 : Nat)) ((2 ^ wbits x.conv 19 16 : Nat) : Int)
  if z < -128 then (-128, true) else if 127 < z then (127, true) else (z, false)

/-- Stored bytes of a row, padded to PITCH, and its saturations. -/
def Stream.storeRow (x : Stream) (wire : List Byte) : List Byte × Nat :=
  let ps := unpackRow x.fmt wire
  let r : List Byte × Nat :=
    if x.uint16 then ((ps.map fun p => leBytes 2 p).flatten, 0)
    else
      let cs := ps.map x.convert
      (cs.map fun c => BitVec.ofInt 8 c.1, (cs.filter fun c => c.2).length)
  ((r.1 ++ List.replicate x.pitchB 0).take x.pitchB, r.2)

/-- Luma of a row's pixels (R411). -/
def lumaRow (fmt w : Nat) (wire : List Byte) : List Nat :=
  let ps := unpackRow fmt wire
  if fmt = 3 then (List.range w).map fun i => nth 0 ps (2 * i + 1)
  else if fmt = 4 then (List.range w).map fun i =>
    (77 * nth 0 ps (3 * i) + 150 * nth 0 ps (3 * i + 1) + 29 * nth 0 ps (3 * i + 2) + 128) / 256
  else ps.map fun p => if fmt = 1 then p / 4 else if fmt = 2 then p / 16 else p

/-! ### The ring (R274, R277) -/

def Stream.freedOf (x : Stream) (f : Nat) : Nat := Tab.read 0 x.freed f

/-- Slot k is free for stripe j of frame f (R274). DESIGN CHOICE (log entry 119): a slot that holds part of this very stripe is. -/
def Stream.slotFree (x : Stream) (k f j : Nat) : Bool :=
  match Tab.read none x.occ k with
  | none => true
  | some o =>
    let n := x.freedOf o.frameNo
    decide ((o.frameNo = f ∧ o.stripe = j) ∨ (o.stripe < n ∧ (x.stripes ≤ o.stripe + x.haloStripes ∨ o.stripe + x.haloStripes < n)) ∨
      x.stripes ≤ n)

def Stream.occupy (x : Stream) (k f j : Nat) : Stream :=
  { x with occ := Tab.write none x.occ k (some { frameNo := f, stripe := j }) }

/-! ### Handing over (R275, R276) -/

/-- What a stripe header says of its frame. -/
structure StripeInfo where
  frame    : W32
  frameNo  : Nat
  stripe   : Nat
  void     : Bool
  timeStep : Bool
  sofTime  : W64
  sensorTs : W64
  times    : List W64

def Stream.header (x : Stream) (h : StripeInfo) : List Byte :=
  let rows := min x.stripe (x.height - h.stripe * x.stripe)
  let drop := !h.void && x.dropCnt != 0
  let flags := b2n h.void + 2 * b2n drop + 4 * b2n (decide (h.stripe + 1 = x.stripes)) + 8 * b2n h.timeStep +
    16 * b2n (!h.void && x.first)
  let b := leBytes 4 h.frame.toNat ++ leBytes 2 h.stripe ++ leBytes 1 rows ++ leBytes 1 flags ++
    leBytes 2 (if drop then x.dropCnt.toNat else 0) ++ leBytes 2 0 ++ leBytes 4 (x.seq.toNat + 1) ++
    leBytes 8 h.sofTime.toNat ++ leBytes 8 h.sensorTs.toNat ++ List.replicate 32 0 ++ (h.times.map fun t => leBytes 8 t.toNat).flatten
  (b ++ List.replicate 1024 0).take 1024

/-- The header is written, READY increments, the stripe is held until it is freed. -/
def Die.handOver (d : Die) (m : Nat) (h : StripeInfo) : Die :=
  let x := d.stream m
  let k := h.stripe % x.slots
  let d := { d with st := { d.st with lb := Mem.write d.st.lb (x.headerAddr k) (x.header h) } }
  let d := d.updStream m fun x =>
    { x.occupy k h.frameNo h.stripe with
      seq := x.seq + 1, held := x.held ++ [(h.frameNo, h.stripe, decide (h.stripe + 1 = x.stripes))] }
  d.logTallyAdd x.slotOf x.readyTally 1

/-! ### Drops (R278, R279) -/

def dropOverflow : Nat := 1
def dropInput : Nat := 2
def dropFormat : Nat := 3
def dropSleep : Nat := 4

/-- The open frame is dropped; `more` when packets of it may still follow. -/
def Die.dropFrame (d : Die) (m cause : Nat) (more : Bool) : Die :=
  let x := d.stream m
  let j := x.handed
  let d := if cause = dropOverflow ∨ cause = dropInput then d.record (53 + m) 0x0C none x.frame.toNat j cause 0 else d
  let v : VoidFrame := { frame := x.frame, frameNo := x.frameNo, sensorTs := x.sensorTs, sofTime := x.sofTime, from_ := j, timeStep := x.timeStep }
  let conf := d.streamConf m
  let d := d.updStream m fun x =>
    { x with lastCause := BitVec.ofNat 4 cause, drops := if conf then x.drops else satInc32 x.drops 1,
             open_ := false, dropped := more, rowBytes := [], rowPos := 0, rowBegun := false, lineTimes := [], timeStep := false,
             voidQ := if cause = dropSleep ∨ x.stripes ≤ j then x.voidQ else x.voidQ ++ [v],
             dropCnt := BitVec.ofNat 16 (satAdd 0xFFFF x.dropCnt.toNat 1) }
  if m = d.nwt.stream.toNat then d.nwtDropped else d

/-! ### Packets (R278) -/

/-- A frame opens. -/
def Die.openFrame (d : Die) (m : Nat) (frame : W32) (sensorTs : W64) : Die :=
  let d := d.updStream m fun x =>
    { x with open_ := true, dropped := false, frame := frame, frameNo := x.frameNo + 1, sensorTs := sensorTs,
             sofTime := d.time.reading, row := 0, rowPos := 0, rowBegun := false, rowBytes := [], lineTimes := [], timeStep := false,
             handed := 0 }
  if m = d.nwt.stream.toNat then d.nwtSof else d

/-- SOF: it drops a frame still open, opens its own, and drops it at once where a check fails. DESIGN CHOICE (log entry 120):
a full FIFO is tested before the format. -/
def Die.sof (d : Die) (m : Nat) (frame : W32) (sensorTs : W64) (w h fmt : Nat) (fifoFull : Bool) : Die :=
  if !d.streamPresent m then d.unclaimed
  else if !(d.stream m).enabled then d
  else
    let d := if (d.stream m).open_ then d.dropFrame m dropFormat false else d
    let d := d.openFrame m frame sensorTs
    let x := d.stream m
    if fifoFull then d.dropFrame m dropInput true
    else if w ≠ x.width ∨ h ≠ x.height ∨ fmt ≠ x.fmt then d.dropFrame m dropFormat true
    else if !x.voidQ.isEmpty then d.dropFrame m dropOverflow true
    else d

/-- A whole row has arrived. -/
def Die.rowDone (d : Die) (m : Nat) : Die :=
  let x := d.stream m
  let j := x.row / x.stripe
  let r := x.row % x.stripe
  let s := x.storeRow x.rowBytes
  let conf := d.streamConf m
  let d := { d with st := { d.st with lb := Mem.write d.st.lb (x.rowAddr (j % x.slots) r) s.1 } }
  let d := if m = d.nwt.stream.toNat then d.nwtRow (lumaRow x.fmt x.width x.rowBytes) else d
  let d := d.updStream m fun x =>
    { x with sat := if conf then x.sat else satInc32 x.sat s.2, row := x.row + 1, rowPos := 0, rowBegun := false, rowBytes := [] }
  if r + 1 = x.stripe ∨ x.row + 1 = x.height then
    let d := d.handOver m
      { frame := x.frame, frameNo := x.frameNo, stripe := j, void := false, timeStep := x.timeStep, sofTime := x.sofTime,
        sensorTs := x.sensorTs, times := (List.range 64).map fun i => Tab.read 0 x.lineTimes i }
    d.updStream m fun x => { x with handed := j + 1, lineTimes := [], timeStep := false }
  else d

/-- A LINE packet of an open frame. -/
def Die.lineIn (d : Die) (m row off : Nat) (pay : List Byte) : Die :=
  let x := d.stream m
  let wire := wireBytes x.fmt x.width
  let j := x.row / x.stripe
  let starts := !x.rowBegun
  if row ≠ x.row ∨ x.height ≤ row ∨ off ≠ x.rowPos ∨ wire < off + pay.length then d.dropFrame m dropFormat true
  else if starts && decide (x.row % x.stripe = 0) && !x.slotFree (j % x.slots) x.frameNo j then d.dropFrame m dropOverflow true
  else
    let d := d.updStream m fun x =>
      let x := if x.row % x.stripe = 0 then x.occupy (j % x.slots) x.frameNo j else x
      { x with lineTimes := if starts then Tab.write 0 x.lineTimes (x.row % x.stripe) d.time.reading else x.lineTimes,
               rowBegun := true, rowPos := off + pay.length, rowBytes := x.rowBytes ++ pay }
    if off + pay.length = wire then d.rowDone m else d

/-- A packet that needs an open frame: between a drop and the next SOF it is discarded, without one it is unclaimed. -/
def Die.framePacket (d : Die) (m : Nat) (f : Die → Die) : Die :=
  let x := d.stream m
  if !d.streamPresent m || !x.enabled then d.unclaimed
  else if x.open_ then f d
  else if x.dropped then d else d.unclaimed

/-- EOF of an open frame: admitted when every row has come. -/
def Die.eofIn (d : Die) (m : Nat) : Die :=
  let x := d.stream m
  if x.row < x.height then d.dropFrame m dropFormat false
  else
    let conf := d.streamConf m
    let d := d.updStream m fun x =>
      { x with open_ := false, frames := if conf then x.frames else satInc32 x.frames 1, dropCnt := 0, first := false }
    let d := { d with ing := { d.ing with pixels := d.ing.pixels + BitVec.ofNat 64 (x.width * x.height) } }
    if m = d.nwt.stream.toNat then d.nwtIngress x.fmt x.width x.height else d

/-- The oldest VOID stripe, once its slot is free. -/
def Die.voidStripe (d : Die) (m : Nat) : Die :=
  let x := d.stream m
  match x.voidQ with
  | [] => d
  | v :: rest =>
    if x.enabled && x.slotFree (v.from_ % x.slots) v.frameNo v.from_ then
      let d := d.handOver m
        { frame := v.frame, frameNo := v.frameNo, stripe := v.from_, void := true, timeStep := v.timeStep, sofTime := v.sofTime,
          sensorTs := v.sensorTs, times := List.replicate 64 0 }
      d.updStream m fun x =>
        { x with voidQ := if v.from_ + 1 < x.stripes then { v with from_ := v.from_ + 1, timeStep := false } :: rest else rest }
    else d

/-- Ingress takes one unit from FREE for the oldest stripe held, behind the releases of R253. DESIGN CHOICE (log entry 139): a unit that
meets no stripe held stays in the tally, and frees the next one handed over, after a disable and a new enable too. -/
def Die.freeStripe (d : Die) (m : Nat) : Die :=
  let x := d.stream m
  match x.held, d.physTally x.slotOf x.freeTally with
  | (f, _, _) :: rest, some p =>
    if x.enabled && decide (0 < (d.tally p).value.toNat) && !d.bundleTakes p && !d.threadTakes p then
      (d.updTally p fun t => { t with value := t.value - 1 }).updStream m fun x =>
        { x with held := rest, freed := Tab.write 0 x.freed f (x.freedOf f + 1) }
    else d
  | _, _ => d

/-! ### Configuration (R283, R284) -/

/-- The region lies beside that of every other enabled stream. -/
def Die.regionMeets (d : Die) (m : Nat) (x : Stream) : Bool :=
  (List.range 16).any fun i =>
    let y := d.stream i
    decide (i ≠ m) && y.enabled && decide (x.addr < y.addr + y.region ∧ y.addr < x.addr + x.region)

def fmtWidthBad (fmt w : Nat) : Bool :=
  (decide (fmt = 1) && decide (w % 4 ≠ 0)) || (decide (fmt = 2 ∨ fmt = 3) && decide (w % 2 ≠ 0))

/-- The code of R283 of an enable. -/
def Die.streamCheck (d : Die) (m : Nat) (x : Stream) : Nat :=
  let n := ((d.slot x.slotOf).seg.map fun g => g.tallies).getD 0
  let out := wbits x.ctrl 9 8
  if x.width = 0 ∨ 8192 < x.width ∨ x.height = 0 ∨ 8192 < x.height ∨ fmtWidthBad x.fmt x.width = true ∨ x.stripe = 0 ∨ 64 < x.stripe ∨
      x.pitchB % 512 ≠ 0 ∨ x.pitchB < x.rowStored then 1
  else if x.slots < x.haloStripes + 2 ∨ x.addr % 8192 ≠ 0 ∨ 0x800000 < x.addr + x.region then 2
  else if d.regionMeets m x then 3
  else if (d.slot x.slotOf).seg = none ∨ n ≤ x.readyTally ∨ n ≤ x.freeTally ∨ x.readyTally = x.freeTally then 4
  else if 4 < x.fmt ∨ 1 < out ∨ (out = 1 ∧ x.fmt ≠ 1 ∧ x.fmt ≠ 2) then 5
  else 0

/-- A newly enabled stream (R284). -/
def Stream.fresh (x : Stream) : Stream :=
  { x with ctrl := x.ctrl ||| 1, cfgErr := 0, lastCause := 0, open_ := false, dropped := false, row := 0, rowPos := 0, rowBegun := false,
           rowBytes := [], lineTimes := [], timeStep := false, handed := 0, voidQ := [], occ := [], held := [], freed := [],
           seq := 0, dropCnt := 0, first := true }

/-- Clearing ENABLE: the open frame is discarded without a count. -/
def Stream.stop (x : Stream) : Stream :=
  { x with ctrl := x.ctrl &&& 0xFFFFFFFE, open_ := false, dropped := false, voidQ := [], rowBytes := [], rowPos := 0, rowBegun := false }

/-- A write of ING_STRm_CTRL. -/
def Die.streamCtrlWrite (d : Die) (m : Nat) (v : W32) : Die :=
  if !d.streamPresent m then d
  else if (d.stream m).enabled then
    if v.getLsbD 0 then d else (d.updStream m Stream.stop).nwtSync
  else
    let d := d.updStream m fun x => { x with ctrl := v &&& 0x370 }
    if v.getLsbD 0 then
      let c := d.streamCheck m (d.stream m)
      if c = 0 then (d.updStream m Stream.fresh).nwtSync
      else d.updStream m fun x => { x with cfgErr := BitVec.ofNat 4 c }
    else d

/-! ### The die time (R281) -/

/-- The die time is stepped by `off` ns: streams, PTP loops and the calendar see it. DESIGN CHOICE (log entry 138): in a stream with an
open frame the stripe that its next row belongs to is the open one, also before that row has begun; a VOID stripe that waits is none. -/
def Die.timeStep (d : Die) (off : Int) : Die :=
  let d := { d with
    time := { d.time with tq := d.time.tq + off * tqPerNs, slew := 0, slewLeft := 0, valid := true, everSet := true },
    ing := { d.ing with steps := satInc32 d.ing.steps 1,
                        streams := Tab.mapVal {} (fun x : Stream => if x.open_ then { x with timeStep := true } else x) d.ing.streams } }
  let d := forUpto 8 (fun n d => d.loopStepped n (decide (off < 0))) d
  { d with ctx := { d.ctx with cal := d.ctx.cal.stepped (d.baseNow true) } }

def satI32 (z : Int) : W32 := BitVec.ofInt 32 (max (-2147483648) (min 2147483647 z))

/-- A TIMESYNC packet. -/
def Die.timeSync (d : Die) (timeNs : W64) : Die :=
  let off : Int := (timeNs.toNat : Int) + (d.ing.latency.toNat : Nat) - d.time.ns
  let d :=
    if d.time.valid = false ∨ 1000 < off.natAbs then d.timeStep off
    else { d with time := { d.time with slew := off, slewLeft := 1048576 } }
  { d with ing := { d.ing with offset := satI32 off } }

/-! ### The commands -/

/-- A packet reaches ingress, and ingress acts, only while its clocks run (R286). -/
def Die.packet (d : Die) (f : Die → Die) : Die := if d.ingRuns then f d else d

/-- RESERVED_CLASS_MESSAGE (R268). -/
def execReservedClassMessage (cls : BitVec 4) (s : State) : Host.Outcome State Fault Refusal :=
  s.act fun d => if d.ingRuns && decide (cls = 0 ∨ 5 ≤ cls.toNat) then d.unclaimed else d

/-- SOF (R278). -/
def execSof (m : Fin 16) (frame : W32) (sensorTs : W64) (width height : BitVec 16) (fmt : Byte) (fifoFull : Bool) (s : State) :
    Host.Outcome State Fault Refusal :=
  s.act fun d => d.packet fun d => d.sof m.val frame sensorTs width.toNat height.toNat fmt.toNat fifoFull

/-- LINE (R278). -/
def execLine (m : Fin 16) (row offset : Nat) (payload : List Byte) (fifoFull : Bool) (s : State) :
    Host.Outcome State Fault Refusal :=
  s.act fun d => d.packet fun d => d.framePacket m.val fun d =>
    if fifoFull then d.dropFrame m.val dropInput true else d.lineIn m.val row offset payload

/-- EOF (R278). -/
def execEof (m : Fin 16) (fifoFull : Bool) (s : State) : Host.Outcome State Fault Refusal :=
  s.act fun d => d.packet fun d =>
    let d' := d.framePacket m.val fun d => if fifoFull then d.dropFrame m.val dropInput false else d.eofIn m.val
    d'.updStream m.val fun x => { x with dropped := false }

/-- TIMESYNC (R281). -/
def execTimesync (timeNs : W64) (s : State) : Host.Outcome State Fault Refusal := s.act fun d => d.packet fun d => d.timeSync timeNs

/-- SLEW_END (R281): the 2^20 reference cycles of a slew are over. -/
def execSlewEnd (s : State) : Host.Outcome State Fault Refusal :=
  s.act fun d => if d.time.slewLeft = 0 then { d with time := { d.time with slew := 0 } } else d

/-- VOID_STRIPE_HANDOVER (R279). -/
def execVoidStripeHandover (m : Fin 16) (s : State) : Host.Outcome State Fault Refusal := s.act fun d => d.packet fun d => d.voidStripe m.val

/-- STRIPE_FREE (R277). -/
def execStripeFree (m : Fin 16) (s : State) : Host.Outcome State Fault Refusal := s.act fun d => d.packet fun d => d.freeStripe m.val

/-- ING_STREAM_ENABLE (R283): a write of ING_STRm_CTRL that sets ENABLE. -/
def execIngStreamEnable (fn : Fin 64) (m : Fin 16) (val : W32) (s : State) : Host.Outcome State Fault Refusal :=
  s.act fun d => if val.getLsbD 0 then d.pfWr fn.val (offStream m.val 0) val fun d => d.streamCtrlWrite m.val val else d

/-- ING_STREAM_DISABLE (R284): a write that clears ENABLE. -/
def execIngStreamDisable (fn : Fin 64) (m : Fin 16) (val : W32) (s : State) : Host.Outcome State Fault Refusal :=
  s.act fun d => if val.getLsbD 0 then d else d.pfWr fn.val (offStream m.val 0) val fun d => d.streamCtrlWrite m.val val

end Sys2Proof.Machine
end

