-- ==== Sys2Proof/Machine/Power.lean ====
section
/-! DEFINITION. Performance levels and the thermal floor (R543 to R548), host votes (R551), entry into sleep and the wake
sources (R552 to R560). The end of an exit is in Reset.lean, because held resets and messages follow it. -/

namespace Sys2Proof.Machine

/-! ### Performance levels (R543, R544, R546, R576, R620) -/

/-- The level that should be in force: P4 until full service has been reached, then REQ, or the thermal floor if slower. -/
def Die.levelWanted (d : Die) : Nat := max (if d.boot.full then min 5 d.pwr.req.toNat else 4) d.pwr.floor.toNat

/-- The die drives VID0 to VID2 (R543, R620). -/
def Die.vid (d : Die) (l : Nat) : Die :=
  Die.send { d with pwr := { d.pwr with vid := some (BitVec.ofNat 3 l) } } (.vid (BitVec.ofNat 3 l))

/-- The level in force changes at once: before full service, and on the way out of sleep. -/
def Die.levelSet (d : Die) (l : Nat) : Die :=
  if d.pwr.cur.toNat = l then d else Die.vid { d with pwr := { d.pwr with cur := BitVec.ofNat 3 l } } l

/-- Start the transition that is wanted, unless one runs or the die sleeps. A faster level's VID goes out first. -/
def Die.levelCheck (d : Die) : Die :=
  let l := d.levelWanted
  if !d.awake || d.pwr.changing.isSome || d.pwr.tripped || !d.boot.resetN || decide (d.pwr.cur.toNat = l) then d
  else if !d.boot.full then d.levelSet l
  else
    let d' : Die := { d with pwr := { d.pwr with changing := some (BitVec.ofNat 3 l), chgTicks := 0 } }
    if l < d.pwr.cur.toNat then d'.vid l else d'

/-- A transition ends with its pause (R544): a slower level's VID goes out last. -/
def Die.levelDone (d : Die) : Die :=
  match d.pwr.changing with
  | none => d
  | some l =>
    if d.pwr.chgTicks < d.pwr.pauseFrom l + pauseCycles then d
    else
      let slower := decide (d.pwr.cur.toNat < l.toNat)
      let d := { d with pwr := { d.pwr with changing := none, cur := l } }
      (if slower then d.vid l.toNat else d).levelCheck

/-! ### Thermal behaviour (R547, R548) -/

/-- AONCLK cycles in 1 ms. -/
def aonMs : Nat := 38400

/-- T and the sensor that gives it: the highest reading, the lowest sensor on a tie. -/
def hottest : List Int → Nat → Int × Nat → Int × Nat
  | [], _, b => b
  | t :: r, i, b => hottest r (i + 1) (if b.1 < t then (t, i) else b)

/-- The floor moves by one level. -/
def Pwr.floorMove (p : Pwr) (slower : Bool) : Pwr :=
  { p with floor := if slower then p.floor + 1 else p.floor - 1, throttles := satInc32 p.throttles 1 }

/-- The floor at a reading T at the AONCLK cycle `now`. -/
def Pwr.thermal (p : Pwr) (t : Int) (now : Nat) : Pwr :=
  let p :=
    if 100 ≤ t then
      match p.hotSince with
      | none => { (if p.floor.toNat < 5 then p.floorMove true else p) with hotSince := some now }
      | some h =>
        if h + aonMs ≤ now then { (if p.floor.toNat < 5 then p.floorMove true else p) with hotSince := some (h + aonMs) } else p
    else { p with hotSince := none }
  if t < 95 then
    match p.coolSince with
    | none => { p with coolSince := some now }
    | some c =>
      if c + 10 * aonMs ≤ now then { (if 0 < p.floor.toNat then p.floorMove false else p) with coolSince := some (c + 10 * aonMs) }
      else p
  else { p with coolSince := none }

/-- The die drives VCORE_EN (R562, R620). -/
def Die.vcore (d : Die) (high : Bool) : Die :=
  if d.pwr.vcoreEn = some high then d else Die.send { d with pwr := { d.pwr with vcoreEn := some high } } (.vcoreEn high)

/-- What is under way in XFR ends with its power. -/
def Die.xfrOff (d : Die) : Die :=
  let off (t : Thread) : Thread := { t with state := .stopped, out := [], inStep := false, pass := none, failDue := none }
  { d with iss := { d.iss with fifo := [] },
           xfr := { d.xfr with threads := Tab.mapVal {} off d.xfr.threads },
           kvp := { d.kvp with queue := [] } }

/-- Every fabric port is down and keeps nothing. -/
def Die.fabOff (d : Die) : Die :=
  let off (x : FabPort) : FabPort :=
    { x with state := .disabled, replayBuf := [], inbuf := [], inbuf1 := [], credits := 0, credits1 := 0, ret0 := 0, ret1 := 0,
             wakeHeld := false, waking := false, woken := false, inReset := false }
  { d with fab := { d.fab with ports := Tab.mapVal {} off d.fab.ports } }

/-- An entry in progress ends where it is: the die stays in the state it was leaving, and says so. DESIGN CHOICE (log entry 134). -/
def Die.entryEnd (d : Die) : Die :=
  if d.pwr.entry.isSome then Die.send { d with pwr := { d.pwr with entry := none } } (.dieState d.pwr.state false false) else d

/-- THERMAL_TRIP (R548): bundle issue stops and every context ends, its vector with it; the stacks refresh themselves, the working
domains go off, every enabled loop sends SAFE. FLD and MGT stay powered: an entry to sleep ends. -/
def Die.thermalTrip (d : Die) (sensor : Nat) (t : Int) : Die :=
  let d := d.record 72 0x10 none sensor (wrapNat 32 t) 0 0
  let d := (d.abortAll 0x10).tellAborts.xfrOff.fabOff.entryEnd
  Die.nwtSync { d with
           iss := { d.iss with run := none },
           glb := { d.glb with service := 3 },
           hbm := { d.hbm with selfRef := true },
           ing := { d.ing with streams := Tab.mapVal {} Stream.stop d.ing.streams },
           fld := { d.fld with loops := Tab.mapVal {} (fun l : Loop => if l.enable then { l with abortedCtx := true } else l) d.fld.loops },
           pwr := { d.pwr with tripped := true, changing := none } }

/-- A reading of the sensors. -/
def Die.thermalSample (d : Die) (temps : List Int) : Die :=
  match temps with
  | [] => d
  | t :: r =>
    let h := hottest r 1 (t, 0)
    let d := { d with pwr := { d.pwr.thermal h.1 d.time.aon.toNat with temp := h.1, sensor := BitVec.ofNat 4 h.2 } }
    let d := if 110 ≤ h.1 ∧ d.pwr.tripped = false then d.thermalTrip h.2 h.1 else d
    d.levelCheck

/-! ### Entry (R552 to R555, R558) -/

def Die.dieState (d : Die) (s : Sleep) (entering module1 : Bool) : Die := d.send (.dieState s entering module1)

/-- Holdoff in AONCLK cycles. -/
def Pwr.holdoffCycles (p : Pwr) : Nat := max 0x40 p.holdoff.toNat

/-- The conditions of R552 have held through the holdoff. -/
def Die.entryDueNow (d : Die) : Bool :=
  d.entryReady && match d.pwr.okSince with | some t => decide (t + d.pwr.holdoffCycles ≤ d.time.aon.toNat) | none => false

def Die.entryStart (d : Die) : Die :=
  if d.entryDueNow then
    let t := Sleep.ofCode d.permitted
    Die.dieState { d with pwr := { d.pwr with entry := some (t, false), window := d.time.aon, seqStart := d.time.aon.toNat, seqDone := 0,
                                              truncated := false } }
      t true d.fabPowered
  else d

/-- A stream that is still enabled when Night or Midnight is entered (R287). -/
def Die.streamSleep (d : Die) (m : Nat) : Die :=
  if (d.stream m).enabled then
    let d := if (d.stream m).open_ then d.dropFrame m dropSleep false else d
    d.updStream m Stream.stop
  else d

def Die.windowClose (d : Die) : Die :=
  match d.pwr.entry with
  | some (t, false) =>
    if d.pwr.seqStart + 12 ≤ d.time.aon.toNat then
      let d := { d with pwr := { d.pwr with entry := some (t, true) } }
      if t.deep then (forUpto 16 (fun m d => d.streamSleep m) d).nwtSync else d
    else d
  | _ => d

/-- AONCLK cycles of an entry (R554). -/
def entryCycles : Sleep → Nat
  | .midnight => 192 | .night => 128 | _ => 16

/-- Bank b (0 to 127) of R560 is selected. -/
def Pwr.selects (p : Pwr) (b : Nat) : Bool := bit (Tab.read 0 p.retain (b / 32)).toNat (b % 32)

/-- Selected banks that are present, in ascending order. -/
def Die.selectedBanks (d : Die) : List Nat := (List.range (if d.hasTe1 then 128 else 64)).filter d.pwr.selects

def retainMax (t : Sleep) : Nat := if t = .midnight then 8 else 32

/-- Bank of a working-store byte. -/
def bankOfByte (store off : Nat) : Nat := 64 * store + off / 512 % 64

/-- Engines and AUX go off, and only the retained banks of the working stores keep their bytes: every other reads 0x00 after it
(R553, R560, R561). -/
def Die.enginesOff (d : Die) (t : Sleep) : Die :=
  let kept := d.selectedBanks.take (retainMax t)
  let keep (store : Nat) (m : Tab Byte) : Tab Byte := m.filter fun c => kept.contains (bankOfByte store c.1)
  let off (e : Engine) : Engine := { e with plane0 := e.plane0.unwritten, plane1 := e.plane1.unwritten, pend16 := [] }
  { d with st := { d.st with ws0 := keep 0 d.st.ws0, ws1 := keep 1 d.st.ws1 },
           te0 := off d.te0,
           te1 := off d.te1,
           fln := { d.fln with rows := [], next := 0, colrec := [] },
           pst := { d.pst with boxCur := [] },
           pwr := { d.pwr with truncated := decide (retainMax t < d.selectedBanks.length) } }

/-- ING, FAB and FLD go off and XFR keeps only what retention holds: line buffers, programs, tables, tallies and cursors are lost
(R553). -/
def Die.storesOff (d : Die) : Die :=
  { d with st := { ws0 := d.st.ws0, ws1 := d.st.ws1, hbm := d.st.hbm }, iss := { d.iss with tallies := [], cursors := [] } }

/-- The stacks are in self-refresh, or leave it (R232). -/
def Die.refreshSelf (d : Die) (on : Bool) : Die := { d with hbm := { d.hbm with selfRef := on } }

/-- What an entry to Night or Midnight does at a cycle (R554). -/
def Die.entryStep (d : Die) (t : Sleep) (n : Nat) : Die :=
  if n = 16 then d.enginesOff t
  else if n = 48 then d.refreshSelf true
  else if n = 112 then d.storesOff
  else if n = 160 then d.vcore false
  else d

/-- Its cycles. -/
def entrySteps : Sleep → List Nat
  | .midnight => [16, 48, 112, 160] | .night => [16, 48, 112] | _ => []

/-- Cycle at which the stacks leave self-refresh (R559). -/
def refreshBack : Sleep → Nat
  | .midnight => 42436 | _ => 3268

/-- In Midnight the reference may stop; it runs again within 800 µs of VCORE_EN, before the PLLs lock (R559, R624). -/
def refBack : Nat := 34560

/-- The level at which ACLK comes back: the one in force before the entry, or the floor if that is slower by now (R546). -/
def Die.levelBack (d : Die) : Die := d.levelSet (max d.pwr.cur.toNat d.pwr.floor.toNat)

/-- What an exit does at a cycle. -/
def Die.exitStep (d : Die) (n : Nat) : Die :=
  let d := if d.pwr.state.deep && decide (n = refreshBack d.pwr.state) then d.refreshSelf false else d
  let d := if d.pwr.state = .midnight ∧ n = refBack then { d with time := { d.time with refRunning := true } } else d
  if n = aclkBack d.pwr.state then d.levelBack else d

/-- Its cycles. -/
def exitSteps : Sleep → List Nat
  | .midnight => [34560, 42436, 45700] | .night => [3268, 6532] | _ => [20]

/-- The steps of the entry or exit in progress that have come due, in order. A trip ends an exit (R548). -/
def Die.seqRun (d : Die) : Die :=
  let n := d.seqAt
  let due (l : List Nat) : List Nat := l.filter fun c => decide (d.pwr.seqDone < c ∧ c ≤ n)
  let d' := match d.pwr.entry with
    | some (t, true) => (due (entrySteps t)).foldl (fun (d : Die) c => d.entryStep t c) d
    | some _ => d
    | none => if d.pwr.exiting && !d.pwr.tripped then (due (exitSteps d.pwr.state)).foldl Die.exitStep d else d
  if (match d.pwr.entry with | some (_, closed) => !closed | none => !d.pwr.exiting) then d'
  else { d' with pwr := { d'.pwr with seqDone := max d.pwr.seqDone n } }

def Pwr.countEntry (p : Pwr) (t : Sleep) : Pwr :=
  if t = .dusk then { p with entDusk := satInc32 p.entDusk 1 }
  else if t = .night then { p with entNight := satInc32 p.entNight 1 }
  else { p with entMidn := satInc32 p.entMidn 1 }

def Die.stateReached (d : Die) : Die :=
  match d.pwr.entry with
  | some (t, true) =>
    if d.pwr.seqStart + entryCycles t ≤ d.time.aon.toNat then
      let d := d.seqRun
      let d := { d with pwr := { d.pwr.countEntry t with state := t, entry := none } }
      let d := if t = .midnight then { d with time := { d.time with valid := false } } else d
      (d.dieState t false (decide (t = .dusk))).nwtSync
    else d
  | _ => d

/-! ### Wake sources (R555, R556) -/

/-- Edge events of the entry window are lost. -/
def Pwr.inWindow (p : Pwr) : Bool :=
  match p.entry with | some (_, false) => true | _ => false

/-- An edge event latches its bit. -/
def Pwr.edge (p : Pwr) (n : Nat) : Pwr := if p.inWindow then p else { p with latched := p.latched ||| (1#7 <<< n) }

/-- A write of PWR_PENDING clears edge bits only. -/
def Pwr.pendingWrite (p : Pwr) (v : W32) : Pwr := { p with latched := p.latched &&& ~~~(v.setWidth 7 &&& 0x30#7) }

/-- A write of PWR_WAKE_CFG. -/
def Pwr.wakeCfgWrite (p : Pwr) (v : W32) : Pwr :=
  { p with pinEdge := v.getLsbD 0, latched := if v.getLsbD 0 then p.latched else p.latched &&& 0x6F#7 }

/-! ### Exit (R557) -/

/-- An exit is due: an enabled source pends, the permitted state has become shallower, or a reset is held as a wake. -/
def Die.exitDue (d : Die) : Bool :=
  decide (d.pwr.state ≠ .active) && d.pwr.entry.isNone && !d.pwr.exiting && !d.pwr.tripped &&
    (d.wakeEnabled != 0 || decide (d.permitted < d.pwr.state.code) || d.pwr.heldReset || d.pwr.heldWarm)

def Die.exitStart (d : Die) : Die :=
  if d.exitDue then
    let v := b2n (decide (d.permitted < d.pwr.state.code))
    let d' : Die := { d with pwr := { d.pwr with
        exiting := true, seqStart := d.time.aon.toNat, seqDone := 0,
        lastExit := w32 (0x80000000 + d.wakeEnabled * 2 ^ 16 + v * 2 ^ 8 + d.pwr.state.code) } }
    if d.pwr.state = .midnight then d'.vcore true else d'
  else d

/-! ### The commands -/

/-- PLEVEL_WRITE (R544): a write of PWR_PLEVEL. -/
def Die.plevelWrite (d : Die) (v : W32) : Die :=
  Die.levelCheck { d with pwr := { d.pwr with req := v.setWidth 3 } }

def execPlevelWrite (fn : Fin 64) (val : W32) (s : State) : Host.Outcome State Fault Refusal :=
  s.act fun d => d.pfWr fn.val (offPwr 0x14) val fun d => d.plevelWrite val

/-- THERMAL_SAMPLE (R547). -/
def execThermalSample (temps : List Int) (s : State) : Host.Outcome State Fault Refusal :=
  s.act fun d => d.thermalSample temps

/-- VOTE_SET (R551): a write of PWR_VOTE_SET. -/
def Die.voteSet (d : Die) (v : W32) : Die := { d with pwr := { d.pwr with hostVotes := d.pwr.hostVotes ||| v.setWidth 8 } }

def execVoteSet (fn : Fin 64) (val : W32) (s : State) : Host.Outcome State Fault Refusal :=
  s.act fun d => d.pfWr fn.val (offPwr 0xC) val fun d => d.voteSet val

/-- VOTE_CLR (R551): a write of PWR_VOTE_CLR. -/
def Die.voteClr (d : Die) (v : W32) : Die := { d with pwr := { d.pwr with hostVotes := d.pwr.hostVotes &&& ~~~(v.setWidth 8) } }

def execVoteClr (fn : Fin 64) (val : W32) (s : State) : Host.Outcome State Fault Refusal :=
  s.act fun d => d.pfWr fn.val (offPwr 0x10) val fun d => d.voteClr val

/-- SLEEP_ENTRY_START (R552). -/
def execSleepEntryStart (s : State) : Host.Outcome State Fault Refusal := s.act fun d => d.entryStart

/-- ENTRY_WINDOW_CLOSE (R554, R555). -/
def execEntryWindowClose (s : State) : Host.Outcome State Fault Refusal := s.act fun d => d.windowClose

/-- SLEEP_STATE_REACHED (R554). -/
def execSleepStateReached (s : State) : Host.Outcome State Fault Refusal := s.act fun d => d.stateReached

/-- HOST_WAKE (R556): held while the die is in a sleep state or on its way there. -/
def execHostWake (s : State) : Host.Outcome State Fault Refusal :=
  s.act fun d =>
    if d.pwr.state ≠ .active ∨ d.pwr.entry.isSome = true then { d with pwr := { d.pwr with hostWake := true } } else d

/-- WAKE_N_ASSERT (R556): WAKE_N falls. -/
def execWakeNAssert (s : State) : Host.Outcome State Fault Refusal :=
  s.act fun d =>
    if d.pwr.wakeN then
      let p := { d.pwr with wakeN := false }
      { d with pwr := if p.pinEdge then p.edge 4 else p }
    else d

/-- WAKE_N_RISE (R556). -/
def execWakeNRise (s : State) : Host.Outcome State Fault Refusal :=
  s.act fun d => { d with pwr := { d.pwr with wakeN := true } }

/-- PWR_TIMER_MATCH (R556): PWR_AON equals PWR_TIMER. -/
def execPwrTimerMatch (s : State) : Host.Outcome State Fault Refusal :=
  s.act fun d => if d.time.aon = d.pwr.timer then { d with pwr := d.pwr.edge 5 } else d

/-- SLEEP_EXIT_START (R557). -/
def execSleepExitStart (s : State) : Host.Outcome State Fault Refusal := s.act fun d => d.exitStart

/-- LEVEL_TRANSITION_COMPLETE (R544). -/
def execLevelTransitionComplete (s : State) : Host.Outcome State Fault Refusal := s.act fun d => d.levelDone

/-- REFERENCE_CLOCK_STOP (R281): the die time holds and TIME_VALID returns to 0. -/
def execReferenceClockStop (s : State) : Host.Outcome State Fault Refusal :=
  s.act fun d => { d with time := { d.time with refRunning := false, valid := false } }

end Sys2Proof.Machine
end

