-- ==== Sys2Proof/Machine/Secure.lean ====
section
/-! DEFINITION. Confidential contexts: the TDI and departures (R484 to R486), initialisation, scrubs and the prologue (R504
to R506), rotation and the sweep (R498 to R503), Nafin packages (R507 to R510). -/

namespace Sys2Proof.Machine

/-! ### Lock, start, stop (R484, R505) -/

/-- A TDISP response goes to the path that its request came by. -/
def Die.tdisp (d : Die) (p : Path) (s : Nat) (ok : Bool) : Die := d.send (.tdisp p s ok)

/-- Firmware answers: from Dawn service until the next power-on or cold reset, but not while MGT is in retention (R539, R554,
R559). -/
def Die.firmwareAnswers (d : Die) : Bool :=
  d.boot.fwRuns && (decide (d.glb.service ≠ 0) || d.boot.full) && d.mgtRuns

/-- A TDISP request comes over SPDM, on the host path or the management port (R520, R522): with no answer it is lost (R539); in
DECOMMISSIONED (R518), and on the board management bus, it gets ERROR UnsupportedRequest. -/
def Die.tdispReq (d : Die) (p : Path) (f : Die → Die) : Die :=
  if !d.firmwareAnswers then d
  else if d.decommissioned || decide (p = .i3c) then d.send (.spdmError p seUnsupported)
  else f d

/-- The slot's grant and page range, zeroed. -/
def Die.zeroRange (d : Die) (c : Scrub) : Die :=
  let m := Mem.zero d.st.hbm (c.memBase * 0x100000) (c.memSize * 0x100000)
  let m := Mem.zero m (d.poolBase + c.pageBase * pageBytes) (c.pageCnt * pageBytes)
  { d with st := { d.st with hbm := m } }

/-- A scrub or an initialisation covers the slot's HBM4 grant or page range. -/
def Die.slotScrubbed (d : Die) (s : Nat) : Bool :=
  let x := d.slot s
  d.scrubbing x.memFirst x.memBytes || d.scrubbing (d.poolBase + x.firstPage * pageBytes) (x.pages * pageBytes)

/-- LOCK_INTERFACE_REQUEST is accepted. -/
def Die.lockAccepted (d : Die) (s : Nat) : Bool :=
  let x := d.slot s
  let q := d.prot s
  d.variant.hasConf && decide (s ≠ 0) && decide (q.tdi = .unlocked ∧ x.state = .granted ∧ x.busy = .idle) && !q.departing &&
    !d.slotScrubbed s && d.sec.entropyOk

def Die.lockTdi (d : Die) (p : Path) (s : Nat) : Die :=
  match if d.lockAccepted s then d.newKey else none with
  | some k =>
    let n := (d.slot s).prologueCycles
    let d := k.1.updProt s fun q =>
      { q with tdi := .locked, init := true, lockPath := p, key0 := k.2, key1 := 0, cur := false, epochs := [], rotations := 0, sweeping := false,
               sweepStuck := false, pointer := 0, swept := 0 }
    let d := d.addScrub s k.2 false
    { d with boot := { d.boot with clean := false },
             sec := { d.sec with prologues :=
               if n = 0 then d.sec.prologues else d.sec.prologues ++ [({ slot := s, left := n, lock := true } : Prologue)] } }
  | none => d.tdisp p s false

/-- Initialisation and prologue of a lock are done: the slot is PROTECTED, the response goes (R484, R505). -/
def Die.lockDone (d : Die) (s : Nat) : Die :=
  if (d.prot s).init && !d.sec.prologues.any (fun p => decide (p.slot = s ∧ p.lock = true)) then
    let own (c : Scrub) : Bool := decide (c.slot = s ∧ c.initKey ≠ 0)
    let d := (d.sec.scrubs.filter own).foldl Die.zeroRange d
    let d := { d with sec := { d.sec with scrubs := d.sec.scrubs.filter fun c => !own c } }
    let d := d.updProt s fun q => { q with init := false, protected_ := true }
    (d.tdisp (d.prot s).lockPath s true).grantsDone
  else d

def Die.startTdi (d : Die) (p : Path) (s : Nat) : Die :=
  let q := d.prot s
  if s ≠ 0 ∧ q.tdi = .locked ∧ q.init = false then (d.updProt s fun q => { q with tdi := .run }).tdisp p s true
  else d.tdisp p s false

/-- STOP_INTERFACE_REQUEST: in any state a departure, which an error event has begun already; a FREE slot has nothing that could
depart. The TDI is unlocked; the response follows a departure that has still to end. -/
def Die.stopTdi (d : Die) (p : Path) (s : Nat) : Die :=
  if s = 0 ∨ d.variant.hasConf = false then d.tdisp p s false
  else
    let depart := decide ((d.prot s).tdi ≠ .error) && (d.slot s).isGranted
    let d := d.updProt s fun q => { q with tdi := .unlocked }
    let d := if depart then d.departStart s false else d
    if (d.prot s).departing then d.updProt s fun q => { q with stopWaits := true, stopPath := p } else d.tdisp p s true

/-! ### Scrubs (R486, R504) -/

/-- The departure of a slot ends: both key slots erased, the slot PLAIN. -/
def Die.departEnd (d : Die) (s : Nat) : Die :=
  let q := d.prot s
  let d := d.updProt s fun q =>
    { q with departing := false, depRelease := false, stopWaits := false, init := false, key0 := 0, key1 := 0, cur := false,
             epochs := [] }
  let d := if (d.slot s).busy = .unload true then (d.freeSlot s).ctxDone s stOk else if q.depRelease then d.freeSlot s else d
  if q.stopWaits then d.tdisp q.stopPath s true else d

/-- The scrub of a slot finishes its range. -/
def Die.scrubEnd (d : Die) (s : Nat) : Die :=
  match d.sec.scrubs.findIdx? fun c => decide (c.slot = s ∧ c.initKey = 0) with
  | none => d
  | some i =>
    match d.sec.scrubs[i]? with
    | none => d
    | some c =>
      let d := Die.zeroRange { d with sec := { d.sec with scrubs := d.sec.scrubs.eraseIdx i } } c
      let d :=
        if c.depart then d.departEnd s
        else if c.release ∧ (d.slot s).busy = .unload true then (d.freeSlot s).ctxDone s stOk
        else d
      d.grantsDone.cleanCheck

/-! ### The entry prologue (R506) -/

/-- Zeros in every working-store and line-buffer range of the slot, from 8 KiB times cycle `c` of the prologue on, over `n`
cycles. -/
def Die.zeroPart (d : Die) (s c n : Nat) : Die :=
  let x := d.slot s
  let z (m : Tab Byte) (sp : Nat) : Tab Byte :=
    Mem.zero m ((x.range sp).1 + 8192 * c) (min (8192 * n) ((x.range sp).2 - 8192 * c))
  { d with st := { d.st with ws0 := z d.st.ws0 1, ws1 := z d.st.ws1 2, lb := z d.st.lb 3 } }

/-- What counts over those cycles: a cycle of each side whose lane groups write (R150), and the bytes of the zero area that the
prologue's threads read from HBM4 into the line buffers (R263). -/
def Die.zeroCount (d : Die) (s c n : Nat) : Die :=
  let x := d.slot s
  let lanes (side : Nat) (e : Engine) : Engine :=
    { e with vecCycles := inc64 e.vecCycles (min n (ceilDiv (x.range (side + 1)).2 8192 - c)) }
  let d := (d.updTe 0 (lanes 0)).updTe 1 (lanes 1)
  { d with xfr := { d.xfr with rdBytes := inc64 d.xfr.rdBytes (min (8192 * n) ((x.range 3).2 - 8192 * c)) } }

/-- Every working-store and line-buffer range of the slot is zero. -/
def Die.zeroStores (d : Die) (s : Nat) : Die :=
  let x := d.slot s
  let z (m : Tab Byte) (sp : Nat) : Tab Byte := Mem.zero m (x.range sp).1 (x.range sp).2
  { d with st := { d.st with ws0 := z d.st.ws0 1, ws1 := z d.st.ws1 2, lb := z d.st.lb 3 } }

/-- Issue is idle, drained, with no entry pending, and the prologue stands in the instruction store or finds room there. -/
def Die.prologueAt (d : Die) (p : Prologue) : Option Nat :=
  if d.iss.run.isNone && d.drained && d.ctx.cal.pending.isNone && d.issueRuns then
    match p.place with
    | some b => some b
    | none => d.placeBundles 1
  else none

/-- The 64 KiB zero area: it lies below the table area, above CTX_MEM_LIMIT. -/
def Die.zeroArea (d : Die) : Nat := (wbits d.kvp.ptBase 19 0 - 1) * 0x100000

/-- What the threads of a piece met that copy the zero area into the line buffers, when the piece has a part of those; true when a
request of theirs failed. -/
def Die.zeroFetch (d : Die) (acc : Access) (s c : Nat) : Die × Bool :=
  if 8192 * c < ((d.slot s).range 3).2 then d.accessed acc [(d.zeroArea, 0x10000)] [] none else (d, false)

/-- A piece of the entry prologue. DESIGN CHOICE (log entry 46): one whose copy fails (R260) is run again, so that no GRANT and no lock
completes over line buffers that have kept their bytes. -/
def Die.prologuePiece (d : Die) (acc : Access) : Die :=
  match d.sec.prologues with
  | [] => d
  | p :: rest =>
    match d.prologueAt p with
    | none => d
    | some b =>
      let n := min 1024 p.left
      let c := (d.slot p.slot).prologueCycles - p.left
      let r := d.zeroFetch acc p.slot c
      let d := r.1.aclk n
      if r.2 then d
      else if p.left ≤ 1024 then
        let d := Die.zeroStores { d.zeroCount p.slot c n with sec := { d.sec with prologues := rest } } p.slot
        if p.lock then d else d.grantDone p.slot
      else
        let d := (d.zeroCount p.slot c n).zeroPart p.slot c n
        { d with sec := { d.sec with prologues := { p with left := p.left - n, place := some b } :: rest } }

/-! ### Rotation and the sweep (R498 to R503) -/

def srOk : Nat := 0
def srState : Nat := 1
def srBusy : Nat := 2
def srRange : Nat := 3
def srFormat : Nat := 4
def srNotMember : Nat := 5
def srSignature : Nat := 6
def srUnwrap : Nat := 7
def srChunk : Nat := 8
def srConf : Nat := 9
def srFailed : Nat := 10

/-- 1 MiB regions of the slot: its grant's, then its page range's. -/
def Slot.regions (x : Slot) : Nat := wbits x.memSize 17 0 + ceilDiv x.pages 16

/-- A rotation is refused (R499): KEY_EPOCH_BUSY. -/
def Die.rotateBusy (d : Die) (s : Nat) (mgmt : Bool) : Die := d.record 69 0x0D (some s) (b2n mgmt) (d.prot s).swept 0 0

/-- ROTATE (R499): the die and the status code of R510. Of two requests of one reference cycle the management plane's is taken: it has
what the function's has begun, and that one is refused in its place. -/
def Die.rotate (d : Die) (s : Nat) (mgmt : Bool) : Die × Nat :=
  let q := d.prot s
  if q.sweeping then
    if mgmt && decide (q.rotateAt = some d.boot.sinceRst) then
      ((d.rotateBusy s false).updProt s fun q => { q with rotateAt := none, status := BitVec.ofNat 4 srBusy }, srOk)
    else (d.rotateBusy s mgmt, srBusy)
  else
    match d.newKey with
    | none => (d, srFailed)
    | some k =>
      (k.1.updProt s fun q =>
        { q with key0 := if q.cur then k.2 else q.key0, key1 := if q.cur then q.key1 else k.2, cur := !q.cur, sweeping := true,
                 pointer := 0, swept := 0, rotateAt := if mgmt then none else some d.boot.sinceRst }, srOk)

/-- Physical address of the block the sweep is at. -/
def Die.sweepAddr (d : Die) (s : Nat) : Nat :=
  let x := d.slot s
  let q := d.prot s
  let n := wbits x.memSize 17 0
  let base := if q.swept < n then x.memFirst + q.swept * 0x100000
    else d.poolBase + x.firstPage * pageBytes + (q.swept - n) * 0x100000
  base + 256 * q.pointer

/-- Blocks of region `i`: a last group of fewer than 16 pages is shorter. -/
def Slot.regionBlocks (x : Slot) (i : Nat) : Nat :=
  if i < wbits x.memSize 17 0 then 4096 else min 4096 (256 * (x.pages - 16 * (i - wbits x.memSize 17 0)))

/-- One block has been rewritten under CUR: from now on `Die.blockKey` names CUR's key for it (R501). The region's last block,
of `n`, sets its epoch bit. -/
def Prot.blockDone (q : Prot) (n : Nat) : Prot :=
  if q.pointer + 1 < n then { q with pointer := q.pointer + 1 }
  else { q with pointer := 0, swept := q.swept + 1, epochs := Tab.write false q.epochs q.swept q.cur }

/-- An access met a tag that fails or a word that cannot be corrected, and not an error of a channel. -/
def errorInBlock : Access → Bool
  | .ecc _ => true
  | .delivered _ _ _ => true
  | _ => false

/-- The sweep reads its block under the previous key slot and writes it under CUR (R500). On a channel that has failed, or fails
now with an error of its own, it stays stuck; a failed tag or word is an error event, the word too that is the 64th of its channel
(R236, R503). -/
def Die.sweepBlock (d : Die) (s : Nat) (acc : Access) : Die :=
  let q := d.prot s
  if q.sweeping && !q.sweepStuck && decide (q.swept < (d.slot s).regions) then
    let block := [(d.sweepAddr s, 256)]
    let a := d.accessed acc block [] (some s)
    if a.2 then
      (if d.onDead block || (a.1.onDead block && !errorInBlock acc) then a.1.updProt s fun q => { q with sweepStuck := true }
       else a.1.tdiError s false)
    else a.1.updProt s fun p => p.blockDone ((d.slot s).regionBlocks q.swept)
  else d

/-- The last region has been swept (R502). -/
def Die.sweepEnd (d : Die) (s : Nat) : Die :=
  let q := d.prot s
  if q.sweeping && !q.sweepStuck && decide (q.swept = (d.slot s).regions) then
    d.updProt s fun q =>
      { q with sweeping := false, rotations := q.rotations + 1, key0 := if q.cur then 0 else q.key0, key1 := if q.cur then q.key1 else 0 }
  else d

/-! ### SEC_CTXs_CMD (R510, R511) -/

def Die.secDone (d : Die) (s status : Nat) : Die :=
  d.updProt s fun q => { q with done := true, pending := false, nfpBusy := false, status := BitVec.ofNat 4 status }

/-- A command of function s on its own page. -/
def Die.secCmd (d : Die) (fn s op : Nat) : Die :=
  if !(decide (fn = s) && d.variant.hasConf && d.hostOpen) then d
  else if (d.prot s).pending then d.updProt s fun q => { q with overrun := true }
  else if op = 1 ∨ op = 2 then
    let d := d.updProt s fun q => { q with overrun := false, done := false, pending := true }
    let q := d.prot s
    if q.departing ∨ q.tdi = .locked ∨ (op = 1 ∧ q.tdi ≠ .run) then d.secDone s srState
    else if op = 1 then
      let r := d.rotate s false
      r.1.secDone s r.2
    else d.updProt s fun q => { q with nfpBusy := true }
  else d

/-! ### Nafin packages (R507 to R509) -/

def nfpTail : Nat := 4723
def nfpChunkBytes : Nat := 0x100000

def Prot.src (q : Prot) : Nat := q.srcLo.toNat + wbits q.srcHi 7 0 * 2 ^ 32
def Prot.dst (q : Prot) : Nat := q.dstLo.toNat + wbits q.dstHi 7 0 * 2 ^ 32

def zeroBytes (b : List Byte) : Bool := b.all fun x => x == 0

def sliceOf (b : List Byte) (a n : Nat) : List Byte := (b.drop a).take n

/-- A package's fields. -/
structure Nfp where
  bytes   : List Byte
  members : Nat
  chunks  : Nat
  plain   : Nat

def nfpOf (b : List Byte) : Nfp :=
  { bytes := b, members := le b 0x08 2, chunks := le b 0x0C 4, plain := le b 0x10 8 }

def Nfp.header (n : Nfp) : List Byte := n.bytes.take 0x80
def Nfp.entry (n : Nfp) (i : Nat) : List Byte := sliceOf n.bytes (0x80 + 1792 * i) 1792
def Nfp.chunkLen (n : Nfp) (i : Nat) : Nat := min nfpChunkBytes (n.plain - i * nfpChunkBytes)
def Nfp.chunk (n : Nfp) (i : Nat) : List Byte :=
  sliceOf n.bytes (0x80 + 1792 * n.members + i * (nfpChunkBytes + 16)) (n.chunkLen i + 16)
def Nfp.total (n : Nfp) : Nat := 128 + 1792 * n.members + n.plain + 16 * n.chunks + nfpTail

def Nfp.formatBad (n : Nfp) : Bool :=
  let b := n.bytes
  decide (le b 0 4 ≠ 0x3150464E ∨ le b 4 2 ≠ 1 ∨ 1 < le b 6 2 ∨ n.members = 0 ∨ 1024 < n.members ∨ le b 0x0A 2 ≠ 0 ∨ n.plain = 0 ∨
    n.chunks ≠ ceilDiv n.plain nfpChunkBytes) || !zeroBytes (sliceOf b 0x58 40) ||
    (List.range n.members).any fun i => !(zeroBytes (sliceOf (n.entry i) 0x6B1 3) && zeroBytes (sliceOf (n.entry i) 0x6F0 16))

/-- Bytes of AES-256-GCM followed by their tag, opened; the header is the additional data. -/
def Nfp.openSealed (n : Nfp) (key : BitVec 256) (iv text tag : List Byte) : Option (List Byte) :=
  gcmOpen key iv n.header text (BitVec.ofNat 128 (leNat tag))

/-- The group key that a member entry wraps for the die's pair. -/
def Nfp.unwrap (n : Nfp) (k : KeyStore) (e : List Byte) : Option (BitVec 256) :=
  let ss := bytesOf 32 (Config.mlkemDecaps k.wrapSeed (sliceOf e 0x30 1568)) ++ bytesOf 48 (Config.ecdhX k.wrapScalar (sliceOf e 0x650 97))
  let kek := hkdf (sliceOf n.bytes 0x18 16) ss (ascii "nafin-kek" ++ e.take 48) 32
  (n.openSealed (BitVec.ofNat 256 (leNat kek)) (sliceOf e 0x6B4 12) (sliceOf e 0x6C0 32) (sliceOf e 0x6E0 16)).map fun b =>
    BitVec.ofNat 256 (leNat b)

/-- Chunk `i` opened under the group key. -/
def Nfp.openChunk (n : Nfp) (gk : BitVec 256) (i : Nat) : Option (List Byte) :=
  let c := n.chunk i
  n.openSealed gk (leBytes 12 i) (c.take (n.chunkLen i)) (c.drop (n.chunkLen i))

/-- The chunks opened in order; none when a tag fails. -/
def Nfp.openChunks (n : Nfp) (gk : BitVec 256) : Option (List Byte) :=
  (List.range n.chunks).foldl (fun (r : Option (List Byte)) i =>
    match r, n.openChunk gk i with
    | some l, some c => some (l ++ c)
    | _, _ => none) (some [])

/-- The steps of R509 after the ranges, under the keys that the die holds: a status, and what is written at the destination. -/
def Nfp.run (n : Nfp) (keys : Option KeyStore) (prot_ : Bool) (signer : List Byte) : Nat × Option (List Byte) :=
  if n.formatBad then (srFormat, none)
  else if bit (le n.bytes 6 2) 0 && !prot_ then (srConf, none)
  else if sliceOf n.bytes 0x28 48 ≠ signer ∨ Config.nfpVerify n.bytes = false then (srSignature, none)
  else
    match keys with
    | none => (srNotMember, none)
    | some k =>
      match (List.range n.members).find? fun i => decide ((n.entry i).take 48 = k.device) with
      | none => (srNotMember, none)
      | some i =>
        match n.unwrap k (n.entry i) with
        | none => (srUnwrap, none)
        | some gk =>
          match n.openChunks gk with
          | none => (srChunk, some (List.replicate n.plain 0))
          | some p => (srOk, some p)

/-- SEC_CTXs_SIGNER as bytes. -/
def Prot.signerBytes (q : Prot) : List Byte := ((List.range 12).map fun i => leBytes 4 (Tab.read 0 q.signer i).toNat).flatten

/-- What is left of an access for the ranges written after those read: a word is met once. -/
def accessAfterRead : Access → Access
  | .ecc _ => .ok
  | x => x

/-- The bytes that a run of R509 leaves at the destination, of a package that stands at `b`. -/
def Die.nfpWrite (d : Die) (s b : Nat) (acc : Access) (r : Nat × Option (List Byte)) : Die :=
  match r.2 with
  | none => d.secDone s r.1
  | some bytes =>
    let w := d.accessed (accessAfterRead acc) [] [(b, bytes.length)] (some s)
    if w.2 then w.1.secDone s srFailed
    else Die.secDone { w.1 with st := { w.1.st with hbm := Mem.write w.1.st.hbm b bytes } } s r.1

/-- The end of an open (R509): the ranges, the package read, its lengths, the steps in their order, and last what is written. The
package is read before its lengths are known, so that a read that fails comes before them. -/
def Die.nfpEnd (d : Die) (s : Nat) (acc : Access) : Die :=
  let q := d.prot s
  let x := d.slot s
  if q.departing ∨ q.tdi = .locked then d.secDone s srState
  else
    match x.phys q.src q.len.toNat with
    | none => d.secDone s srRange
    | some a =>
      if d.scrubbing a q.len.toNat then d
      else
        let r := d.accessed acc [(a, q.len.toNat)] [] (some s)
        let n := nfpOf (Mem.read r.1.st.hbm a q.len.toNat)
        if r.2 then r.1.secDone s srFailed
        else
          match x.phys q.dst n.plain with
          | none => r.1.secDone s srRange
          | some b =>
            if rangesMeet q.src q.len.toNat q.dst n.plain = true ∨ q.len.toNat ≠ n.total then r.1.secDone s srRange
            else if r.1.scrubbing b n.plain then d
            else r.1.nfpWrite s b acc (n.run r.1.mgmt.keys q.protected_ q.signerBytes)

/-! ### The commands -/

/-- LOCK_INTERFACE_REQUEST (R484). -/
def execLockInterfaceRequest (sl : Fin 64) (s : State) (path : Path := .host) : Host.Outcome State Fault Refusal :=
  s.act fun d => d.tdispReq path fun d => d.lockTdi path sl.val

/-- START_INTERFACE_REQUEST (R484). -/
def execStartInterfaceRequest (sl : Fin 64) (s : State) (path : Path := .host) : Host.Outcome State Fault Refusal :=
  s.act fun d => d.tdispReq path fun d => d.startTdi path sl.val

/-- STOP_INTERFACE_REQUEST (R484). -/
def execStopInterfaceRequest (sl : Fin 64) (s : State) (path : Path := .host) : Host.Outcome State Fault Refusal :=
  s.act fun d => d.tdispReq path fun d => d.stopTdi path sl.val

/-- IDE_STREAM_INSECURE (R485): an error event of TDI s. -/
def execIdeStreamInsecure (sl : Fin 64) (s : State) : Host.Outcome State Fault Refusal :=
  s.act fun d => d.tdiError sl.val false

/-- PROLOGUE_PIECE (R506). -/
def execProloguePiece (s : State) (acc : Access := .ok) : Host.Outcome State Fault Refusal := s.act fun d => d.prologuePiece acc

/-- ROTATE (R499): OP 0x1 written to SEC_CTXs_CMD. -/
def execRotate (fn sl : Fin 64) (s : State) : Host.Outcome State Fault Refusal := 
  s.act fun d => d.hostMsg (.wr fn.val (offSecSlot sl.val 4) 4 1) fun d => d.secCmd fn.val sl.val 1

/-- SWEEP_BLOCK_REWRITE (R500). -/
def execSweepBlockRewrite (sl : Fin 64) (acc : Access) (s : State) : Host.Outcome State Fault Refusal :=
  s.act fun d => d.sweepBlock sl.val acc

/-- SWEEP_COMPLETE (R502). -/
def execSweepComplete (sl : Fin 64) (s : State) : Host.Outcome State Fault Refusal := s.act fun d => d.sweepEnd sl.val

/-- NFP_OPEN (R509): OP 0x2 written to SEC_CTXs_CMD. -/
def execNfpOpen (fn sl : Fin 64) (s : State) : Host.Outcome State Fault Refusal := 
  s.act fun d => d.hostMsg (.wr fn.val (offSecSlot sl.val 4) 4 2) fun d => d.secCmd fn.val sl.val 2

/-- NFP_OPEN_DONE (R509): the open in progress ends. -/
def execNfpOpenDone (sl : Fin 64) (acc : Access) (s : State) : Host.Outcome State Fault Refusal :=
  s.act fun d => if (d.prot sl.val).nfpBusy then d.nfpEnd sl.val acc else d

/-- ENTROPY_HEALTH_TEST_FAIL (R516): no key is generated until the next reseeding. -/
def execEntropyHealthTestFail (s : State) : Host.Outcome State Fault Refusal :=
  s.act fun d => { d with sec := { d.sec with entropyOk := false } }

end Sys2Proof.Machine
end

