-- ==== Sys2Proof/Machine/Reset.lean ====
section
/-! DEFINITION. Resets and bring-up: power-on, cold, warm and engine resets (R580 to R583, R592 and the reset tables of the
chapters), the boot ROM's choice of a slot (R573), Dawn service (R402, R575 to R577), HBM4 training and placement (R578), full
service (R576, R579), confirmation (R586), and the end of an exit from sleep (R559). -/

namespace Sys2Proof.Machine

/-! ### Power-on and cold reset (R580) -/

/-- The die as a power-on reset leaves it: fuses, flash, what stands beside it, and the pins. -/
def Die.powerOn (d : Die) : Die :=
  { fuses := { d.fuses with burning := none },
    hbm := { populated := d.hbm.populated, capacity := d.hbm.capacity },
    sec := Sec.reseed { keyGen := d.sec.keyGen, reseeds := d.sec.reseeds },
    pwr := { wakeN := d.pwr.wakeN },
    boot := { flash := d.boot.flash, straps := d.boot.straps, starts := d.boot.starts },
    out := d.out,
    freeCtr := d.freeCtr }

/-- The die as a cold reset leaves it: out of any sleep state, so that the reference runs (R624). HBM_FAIL is kept for the firmware that excludes its group (R578). -/
def Die.coldReset (d : Die) : Die :=
  { fuses := { d.fuses with burning := none },
    time := { aon := d.time.aon, aonFrac := d.time.aonFrac },
    hbm := { populated := d.hbm.populated, capacity := d.hbm.capacity, failValid := d.hbm.failValid, failCause := d.hbm.failCause,
             failChan := d.hbm.failChan },
    sec := Sec.reseed { keyGen := d.sec.keyGen, reseeds := d.sec.reseeds },
    mgmt := { presence := d.mgmt.presence, presCmds := d.mgmt.presCmds, lfsr := d.mgmt.lfsr, sealRun := d.mgmt.sealRun,
              sealMiss := d.mgmt.sealMiss, sealBroken := d.mgmt.sealBroken, unlocks := d.mgmt.unlocks, jtagPins := d.mgmt.jtagPins,
              jtagIr := d.mgmt.jtagIr },
    pwr := { wakeN := d.pwr.wakeN, res := d.pwr.res, resP := d.pwr.resP, entDusk := d.pwr.entDusk, entNight := d.pwr.entNight,
             entMidn := d.pwr.entMidn, throttles := d.pwr.throttles },
    boot := { flash := d.boot.flash, straps := d.boot.straps, starts := d.boot.starts, clean := d.boot.clean, pwrgood := d.boot.pwrgood, resetN := d.boot.resetN,
              certs := d.boot.certs, certsPq := d.boot.certsPq, lastReset := 1 },
    err := { writeErr := d.err.writeErr, written := d.err.written, toFlash := d.err.toFlash,
             cleared := (d.err.toFlash.foldl Err.clear d.err).cleared },
    out := d.out,
    freeCtr := d.freeCtr }

/-! ### The boot-control record (R570) -/

/-- Each write goes to the other copy with SEQ + 1. -/
def Flash.writeCtl (f : Flash) (c : BootCtl) : Flash :=
  let c := { c with seq := f.ctl.seq + 1 }
  if f.inSecond || (bootCtlOf f.ctl0).isNone then { f with ctl0 := c.bytes } else { f with ctl1 := c.bytes }

def BootCtl.setState (c : BootCtl) (slotB : Bool) (v : BitVec 2) : BootCtl :=
  if slotB then { c with stateB := v } else { c with stateA := v }

def Die.updFlash (d : Die) (f : Flash → Flash) : Die := { d with boot := { d.boot with flash := f d.boot.flash } }
def Die.writeCtl (d : Die) (f : BootCtl → BootCtl) : Die := d.updFlash fun x => x.writeCtl (f x.ctl)

/-! ### FW_AUTH_FAIL (R596) -/

/-- Codes of FIRST1; 0 for a check that passes. -/
def verdictCode : Verdict → Nat
  | .good => 0 | .signature => 1 | .signer => 2 | .svn => 3 | .digest => 4 | .format => 5

def Die.fwFail (d : Die) (what : Nat) (v : Verdict) : Die :=
  if v = .good then d else d.record 71 0x0F none what (verdictCode v) 0 0

/-! ### Choosing a slot (R573, R587) -/

/-- The checks of a slot's image; `below` lets its SVN lie below ARB. DEDUCED (log entry 129): the format comes first. -/
def Die.imageVerdict (d : Die) (slotB below : Bool) : Verdict :=
  match d.boot.flash.slot slotB with
  | none => .format
  | some m =>
    if !imageFormat m then .format
    else if !imageSigned m then .signature
    else if m.signer ≠ Config.firmwareSigner then .signer
    else if m.svn.toNat < d.fuses.arb ∧ below = false then .svn
    else if !imageDawnOk m then .digest
    else .good

/-- Take slot `b`: the die with what trying it wrote and recorded, and whether it boots. -/
def Die.trySlot (d : Die) (b : Bool) : Die × Bool :=
  let c := d.boot.flash.ctl
  let st := c.state b
  if st = fsEmpty ∨ st = fsRejected then (d, false)
  else if st = fsStaged ∧ (b ≠ c.preferred ∨ c.tries = 0) then (d.writeCtl fun c => c.setState b fsRejected, false)
  else
    let d := if st = fsStaged then d.writeCtl fun c => { c with tries := c.tries - 1 } else d
    let once := c.rollback && decide (b ≠ c.preferred)
    let v := d.imageVerdict b once
    if v = .good then
      let m := (d.boot.flash.slot b).getD factoryImage
      let d := if once then d.writeCtl fun c => { c with rollback := false } else d
      ({ d with glb := { d.glb with fwSlot := b },
                boot := { d.boot with runSlotB := b, rollback := once, svn := m.svn, digest := imageDigest m, unconfirmed := decide (st = fsStaged),
                                      fwRuns := true } }, true)
    else (d.fwFail (if b then 2 else 1) v, false)

/-- The boot ROM after the fuses are read; the slot that ROLLBACK_FIRMWARE names is tried first. -/
def Die.chooseSlot (d : Die) : Die :=
  let c := d.boot.flash.ctl
  let first := if c.rollback then !c.preferred else c.preferred
  let a := d.trySlot first
  if a.2 then a.1
  else
    let b := a.1.trySlot (!first)
    if b.2 then b.1
    else { b.1 with glb := { b.1.glb with service := 3 }, boot := { b.1.boot with recovery := true } }

/-- The table key is drawn anew (R497). -/
def Die.newTableKey (d : Die) : Die :=
  match d.newKey with
  | some k => { k.1 with sec := { k.1.sec with tableKey := k.2 } }
  | none => d

/-- RESET_N is high: the boot ROM runs (R575), unless STRAP_TEST holds the die in reset (R622). The DeviceID chains of the two
algorithms are checked on their own, each DeviceID certificate against its fused digest (R517). In MANUFACTURE debug is open (R518). -/
def Die.bootRom (d : Die) (straps : BitVec 3) (certs certsPq : Verdict) : Die :=
  let certs := if d.deviceOk 0 then certs else .digest
  let certsPq := if d.deviceOk 1 then certsPq else .digest
  let d := { d with boot := { d.boot with straps := straps, resetN := !straps.getLsbD 0, certs := certs, certsPq := certsPq, sinceRst := 0 },
                    mgmt := { d.mgmt with i3cAddr := BitVec.ofNat 7 (0x5C + 2 * b2n (straps.getLsbD 2) + b2n (straps.getLsbD 1)) } }
  if straps.getLsbD 0 then d
  else
    let d := ((d.vcore true).levelSet 4).chooseSlot.bootKeys
    let d := { d with sec := { d.sec with debugOpen := decide (d.fuses.lifecycle = 1) },
                      mgmt := { d.mgmt with gen := 0, certsOk := decide (certs = Verdict.good), certsPqOk := decide (certsPq = Verdict.good) } }
    if d.boot.fwRuns then
      Die.fwFail (Die.fwFail (Die.newTableKey { d with boot := { d.boot with starts := d.boot.starts + 1 } }) 5 certs) 5 certsPq
    else d

/-! ### Dawn service (R402, R421, R575 to R577) -/

/-- The copies that flash holds, the higher sequence number first. -/
def Flash.confs (f : Flash) : List BoardConf :=
  match f.conf0, f.conf1 with
  | some x, some y => if x.seq < y.seq then [y, x] else [x, y]
  | some x, none => [x]
  | none, some y => [y]
  | none, none => []

/-- A copy is signed by keys that chain to the operator root in force. -/
def Die.confVerdict (d : Die) (c : BoardConf) : Verdict :=
  if !c.sigOk then .signature else if c.root ≠ d.fuses.root then .signer else .good

/-- The configuration of a boot, and the verdicts on the copies passed over on the way to it; `first` is what else the check of the
first copy found. -/
def Die.bootConf (d : Die) (first : Verdict) : Option BoardConf × List Verdict :=
  if d.fuses.rootRow = 0 then (none, [first])
  else
    match d.boot.flash.confs with
    | [] => (none, [first])
    | c :: cs =>
      let v := if first = .good then d.confVerdict c else first
      if v = .good then (some c, [])
      else
        match cs with
        | [] => (none, [v])
        | e :: _ => if d.confVerdict e = .good then (some e, [v]) else (none, [v, d.confVerdict e])

/-- The SAFE table of the configuration. -/
def safeTableOf (c : BoardConf) : Tab W32 :=
  (List.range 96).foldl (fun (t : Tab W32) i => Tab.write 0 t i (Tab.read 0 c.safe i)) []

/-- A listed loop is enabled as the configuration has it; the Dawn loop serves it when its deadline allows. -/
def Die.dawnLoop (d : Die) (c : BoardConf) (x : LoopConf) : Die :=
  if d.loopPresent x.loop then
    let d := d.updLoop x.loop fun l =>
      { l with msg := false, ptp := false, port := x.port, chan := x.chan, slot := 0x3F, period := x.period, phase := x.phase,
               deadline := x.deadline, guard := x.guard, dawn := x.dawn && decide (dawnTimeNs c.weights.length + 30000 ≤ x.deadline.toNat) }
    d.loopOn x.loop
  else d

/-- The Nightwatch package in flash is loaded or refused. -/
def Die.loadNwt (d : Die) (v : Verdict) : Die :=
  match d.boot.flash.nwtPkg with
  | none => d
  | some b =>
    let p := ((b.drop 0x40).take 15936)
    let a := p.toArray
    let v := if v = .good ∧ (pI32 a nwtThresh < pI32 a (nwtThresh + 4) ∨ pU a (nwtThresh + 12) 2 = 0) then .format else v
    if v = .good then
      { d with nwt := Nwt.restart { d.nwt with pkg := 1, param := p, digest := Config.sha384 (b.take 0x3E80) } }
    else Die.fwFail { d with nwt := { d.nwt with pkg := 2 } } 4 v

def msOf (cycles : Nat) : BitVec 16 := BitVec.ofNat 16 (cycles / 100000)

/-- Dawn service begins, and the UCIe mainline trains. -/
def Die.dawnStart (d : Die) (board nwt : Verdict) : Die :=
  if d.boot.fwRuns ∧ d.glb.service = 0 ∧ d.boot.full = false then
    let b := d.bootConf board
    let c := b.1
    let d := b.2.foldl (fun (d : Die) v => d.fwFail 6 v) d
    let d := { d with glb := { d.glb with service := 1 },
                      boot := { d.boot with conf := c, linked := true, dawnMs := msOf d.boot.sinceRst,
                                            confDig := match c with | some c => c.digest | none => 0 } }
    let d := d.loadNwt nwt
    let d := match c with
      | none => d
      | some c =>
        let d := { d with fld := { d.fld with safe := safeTableOf c } }
        let d := c.ports.foldl (fun (d : Die) (p : Nat × BitVec 3) => if p.1 < 4 then d.portCtrlWrite p.1 (w32 (16 * p.2.toNat + 1)) else d) d
        let d := c.loops.foldl (fun (d : Die) (x : LoopConf) => d.dawnLoop c x) d
        if d.nwt.pkg = 1 then d.nwtCtrlWrite (c.nwtCtrl ||| 0x80000000) else d
    (d.nwtSync).levelCheck
  else d

/-- The Dawn weights have been checked: they go to working store 0, and the Dawn loop serves its loops. -/
def Die.dawnWeights (d : Die) (v : Verdict) : Die :=
  match d.boot.conf with
  | none => d
  | some c =>
    if d.glb.service = 1 ∧ d.boot.weightsRead = false then
      let d := { d with boot := { d.boot with weightsRead := true } }
      if v = .good then
        { d with st := { d.st with ws0 := Mem.write d.st.ws0 0 c.weights }, fld := { d.fld with dawn := decide (c.weights ≠ []) } }
      else d.fwFail 6 v
    else d

/-- No Dawn weights stand before the main stage on the flash port (R575). -/
def Die.weightsPast (d : Die) : Bool :=
  d.boot.weightsRead || (match d.boot.conf with | some c => c.weights.isEmpty | none => true)

/-- The main stage of the running slot matches its digest. -/
def Die.mainOk (d : Die) : Bool := match d.boot.flash.slot d.boot.runSlotB with | some m => imageMainOk m | none => false

/-- The main stage has been read, after the Dawn weights, and checked: main firmware starts, or the slot is rejected and the die
restarts (R575). -/
def Die.mainChecked (d : Die) (v : Verdict) : Die :=
  if d.glb.service = 1 ∧ d.boot.mainRun = false ∧ d.weightsPast = true then
    let v := if v = .good ∧ d.mainOk = false then .digest else v
    if v = .good then { d with boot := { d.boot with mainRun := true } }
    else
      let b := d.boot.runSlotB
      let d := (d.fwFail 3 v).writeCtl fun c => c.setState b fsRejected
      d.coldReset.bootRom d.boot.straps d.boot.certs d.boot.certsPq
  else d

/-! ### HBM4 training and placement (R494, R578) -/

def bitsWhere (n : Nat) (p : Nat → Bool) : Nat := (List.range n).foldl (fun (m : Nat) i => if p i then m + 2 ^ i else m) 0

/-- The group of a channel, counted over the sites of HBM_POP. -/
def Die.groupOf (d : Die) (chan : Nat) : Option Nat :=
  match d.popSites.findIdx? fun s => decide (s = chan / 32) with
  | some i => some (4 * i + chan % 32 / 8)
  | none => none

/-- The group of the channel in HBM_FAIL, when the configuration excludes it. -/
def Die.failedGroup (d : Die) : Option Nat :=
  match d.boot.conf with
  | some c => if c.exclOnFail && d.hbm.failValid then d.groupOf d.hbm.failChan.toNat else none
  | none => none

/-- The failed channel's group joins the excluded list in flash. -/
def Die.noteExcluded (d : Die) : Die :=
  match d.failedGroup with
  | none => d
  | some g =>
    let add (c : BoardConf) : BoardConf := { c with exclGroups := c.exclGroups ||| (1#16 <<< g) }
    let upd (o : Option BoardConf) : Option BoardConf := o.map fun c => if some c = d.boot.conf then add c else c
    let d := d.updFlash fun f => { f with conf0 := upd f.conf0, conf1 := upd f.conf1 }
    { d with boot := { d.boot with conf := d.boot.conf.map add } }

/-- Firmware places the areas from the top of the `g` groups in use, in MiB. -/
def Die.placeAreas (d : Die) : Die :=
  let u := d.hbm.groupsInUse.length * (d.hbm.capacity * 1024 / 4)
  let pages := min 131072 (match d.boot.conf with | some c => c.poolPages | none => 0)
  let carve := u - u / 32
  let pool := carve - 129 - ceilDiv pages 16
  if u = 0 then d
  else
    { d with sec := { d.sec with carveBase := w32 carve, carveSize := w32 (u / 32) },
             kvp := { d.kvp with ptBase := w32 (carve - 128), poolBase := w32 pool, poolPages := w32 pages },
             ctx := { d.ctx with memLimit := w32 pool } }

/-- Training: 8.0 Gb/s on every site, or 6.4 Gb/s on all; then the exclusions, and the areas. -/
def Die.train (d : Die) (at80 at64 : BitVec 4) : Die :=
  let n := d.stacks
  let fast := decide (n &&& at80.toNat = n)
  let ok := n &&& (if fast then at80.toNat else at64.toNat)
  let d := { d with glb := { d.glb with hbmPop := BitVec.ofNat 4 ok },
                    hbm := { d.hbm with trained := BitVec.ofNat 4 ok, rate := if fast then 0x50 else 0x40, failed := false, deadChans := [] } }
  let d := d.noteExcluded
  let all := 4 * d.popSites.length
  let excl := match d.boot.conf with | some c => c.exclGroups.toNat | none => 0
  let d := { d with
    hbm := { d.hbm with groups := BitVec.ofNat 16 (bitsWhere all fun g => !bit excl g),
                        exclude := BitVec.ofNat 16 (bitsWhere all fun g => bit excl g),
                        failValid := false, failCause := 0, failChan := 0 },
    glb := { d.glb with hbmExcluded := decide (bitsWhere all (fun g => bit excl g) ≠ 0) } }
  d.placeAreas

/-- HBM4 is trained and its areas placed. -/
def Die.trainingDone (d : Die) (at80 at64 : BitVec 4) : Die :=
  if d.glb.service = 1 ∧ d.boot.mainRun = true ∧ d.hbm.rate = 0 then d.train at80 at64 else d

/-! ### Full service (R576, R579, R586) -/

/-- Every block of HBM4 in use reads 0x00. -/
def Die.bootScrub (d : Die) : Die :=
  { d with st := { d.st with hbm := [] }, boot := { d.boot with scrubbed := true } }

/-- Firmware burns anti-rollback rows for a confirmed image whose SVN exceeds ARB. -/
def Die.arbCheck (d : Die) : Die :=
  if d.boot.unconfirmed = false ∧ d.fuses.arb < d.boot.svn.toNat then { d with boot := { d.boot with burnArb := true } } else d

/-- FULL_SERVICE: the boot scrub is done, and the Dawn loop stops; its loops stay enabled without a context (R394, R576). -/
def Die.fullStart (d : Die) : Die :=
  if d.glb.service = 1 ∧ d.hbm.rate ≠ 0 then
    let d := d.bootScrub.dropCommands fun n => d.dawnServes (d.loop n)
    let d := { d with glb := { d.glb with service := 2 },
                      fld := { d.fld with dawn := false },
                      boot := { d.boot with clean := true, full := true, fullMs := msOf d.boot.sinceRst } }
    d.arbCheck.levelCheck
  else d

/-- A write of SEC_FW_CONFIRM. -/
def Die.confirmWrite (d : Die) (v : W32) : Die :=
  if v = 0x434F4E46 ∧ d.boot.unconfirmed = true ∧ d.glb.service = 2 then
    let b := d.boot.runSlotB
    let d := d.writeCtl fun c => c.setState b fsConfirmed
    Die.arbCheck { d with boot := { d.boot with unconfirmed := false } }
  else d

/-! ### Warm reset (R582, R583 and the chapters' reset tables) -/

/-- Loops at a warm reset: unbound, with no COMMAND waiting (R407). -/
def Die.loopsWarm (d : Die) : Die :=
  let d := d.dropCommands fun _ => true
  { d with fld := { d.fld with
      loops := Tab.mapVal {} (fun l : Loop => { l with slot := 0x3F, fifo := [], abortedCtx := false, ready := false }) d.fld.loops } }

/-- ERASE_KEYS has not committed: the reset wins (R530), and FUSE_ROW_COMMIT finds nothing to commit. A row of BURN_FUSE goes on. -/
def Fuses.keepBurn (f : Fuses) : Fuses := { f with burning := f.burning.filter fun r => decide (r.1 ≠ 3) }

/-- High words that a read of a low word has latched, but those of the registers of ENG0, ENG1, AUX, XFR and ING, which read their
reset values (R342). -/
def keepLatch (t : Tab W32) : Tab W32 := t.filter fun c => !decide (2 ≤ c.1 / 0x100000 % 16 ∧ c.1 / 0x100000 % 16 ≤ 8)

/-- Steps 1 to 4 of R582: what an abort of every context leaves is reset with its slot, and no abort vector is sent (R606). The random
bit generator is reseeded (R516). -/
def Die.warmStart (d : Die) : Die :=
  let d := d.loopsWarm
  let d := Die.newTableKey { d with sec := d.sec.reseed }
  Die.nwtSync { d with
    fuses := d.fuses.keepBurn,
    latch := keepLatch d.latch,
    glb := { d.glb with service := 0 },
    iss := { cyc := d.iss.cyc, owed := d.iss.owed },
    st := { hbm := d.st.hbm },
    te0 := {}, te1 := {}, vec := {}, fln := {}, mca := {}, pst := {}, xfr := {},
    hbm := { d.hbm with selfRef := true, warmAgain := false },
    ing := {},
    kvp := { poolBase := d.kvp.poolBase, poolPages := d.kvp.poolPages, ptBase := d.kvp.ptBase },
    ctx := { memLimit := d.ctx.memLimit },
    fab := { d.fab with channels := [] },
    sec := { d.sec with prots := [], scrubs := [], prologues := [] },
    boot := { d.boot with warm := true, warmFail := d.hbm.failValid, lastReset := 2, scrubbed := false },
    pwr := { d.pwr with heldWarm := false } }

/-- A warm reset is requested: merged into one in progress, ignored before full service and after a thermal trip, held as a wake
in a sleep state. -/
def Die.warmRequest (d : Die) : Die :=
  if d.boot.warm || !d.boot.full || d.pwr.tripped then d
  else if d.pwr.state = .active ∧ d.pwr.entry = none then d.warmStart
  else { d with pwr := { d.pwr with heldWarm := true } }

/-- What a failed channel has left in HBM_FAIL and in the controllers stays as `h` has it. -/
def Hbm.keepFail (x h : Hbm) : Hbm :=
  { x with failed := h.failed, deadChans := h.deadChans, failValid := h.failValid, failCause := h.failCause, failChan := h.failChan }

/-- Step 5 of R582. A trip in between leaves the die halted (R548), and so does a channel that has failed since step 1: this reset is not
the next one (R608). -/
def Die.warmEnd (d : Die) (at80 at64 : BitVec 4) : Die :=
  if d.boot.warm && !d.pwr.tripped then
    let h := d.hbm
    let again := h.warmAgain
    let d := if d.boot.warmFail then (d.train at80 at64).bootScrub else if d.boot.clean then d else d.bootScrub
    let d := { d with glb := { d.glb with service := if again then 3 else 2 },
                      hbm := { (if again then d.hbm.keepFail h else d.hbm) with selfRef := false, warmAgain := false },
                      boot := { d.boot with warm := false, warmFail := false, clean := true } }
    d.arbCheck.levelCheck
  else d

/-! ### Engine reset (R581) -/

/-- The slot's segment uses engine n. -/
def Die.slotUses (d : Die) (s n : Nat) : Bool :=
  match (d.slot s).seg with
  | some g => if n = 0 then g.usesE0 else g.usesE1
  | none => false

/-- Planes unwritten, rows gone, nothing of the side's lane groups lands. -/
def Die.engineReset (d : Die) (n : Nat) : Die :=
  if n = 1 ∧ d.hasTe1 = false then d
  else
    let d := forUpto 64 (fun s d => if d.slotUses s n then d.abortSlot s 0 else d) d
    let d := d.updTe n fun e => { e with plane0 := {}, plane1 := {}, flight := [], pend16 := [], inReset := true }
    let keep (l : Landing) : Bool := decide (l.space % 16 ≠ n + 1)
    { d with vec := { d.vec with landings := d.vec.landings.filter keep } }

/-- A write of SEC_RESET_CTRL: the key, then WARM alone, or the engines (R580). -/
def Die.resetCtrlWrite (d : Die) (v : W32) : Die :=
  if wbits v 31 16 ≠ 0x5E5E then d
  else if v.getLsbD 2 then d.warmRequest
  else if d.boot.warm || d.pwr.tripped then d
  else
    let d := if v.getLsbD 0 then d.engineReset 0 else d
    if v.getLsbD 1 then d.engineReset 1 else d

/-! ### The end of an exit (R559, R546, R476) -/

def exitCycles : Sleep → Nat
  | .midnight => 46080 | .night => 6912 | _ => 76

/-- Ports with a held WAKE train once the die is active. -/
def FabPort.wakeUp (x : FabPort) : FabPort := if x.wakeHeld ∧ x.state = .asleep then { x with state := .training, woken := true } else x

/-- The restore sequence is complete. -/
def Die.exitEndDue (d : Die) : Bool :=
  d.pwr.exiting && !d.pwr.tripped && decide (d.pwr.seqStart + exitCycles d.pwr.state ≤ d.time.aon.toNat)

/-- The die is active: messages and resets that were held follow. -/
def Die.wakeUp (d : Die) : Die :=
  let d := d.seqRun
  let d := { d with pwr := { d.pwr with state := .active, exiting := false, hostWake := false },
                    fab := { d.fab with ports := Tab.mapVal {} FabPort.wakeUp d.fab.ports } }
  ((d.dieState .active false true).nwtSync).levelBack.levelCheck

/-- A reset that was held as a wake begins. -/
def Die.heldReset (d : Die) : Die :=
  if d.pwr.heldReset then
    let c := d.coldReset
    if d.boot.resetN then c.bootRom d.boot.straps d.boot.certs d.boot.certsPq else c
  else if d.pwr.heldWarm then d.warmRequest
  else d

/-! ### The commands -/

/-- PWRGOOD_RISE (R618): a power-on reset; the straps are sampled. -/
def execPwrgoodRise (straps : BitVec 3) (s : State) : Host.Outcome State Fault Refusal :=
  s.act fun d =>
    if d.boot.pwrgood then d
    else
      let c := d.powerOn
      { c with boot := { c.boot with pwrgood := true, straps := straps } }

/-- PWRGOOD goes low, or a rail is lost: every volatile state is gone. -/
def Die.powerDown (d : Die) : Die :=
  let c := d.powerOn
  { c with boot := { c.boot with pwrgood := false, resetN := false } }

/-- PWRGOOD_FALL (R619). -/
def execPwrgoodFall (s : State) : Host.Outcome State Fault Refusal := s.act fun d => d.powerDown

/-- POWER_LOSS (R589). -/
def execPowerLoss (s : State) : Host.Outcome State Fault Refusal := s.act fun d => d.powerDown

/-- RESET_N_FALL (R580, R583): a cold reset, held as a wake in a sleep state unless the die has tripped. -/
def execResetNFall (s : State) : Host.Outcome State Fault Refusal :=
  s.act fun d =>
    if !d.boot.resetN then d
    else
      let d := { d with boot := { d.boot with resetN := false } }
      if d.pwr.tripped ∨ (d.pwr.state = .active ∧ d.pwr.entry = none) then d.coldReset
      else { d with pwr := { d.pwr with heldReset := true } }

/-- RESET_N_RISE (R575). -/
def execResetNRise (straps : BitVec 3) (certs : Verdict) (s : State) (certsPq : Verdict := .good) : Host.Outcome State Fault Refusal :=
  s.act fun d =>
    if d.boot.resetN ∨ d.boot.pwrgood = false then d
    else if d.pwr.heldReset then { d with boot := { d.boot with resetN := true, straps := straps, certs := certs, certsPq := certsPq } }
    else d.bootRom straps certs certsPq

/-- DAWN_SERVICE_START (R402, R575). -/
def execDawnServiceStart (board nwt : Verdict) (s : State) : Host.Outcome State Fault Refusal :=
  s.act fun d => d.dawnStart board nwt

/-- DAWN_WEIGHTS_CHECKED (R402). -/
def execDawnWeightsChecked (v : Verdict) (s : State) : Host.Outcome State Fault Refusal := s.act fun d => d.dawnWeights v

/-- MAIN_STAGE_CHECKED (R575). -/
def execMainStageChecked (v : Verdict) (s : State) : Host.Outcome State Fault Refusal := s.act fun d => d.mainChecked v

/-- HBM_TRAINING_DONE (R578). -/
def execHbmTrainingDone (at80 at64 : BitVec 4) (s : State) : Host.Outcome State Fault Refusal :=
  s.act fun d => d.trainingDone at80 at64

/-- FULL_SERVICE (R576). -/
def execFullService (s : State) : Host.Outcome State Fault Refusal := s.act fun d => d.fullStart

/-- WARM_RESET (R582): a write of SEC_RESET_CTRL that sets WARM. -/
def execWarmReset (fn : Fin 64) (val : W32) (s : State) : Host.Outcome State Fault Refusal :=
  s.act fun d => if val.getLsbD 2 then d.pfWr fn.val (offSec 0x20C) val fun d => d.resetCtrlWrite val else d

/-- WARM_RESET_MSG (R580): the sideband message with MsgCode 0x13. -/
def execWarmResetMsg (s : State) : Host.Outcome State Fault Refusal := s.act fun d => d.warmRequest

/-- WARM_RESET_DONE (R582): step 5. -/
def execWarmResetDone (at80 at64 : BitVec 4) (s : State) : Host.Outcome State Fault Refusal :=
  s.act fun d => d.warmEnd at80 at64

/-- ENGINE_RESET (R581): a write of SEC_RESET_CTRL without WARM. -/
def execEngineReset (fn : Fin 64) (val : W32) (s : State) : Host.Outcome State Fault Refusal :=
  s.act fun d => if val.getLsbD 2 then d else d.pfWr fn.val (offSec 0x20C) val fun d => d.resetCtrlWrite val

/-- ENGINE_RESET_DONE (R580). -/
def execEngineResetDone (n : Fin 2) (s : State) : Host.Outcome State Fault Refusal :=
  s.act fun d => d.updTe n.val fun e => { e with inReset := false }

/-- FW_CONFIRM (R586): a write of SEC_FW_CONFIRM. -/
def execFwConfirm (fn : Fin 64) (val : W32) (s : State) : Host.Outcome State Fault Refusal :=
  s.act fun d => d.pfWr fn.val (offSec 0x208) val fun d => d.confirmWrite val

end Sys2Proof.Machine
end

