-- ==== Sys2Proof/Machine/Manage.lean ====
section
/-! DEFINITION. The management core: MCTP control (R520, R521), SPDM (R522, R523), management commands (R524 to R531), the
attestation report (R532 to R538), presence and the SEAL loop (R528, R529), and fuse rows (R588).
Cryptography that the spec names and does not define is in Config: a request carries what the check of its signature or MAC
gives, and a response carries what R515, R517 and R523 derive. -/

namespace Sys2Proof.Machine

/-! ### Who answers (R518, R520, R539, R574) -/

/-- The boot ROM answers on the board management bus in recovery. -/
def Die.answersOn (d : Die) (p : Path) : Bool :=
  d.firmwareAnswers || (d.boot.recovery && decide (p = .i3c))

def pathIndex : Path → Nat
  | .mgmtPort => 0 | .i3c => 1 | .host => 2

/-! ### MCTP control (R521) -/

def mctpOk : Byte := 0
def mctpUnsupported : Byte := 5

/-- A control command on a path that takes them: the host path carries SPDM and TDISP alone. -/
def Die.mctp (d : Die) (p : Path) (f : Die → Die) : Die := if d.answersOn p && decide (p ≠ .host) then f d else d

def Die.mctpReply (d : Die) (p : Path) (data : List Byte) : Die := d.send (.mctp p mctpOk data)

/-- The EID of a path; 0 until one is assigned. -/
def Die.eidOf (d : Die) (p : Path) : Byte := Tab.read 0 d.mgmt.eid (pathIndex p)

/-! ### SPDM (R522, R523) -/

def seInvalid : Byte := 1
def seUnexpected : Byte := 4
def seDecrypt : Byte := 6
def seUnspecified : Byte := 5
def seSessionLimit : Byte := 0x0A

def Die.spdmError (d : Die) (p : Path) (code : Byte) : Die := d.send (.spdmError p code)
def Die.spdm (d : Die) (p : Path) (req : Byte) (data : List Byte) : Die := d.send (.spdm p req data)

/-- SPDM's ERROR response, with LargeResponse and the handle that CHUNK_GET names. -/
def seError : Byte := 0x7F
def seLarge : Byte := 0x0F

/-- A response that may be long: where it exceeds what the requester takes in one transfer, CHUNK_GET fetches it. -/
def Die.spdmLong (d : Die) (p : Path) (req : Byte) (data : List Byte) : Die :=
  let i := pathIndex p
  let z := Tab.read 0 d.mgmt.xferSize i
  if z = 0 ∨ data.length + 4 ≤ z then d.spdm p req data
  else
    let h := (Tab.read 0 d.mgmt.largeId i + 1) % 256
    let d := { d with mgmt := { d.mgmt with largeId := Tab.write 0 d.mgmt.largeId i h, large := Tab.write [] d.mgmt.large i (req :: data) } }
    d.spdm p seError [seLarge, BitVec.ofNat 8 h]

def Die.vcaOf (d : Die) (p : Path) : Nat := Tab.read 0 d.mgmt.vca (pathIndex p)
def Die.setVca (d : Die) (p : Path) (n : Nat) : Die :=
  { d with mgmt := { d.mgmt with vca := Tab.write 0 d.mgmt.vca (pathIndex p) n } }

/-- A request that every path takes once versions, capabilities and algorithms have been negotiated. -/
def Die.spdmReq (d : Die) (p : Path) (f : Die → Die) : Die :=
  if !d.answersOn p then d
  else if d.decommissioned then d.spdmError p seUnsupported
  else if d.vcaOf p < 3 then d.spdmError p seUnexpected
  else f d

/-- A request that belongs to sessions: the board management bus has none. -/
def Die.spdmSess (d : Die) (p : Path) (f : Die → Die) : Die :=
  d.spdmReq p fun d => if p = .i3c then d.spdmError p seUnsupported else f d

def Die.session (d : Die) (p : Path) (sid : Nat) : Option Session :=
  d.mgmt.sessions.find? fun x => decide (x.id = sid ∧ x.path = p)

def Die.updSession (d : Die) (sid : Nat) (f : Session → Session) : Die :=
  { d with mgmt := { d.mgmt with sessions := d.mgmt.sessions.map fun x => if x.id = sid then f x else x } }

def Die.dropSession (d : Die) (sid : Nat) : Die :=
  { d with mgmt := { d.mgmt with sessions := d.mgmt.sessions.filter fun x => decide (x.id ≠ sid) } }

/-- A request inside an open session of the path. -/
def Die.inSession (d : Die) (p : Path) (sid : Nat) (f : Die → Die) : Die :=
  d.spdmSess p fun d =>
    match d.session p sid with
    | some x => if x.open_ then f (d.updSession sid fun x => { x with lastMsg := d.refNs }) else d.spdmError p seUnexpected
    | none => d.spdmError p seInvalid

/-- The hash of the transcript that a path's last signed response covered, with both nonces (R538). -/
def Die.lastTranscript (d : Die) (p : Path) : List Byte :=
  bytesOf 48 (Config.transcript (Tab.read 0 d.mgmt.lastSigned (pathIndex p)) (Tab.read [] d.mgmt.nonces (pathIndex p)))

/-- The Alias ECDSA signature over it, and the ML-DSA-87 one (R522, R523). -/
def Die.aliasSig (d : Die) (p : Path) : List Byte :=
  match d.mgmt.keys with
  | some k => bytesOf 96 (Config.ecdsaSign k.aliasScalar (d.lastTranscript p))
  | none => []

def Die.aliasSigPq (d : Die) (p : Path) : List Byte :=
  match d.mgmt.keys with
  | some k => bytesOf 4627 (Config.mldsaSign k.aliasXi (d.lastTranscript p))
  | none => []

/-- Bytes of the keys of a session: for each direction a key of AES-256-GCM and its IV. -/
def sessionKeyBytes : Nat := 88

/-- The keys that KEY_UPDATE makes. -/
def updatedKeys (b : List Byte) : List Byte := bytesOf sessionKeyBytes (Config.spdmUpdate b)

/-- The keys of KEM_MIX (R523): HKDF-SHA384 of the master secret and the shared secret. -/
def mixedKeys (master shared : List Byte) : List Byte := hkdf zeros48 (master ++ shared) [] sessionKeyBytes

/-- The nonce of the next signed response. DEDUCED (log entry 126). -/
def Die.nonce (d : Die) : List Byte := leBytes 32 (Config.dieNonce (d.mgmt.transcripts + 1)).toNat

/-- A response is signed by the Alias ECDSA key, over a transcript with what the requester brought to it and the die's nonce: HYBRID_SIG
then signs the same transcript. -/
def Die.signed (d : Die) (p : Path) (asked : List Byte) : Die :=
  { d with mgmt := { d.mgmt with transcripts := d.mgmt.transcripts + 1,
                                 lastSigned := Tab.write 0 d.mgmt.lastSigned (pathIndex p) (d.mgmt.transcripts + 1),
                                 nonces := Tab.write [] d.mgmt.nonces (pathIndex p) (asked ++ d.nonce) } }

/-- Sessions that a path takes. -/
def sessionLimit : Path → Nat
  | .mgmtPort => 4 | .host => 2 | .i3c => 0

/-- The exchange key of an identity, as a P-384 scalar: two numbers of the generator. -/
def exchangeScalar (k : Nat) : Nat := scalarOf (leBytes 32 (Config.drbg (3 * k)).toNat ++ leBytes 32 (Config.drbg (3 * k + 1)).toNat)

def Die.keyExchange (d : Die) (p : Path) (slot : Byte) (pub : BitVec 768) : Die :=
  if slot ≠ 0 then d.spdmError p seInvalid
  else if sessionLimit p ≤ (d.mgmt.sessions.filter fun x => decide (x.path = p)).length then d.spdmError p seSessionLimit
  else
    match d.newKey with
    | none => d.spdmError p seUnspecified
    | some (d, k) =>
      let n := d.mgmt.nextSid
      let master := bytesOf 48 (Config.spdmMaster (exchangeScalar k) (leBytes 96 pub.toNat))
      let x : Session := { id := n, path := p, master := master, keys := updatedKeys master, lastMsg := d.refNs }
      let d := Die.signed { d with mgmt := { d.mgmt with sessions := d.mgmt.sessions ++ [x], nextSid := n + 1 } } p (leBytes 96 pub.toNat)
      d.spdmLong p 0xE4 (leBytes 2 n ++ (bytesOf 97 (Config.p384Point (exchangeScalar k))).drop 1 ++ d.aliasSig p)

def Die.finish (d : Die) (p : Path) (sid : Nat) (macOk : Bool) : Die :=
  match d.session p sid with
  | none => d.spdmError p seInvalid
  | some x =>
    if x.open_ then d.spdmError p seUnexpected
    else if macOk then (d.updSession sid fun x => { x with open_ := true, lastMsg := d.refNs }).spdm p 0xE5 []
    else (d.dropSession sid).spdmError p seDecrypt

/-- The requester's chain, as it delivers it for mutual authentication: digests of the public keys, the root's last; at most 4
certificates, valid now where the die knows the time (R524). Which root is in force is tested at each command. -/
def Die.deliverChain (d : Die) (p : Path) (sid : Nat) (chain : List (BitVec 384)) (selfSigned sigOk validNow : Bool) : Die :=
  match d.session p sid with
  | none => d.spdmError p seInvalid
  | some _ =>
    let root := chain.getLast?
    let ok := sigOk && decide (1 ≤ chain.length ∧ chain.length ≤ 4) && (validNow || !d.time.valid)
    if p ≠ .mgmtPort then d.spdmError p seUnsupported
    else if ok then
      let d := d.updSession sid fun x =>
        { x with mutualAuth := true, selfSigned := selfSigned, rootDigest := root.getD 0 }
      d.spdm p 0xEB []
    else d.spdmError p seInvalid

/-! ### Certificate chains (R517) -/

/-- The chain of a slot is served: slots 0 and 2 are signed with ECDSA P-384, slots 1 and 3 with ML-DSA-87. -/
def Die.chainServed (d : Die) (i : Nat) : Bool := if i % 2 = 0 then d.mgmt.certsOk else d.mgmt.certsPqOk

def Die.chainMask (d : Die) : Nat := 5 * b2n d.mgmt.certsOk + 10 * b2n d.mgmt.certsPqOk

/-- The serial number of an Alias certificate: the first 20 bytes of the SHA-384 of its leaf key. -/
def aliasSerial (leaf : List Byte) : List Byte := (leBytes 48 (Config.sha384 leaf).toNat).take 20

/-- A certificate with DeviceID's signature, of one algorithm or the other, over the rest of it. -/
def KeyStore.issue (k : KeyStore) (pq : Bool) (leaf serial notAfter ext : List Byte) : List Byte :=
  let body := Config.certificate leaf serial notAfter ext []
  Config.certificate leaf serial notAfter ext
    (if pq then bytesOf 4627 (Config.mldsaSign k.devXi body) else bytesOf 96 (Config.ecdsaSign k.devScalar body))

/-- The leaf of a slot: the Alias certificates, that of slot 1 with the encapsulation key of Alias; the WrapID certificates, with
the key pair that DEVICE is the digest of. The serial number and notAfter of a WrapID certificate are not stated. -/
def KeyStore.leaf (k : KeyStore) (i : Nat) : List Byte :=
  let aliasLeaf := if i = 0 then bytesOf 97 (Config.p384Point k.aliasScalar) else bytesOf 2592 (Config.mldsaPub k.aliasXi)
  if i < 2 then
    k.issue (decide (i = 1)) aliasLeaf (aliasSerial aliasLeaf) (ascii "99991231235959Z")
      (if i = 1 then bytesOf 1568 (Config.mlkemPub k.aliasKem) else [])
  else k.issue (decide (i = 3)) (bytesOf 97 (Config.p384Point k.wrapScalar)) [] [] k.wrapPair

/-- A slot's chain: what flash holds of it, then its leaf. -/
def Die.chain (d : Die) (i : Nat) : List Byte :=
  Config.caCerts (i % 2) ++ Tab.read [] d.boot.flash.devices (i % 2) ++ (match d.mgmt.keys with | some k => k.leaf i | none => [])

/-! ### The attestation report (R532 to R538) -/

def digestBytes (x : BitVec 384) : List Byte := leBytes 48 x.toNat

def Die.block3 (d : Die) : List Byte :=
  leBytes 4 d.mgmt.gen.toNat ++ [BitVec.ofNat 8 (b2n d.updateStaged + 2 * b2n d.boot.unconfirmed), BitVec.ofNat 8 (b2n d.stagedTo),
    BitVec.ofNat 8 (b2n d.boot.runSlotB), 0] ++ digestBytes d.stagedDigest

def Die.block5 (d : Die) : List Byte :=
  leBytes 4 d.mgmt.gen.toNat ++ leBytes 4 d.variant.caps.toNat ++ [BitVec.ofNat 8 d.fuses.lifecycle.toNat,
    BitVec.ofNat 8 d.fuses.arb, BitVec.ofNat 8 d.fuses.rootRow, 0] ++ digestBytes d.fuses.root

def Die.block6 (d : Die) : List Byte :=
  leBytes 4 d.mgmt.gen.toNat ++ [BitVec.ofNat 8 (b2n d.sec.debugOpen),
    BitVec.ofNat 8 (b2n d.mgmt.sealIntact + 2 * b2n d.mgmt.sealBroken), BitVec.ofNat 8 (b2n d.mgmt.presence),
    BitVec.ofNat 8 d.glb.service.toNat] ++ leBytes 4 d.mgmt.unlocks.toNat

def slotEntryBytes : List Nat → List Byte
  | [st, fl, tdi, base, size, job] =>
    [BitVec.ofNat 8 st, BitVec.ofNat 8 fl, BitVec.ofNat 8 tdi, 0] ++ leBytes 4 base ++ leBytes 4 size ++ leBytes 4 job
  | _ => List.replicate 16 0

def Die.block7 (d : Die) : List Byte :=
  leBytes 4 d.mgmt.gen.toNat ++ (d.unitCodes.map fun c => BitVec.ofNat 8 c) ++ leBytes 4 d.ctx.memLimit.toNat ++
    leBytes 4 d.sec.carveBase.toNat ++ leBytes 4 d.sec.carveSize.toNat ++ leBytes 4 d.kvp.poolBase.toNat ++
    leBytes 4 d.kvp.poolPages.toNat ++ leBytes 4 d.kvp.ptBase.toNat ++ leBytes 2 d.hbm.exclude.toNat ++
    leBytes 1 d.hbm.groupsInUse.length ++ leBytes 1 d.glb.hbmPop.toNat ++ List.replicate 4 0 ++
    ((List.range 64).flatMap fun s => slotEntryBytes (d.slotEntry s))

/-- Type code and value of a block. -/
def Die.block (d : Die) (i : Nat) : Byte × List Byte :=
  if i = 1 then (0x00, digestBytes Config.bootRomDigest)
  else if i = 2 then (0x01, digestBytes d.boot.digest)
  else if i = 3 then (0x83, d.block3)
  else if i = 4 then (0x03, digestBytes (if d.nwt.pkg = 1 then d.nwt.digest else 0))
  else if i = 5 then (0x82, d.block5)
  else if i = 6 then (0x85, d.block6)
  else if i = 7 then (0x84, d.block7)
  else (0x03, digestBytes d.boot.confDig)

/-- A block in the DMTF measurement block format: index, specification, size, then type, size and value. -/
def Die.measureBytes (d : Die) (i : Nat) : List Byte :=
  let b := d.block i
  leBytes 1 i ++ [1] ++ leBytes 2 (b.2.length + 3) ++ [b.1] ++ leBytes 2 b.2.length ++ b.2

/-- GET_MEASUREMENTS: a request with a nonce asks for a signature, and the response carries the die's nonce (R538). -/
def Die.measurements (d : Die) (p : Path) (index : Nat) (nonce : Option (BitVec 256)) : Die :=
  if index = 0xFF ∨ (1 ≤ index ∧ index ≤ 8) then
    let data := if index = 0xFF then (List.range 8).flatMap fun i => d.measureBytes (i + 1) else d.measureBytes index
    match nonce with
    | some x =>
      let e := d.signed p (leBytes 32 x.toNat)
      e.spdmLong p 0xE0 (data ++ d.nonce ++ e.aliasSig p)
    | none => d.spdmLong p 0xE0 data
  else d.spdmError p seInvalid

/-! ### Management commands (R524 to R528) -/

def msOk : Nat := 0
def msDenied : Nat := 1
def msPresence : Nat := 2
def msState : Nat := 3
def msInvalid : Nat := 4
def msBusy : Nat := 5
def msFailed : Nat := 6

def Die.mgmtReply (d : Die) (sid status : Nat) (data : List Byte) : Die := d.send (.mgmtStatus sid (BitVec.ofNat 8 status) data)

def needsPresence : MgmtCmd → Bool
  | .burnFuse _ _ _ => true
  | .unlockDebug => true
  | .rollbackFirmware _ => true
  | .eraseKeys => true
  | _ => false

def isBurnFuse : MgmtCmd → Bool
  | .burnFuse _ _ _ => true
  | _ => false

/-- R524, or R527 for the one command of an unprovisioned die. -/
def Die.mgmtAllowed (d : Die) (sid : Nat) (c : MgmtCmd) : Bool :=
  match d.session .mgmtPort sid with
  | none => false
  | some x =>
    if d.fuses.rootRow = 0 then
      x.open_ && x.mutualAuth && x.selfSigned && x.kemMixed && (match c with | .burnFuse false 1 _ => true | _ => false)
    else d.manages x

/-- What receipt finds: 0, or the status of a refusal (R524, R528). -/
def Die.mgmtCheck (d : Die) (sid : Nat) (c : MgmtCmd) : Nat :=
  if !d.mgmtAllowed sid c then msDenied
  else if needsPresence c then
    if !(d.mgmt.presence && d.mgmt.sealIntact && !d.mgmt.sealBroken) then msPresence
    else if d.fuses.lifecycle = 2 ∨ (d.fuses.lifecycle = 1 ∧ isBurnFuse c = true) then msOk
    else msState
  else msOk

/-! #### What each command does: the die, and its status -/

def Die.mgFabAddr (d : Die) (a : W32) : Die × Nat := ({ d with fab := { d.fab with addr := a } }, msOk)

/-- One routing entry (R462). -/
def Die.mgRoute (d : Die) (i : Nat) (pfx ctl : W32) : Die × Nat :=
  let t := wbits ctl 3 0
  if 4096 ≤ i ∨ 32 < wbits ctl 13 8 ∨ (8 ≤ t ∧ t ≠ 0xE) then (d, msInvalid)
  else ({ d with fab := { d.fab with routes := Tab.write {} d.fab.routes i { pfx := pfx, ctl := ctl &&& 0x80003F0F } } }, msOk)

/-- A channel's words as the table keeps them: reserved fields 0, nothing landed yet. -/
def channelWords (w : List W32) : List W32 :=
  [nth 0 w 0 &&& 0xFF3F00FF, nth 0 w 1, nth 0 w 2 &&& 0xFFF, nth 0 w 3 &&& 0xE000FF00, nth 0 w 4, nth 0 w 5, nth 0 w 6 &&& 0xFFFFFF, 0]

/-- A receive window lies within the slot's grant. -/
def Die.windowGranted (d : Die) (c : Channel) : Bool :=
  let x := d.slot c.slotOf
  if c.space = 0 then (x.phys c.winBase c.winSize).isSome
  else decide (c.space ≤ 2) && d.granted c.slotOf c.space c.winBase c.winSize

/-- Another valid send channel of the slot has the FCH. -/
def Die.fchTaken (d : Die) (i : Nat) (c : Channel) : Bool :=
  d.fab.channels.any fun e => decide (e.1 ≠ i) && e.2.isSend && decide (e.2.slotOf = c.slotOf ∧ e.2.fch = c.fch)

/-- A channel is installed or removed (R464). -/
def Die.mgChannel (d : Die) (i : Nat) (w : List W32) : Die × Nat :=
  let c : Channel := { w := channelWords w }
  if 4096 ≤ i then (d, msInvalid)
  else if (c.word 0).getLsbD 31 = false then (d.updChannel i fun _ => {}, msOk)
  else if (d.slot c.slotOf).state = .free then (d, msState)
  else if c.isSend = c.isRecv then (d, msInvalid)
  else if c.isSend ∧ ((c.pin ≠ 0xF ∧ d.portPresent c.pin = false) ∨ d.fchTaken i c = true) then (d, msInvalid)
  else if c.isRecv ∧ d.windowGranted c = false then (d, msInvalid)
  else (d.updChannel i fun _ => c, msOk)

def JobKeys.set (j : JobKeys) (slot1 : Bool) (k : Option (BitVec 256)) : JobKeys :=
  if slot1 then { j with key1 := k, cseq1 := 0 } else { j with key0 := k, cseq0 := 0 }

/-- CSEQ values taken under a key slot that gets a new key are forgotten, on the channels of the job. -/
def Die.forgetCseq (d : Die) (job : W32) (slot1 : Bool) : Die :=
  let f (c : Channel) : Channel :=
    if c.isRecv ∧ (d.slot c.slotOf).jobId = job then (if slot1 then { c with taken1 := [] } else { c with taken0 := [] }) else c
  { d with fab := { d.fab with channels := Tab.mapVal {} f d.fab.channels } }

/-- A key slot of a job (R471, R472). -/
def Die.mgJobKey (d : Die) (job : W32) (slot1 : Bool) (op : JobKeyOp) : Die × Nat :=
  let j := d.job job
  match op with
  | .install k =>
    if !j.held ∧ 256 ≤ (d.fab.jobs.filter fun e => e.2.held).length then (d, msInvalid)
    else ((d.updJob job fun j => { j.set slot1 (some k) with cur := if j.held then j.cur else slot1 }).forgetCseq job slot1, msOk)
  | .clear =>
    let other := !slot1
    (d.updJob job fun j =>
      let j := j.set slot1 none
      { j with cur := if (j.key other).isSome then other else false }, msOk)
  | .useSlot => if (j.key slot1).isSome then (d.updJob job fun j => { j with cur := slot1 }, msOk) else (d, msState)

/-- Port enable and FAB_TIMEOUT (R477, R480); a FAILED port trains once it is enabled again (R479). After a trip FAB is off and no
port trains (R548). -/
def Die.mgPort (d : Die) (p : Nat) (enable : Bool) (timeout : W32) : Die × Nat :=
  if !d.portPresent p ∨ 0xFFFF < timeout.toNat then (d, msInvalid)
  else
    let d := { d with fab := { d.fab with timeout := timeout } }
    let x := d.tport p
    if enable then
      if x.enable ∧ x.state ≠ .failed then (d, msOk)
      else (d.updTport p fun x => { x with enable := true, state := if d.pwr.tripped then .disabled else .training, lastCause := 0 }, msOk)
    else if x.enable then
      ((d.portReset p).updTport p fun x => { x with enable := false, state := .disabled, wakeHeld := false, inReset := false }, msOk)
    else (d, msOk)

def Die.mgRotate (d : Die) (s : Nat) : Die × Nat :=
  if !(d.prot s).protected_ then (d, msState)
  else
    let r := d.rotate s true
    (r.1, if r.2 = srOk then msOk else if r.2 = srBusy then msBusy else msFailed)

/-- A Nightwatch package is checked, written to flash and loaded, which is a restart (R416, R421). -/
def Die.mgNwt (d : Die) (b : List Byte) (sigOk flashOk : Bool) : Die × Nat :=
  let p := (b.drop 0x40).take 15936
  let a := p.toArray
  if b.length ≠ 0x3EE0 + 4627 ∨ leNat (b.take 4) ≠ 0x314E574E ∨ leNat ((b.drop 4).take 2) ≠ 1 ∨ leNat ((b.drop 6).take 2) ≠ 1 ∨
      leNat ((b.drop 8).take 4) ≠ 15936 ∨ sigOk = false ∨ pI32 a nwtThresh < pI32 a (nwtThresh + 4) ∨ pU a (nwtThresh + 12) 2 = 0 then
    (d, msInvalid)
  else if !flashOk then (d, msFailed)
  else
    let d := d.updFlash fun f => { f with nwtPkg := some b }
    ({ d with nwt := Nwt.restart { d.nwt with pkg := 1, param := p, digest := Config.sha384 (b.take 0x3E80), work := none } }, msOk)

/-- The board configuration goes to the copy that is not in force, the one of the present boot, when its signatures chain to the operator root (R577). -/
def Die.mgBoard (d : Die) (c : BoardConf) (flashOk : Bool) : Die × Nat :=
  if d.confVerdict c ≠ .good then (d, msInvalid)
  else if !flashOk then (d, msFailed)
  else
    let f := d.boot.flash
    let first := match d.boot.conf with
      | none => true
      | some x => decide (f.conf0 ≠ some x)
    (d.updFlash fun f => if first then { f with conf0 := some c } else { f with conf1 := some c }, msOk)

/-! #### READ_FAULTS (R605) -/

/-- W0 to W7 of record i. -/
def Rec.words (r : Rec) : List W32 :=
  let c (w : W32) : W32 := if r.conf then 0 else w
  [w32 (b2n r.valid * 2 ^ 31 + b2n r.fatal * 2 ^ 30 + b2n r.conf * 2 ^ 29 + r.cause.toNat * 2 ^ 24 + r.slot.toNat * 2 ^ 16 + r.count.toNat),
   c r.f0, c r.f1, c r.f2, c r.f3, c (loHalf r.time), c (hiHalf r.time), 0]

def Rec.bytes (r : Rec) : List Byte := r.words.flatMap fun w => leBytes 4 w.toNat

def PeerFail.bytes (e : PeerFail) (me : W32) : List Byte :=
  leBytes 4 e.job.toNat ++ leBytes 4 e.peer.toNat ++ leBytes 4 me.toNat ++ [e.cause, 0] ++ leBytes 2 e.count ++ leBytes 8 e.time.toNat

/-- The peer-failure entries, every valid record, and the fatal records in flash. -/
def Die.faults (d : Die) : List Byte :=
  (d.fab.peerFails.flatMap fun e => e.bytes d.fab.addr) ++
    ((List.range 73).flatMap fun i => if (d.errRec i).valid then leBytes 1 i ++ (d.errRec i).bytes else []) ++ d.boot.flash.fatal.flatten

/-! #### Running a command (R525) -/

/-- The row that BURN_FUSE is to burn (R527): its kind, row and value. -/
def Die.fuseRow (d : Die) (sid : Nat) (life : Bool) (row : Nat) (v : BitVec 384) : (Nat × Nat × BitVec 384) ⊕ Nat :=
  if life then
    if d.fuses.rootRow = 0 ∨ d.fuses.lifecycle ≠ 1 then .inr msState
    else if v ≠ 2 then .inr msInvalid
    else .inl (0, 0, v)
  else if row = 0 ∨ 4 < row then .inr msInvalid
  else if row ≤ d.fuses.rootRow then .inr msState
  else .inl (1, row, if d.fuses.rootRow = 0 then ((d.session .mgmtPort sid).map fun x => x.rootDigest).getD 0 else v)

/-- A command that ends in its own time holds the management core. -/
def Die.mgHold (d : Die) (sid : Nat) : Die := { d with mgmt := { d.mgmt with cmdSid := some sid } }

/-- The data bits of the rows are burned; the commit bits wait for FUSE_ROW_COMMIT (R588). -/
def Die.mgBurn (d : Die) (sid : Nat) (row : Nat × Nat × BitVec 384) : Die :=
  Die.mgHold { d with fuses := { d.fuses.burn row with burning := some row } } sid

/-- A presence-protected command has committed. -/
def Die.presCommitted (d : Die) : Die := { d with mgmt := { d.mgmt with presCmds := satInc32 d.mgmt.presCmds 1 } }

/-- UNLOCK_DEBUG (R531): an error event of every TDI, then DEBUG_OPEN. -/
def Die.debugUnlock (d : Die) : Die :=
  let d := forUpto 64 (fun s d => d.tdiError s false) d
  Die.presCommitted { d with sec := { d.sec with debugOpen := true }, mgmt := { d.mgmt with unlocks := d.mgmt.unlocks + 1 } }

/-- ROLLBACK_FIRMWARE (R587). -/
def Die.rollbackSet (d : Die) (flashOk : Bool) : Die × Nat :=
  if flashOk then (Die.presCommitted (d.writeCtl fun c => { c with rollback := true }), msOk) else (d, msFailed)

/-- The slot that does not run is the preferred CONFIRMED one, as after the boot that ROLLBACK_FIRMWARE allows: it is never written
(R589). DEDUCED (log entry 128). -/
def Die.stageBarred (d : Die) : Bool :=
  let c := d.boot.flash.ctl
  let b := !d.boot.runSlotB
  decide (b = c.preferred ∧ c.state b = fsConfirmed)

/-- The image goes into the slot that does not run, which holds nothing whole until it has been read back (R584). -/
def Die.stageStart (d : Die) (sid : Nat) (m : Manifest) : Die :=
  let d := d.updFlash fun f => if d.boot.runSlotB then { f with slotA := none } else { f with slotB := none }
  Die.mgHold { d with boot := { d.boot with staging := some m } } sid

def Die.mgReplyOf (sid : Nat) (r : Die × Nat) : Die := r.1.mgmtReply sid r.2 []

/-- A command whose checks at receipt passed. -/
def Die.mgmtDo (d : Die) (sid : Nat) (c : MgmtCmd) : Die :=
  match c with
  | .setFabAddr a => Die.mgReplyOf sid (d.mgFabAddr a)
  | .setRoute i p k => Die.mgReplyOf sid (d.mgRoute i p k)
  | .setChannel i w => Die.mgReplyOf sid (d.mgChannel i w)
  | .setJobKey j e op => Die.mgReplyOf sid (d.mgJobKey j e op)
  | .setPort p en t => Die.mgReplyOf sid (d.mgPort p en t)
  | .rotateSlot s => Die.mgReplyOf sid (d.mgRotate s)
  | .stageFirmware m => if d.stageBarred then d.mgmtReply sid msState [] else d.stageStart sid m
  | .setNwtPackage b ok flashOk => Die.mgReplyOf sid (d.mgNwt b ok flashOk)
  | .setBoardConfig b ok => Die.mgReplyOf sid (d.mgBoard b ok)
  | .readFaults => d.mgmtReply sid msOk d.faults
  | .burnFuse life row v =>
    match d.fuseRow sid life row v with
    | .inl r => d.mgBurn sid r
    | .inr st => d.mgmtReply sid st []
  | .unlockDebug => d.debugUnlock.mgmtReply sid msOk []
  | .rollbackFirmware flashOk => Die.mgReplyOf sid (d.rollbackSet flashOk)
  | .eraseKeys => d.mgBurn sid (3, 0, 0)

/-- One command at a time, in arrival order; `st` is what receipt found. -/
def Die.mgmtRun (d : Die) (sid st : Nat) (c : MgmtCmd) : Die :=
  if d.mgmt.cmdSid.isSome then { d with mgmt := { d.mgmt with waiting := d.mgmt.waiting ++ [(sid, st, c)] } }
  else if st ≠ msOk then d.mgmtReply sid st []
  else d.mgmtDo sid c

/-- A management command arrives on the management port. -/
def Die.mgmt_ (d : Die) (sid : Nat) (c : MgmtCmd) : Die :=
  if !d.firmwareAnswers then d
  else if d.decommissioned then d.spdmError .mgmtPort seUnsupported
  else (d.updSession sid fun x => { x with lastMsg := d.refNs }).mgmtRun sid (d.mgmtCheck sid c) c

/-- The command in progress ends, and those that waited follow in order. -/
def Die.mgmtEnd (d : Die) (status : Nat) : Die :=
  match d.mgmt.cmdSid with
  | none => d
  | some sid =>
    let q := d.mgmt.waiting
    let d := Die.mgmtReply { d with mgmt := { d.mgmt with cmdSid := none, waiting := [] } } sid status []
    q.foldl (fun (d : Die) x => d.mgmtRun x.1 x.2.1 x.2.2) d

/-! ### Staging, fuses, presence (R584, R588, R528 to R530) -/

/-- The checks of R571 on an image as it has been read back. -/
def imageWhole (m : Manifest) : Bool :=
  imageFormat m && imageSigned m && decide (m.signer = Config.firmwareSigner) && imageDawnOk m && imageMainOk m

/-- The image has been read back and checked; `ok` says that what was read back is what was written. The slot holds the image whatever its
check gives, nothing whole where the read-back differs. -/
def Die.stageEnd (d : Die) (ok : Bool) : Die :=
  match d.boot.staging with
  | none => d
  | some m =>
    let b := !d.boot.runSlotB
    let d := Die.updFlash { d with boot := { d.boot with staging := none } } fun f =>
      if !ok then f else if b then { f with slotB := some m } else { f with slotA := some m }
    if ok && imageWhole m then
      let d := d.writeCtl fun c => { c.setState b fsStaged with preferred := b, tries := 3 }
      d.mgmtEnd msOk
    else d.mgmtEnd msFailed

/-- ERASE_KEYS commits: no key is left, the UDS row is all ones. -/
def Die.keysErased (d : Die) : Die :=
  { d with fuses := { d.fuses with udsErased := true },
           fab := { d.fab with jobs := [] },
           sec := { d.sec with prots := Tab.mapVal {} (fun q : Prot => { q with key0 := 0, key1 := 0 }) d.sec.prots },
           mgmt := { d.mgmt with keys := none } }

/-- The commit bits are burned. -/
def Die.rowCommitted (d : Die) (r : Nat × Nat × BitVec 384) : Die :=
  let d := { d with fuses := d.fuses.commit r }
  if r.1 = 3 then d.keysErased else d

/-- A burn ends: where the rows read back as they are to be, with their commit bits, otherwise without; that of an ERASE_KEYS that a
warm reset overtook has been dropped (R530). Anti-rollback rows are burned in ascending order. -/
def Die.fuseCommit (d : Die) (ok : Bool) : Die :=
  match d.fuses.burning with
  | some r =>
    let d := { d with fuses := { d.fuses with burning := none } }
    if ok && d.fuses.readsBack r then ((d.rowCommitted r).presCommitted).mgmtEnd msOk else d.mgmtEnd msFailed
  | none =>
    if d.mgmt.cmdSid.isSome && d.boot.staging.isNone then d.mgmtEnd msFailed
    else if d.boot.burnArb then
      let r : Nat × Nat × BitVec 384 := (2, d.fuses.arb, 1)
      let f := d.fuses.burn r
      if ok then { d with fuses := f.commit r, boot := { d.boot with burnArb := decide (d.fuses.arb + 1 < d.boot.svn.toNat) } }
      else { d with fuses := f }
    else d

/-- PRESENCE_N rises: a presence-protected command that has not committed ends, and those that wait will (R528). -/
def Die.presenceOff (d : Die) : Die :=
  let lost (x : Nat × Nat × MgmtCmd) : Nat × Nat × MgmtCmd :=
    if needsPresence x.2.2 ∧ x.2.1 = msOk then (x.1, msPresence, x.2.2) else x
  let d := { d with mgmt := { d.mgmt with presence := false, waiting := d.mgmt.waiting.map lost } }
  if d.fuses.burning.isSome then Die.mgmtEnd { d with fuses := { d.fuses with burning := none } } msPresence else d

/-- One sample of SEAL_IN against the bit driven. -/
def Mgmt.sealStep (m : Mgmt) (sealIn : Bool) : Mgmt :=
  let l := Config.lfsrStep m.lfsr
  if l.getLsbD 0 = sealIn then { m with lfsr := l, sealRun := min 32 (m.sealRun + 1), sealMiss := 0 }
  else { m with lfsr := l, sealRun := 0, sealMiss := min 4 (m.sealMiss + 1), sealBroken := m.sealBroken || decide (3 ≤ m.sealMiss) }

/-! ### The commands: MCTP -/

/-- SET_ENDPOINT_ID (R521). -/
def execSetEndpointId (path : Path) (eid : Byte) (s : State) : Host.Outcome State Fault Refusal :=
  s.act fun d => d.mctp path fun d =>
    Die.mctpReply { d with mgmt := { d.mgmt with eid := Tab.write 0 d.mgmt.eid (pathIndex path) eid } } path [eid]

/-- GET_ENDPOINT_ID (R521). -/
def execGetEndpointId (path : Path) (s : State) : Host.Outcome State Fault Refusal :=
  s.act fun d => d.mctp path fun d => d.mctpReply path [d.eidOf path]

/-- GET_MCTP_VERSION_SUPPORT (R521): of control, SPDM and secured SPDM; the version numbers are MCTP's. -/
def execGetMctpVersionSupport (path : Path) (mtype : Byte) (s : State) : Host.Outcome State Fault Refusal :=
  s.act fun d => d.mctp path fun d => d.mctpReply path [mtype]

/-- GET_MESSAGE_TYPE_SUPPORT (R521). -/
def execGetMessageTypeSupport (path : Path) (s : State) : Host.Outcome State Fault Refusal :=
  s.act fun d => d.mctp path fun d => d.mctpReply path [3, 0x00, 0x05, 0x06]

/-- GET_VENDOR_DEFINED_MESSAGE_SUPPORT (R521). -/
def execGetVendorDefinedMessageSupport (path : Path) (sel : Byte) (s : State) : Host.Outcome State Fault Refusal :=
  s.act fun d => d.mctp path fun d => d.mctpReply path [sel]

/-- UNSUPPORTED_MCTP_COMMAND (R521). -/
def execUnsupportedMctpCommand (path : Path) (code : Byte) (s : State) : Host.Outcome State Fault Refusal :=
  s.act fun d => d.mctp path fun d => d.send (.mctp path mctpUnsupported [code])

/-- MCTP_OTHER_MESSAGE_TYPE (R521): dropped. -/
def execMctpOtherMessageType (_path : Path) (_mtype : Byte) (s : State) : Host.Outcome State Fault Refusal := s.act fun d => d

/-- ICMPV6_MESSAGE (R520): neighbour discovery and echo are answered, every other frame is dropped. -/
def execIcmpv6Message (kind : Frame520) (s : State) : Host.Outcome State Fault Refusal :=
  s.act fun d => if d.firmwareAnswers = true ∧ d.decommissioned = false ∧ kind ≠ .other then d.send (.icmp kind) else d

/-! ### The commands: SPDM -/

/-- GET_VERSION (R522): versions 1.2 and 1.3; a negotiation starts. -/
def execGetVersion (path : Path) (s : State) : Host.Outcome State Fault Refusal :=
  s.act fun d => if d.answersOn path then (d.setVca path 1).spdm path 0x84 [0x12, 0x13] else d

/-- The capabilities of R522, at the bits of DSP0274: CERT, CHAL, MEAS with signature, MEAS_FRESH, ENCRYPT, MAC, MUT_AUTH, KEY_EX,
HBEAT, KEY_UPD, CHUNK. -/
def spdmFlags : Nat := 0x263F6

/-- GET_CAPABILITIES (R522): also what the requester takes in one transfer. -/
def execGetCapabilities (path : Path) (_flags : W32) (s : State) (transferSize : Nat := 0) : Host.Outcome State Fault Refusal :=
  s.act fun d =>
    if !d.answersOn path then d
    else if d.vcaOf path = 0 then d.spdmError path seUnexpected
    else
      Die.spdm (Die.setVca { d with mgmt := { d.mgmt with xferSize := Tab.write 0 d.mgmt.xferSize (pathIndex path) transferSize } } path 2)
        path 0xE1 (leBytes 4 spdmFlags)

/-- NEGOTIATE_ALGORITHMS (R522): the one set the die takes. -/
def execNegotiateAlgorithms (path : Path) (offersAll : Bool) (s : State) : Host.Outcome State Fault Refusal :=
  s.act fun d =>
    if !d.answersOn path then d
    else if d.decommissioned then d.spdmError path seUnsupported
    else if d.vcaOf path < 2 then d.spdmError path seUnexpected
    else if offersAll then (d.setVca path 3).spdm path 0xE3 []
    else d.spdmError path seInvalid

/-- GET_DIGESTS (R517, R522): the slots that hold a chain, and the SHA-384 of each chain. -/
def execGetDigests (path : Path) (s : State) : Host.Outcome State Fault Refusal :=
  s.act fun d => d.spdmReq path fun d =>
    d.spdmLong path 0x81 (leBytes 1 d.chainMask ++
      ((List.range 4).filter d.chainServed).flatMap fun i => digestBytes (Config.sha384 (d.chain i)))

/-- GET_CERTIFICATE (R517): a portion of the chain of slots 0 to 3, unless it is not served. -/
def execGetCertificate (path : Path) (slot : Byte) (off len : Nat) (s : State) : Host.Outcome State Fault Refusal :=
  s.act fun d => d.spdmReq path fun d =>
    if slot.toNat < 4 ∧ d.chainServed slot.toNat = true then
      let b := ((d.chain slot.toNat).drop off).take len
      d.spdmLong path 0x82 ([slot] ++ leBytes 2 b.length ++ leBytes 2 ((d.chain slot.toNat).length - off - b.length) ++ b)
    else d.spdmError path seInvalid

/-- CHALLENGE (R522): slot 0, signed, with the die's nonce. -/
def execChallenge (path : Path) (slot : Byte) (nonce : BitVec 256) (s : State) : Host.Outcome State Fault Refusal :=
  s.act fun d => d.spdmReq path fun d =>
    if slot = 0 then
      let e := d.signed path (leBytes 32 nonce.toNat)
      e.spdmLong path 0x83 (d.nonce ++ e.aliasSig path)
    else d.spdmError path seInvalid

/-- GET_MEASUREMENTS (R532, R538). -/
def execGetMeasurements (path : Path) (index : Byte) (nonce : Option (BitVec 256)) (s : State) :
    Host.Outcome State Fault Refusal :=
  s.act fun d => d.spdmReq path fun d => d.measurements path index.toNat nonce

/-- KEY_EXCHANGE (R522). -/
def execKeyExchange (path : Path) (slot : Byte) (pub : BitVec 768) (s : State) : Host.Outcome State Fault Refusal :=
  s.act fun d => d.spdmSess path fun d => d.keyExchange path slot pub

/-- FINISH (R522). -/
def execFinish (path : Path) (sid : Nat) (macOk : Bool) (s : State) : Host.Outcome State Fault Refusal :=
  s.act fun d => d.spdmSess path fun d => d.finish path sid macOk

/-- GET_ENCAPSULATED_REQUEST (R522): mutual authentication, on the management port. -/
def execGetEncapsulatedRequest (path : Path) (sid : Nat) (s : State) : Host.Outcome State Fault Refusal :=
  s.act fun d => d.spdmSess path fun d =>
    if path ≠ .mgmtPort then d.spdmError path seUnsupported
    else if (d.session path sid).isSome then d.spdm path 0xEA [] else d.spdmError path seInvalid

/-- DELIVER_ENCAPSULATED_RESPONSE (R522, R524). -/
def execDeliverEncapsulatedResponse (path : Path) (sid : Nat) (chain : List (BitVec 384)) (sigOk validNow : Bool)
    (s : State) (selfSigned : Bool := true) : Host.Outcome State Fault Refusal :=
  s.act fun d => d.spdmSess path fun d => d.deliverChain path sid chain selfSigned sigOk validNow

/-- HEARTBEAT (R522). -/
def execHeartbeat (path : Path) (sid : Nat) (s : State) : Host.Outcome State Fault Refusal :=
  s.act fun d => d.inSession path sid fun d => d.spdm path 0xE8 []

/-- KEY_UPDATE (R522). -/
def execKeyUpdate (path : Path) (sid : Nat) (s : State) : Host.Outcome State Fault Refusal :=
  s.act fun d => d.inSession path sid fun d => 
    (d.updSession sid fun x => { x with keyEpoch := x.keyEpoch + 1, keys := updatedKeys x.keys }).spdm path 0xE9 []

/-- END_SESSION (R522). -/
def execEndSession (path : Path) (sid : Nat) (s : State) : Host.Outcome State Fault Refusal :=
  s.act fun d => d.inSession path sid fun d => (d.dropSession sid).spdm path 0xEC []

/-- KEM_MIX inside a session: new session keys of the master secret and what the ciphertext opens to (R523). -/
def Die.kemMix (d : Die) (p : Path) (sid : Nat) (ct : BitVec 12544) : Die :=
  d.inSession p sid fun d =>
    match d.mgmt.keys with
    | none => d.spdmError p seUnsupported
    | some k =>
      let shared := bytesOf 32 (Config.mlkemDecaps k.aliasKem (leBytes 1568 ct.toNat))
      (d.updSession sid fun x => { x with kemMixed := true, keyEpoch := x.keyEpoch + 1, keys := mixedKeys x.master shared }).spdm p 0xFE []

/-- A management command on another path than the management port: its requester does not meet R524. -/
def Die.mgmtForeign (d : Die) (p : Path) (sid : Nat) : Die := d.spdmSess p fun d => d.send (.mgmtStatus sid msDenied [])

/-- A request that has come in pieces. -/
def Die.largeReq (d : Die) (p : Path) (r : LargeReq) : Die :=
  match r with
  | .deliver sid chain selfSigned sigOk validNow => d.spdmSess p fun d => d.deliverChain p sid chain selfSigned sigOk validNow
  | .finish sid macOk => d.spdmSess p fun d => d.finish p sid macOk
  | .kemMix sid ct => d.kemMix p sid ct
  | .manage sid c => if p = .mgmtPort then d.mgmt_ sid c else d.mgmtForeign p sid
  | .other => d.spdmError p seUnsupported

/-- CHUNK_SEND (R522): the pieces of a large request gather under their handle; with the last one it runs. The board management
bus has no chunks (R520). -/
def execChunkSend (path : Path) (handle : Byte) (seqno : BitVec 16) (last : Option LargeReq) (data : List Byte) (s : State) :
    Host.Outcome State Fault Refusal :=
  s.act fun d => d.spdmSess path fun d =>
    let k := 256 * pathIndex path + handle.toNat
    let old := if seqno = 0 then [] else Tab.read [] d.mgmt.chunks k
    let kept := if last.isSome then [] else old ++ data
    let d := Die.spdm { d with mgmt := { d.mgmt with chunks := Tab.write [] d.mgmt.chunks k kept } } path 0x05
      ([handle] ++ leBytes 2 seqno.toNat)
    match last with
    | some r => d.largeReq path r
    | none => d

/-- CHUNK_GET (R522): the next piece of the response that waits under a handle. -/
def execChunkGet (path : Path) (handle : Byte) (seqno : BitVec 16) (s : State) : Host.Outcome State Fault Refusal :=
  s.act fun d => d.spdmSess path fun d =>
    let i := pathIndex path
    let z := Tab.read 0 d.mgmt.xferSize i - 16
    let b := ((Tab.read [] d.mgmt.large i).drop (z * seqno.toNat)).take z
    if Tab.read 0 d.mgmt.largeId i = handle.toNat ∧ b ≠ [] then d.spdm path 0x06 ([handle] ++ leBytes 2 seqno.toNat ++ b)
    else d.spdmError path seInvalid

/-- HYBRID_SIG (R523): over the transcript of the last signed response. -/
def execHybridSig (path : Path) (s : State) : Host.Outcome State Fault Refusal :=
  s.act fun d => d.spdmReq path fun d =>
    if Tab.read 0 d.mgmt.lastSigned (pathIndex path) = 0 then d.spdmError path seUnexpected
    else d.spdmLong path 0xFE (d.aliasSigPq path)

/-- KEM_MIX (R523): new session keys. -/
def execKemMix (path : Path) (sid : Nat) (ct : BitVec 12544) (s : State) : Host.Outcome State Fault Refusal :=
  s.act fun d => d.kemMix path sid ct

/-- UNSUPPORTED_SPDM_REQUEST (R522). -/
def execUnsupportedSpdmRequest (path : Path) (_code : Byte) (s : State) : Host.Outcome State Fault Refusal :=
  s.act fun d => if d.answersOn path then d.spdmError path seUnsupported else d

/-- IDE_KM (R520, R522): passed to the I/O die, from the management port and the host path; a request of sessions. -/
def execIdeKm (path : Path) (sid : Nat) (s : State) : Host.Outcome State Fault Refusal :=
  s.act fun d => d.spdmSess path fun d => d.send (.ideKm sid)

/-! ### The commands: management -/

/-- SET_FAB_ADDR (R454). -/
def execSetFabAddr (sid : Nat) (addr : W32) (s : State) : Host.Outcome State Fault Refusal :=
  s.act fun d => d.mgmt_ sid (.setFabAddr addr)

/-- SET_ROUTE (R462). -/
def execSetRoute (sid index : Nat) (pfx ctl : W32) (s : State) : Host.Outcome State Fault Refusal :=
  s.act fun d => d.mgmt_ sid (.setRoute index pfx ctl)

/-- SET_CHANNEL (R464). -/
def execSetChannel (sid index : Nat) (words : List W32) (s : State) : Host.Outcome State Fault Refusal :=
  s.act fun d => d.mgmt_ sid (.setChannel index words)

/-- SET_JOB_KEY (R471, R472). -/
def execSetJobKey (sid : Nat) (job : W32) (epoch : Bool) (op : JobKeyOp) (s : State) : Host.Outcome State Fault Refusal :=
  s.act fun d => d.mgmt_ sid (.setJobKey job epoch op)

/-- SET_PORT (R477). -/
def execSetPort (sid p : Nat) (enable : Bool) (timeout : W32) (s : State) : Host.Outcome State Fault Refusal :=
  s.act fun d => d.mgmt_ sid (.setPort p enable timeout)

/-- ROTATE_SLOT (R499). -/
def execRotateSlot (sid : Nat) (sl : Fin 64) (s : State) : Host.Outcome State Fault Refusal :=
  s.act fun d => d.mgmt_ sid (.rotateSlot sl.val)

/-- STAGE_FIRMWARE (R584). -/
def execStageFirmware (sid : Nat) (img : Manifest) (s : State) : Host.Outcome State Fault Refusal :=
  s.act fun d => d.mgmt_ sid (.stageFirmware img)

/-- SET_NWT_PACKAGE (R421). -/
def execSetNwtPackage (sid : Nat) (bytes : List Byte) (sigOk : Bool) (s : State) (flashOk : Bool := true) : Host.Outcome State Fault Refusal :=
  s.act fun d => d.mgmt_ sid (.setNwtPackage bytes sigOk flashOk)

/-- SET_BOARD_CONFIG (R577). -/
def execSetBoardConfig (sid : Nat) (conf : BoardConf) (flashOk : Bool) (s : State) : Host.Outcome State Fault Refusal :=
  s.act fun d => d.mgmt_ sid (.setBoardConfig conf flashOk)

/-- READ_FAULTS (R605). -/
def execReadFaults (sid : Nat) (s : State) : Host.Outcome State Fault Refusal := s.act fun d => d.mgmt_ sid .readFaults

/-- BURN_FUSE (R527). -/
def execBurnFuse (sid : Nat) (lifecycleRow : Bool) (row : Nat) (value : BitVec 384) (s : State) :
    Host.Outcome State Fault Refusal :=
  s.act fun d => d.mgmt_ sid (.burnFuse lifecycleRow row value)

/-- UNLOCK_DEBUG (R531). -/
def execUnlockDebug (sid : Nat) (s : State) : Host.Outcome State Fault Refusal := s.act fun d => d.mgmt_ sid .unlockDebug

/-- ROLLBACK_FIRMWARE (R587). -/
def execRollbackFirmware (sid : Nat) (s : State) (flashOk : Bool := true) : Host.Outcome State Fault Refusal :=
  s.act fun d => d.mgmt_ sid (.rollbackFirmware flashOk)

/-- ERASE_KEYS (R525, R530). -/
def execEraseKeys (sid : Nat) (s : State) : Host.Outcome State Fault Refusal := s.act fun d => d.mgmt_ sid .eraseKeys

/-- UPDATE_STAGED (R584): the image has been written and read back. -/
def execUpdateStaged (ok : Bool) (s : State) : Host.Outcome State Fault Refusal := s.act fun d => d.stageEnd ok

/-- FUSE_ROW_COMMIT (R588): the row in progress gets its commit bit, or its burn fails. -/
def execFuseRowCommit (ok : Bool) (s : State) : Host.Outcome State Fault Refusal := s.act fun d => d.fuseCommit ok

/-- PRESENCE_ASSERT (R528). -/
def execPresenceAssert (s : State) : Host.Outcome State Fault Refusal :=
  s.act fun d => { d with mgmt := { d.mgmt with presence := true } }

/-- PRESENCE_RELEASE (R528). -/
def execPresenceRelease (s : State) : Host.Outcome State Fault Refusal := s.act fun d => d.presenceOff

/-- SEAL_SAMPLE (R529): not compared while the die is unpowered or in reset (R615). -/
def execSealSample (sealIn : Bool) (s : State) : Host.Outcome State Fault Refusal :=
  s.act fun d => if !d.pinsOff then { d with mgmt := d.mgmt.sealStep sealIn } else d

/-- MANAGEMENT_PORT_LINK (R541). -/
def execManagementPortLink (up : Bool) (s : State) : Host.Outcome State Fault Refusal :=
  s.act fun d => { d with mgmt := { d.mgmt with link := up } }

/-- DYNAMIC_ADDRESS_ASSIGN (R622): the address on the board management bus. -/
def execDynamicAddressAssign (addr : BitVec 7) (s : State) : Host.Outcome State Fault Refusal :=
  s.act fun d => { d with mgmt := { d.mgmt with i3cAddr := addr } }

end Sys2Proof.Machine
end

