-- ==== Sys2Proof/Machine/Regs.lean ====
section
/-! DEFINITION. The register window (R25): what each register reads and what a write of it does, region by region, with the
access rules of R6, R9 to R13, R26, R27, R428, R511 and R576. -/

namespace Sys2Proof.Machine

/-! ### Fields -/

/-- A register from its fields: lowest bit and value of each. -/
def regOf (fs : List (Nat × Nat)) : W32 := w32 (fs.foldl (fun (a : Nat) (f : Nat × Nat) => a + f.2 * 2 ^ f.1) 0)

/-- One bit for each `i` below `n`. -/
def bitMap (n : Nat) (p : Nat → Bool) : Nat := (List.range n).foldl (fun (a : Nat) i => a + b2n (p i) * 2 ^ i) 0

/-! ### Which function reaches which register (R27, R428, R511, R576) -/

def Die.reaches (d : Die) (fn off : Nat) : Bool :=
  if off < 0x100000 then true
  else if 0xC10000 ≤ off ∧ off < 0xC14000 then
    decide (fn = (off - 0xC10000) / 0x100 ∨ (fn = 0 ∧ (off - 0xC10000) % 0x100 = 0))
  else if fn = 0 then true
  else
    decide (offSlot fn 0 ≤ off ∧ off < offSlot fn 0x100) || decide (offKv fn 0 ≤ off ∧ off < offKv fn 0x40) ||
      (decide (0x208400 ≤ off ∧ off < 0x208800) && match (d.slot fn).seg with
        | some g => decide (g.tallyBase ≤ (off - 0x208400) / 4 ∧ (off - 0x208400) / 4 < g.tallyBase + g.tallies)
        | none => false)

/-- In Dawn service the host reads only GLB and the read-only registers of bring-up. -/
def Die.readOpen (d : Die) (off : Nat) : Bool :=
  d.hostOpen || decide (off < 0x100000 ∨ off = offSec 0x200 ∨ off = offSec 0x204 ∨ off = offSec 0x210)

/-! ### Confidential contexts in registers (R34, R72, R116, R148, R320, R341, R451) -/

/-- The segment of a confidential context holds issue. -/
def Die.confIssue (d : Die) : Bool :=
  match d.iss.run with
  | some r => d.isConf r.slot && decide (r.phase ≠ .drain)
  | none => false

/-- The function's slot holds an armed confidential context. -/
def Die.confArmed (d : Die) (fn : Nat) : Bool := decide (fn ≠ 0 ∧ (d.slot fn).state = .armed) && d.isConf fn

/-- The physical tally lies in the window of a confidential context (R75). -/
def Die.confTally (d : Die) (p : Nat) : Bool :=
  (List.range 64).any fun s => d.isConf s && match (d.slot s).seg with
    | some g => decide (g.tallyBase ≤ p ∧ p < g.tallyBase + g.tallies)
    | none => false

/-! ### 64-bit counters (R13) -/

def Engine.counter64 (e : Engine) (o : Nat) : Option W64 :=
  if o = 0x10 then some e.rows
  else if o = 0x18 then some e.wrows
  else if o = 0x20 then some e.vecCycles
  else if o = 0x30 then some e.eligible
  else if o = 0x38 then some e.gated
  else if o = 0x40 then some e.skipped
  else none

def FabPort.counter64 (x : FabPort) (o : Nat) : Option W64 :=
  if o = 0x10 then some x.txCells else if o = 0x18 then some x.rxCells else if o = 0x20 then some x.credWait else none

def Die.pwrCounter64 (d : Die) (o : Nat) : Option W64 :=
  if o = 0x40 then some d.time.aon
  else if o = 0x48 then some d.pwr.timer
  else if o = 0x50 then some d.pwr.window
  else if 0x100 ≤ o ∧ o < 0x120 ∧ o % 8 = 0 then some (Tab.read 0 d.pwr.res ((o - 0x100) / 8))
  else if 0x120 ≤ o ∧ o < 0x150 ∧ o % 8 = 0 then some (Tab.read 0 d.pwr.resP ((o - 0x120) / 8))
  else none

/-- The pair whose low word lies at an offset. -/
def Die.counter64 (d : Die) (fn off : Nat) : Option W64 :=
  let o := off % 0x100000
  let r := off / 0x100000
  if r = 0 then
    (if o = 0x18 then some d.time.reading
     else if o = 0x20 then some (if d.confArmed fn then 0 else d.glb.aclkCycles) else none)
  else if r = 2 then
    (if o = 0x8008 then some d.iss.stallCycles
     else if o = 0x9018 then some d.xfr.limitCyc
     else if o = 0x9020 then some d.xfr.portWait
     else if o = 0x9028 then some d.xfr.rdBytes
     else if o = 0x9030 then some d.xfr.wrBytes else none)
  else if r = 3 then d.te0.counter64 o
  else if r = 4 then (if d.hasTe1 then d.te1.counter64 o else none)
  else if r = 5 then
    (if o = 0x10 then some d.fln.rowsCnt else if o = 0x18 then some d.fln.wrows
     else if o = 0x80010 ∧ d.hasMica = true then some d.mca.inputCnt else none)
  else if r = 6 then (if o = 0x10 then some d.pst.inputCnt else if o = 0x18 then some d.pst.results else none)
  else if r = 7 then (if o = 0x18 then some d.kvp.cmds else if o = 0x20 then some d.kvp.walkPages else none)
  else if r = 8 then (if o = 0x18 then some d.ing.pixels else none)
  else if r = 9 then (if o = 0x10 then some d.time.timebase else none)
  else if r = 11 then
    (if o = 0x20 then some d.fab.fwdCells
     else if 0x100 ≤ o ∧ o < 0x300 ∧ d.portPresent ((o - 0x100) / 0x40) = true then
       (d.tport ((o - 0x100) / 0x40)).counter64 ((o - 0x100) % 0x40)
     else none)
  else if r = 13 then d.pwrCounter64 o
  else if r = 15 then (if o = 0x10 then some d.hbm.corr else none)
  else none

/-- The low word of a counter pair of a unit that the variant lacks (R6). -/
def Die.absentPair (d : Die) (off : Nat) : Bool :=
  let o := off % 0x100000
  let r := off / 0x100000
  (decide (r = 4) && !d.hasTe1 && (d.te1.counter64 o).isSome) || (decide (r = 5 ∧ o = 0x80010) && !d.hasMica) ||
    (decide (r = 11 ∧ 0x100 ≤ o ∧ o < 0x300) && !d.portPresent ((o - 0x100) / 0x40) &&
      ((d.tport ((o - 0x100) / 0x40)).counter64 ((o - 0x100) % 0x40)).isSome)

/-- The holding register of the pair whose high word lies at an offset, for a function. -/
def latchKey (fn off : Nat) : Nat := fn * 0x1000000 + off

/-! ### Reads, region by region -/

def Die.glbStatus (d : Die) : W32 :=
  regOf [(12, d.glb.hbmPop.toNat), (8, b2n d.glb.lock), (4, b2n d.glb.fwSlot), (3, b2n d.glb.hbmExcluded), (0, d.glb.service.toNat)]

/-- GLB (R28 to R33). -/
def Die.rdGlb (d : Die) (o : Nat) : W32 :=
  if o = 0x0 then 0x4E320100
  else if o = 0x4 then d.variant.caps
  else if o = 0x8 then d.glbStatus
  else if o = 0xC then w32 (b2n d.glb.lock)
  else if o = 0x10 then d.glb.boardId
  else if o = 0x14 then d.glb.scratch
  else 0

/-- A mark's words (R448). -/
def Slot.markWord (x : Slot) (i : Nat) : W32 :=
  match x.marks[i / 2]? with
  | some m => if i % 2 = 0 then m.1 else regOf [(31, 1), (0, m.2.toNat)]
  | none => 0

/-- CTX_STATEs, as a function reads it (R450, R451). -/
def Die.ctxState (d : Die) (fn s : Nat) : W32 :=
  let x := d.slot s
  let seen := !d.isConf s || decide (fn = s)
  regOf [(31, b2n (decide (x.busy ≠ .idle))), (30, b2n x.overrun), (29, b2n (d.runsSegment s && seen)),
    (28, b2n (decide (d.ctx.cal.pending = some s) && seen)), (24, x.status.toNat), (20, x.loadStat.toNat), (19, b2n x.conf),
    (16, slotCode x.state), (0, x.runsLeft.toNat)]

/-- A slot page (R432, R449). -/
def Die.rdSlot (d : Die) (fn s o : Nat) : W32 :=
  let x := d.slot s
  if o = 0x0 then x.memBase
  else if o = 0x4 then x.memSize
  else if o = 0x8 then x.ws0
  else if o = 0xC then x.ws1
  else if o = 0x10 then x.lb
  else if o = 0x14 then x.seq
  else if o = 0x18 then x.pageBase
  else if o = 0x1C then x.pageCnt
  else if o = 0x20 then x.jobId
  else if o = 0x30 then x.imageLo
  else if o = 0x34 then x.imageHi
  else if o = 0x38 then x.imageLen
  else if o = 0x3C then x.runCtrl
  else if o = 0x48 then d.ctxState fn s
  else if o = 0x4C then x.runsDone
  else if o = 0x50 then x.runNum
  else if o = 0x54 then x.missed
  else if o = 0x58 then (if d.isConf s then 0 else x.lastCyc)
  else if 0x80 ≤ o then (if d.isConf s then 0 else x.markWord ((o - 0x80) / 4))
  else 0

def Die.calStatus (d : Die) : W32 :=
  let c := d.ctx.cal
  regOf [(31, b2n c.swapPend), (24, c.swapErr.toNat), (22, b2n c.pending.isSome), (16, c.pending.getD 0), (12, c.cfgErr.toNat),
    (0, (if c.next < c.count c.active then c.next else 0) % 512)]

/-- CTX (R449, R450). -/
def Die.rdCtx (d : Die) (fn o : Nat) : W32 :=
  let c := d.ctx.cal
  if 0x10000 ≤ o ∧ o < 0x14000 then d.rdSlot fn ((o - 0x10000) / 0x100) (o % 0x100)
  else if 0x1000 ≤ o ∧ o < 0x1800 then Tab.read 0 c.bank0 ((o - 0x1000) / 4)
  else if 0x1800 ≤ o ∧ o < 0x2000 then Tab.read 0 c.bank1 ((o - 0x1800) / 4)
  else if o = 0x0 then regOf [(31, b2n c.enable), (29, b2n c.ptp), (16, b2n c.active)]
  else if o = 0x4 then c.quantum
  else if o = 0x8 then c.phase
  else if o = 0x10 then d.calStatus
  else if o = 0x14 then w32 c.count0.toNat
  else if o = 0x18 then w32 c.count1.toNat
  else if o = 0x1C then d.ctx.memLimit
  else if o = 0x20 then w32 (bitMap 32 fun b => decide ((d.slot b).state = .armed))
  else if o = 0x24 then w32 (bitMap 32 fun b => decide ((d.slot (32 + b)).state = .armed))
  else if o = 0x28 then d.ctx.hostViol
  else 0

/-- XFR_ISSUE_STATUS (R72). -/
def Die.issueStatus (d : Die) : W32 :=
  match d.iss.run with
  | none => 0
  | some r =>
    let waits := match r.phase with | .stalled _ _ => true | _ => false
    if r.phase = .drain then 0
    else if d.isConf r.slot then regOf [(8, r.slot), (0, 1)]
    else regOf [(24, r.loops.length), (16, if waits then (d.waitTally r).getD 0 else 0), (8, r.slot), (1, b2n waits), (0, 1)]

/-- XFR_THREADn (R264). -/
def Die.threadReg (d : Die) (n : Nat) : W32 :=
  let t := d.thread n
  if d.isConf t.slot then 0
  else regOf [(31, b2n t.running), (30, b2n (decide (t.state = .waiting))), (29, b2n t.failed), (24, t.out.length % 16),
    (16, t.step % 64), (0, t.slot)]

def Die.tallyReg (d : Die) (p : Nat) : W32 :=
  let t := d.tally p
  if d.confTally p then 0 else regOf [(31, b2n t.err), (0, t.value.toNat)]

/-- XFR (R70 to R75, R114 to R116, R261 to R264, R317). -/
def Die.rdXfr (d : Die) (o : Nat) : W32 :=
  if 0x8400 ≤ o ∧ o < 0x8800 then d.tallyReg ((o - 0x8400) / 4)
  else if 0x10000 ≤ o ∧ o < 0x14000 then d.threadReg ((o - 0x10000) / 4)
  else if 0x8020 ≤ o ∧ o < 0x8040 then (d.iss.sat >>> (32 * ((o - 0x8020) / 4))).setWidth 32
  else if o = 0x8000 then d.iss.tallyTimeout
  else if o = 0x8004 then d.issueStatus
  else if o = 0x8010 then d.iss.launchDrop
  else if o = 0x8014 then
    (match d.iss.run with
      | some r => if d.isConf r.slot ∨ r.phase = .drain then 0 else w32 (r.pc % 0x10000)
      | none => 0)
  else if o = 0x8018 then w32 d.iss.agEmpty.toNat
  else if o = 0x9000 then w32 d.threadsRunning
  else if o = 0x9004 then w32 d.inflight
  else if o = 0x9008 then w32 d.xfr.reqPeak.toNat
  else if o = 0x900C then d.xfr.grantViol
  else if o = 0x9010 then d.xfr.eccCorr
  else 0

/-- An engine region (R147 to R150, R186 to R188, R223 to R225). -/
def Engine.rd (e : Engine) (conf : Bool) (o : Nat) : W32 :=
  if o = 0x0 then
    (if conf then 0
     else regOf [(29, b2n e.busy), (26, e.plane1.fmt.toNat), (17, e.plane1.rows.length), (14, e.plane0.fmt.toNat),
       (5, e.plane0.rows.length)])
  else if o = 0x4 then e.accSat
  else if o = 0x8 then e.vecSat
  else if o = 0x28 then w32 (b2n e.forceExact)
  else if o = 0x2C then e.sidecarSat
  else if o = 0x48 then e.cvtSat
  else if o = 0x4C then regOf [(1, b2n e.nanVcvt), (0, b2n e.nanFinal)]
  else 0

/-- FLN and MCA (R319, R320). -/
def Die.rdAux (d : Die) (o : Nat) : W32 :=
  if o = 0x0 then
    (if d.confIssue then 0 else regOf [(29, b2n d.fln.busy), (8, d.fln.ffmt.toNat), (0, d.fln.rows.length)])
  else if o = 0x4 then d.fln.accSat
  else if o = 0x8 then w32 (b2n d.fln.nan)
  else if o = 0x80000 ∧ d.hasMica = true then (if d.confIssue then 0 else regOf [(29, b2n d.mca.busy)])
  else 0

/-- PST (R340, R341). -/
def Die.rdPst (d : Die) (o : Nat) : W32 :=
  if o = 0x0 then (if d.confIssue then 0 else regOf [(29, b2n d.pst.busy), (0, d.pst.lastOp.toNat)])
  else if o = 0x4 then d.pst.sat
  else if o = 0x8 then regOf [(1, b2n d.pst.allNan), (0, b2n d.pst.narrow)]
  else if o = 0xC then d.pst.extrap
  else 0

/-- A command page of KVP (R379, R380). -/
def Die.rdKvPage (d : Die) (s o : Nat) : W32 :=
  let c := d.kvCmd s
  if o = 0x0 then c.arg0
  else if o = 0x4 then c.arg1
  else if o = 0x8 then c.arg2
  else if o = 0x10 then
    regOf [(31, b2n c.done), (30, b2n c.pending), (29, b2n c.overrun), (24, c.status.toNat), (0, c.gen.toNat)]
  else if o = 0x14 then c.res1
  else if o = 0x1C then w32 (d.kvp.chain s).length
  else 0

/-- KVP. -/
def Die.rdKvp (d : Die) (o : Nat) : W32 :=
  if 0x10000 ≤ o ∧ o < 0x11000 then d.rdKvPage ((o - 0x10000) / 0x40) (o % 0x40)
  else if o = 0x0 then regOf [(31, b2n (!d.kvp.queue.isEmpty)), (0, d.kvp.queue.length % 8192)]
  else if o = 0x4 then d.kvp.poolBase
  else if o = 0x8 then d.kvp.poolPages
  else if o = 0xC then d.kvp.ptBase
  else if o = 0x10 then w32 (d.kvp.chains.foldl (fun (n : Nat) c => n + c.2.length) 0)
  else if o = 0x28 then d.kvp.unmapped
  else if o = 0x2C then d.kvp.copies
  else 0

/-- ING_STRm_STATUS (R291): of a stream bound to a confidential context only CFG_ERR. -/
def Stream.status (x : Stream) (conf : Bool) : W32 :=
  if conf then regOf [(28, x.cfgErr.toNat)]
  else regOf [(28, x.cfgErr.toNat), (24, x.lastCause.toNat), (16, x.held.length % 256),
    (0, if !x.enabled then 0 else if !x.voidQ.isEmpty then 3 else if x.open_ then 2 else 1)]

def Stream.rd (x : Stream) (conf : Bool) (o : Nat) : W32 :=
  if o = 0x0 then x.ctrl
  else if o = 0x4 then x.geom
  else if o = 0x8 then x.ring
  else if o = 0xC then x.base
  else if o = 0x10 then x.pitch
  else if o = 0x14 then x.conv
  else if o = 0x18 then x.bind
  else if o = 0x1C then x.status conf
  else if o = 0x20 then x.drops
  else if o = 0x24 then x.frames
  else if o = 0x28 then x.sat
  else 0

/-- ING (R290, R291). -/
def Die.rdIng (d : Die) (o : Nat) : W32 :=
  if 0x1000 ≤ o ∧ o < 0x1400 then
    (if d.streamPresent ((o - 0x1000) / 0x40) then (d.stream ((o - 0x1000) / 0x40)).rd (d.streamConf ((o - 0x1000) / 0x40)) (o % 0x40) else 0)
  else if o = 0x0 then regOf [(31, b2n d.time.valid), (0, bitMap 16 fun m => (d.stream m).enabled)]
  else if o = 0x4 then d.ing.unclaimed
  else if o = 0x8 then w32 d.ing.latency.toNat
  else if o = 0xC then d.ing.offset
  else if o = 0x10 then d.ing.steps
  else 0

def FldPort.rd (x : FldPort) (o : Nat) : W32 :=
  if o = 0x0 then regOf [(4, x.rate.toNat), (0, b2n x.enable)]
  else if o = 0x4 then w32 (b2n x.align)
  else if o = 0x8 then x.rxFrames
  else if o = 0xC then x.rxErr
  else if o = 0x10 then x.txFrames
  else 0

def Loop.bindReg (l : Loop) : W32 :=
  regOf [(31, b2n l.enable), (30, b2n l.msg), (29, b2n l.ptp), (28, b2n l.dawn), (24, l.port.toNat), (20, l.chan.toNat),
    (12, l.mch.toNat), (0, l.slot.toNat)]

/-- A loop's registers (R408, R409); STATUS and the counts of a loop bound to a confidential context read 0. -/
def Die.rdLoop (d : Die) (n o : Nat) : W32 :=
  let l := d.loop n
  if o = 0x0 then l.bindReg
  else if o = 0x4 then l.tally
  else if o = 0x8 then l.period
  else if o = 0xC then l.phase
  else if o = 0x10 then l.deadline
  else if o = 0x14 then l.guard
  else if d.loopConf l then 0
  else if o = 0x18 then regOf [(28, l.cfgErr.toNat), (16, min 255 l.consec), (8, b2n l.rxNew), (0, d.loopState l)]
  else if o = 0x1C then l.misses
  else if o = 0x20 then l.commands
  else if o = 0x24 then l.late
  else 0

/-- The loop of an offset in one of FLD's three blocks of loops. -/
def fldLoop (o : Nat) : Nat := o % 0x1000 / 0x40

/-- FLD. -/
def Die.rdFld (d : Die) (o : Nat) : W32 :=
  if 0x1000 ≤ o ∧ o < 0x1200 then (if d.loopPresent (fldLoop o) then d.rdLoop (fldLoop o) (o % 0x40) else 0)
  else if 0x2000 ≤ o ∧ o < 0x2200 then
    (if d.loopPresent (fldLoop o) && !d.loopConf (d.loop (fldLoop o)) then w32 (leNat (((d.loop (fldLoop o)).rxstat.drop (o % 0x40)).take 4)) else 0)
  else if 0x3000 ≤ o ∧ o < 0x3200 ∧ o % 0x40 < 0x30 then
    (if d.loopPresent (fldLoop o) then Tab.read 0 d.fld.safe (12 * fldLoop o + o % 0x40 / 4) else 0)
  else if 0x100 ≤ o ∧ o < 0x180 then (d.fport ((o - 0x100) / 0x20)).rd (o % 0x20)
  else if o = 0x0 then
    regOf [(16, b2n d.fld.dawn), (8, bitMap 4 fun p => (d.fport p).align), (0, bitMap 8 fun n => (d.loop n).enable)]
  else if o = 0x4 then w32 (b2n d.fld.lock)
  else if o = 0x8 then w32 d.fld.hbPeriod.toNat
  else if o = 0xC then d.fld.msgRxErr
  else if o = 0x18 then d.fld.foreign
  else 0

/-- NWT (R424, R425). -/
def Die.rdNwt (d : Die) (o : Nat) : W32 :=
  let n := d.nwt
  if o = 0x0 then regOf [(31, b2n n.enable), (16, n.stream.toNat), (8, n.wakeGest.toNat), (0, b2n n.wakePres)]
  else if o = 0x4 then
    regOf [(30, n.pkg.toNat), (29, b2n d.nwtSideband), (28, b2n n.runs), (8, b2n n.present), (0, n.warmup % 16)]
  else if o = 0x8 then w32 n.pend.toNat
  else if o = 0xC then n.last
  else if o = 0x10 then n.logit
  else if o = 0x14 then n.frames
  else if o = 0x18 then n.skipped
  else if o = 0x1C then n.sbErr
  else 0

def FabPort.rd (x : FabPort) (o : Nat) : W32 :=
  if o = 0x0 then regOf [(16, x.credits), (8, x.lastCause.toNat), (0, x.state.code)]
  else if o = 0x4 then x.peer
  else if o = 0x8 then regOf [(16, x.peerPort.toNat), (0, x.latency.toNat)]
  else if o = 0x28 then x.replays
  else if o = 0x2C then x.crcErrs
  else 0

/-- A channel's word; LANDED of a confidential context reads 0 (R481). -/
def Die.rdChannel (d : Die) (c i : Nat) : W32 :=
  let ch := d.channel c
  if i = 7 ∧ (ch.word 0).getLsbD 31 = true ∧ d.isConf ch.slotOf = true then 0 else ch.word i

/-- FAB (R480, R481). -/
def Die.rdFab (d : Die) (o : Nat) : W32 :=
  if 0x100 ≤ o ∧ o < 0x300 then
    (if d.portPresent ((o - 0x100) / 0x40) then (d.tport ((o - 0x100) / 0x40)).rd (o % 0x40) else 0)
  else if 0x10000 ≤ o ∧ o < 0x18000 then
    (let r := Tab.read {} d.fab.routes ((o - 0x10000) / 8)
     if o % 8 = 0 then r.pfx else r.ctl)
  else if 0x20000 ≤ o ∧ o < 0x40000 then d.rdChannel ((o - 0x20000) / 0x20) (o % 0x20 / 4)
  else if o = 0x0 then
    regOf [(31, b2n d.fab.assigned), (24, d.fab.lastDisc.toNat), (16, bitMap 8 fun p => decide ((d.tport p).state = .up)),
      (8, bitMap 8 fun p => decide ((d.tport p).state = .asleep)), (0, bitMap 8 fun p => (d.tport p).enable)]
  else if o = 0x4 then d.fab.addr
  else if o = 0x8 then d.fab.timeout
  else if o = 0xC then w32 (d.fab.routes.filter fun c => c.2.valid).length
  else if o = 0x10 then d.fab.misses
  else if o = 0x14 then d.fab.ttlDrops
  else if o = 0x18 then d.fab.discards
  else if o = 0x1C then d.fab.authFails
  else 0

/-- A slot's page of SEC (R511, R512). -/
def Prot.rd (q : Prot) (s o : Nat) : W32 :=
  if o = 0x0 then
    regOf [(31, b2n q.protected_), (30, b2n q.departing), (29, b2n q.sweeping), (28, b2n q.init), (24, if s = 0 then 0 else tdiCode q.tdi),
      (16, b2n q.cur), (0, q.rotations.toNat)]
  else if o = 0x8 then regOf [(31, b2n q.done), (30, b2n q.pending), (29, b2n q.overrun), (24, q.status.toNat)]
  else if o = 0xC then w32 (q.swept % 0x40000)
  else if o = 0x10 then q.srcLo
  else if o = 0x14 then q.srcHi
  else if o = 0x18 then q.dstLo
  else if o = 0x1C then q.dstHi
  else if o = 0x20 then q.len
  else if 0x40 ≤ o ∧ o < 0x70 then Tab.read 0 q.signer ((o - 0x40) / 4)
  else 0

/-- The boot ROM has read the fuses (R540). -/
def Die.fusesRead (d : Die) : Bool := d.boot.fwRuns || d.boot.recovery

/-- The management registers (R540, R541). -/
def Die.rdMgmt (d : Die) (o : Nat) : W32 :=
  if !d.fusesRead then 0
  else if o = 0x100 then regOf [(16, d.fuses.arb), (8, d.fuses.rootRow), (0, d.fuses.lifecycle.toNat)]
  else if o = 0x104 then
    regOf [(30, b2n d.mgmt.sealIntact), (29, b2n d.mgmt.sealBroken), (28, b2n d.mgmt.presence), (27, b2n d.updateStaged),
      (26, b2n d.boot.unconfirmed), (8, (d.mgmt.sessions.filter fun x => x.open_).length), (0, b2n d.mgmt.link)]
  else if o = 0x108 then d.mgmt.gen
  else if o = 0x10C then d.mgmt.presCmds
  else if 0x110 ≤ o ∧ o < 0x140 then w32 (leNat ((leBytes 48 d.fuses.root.toNat).drop (o - 0x110) |>.take 4))
  else 0

/-- The bring-up registers (R590, R591). -/
def Die.rdBoot (d : Die) (o : Nat) : W32 :=
  let c := d.boot.flash.ctl
  if o = 0x200 then
    (if d.fusesRead then
      regOf [(31, b2n d.boot.clean), (30, b2n d.boot.scrubbed), (24, d.boot.lastReset.toNat), (22, c.stateB.toNat), (20, c.stateA.toNat),
        (16, c.tries.toNat), (8, b2n d.boot.rollback), (0, d.boot.svn.toNat)]
     else 0)
  else if o = 0x204 then regOf [(16, d.boot.fullMs.toNat), (0, d.boot.dawnMs.toNat)]
  else if o = 0x210 then regOf [(2, b2n d.boot.warm), (1, b2n d.te1.inReset), (0, b2n d.te0.inReset)]
  else 0

/-- SEC. -/
def Die.rdSec (d : Die) (o : Nat) : W32 :=
  if 0x10000 ≤ o ∧ o < 0x14000 then
    (if d.variant.hasConf then (d.prot ((o - 0x10000) / 0x100)).rd ((o - 0x10000) / 0x100) (o % 0x100) else 0)
  else if o = 0x0 then
    regOf [(31, b2n (!d.sec.scrubs.isEmpty)), (30, b2n (d.sec.prots.any fun c => c.2.sweeping)), (8, b2n d.sec.debugOpen)]
  else if o = 0x4 then d.sec.carveBase
  else if o = 0x8 then d.sec.carveSize
  else if o = 0xC then d.sec.intFails
  else if o < 0x200 then d.rdMgmt o
  else d.rdBoot o

/-- PWR_VOTE (R549). -/
def Die.voteReg (d : Die) : W32 := w32 (d.votes.reverse.foldl (fun (n : Nat) v => 4 * n + v) 0)

/-- PWR_RETAINn is there: banks 64 to 127 are working store 1's (R560). -/
def Die.retainPresent (d : Die) (n : Nat) : Bool := decide (n < 2) || d.hasTe1

/-- PWR (R551, R566, R567). -/
def Die.rdPwr (d : Die) (o : Nat) : W32 :=
  let p := d.pwr
  if o = 0x0 then
    regOf [(31, b2n p.tripped), (30, b2n (decide (p.floor ≠ 0))), (9, b2n p.truncated), (4, d.permitted), (0, p.state.code)]
  else if o = 0x4 then w32 p.maxState.toNat
  else if o = 0x8 then d.voteReg
  else if o = 0xC ∨ o = 0x10 then d.voteReg &&& 0xFF
  else if o = 0x14 then regOf [(31, b2n p.changing.isSome), (16, p.cur.toNat), (8, p.floor.toNat), (0, p.req.toNat)]
  else if o = 0x18 then w32 p.wakeEn.toNat
  else if o = 0x1C then w32 (b2n p.pinEdge)
  else if o = 0x20 then w32 d.wakePending
  else if o = 0x24 then w32 p.holdoff.toNat
  else if o = 0x28 then regOf [(8, p.sensor.toNat), (0, wrapNat 8 p.temp)]
  else if o = 0x2C then p.lastExit
  else if 0x30 ≤ o ∧ o < 0x40 then (if d.retainPresent ((o - 0x30) / 4) then Tab.read 0 p.retain ((o - 0x30) / 4) else 0)
  else if o = 0x58 then p.throttles
  else if 0x60 ≤ o ∧ o < 0x70 then Tab.read 0 p.fcast ((o - 0x60) / 4)
  else if o = 0x150 then p.entDusk
  else if o = 0x154 then p.entNight
  else if o = 0x158 then p.entMidn
  else 0

/-- ALERT_N is low (R607). -/
def Err.alert (e : Err) : Bool :=
  e.recs.any fun c => c.2.valid && (c.2.fatal || bit e.alertEn.toNat c.2.cause.toNat)

/-- Word `j` of record `i`: words 1 to 6 as they were latched (R600). -/
def Die.recWord (d : Die) (i j : Nat) : W32 :=
  let live := nth 0 (d.errRec i).words j
  if 1 ≤ j ∧ j ≤ 6 then
    match d.err.hold.find? fun c => decide (c.1 = i) with
    | some c => nth 0 c.2 (j - 1)
    | none => live
  else live

/-- ERR (R610, R611). -/
def Die.rdErr (d : Die) (o : Nat) : W32 :=
  let valid (i : Nat) : Bool := (d.errRec i).valid
  if 0x10000 ≤ o ∧ o < 0x10920 then d.recWord ((o - 0x10000) / 0x20) (o % 0x20 / 4)
  else if o = 0x0 then
    regOf [(31, b2n (d.err.recs.any fun c => c.2.valid && c.2.fatal)), (30, b2n d.err.alert), (0, countBelow 73 valid)]
  else if o = 0x4 then d.err.irqEn
  else if o = 0x8 then d.err.alertEn
  else if 0x10 ≤ o ∧ o < 0x1C then w32 (bitMap 32 fun b => valid (32 * ((o - 0x10) / 4) + b))
  else if o = 0x20 then regOf [(31, b2n d.err.writeErr), (0, d.err.written.toNat)]
  else 0

/-- HBM (R265, R266). -/
def Die.rdHbm (d : Die) (o : Nat) : W32 :=
  let h := d.hbm
  if o = 0x0 then regOf [(16, h.groups.toNat), (8, h.trained.toNat), (0, b2n h.failed)]
  else if o = 0x4 then w32 h.exclude.toNat
  else if o = 0x8 then regOf [(31, b2n h.failValid), (28, h.failCause.toNat), (0, h.failChan.toNat)]
  else if o = 0xC then
    regOf [(16, h.groupsInUse.length), (8, if h.rate = 0 then 0 else h.capacity), (0, h.rate.toNat)]
  else if o = 0x18 then h.patrol
  else if 0x20 ≤ o ∧ o < 0x30 ∧ bit h.trained.toNat ((o - 0x20) / 4) = true then
    w32 (Config.stackTemp ((o - 0x20) / 4) d.freeCtr).toNat
  else 0

/-- What the register at an offset reads, but for the 64-bit pairs. -/
def Die.regValue (d : Die) (fn off : Nat) : W32 :=
  let o := off % 0x100000
  let r := off / 0x100000
  if r = 0 then d.rdGlb o
  else if r = 1 then d.rdCtx fn o
  else if r = 2 then d.rdXfr o
  else if r = 3 then d.te0.rd d.confIssue o
  else if r = 4 then (if d.hasTe1 then d.te1.rd d.confIssue o else 0)
  else if r = 5 then d.rdAux o
  else if r = 6 then d.rdPst o
  else if r = 7 then d.rdKvp o
  else if r = 8 then d.rdIng o
  else if r = 9 then d.rdFld o
  else if r = 10 then d.rdNwt o
  else if r = 11 then d.rdFab o
  else if r = 12 then d.rdSec o
  else if r = 13 then d.rdPwr o
  else if r = 14 then d.rdErr o
  else if r = 15 then d.rdHbm o
  else 0

/-- What a read does besides: RXSTAT0 clears RXSTAT_NEW (R409), HDR latches the record's words (R600), a stack's temperature
is read anew. -/
def Die.readEffect (d : Die) (off : Nat) : Die :=
  let o := off % 0x100000
  let r := off / 0x100000
  if r = 9 ∧ 0x2000 ≤ o ∧ o < 0x2200 ∧ o % 0x40 = 0 ∧ d.loopPresent (fldLoop o) = true then
    d.updLoop (fldLoop o) fun l => { l with rxNew := false }
  else if r = 14 ∧ 0x10000 ≤ o ∧ o < 0x10920 ∧ o % 0x20 = 0 then
    let i := (o - 0x10000) / 0x20
    { d with err := { d.err with hold := [(i, ((d.errRec i).words.drop 1).take 6)] } }
  else if r = 15 ∧ 0x20 ≤ o ∧ o < 0x30 then d.drawFree
  else d

/-- A 32-bit read with the holding registers of reader `fn`: the die after it, and the value (R13). -/
def Die.regTake (d : Die) (fn off : Nat) : Die × W32 :=
  match d.counter64 fn off with
  | some v => ({ d with latch := Tab.write 0 d.latch (latchKey fn (off + 4)) (hiHalf v) }, loHalf v)
  | none =>
    if 4 ≤ off ∧ (d.counter64 fn (off - 4)).isSome = true then
      (d, if off = 0x24 ∧ d.confArmed fn = true then 0 else Tab.read 0 d.latch (latchKey fn off))
    else (d.readEffect off, d.regValue fn off)

/-- A 32-bit read by a function, of a register it reaches (R9 to R12, R26, R576): the die after it, and the value. -/
def Die.regRead (d : Die) (fn off : Nat) : Die × W32 :=
  if d.reaches fn off && d.readOpen off then (d.settled off).regTake fn off else (d, 0)

/-! ### Writes, region by region -/

/-- GLB, by the physical function (R11, R27, R32). -/
def Die.wrGlb (d : Die) (o : Nat) (v : W32) : Die :=
  if o = 0xC then { d with glb := { d.glb with lock := d.glb.lock || v.getLsbD 0 } }
  else if o = 0x10 then (if d.glb.lock then d else { d with glb := { d.glb with boardId := v } })
  else if o = 0x14 then { d with glb := { d.glb with scratch := v } }
  else d

/-- The job record: who may write what, and when (R432). -/
def Slot.wrRecord (x : Slot) (fn s o : Nat) (v : W32) : Slot :=
  if o < 0x30 then
    if fn ≠ 0 ∨ x.state ≠ .free then x
    else if o = 0x0 then { x with memBase := v &&& 0x3FFFF }
    else if o = 0x4 then { x with memSize := v &&& 0x3FFFF }
    else if o = 0x8 then { x with ws0 := v &&& 0x07FF03FF }
    else if o = 0xC then { x with ws1 := v &&& 0x07FF03FF }
    else if o = 0x10 then { x with lb := v &&& 0x07FF03FF }
    else if o = 0x14 then { x with seq := v &&& 0x1FFF0FFF }
    else if o = 0x18 then { x with pageBase := v &&& 0x1FFFF }
    else if o = 0x1C then { x with pageCnt := v &&& 0x3FFFF }
    else if o = 0x20 then { x with jobId := v }
    else x
  else if fn ≠ s ∨ ¬ (x.state = .granted ∨ x.state = .loaded ∨ x.state = .aborted) then x
  else if o = 0x30 then { x with imageLo := v }
  else if o = 0x34 then { x with imageHi := v &&& 0xFF }
  else if o = 0x38 then { x with imageLen := v }
  else if o = 0x3C then { x with runCtrl := v &&& 0x3 }
  else x

/-- Writes to a calendar bank are ignored while it is active, or while a swap is pending (R445). -/
def Cal.bankOpen (c : Cal) (b : Bool) : Bool := c.active != b && !c.swapPend

/-- CTX but for the commands (R432, R445, R450). -/
def Die.wrCtx (d : Die) (fn o : Nat) (v : W32) : Die :=
  let c := d.ctx.cal
  let cal (c : Cal) : Die := { d with ctx := { d.ctx with cal := c } }
  if 0x10000 ≤ o ∧ o < 0x14000 then
    let s := (o - 0x10000) / 0x100
    let r := o % 0x100
    if r = 0x44 then d.armSlot fn s v
    else if r = 0x54 then d.updSlot s fun x => { x with missed := v }
    else if r < 0x40 then d.updSlot s fun x => x.wrRecord fn s r v
    else d
  else if 0x1000 ≤ o ∧ o < 0x1800 then
    (if c.bankOpen false then cal { c with bank0 := Tab.write 0 c.bank0 ((o - 0x1000) / 4) (v &&& 0x3FFFFFFF) } else d)
  else if 0x1800 ≤ o ∧ o < 0x2000 then
    (if c.bankOpen true then cal { c with bank1 := Tab.write 0 c.bank1 ((o - 0x1800) / 4) (v &&& 0x3FFFFFFF) } else d)
  else if o = 0x0 then d.calCtrlWrite v
  else if o = 0x4 then (if c.enable then d else cal { c with quantum := v })
  else if o = 0x8 then (if c.enable then d else cal { c with phase := v })
  else if o = 0xC then d.calSwapWrite v
  else if o = 0x14 then (if c.bankOpen false then cal { c with count0 := v.setWidth 10 } else d)
  else if o = 0x18 then (if c.bankOpen true then cal { c with count1 := v.setWidth 10 } else d)
  else if o = 0x28 then { d with ctx := { d.ctx with hostViol := v } }
  else d

/-- XFR. -/
def Die.wrXfr (d : Die) (o : Nat) (v : W32) : Die :=
  if o = 0x8000 then { d with iss := { d.iss with tallyTimeout := v } }
  else if o = 0x8010 then { d with iss := { d.iss with launchDrop := v } }
  else if o = 0x8018 then { d with iss := { d.iss with agEmpty := d.iss.agEmpty &&& ~~~(v.setWidth 7) } }
  else if 0x8020 ≤ o ∧ o < 0x8040 then
    { d with iss := { d.iss with sat := d.iss.sat &&& ~~~((v.setWidth 256) <<< (32 * ((o - 0x8020) / 4))) } }
  else if o = 0x9008 then { d with xfr := { d.xfr with reqPeak := v.setWidth 16 } }
  else if o = 0x900C then { d with xfr := { d.xfr with grantViol := v } }
  else if o = 0x9010 then { d with xfr := { d.xfr with eccCorr := v } }
  else d

/-- An engine region. -/
def Engine.wr (e : Engine) (o : Nat) (v : W32) : Engine :=
  if o = 0x4 then { e with accSat := v }
  else if o = 0x8 then { e with vecSat := v }
  else if o = 0x28 then { e with forceExact := v.getLsbD 0 }
  else if o = 0x2C then { e with sidecarSat := v }
  else if o = 0x48 then { e with cvtSat := v }
  else if o = 0x4C then { e with nanVcvt := e.nanVcvt && !v.getLsbD 1, nanFinal := e.nanFinal && !v.getLsbD 0 }
  else e

/-- FLN; MCA has no register that a write changes. -/
def Die.wrAux (d : Die) (o : Nat) (v : W32) : Die :=
  if o = 0x4 then { d with fln := { d.fln with accSat := v } }
  else if o = 0x8 then { d with fln := { d.fln with nan := d.fln.nan && !v.getLsbD 0 } }
  else d

/-- PST. -/
def Die.wrPst (d : Die) (o : Nat) (v : W32) : Die :=
  if o = 0x4 then { d with pst := { d.pst with sat := v } }
  else if o = 0x8 then
    { d with pst := { d.pst with allNan := d.pst.allNan && !v.getLsbD 1, narrow := d.pst.narrow && !v.getLsbD 0 } }
  else if o = 0xC then { d with pst := { d.pst with extrap := v } }
  else d

/-- KVP. -/
def Die.wrKvp (d : Die) (fn o : Nat) (v : W32) : Die :=
  if 0x10000 ≤ o ∧ o < 0x11000 then
    let s := (o - 0x10000) / 0x40
    let r := o % 0x40
    if r = 0x0 then d.updKvCmd s fun c => { c with arg0 := v &&& 0x0FFFFFFF }
    else if r = 0x4 then d.updKvCmd s fun c => { c with arg1 := v &&& 0x0FFF0FFF }
    else if r = 0x8 then d.updKvCmd s fun c => { c with arg2 := v &&& 0x1FFFF }
    else if r = 0xC then d.kvGo fn s (wbits v 3 0)
    else if r = 0x18 then d.kvPublishWrite fn s (v &&& 0x1FFFF)
    else d
  else if o = 0x28 then { d with kvp := { d.kvp with unmapped := v } }
  else if o = 0x2C then { d with kvp := { d.kvp with copies := v } }
  else d

/-- A stream's registers but CTRL: the configuration holds while the stream is enabled (R283). -/
def Stream.wr (x : Stream) (o : Nat) (v : W32) : Stream :=
  if o = 0x20 then { x with drops := v }
  else if o = 0x24 then { x with frames := v }
  else if o = 0x28 then { x with sat := v }
  else if x.enabled then x
  else if o = 0x4 then { x with geom := v &&& 0x3FFF3FFF }
  else if o = 0x8 then { x with ring := v &&& 0x00FF3F7F }
  else if o = 0xC then { x with base := v &&& 0x007FFFFF }
  else if o = 0x10 then { x with pitch := v &&& 0xFFFF }
  else if o = 0x14 then { x with conv := v &&& 0xFFFFF }
  else if o = 0x18 then { x with bind := v &&& 0x003FFFFF }
  else x

/-- ING. -/
def Die.wrIng (d : Die) (o : Nat) (v : W32) : Die :=
  if 0x1000 ≤ o ∧ o < 0x1400 then
    let m := (o - 0x1000) / 0x40
    if !d.streamPresent m then d
    else if o % 0x40 = 0 then d.streamCtrlWrite m v
    else d.updStream m fun x => x.wr (o % 0x40) v
  else if o = 0x4 then { d with ing := { d.ing with unclaimed := v } }
  else if o = 0x8 then { d with ing := { d.ing with latency := v.setWidth 16 } }
  else if o = 0x10 then { d with ing := { d.ing with steps := v } }
  else d

/-- A loop's registers but BIND: the configuration holds while the loop is enabled (R394). -/
def Loop.wr (l : Loop) (o : Nat) (v : W32) : Loop :=
  if o = 0x1C then { l with misses := v }
  else if o = 0x20 then { l with commands := v }
  else if o = 0x24 then { l with late := v }
  else if l.enable then l
  else if o = 0x4 then { l with tally := v &&& 0x1FF }
  else if o = 0x8 then { l with period := v }
  else if o = 0xC then { l with phase := v }
  else if o = 0x10 then { l with deadline := v }
  else if o = 0x14 then { l with guard := v &&& 0x00FFFF01 }
  else l

def FldPort.wr (x : FldPort) (o : Nat) (v : W32) : FldPort :=
  if o = 0x8 then { x with rxFrames := v }
  else if o = 0xC then { x with rxErr := v }
  else if o = 0x10 then { x with txFrames := v }
  else x

/-- FLD; the SAFE table is locked with the region (R11, R401). -/
def Die.wrFld (d : Die) (o : Nat) (v : W32) : Die :=
  if 0x1000 ≤ o ∧ o < 0x1200 then
    if !d.loopPresent (fldLoop o) then d
    else if o % 0x40 = 0 then d.bindWrite (fldLoop o) v
    else d.updLoop (fldLoop o) fun l => l.wr (o % 0x40) v
  else if 0x3000 ≤ o ∧ o < 0x3200 ∧ o % 0x40 < 0x30 then
    (if d.fld.lock || !d.loopPresent (fldLoop o) then d
     else { d with fld := { d.fld with safe := Tab.write 0 d.fld.safe (12 * fldLoop o + o % 0x40 / 4) v } })
  else if 0x100 ≤ o ∧ o < 0x180 then
    let p := (o - 0x100) / 0x20
    if o % 0x20 = 0 then d.portCtrlWrite p v else d.updFport p fun x => x.wr (o % 0x20) v
  else if o = 0x4 then { d with fld := { d.fld with lock := d.fld.lock || v.getLsbD 0 } }
  else if o = 0x8 then d.hbPeriodWrite v
  else if o = 0xC then { d with fld := { d.fld with msgRxErr := v } }
  else if o = 0x18 then { d with fld := { d.fld with foreign := v } }
  else d

/-- NWT. -/
def Die.wrNwt (d : Die) (o : Nat) (v : W32) : Die :=
  if o = 0x0 then d.nwtCtrlWrite v
  else if o = 0x8 then { d with nwt := { d.nwt with pend := d.nwt.pend &&& ~~~(v.setWidth 8) } }
  else if o = 0x14 then { d with nwt := { d.nwt with frames := v } }
  else if o = 0x18 then { d with nwt := { d.nwt with skipped := v } }
  else if o = 0x1C then { d with nwt := { d.nwt with sbErr := v } }
  else d

/-- FAB: the host writes its RW counts only (R480). -/
def Die.wrFab (d : Die) (o : Nat) (v : W32) : Die :=
  if 0x100 ≤ o ∧ o < 0x300 then
    let p := (o - 0x100) / 0x40
    if !d.portPresent p then d
    else if o % 0x40 = 0x28 then d.updTport p fun x => { x with replays := v }
    else if o % 0x40 = 0x2C then d.updTport p fun x => { x with crcErrs := v }
    else d
  else if o = 0x10 then { d with fab := { d.fab with misses := v } }
  else if o = 0x14 then { d with fab := { d.fab with ttlDrops := v } }
  else if o = 0x18 then { d with fab := { d.fab with discards := v } }
  else if o = 0x1C then { d with fab := { d.fab with authFails := v } }
  else d

/-- A slot's page of SEC but CMD: the operands hold while a command is pending (R511). -/
def Prot.wr (q : Prot) (o : Nat) (v : W32) : Prot :=
  if q.pending then q
  else if o = 0x10 then { q with srcLo := v }
  else if o = 0x14 then { q with srcHi := v &&& 0xFF }
  else if o = 0x18 then { q with dstLo := v }
  else if o = 0x1C then { q with dstHi := v &&& 0xFF }
  else if o = 0x20 then { q with len := v }
  else if 0x40 ≤ o ∧ o < 0x70 then { q with signer := Tab.write 0 q.signer ((o - 0x40) / 4) v }
  else q

/-- SEC. -/
def Die.wrSec (d : Die) (fn o : Nat) (v : W32) : Die :=
  if 0x10000 ≤ o ∧ o < 0x14000 then
    let s := (o - 0x10000) / 0x100
    if d.variant.hasConf = false ∨ fn ≠ s then d
    else if o % 0x100 = 0x4 then d.secCmd fn s (wbits v 3 0)
    else d.updProt s fun q => q.wr (o % 0x100) v
  else if o = 0xC then { d with sec := { d.sec with intFails := v } }
  else if o = 0x208 then d.confirmWrite v
  else if o = 0x20C then d.resetCtrlWrite v
  else d

/-- PWR. -/
def Die.wrPwr (d : Die) (o : Nat) (v : W32) : Die :=
  let p := d.pwr
  let pwr (p : Pwr) : Die := { d with pwr := p }
  if o = 0x4 then pwr { p with maxState := v.setWidth 2 }
  else if o = 0xC then d.voteSet v
  else if o = 0x10 then d.voteClr v
  else if o = 0x14 then d.plevelWrite v
  else if o = 0x18 then pwr { p with wakeEn := v.setWidth 7 }
  else if o = 0x1C then pwr (p.wakeCfgWrite v)
  else if o = 0x20 then pwr (p.pendingWrite v)
  else if o = 0x24 then pwr { p with holdoff := v.setWidth 24 }
  else if 0x30 ≤ o ∧ o < 0x40 then
    (if d.retainPresent ((o - 0x30) / 4) then pwr { p with retain := Tab.write 0 p.retain ((o - 0x30) / 4) v } else d)
  else if o = 0x48 then pwr { p with timer := hiHalf p.timer ++ v }
  else if o = 0x4C then pwr { p with timer := v ++ loHalf p.timer }
  else if o = 0x58 then pwr { p with throttles := v }
  else if o = 0x150 then pwr { p with entDusk := v }
  else if o = 0x154 then pwr { p with entNight := v }
  else if o = 0x158 then pwr { p with entMidn := v }
  else d

/-- A write of ERR_RECi_HDR: VALID clears the record (R599). DEDUCED (log entry 131): the events of its cycle come after it. -/
def Die.recClear (d : Die) (i : Nat) (v : W32) : Die :=
  if v.getLsbD 31 then
    ((d.cycleEvents i).foldl (fun (d : Die) e => d.recordEvent i e) { d with err := d.err.clear i }).keepFirst i
  else d

/-- ERR. -/
def Die.wrErr (d : Die) (o : Nat) (v : W32) : Die :=
  if 0x10000 ≤ o ∧ o < 0x10920 then (if o % 0x20 = 0 then d.recClear ((o - 0x10000) / 0x20) v else d)
  else if o = 0x4 then { d with err := { d.err with irqEn := v &&& 0x1FFFE } }
  else if o = 0x8 then { d with err := { d.err with alertEn := v &&& 0x1FFFE } }
  else d

/-- A write in a region, by a function that reaches it. -/
def Die.wrRegion (d : Die) (fn off : Nat) (v : W32) : Die :=
  let d := d.settled off
  let o := off % 0x100000
  let r := off / 0x100000
  if r = 1 then d.wrCtx fn o v
  else if r = 2 then d.wrXfr o v
  else if r = 3 then { d with te0 := d.te0.wr o v }
  else if r = 4 then (if d.hasTe1 then { d with te1 := d.te1.wr o v } else d)
  else if r = 5 then d.wrAux o v
  else if r = 6 then d.wrPst o v
  else if r = 7 then d.wrKvp fn o v
  else if r = 8 then d.wrIng o v
  else if r = 9 then d.wrFld o v
  else if r = 10 then d.wrNwt o v
  else if r = 11 then d.wrFab o v
  else if r = 12 then d.wrSec fn o v
  else if r = 13 then d.wrPwr o v
  else if r = 14 then d.wrErr o v
  else d

/-- CTX_CMDs of slot s lies at the offset; a GRANT in Dawn service is answered (R576). -/
def cmdSlot (off : Nat) : Option Nat :=
  if 0x110000 ≤ off ∧ off < 0x114000 ∧ off % 0x100 = 0x40 then some ((off - 0x110000) / 0x100) else none

/-- A 32-bit write by a function (R9 to R12, R26). -/
def Die.regWrite (d : Die) (fn off : Nat) (v : W32) : Die :=
  if off < 0x100000 then (if fn = 0 then d.wrGlb off v else d)
  else if !d.reaches fn off then d
  else
    match cmdSlot off with
    | some s => d.ctxCmd fn s (wbits v 3 0)
    | none => if d.hostOpen then d.wrRegion fn off v else d

end Sys2Proof.Machine
end

