-- ==== Sys2Proof/Machine/Debug.lean ====
section
/-! DEFINITION. The die's boundary: what each group of outputs does, which follows from the state (R613 to R616, R620), and the debug
port (R531, R627). -/

namespace Sys2Proof.Machine

/-! ### The outputs (R613 to R616) -/

/-- The groups of R613 that the die drives, and SPI_CS_N, which rests at a level of its own. -/
inductive PinGroup where
  | hbm (site : Fin 4)
  | mainline (module1 : Bool)
  | sideband (module1 : Bool)
  | fieldTx (port : Fin 4)
  | mgmtTx | i3c | flash | spiCs | vcoreEn | vid | sealOut | alertN | tdo
deriving DecidableEq, Repr

/-- What a group does: floats; drives a level; drives what its unit sends, or its idle pattern; is let go by an open-drain driver;
rests with its stacks in self-refresh or untrained, or in the deepest link state; or drives what EXTEST has scanned in. -/
inductive Drive where
  | highZ
  | level (v : Nat)
  | driven
  | released
  | selfRefresh
  | deepest
  | scanned (pins : W64)
deriving DecidableEq, Repr

/-- The stacks rest: untrained, or in self-refresh (R615). -/
def Die.siteDriven (d : Die) (site : Nat) : Bool := bit d.hbm.trained.toNat site && !d.hbm.selfRef

/-- The mainlines rest in their deepest link state from cycle 48 of an entry (R554). -/
def Die.mainlineRests (d : Die) : Bool :=
  !d.mainline || (match d.pwr.entry with | some (t, _) => t.deep && decide (48 ≤ d.seqAt) | none => false)

/-- The module carries a fabric port of the variant: module 1 carries ports 4 to 7 alone (R455). -/
def Die.moduleFitted (d : Die) (module1 : Bool) : Bool := !module1 || decide (4 < d.variant.fabPorts)

/-- What a group does in a die that is out of reset: HBM4 sites and fabric ports that are fused off float from power-on (R613), and so
does what a trip has switched off (R548). DEDUCED (log entry 127): a sideband has been initialised once firmware runs. -/
def Die.drives (d : Die) : PinGroup → Drive
  | .hbm site =>
    if d.variant.sites ≤ site.val ∨ d.pwr.tripped = true then .highZ else if d.siteDriven site.val then .driven else .selfRefresh
  | .mainline module1 => if !(d.fabPowered && d.moduleFitted module1) then .highZ else if d.mainlineRests then .deepest else .driven
  | .sideband module1 => if !d.boot.fwRuns || (module1 && !d.fabPowered) then .highZ else .driven
  | .fieldTx p => if d.fldPowered && (d.fport p.val).enable then .driven else .highZ
  | .mgmtTx => if d.mgtRuns then .driven else .highZ
  | .i3c => if d.mgtRuns then .released else .highZ
  | .flash => .highZ
  | .spiCs => if d.mgtRuns then .level 1 else .highZ
  | .vcoreEn => match d.pwr.vcoreEn with | some b => .level (b2n b) | none => .highZ
  | .vid => match d.pwr.vid with | some v => .level v.toNat | none => .highZ
  | .sealOut => .level (b2n (d.mgmt.lfsr.getLsbD 0))
  | .alertN => if d.err.alert then .level 0 else .released
  | .tdo => .highZ

/-- What a group of outputs does between two transfers (R614 to R616, R620): nothing without power or in reset; EXTEST overrides
the rest (R627). -/
def Die.pin (d : Die) (g : PinGroup) : Drive :=
  if d.pinsOff then .highZ
  else
    match d.mgmt.jtagIr, d.mgmt.jtagPins with
    | .extest _, some pins => .scanned pins
    | _, _ => d.drives g

/-! ### The debug port (R627) -/

/-- Boundary-scan instructions are accepted. -/
def Die.scanOpen (d : Die) : Bool := decide (d.fuses.lifecycle = 1) || d.sec.debugOpen || decide (d.glb.service = 3)

/-- The registers that debug reaches: of the engines, of the bundle issue, tallies and threads, and of the post units. -/
def debugReg (off : Nat) : Bool := decide (2 ≤ off / 0x100000 ∧ off / 0x100000 ≤ 6)

/-- Bytes of an on-die store, by the index of R594 (R17, R19, R227); those of index 5 are the program, descriptor and template memories,
one after the other, each from a multiple of 4 MiB. DESIGN CHOICE (log entry 80): the places within index 5 and index 6. -/
def Die.storeHolds (d : Die) (store a : Nat) : Bool :=
  match store with
  | 0 => decide (a < 0x4000000)
  | 1 => d.hasTe1 && decide (a < 0x4000000)
  | 2 => decide (a < 0x800000)
  | 3 => decide (a < 0x400000)
  | 4 => decide (a < 0x100000)
  | 5 => decide (a < 0x300000) || decide (0x400000 ≤ a ∧ a < 0x420000) || decide (0x800000 ≤ a ∧ a < 0x820000)
  | 6 => decide (a < 0x200000)
  | _ => false

/-- The store is powered and clocked: the Nightwatch store always is (R422), the others while the die is awake and has not tripped. -/
def Die.storeUp (d : Die) (store : Nat) : Bool := decide (store = 6) || (d.awake && !d.pwr.tripped)

/-- Where BG lies in the Nightwatch store, two bytes a pixel. -/
def nwtBgBase : Nat := 0x4000

/-- A byte of the Nightwatch store. -/
def Nwt.storeByte (n : Nwt) (a : Nat) : Byte :=
  if a < nwtWeightBytes then byteOf n.param a
  else if nwtBgBase ≤ a ∧ a < nwtBgBase + 38400 then
    byteOf (leBytes 2 (Tab.read 0 n.bg ((a - nwtBgBase) / 2))) ((a - nwtBgBase) % 2)
  else Tab.read 0 n.rest a

/-- A byte of the Nightwatch store changes. -/
def Nwt.putByte (n : Nwt) (a : Nat) (b : Byte) : Nwt :=
  if a < nwtWeightBytes then { n with param := ((n.param ++ List.replicate (a + 1 - n.param.length) 0).set a b) }
  else if nwtBgBase ≤ a ∧ a < nwtBgBase + 38400 then
    let i := (a - nwtBgBase) / 2
    { n with bg := Tab.write 0 n.bg i (leNat ((leBytes 2 (Tab.read 0 n.bg i)).set ((a - nwtBgBase) % 2) b)) }
  else { n with rest := Tab.write 0 n.rest a b }

/-- A byte of an on-die store that the debug port reads; 0x00 where there is none, or while the store is off. -/
def Die.debugByte (d : Die) (store a : Nat) : Byte :=
  if d.storeHolds store a && d.storeUp store then
    match store with
    | 0 => Tab.read 0 d.st.ws0 a
    | 1 => Tab.read 0 d.st.ws1 a
    | 2 => Tab.read 0 d.st.lb a
    | 3 => Tab.read 0 d.st.instr a
    | 4 => Tab.read 0 d.st.xprog a
    | 5 => if a < 0x400000 then Tab.read 0 d.st.ag a else if a < 0x800000 then Tab.read 0 d.st.desc (a - 0x400000)
           else Tab.read 0 d.st.tmpl (a - 0x800000)
    | _ => d.nwt.storeByte a
  else 0

/-- A byte of a memory that only bundles and threads read. -/
def Stores.putByte (x : Stores) (store a : Nat) (b : Byte) : Stores :=
  if store = 3 then { x with instr := Tab.write 0 x.instr a b }
  else if store = 4 then { x with xprog := Tab.write 0 x.xprog a b }
  else if a < 0x400000 then { x with ag := Tab.write 0 x.ag a b }
  else if a < 0x800000 then { x with desc := Tab.write 0 x.desc (a - 0x400000) b }
  else { x with tmpl := Tab.write 0 x.tmpl (a - 0x800000) b }

/-- A byte of an on-die store that the debug port writes, in the present cycle: the working stores and the line buffers as any other
write of theirs is (R128, R129). Nothing happens where there is no such byte, or while the store is off. -/
def Die.debugPut (d : Die) (store a : Nat) (b : Byte) : Die :=
  if d.storeHolds store a && d.storeUp store then
    if store ≤ 2 then d.storeWrite (store + 1) a [b]
    else if store = 6 then { d with nwt := d.nwt.putByte a b }
    else { d with st := d.st.putByte store a b }
  else d

/-- What a Creholt instruction does (R531): never in the security block or the management core. A register access is an aligned word
(R9); one that is not reads 0 or is ignored. DESIGN CHOICE (log entry 80): a read of a 64-bit pair uses the holding register of the
physical function (R13 names the functions and the management core alone), so that it replaces what that function's next read of the
high word returns. -/
def Die.debugOp (d : Die) (op : DebugOp) : Die :=
  match op with
  | .readReg off =>
    if debugReg off.toNat then
      if off.toNat % 4 = 0 then
        let r := (d.settled off.toNat).regTake 0 off.toNat
        r.1.send (.tdo (leBytes 4 r.2.toNat))
      else d.send (.tdo (leBytes 4 0))
    else d
  | .writeReg off v => if debugReg off.toNat && decide (off.toNat % 4 = 0) then d.wrRegion 0 off.toNat v else d
  | .readStore i a =>
    let d := d.landReadable
    d.send (.tdo [d.debugByte i a])
  | .writeStore i a b => d.debugPut i a b

/-- The instruction in force after a shift: a rejected one acts as BYPASS. With DEBUG_OPEN a Creholt instruction is in force and
does what it asks (R531, R627). -/
def Die.jtag (d : Die) (i : DebugInstr) : Die :=
  let set (i : DebugInstr) : Die := { d with mgmt := { d.mgmt with jtagIr := i } }
  match i with
  | .bypass => set .bypass
  | .idcode => set .idcode
  | .samplePreload => set (if d.scanOpen then .samplePreload else .bypass)
  | .extest pins =>
    if d.scanOpen then { d with mgmt := { d.mgmt with jtagIr := .extest pins, jtagPins := some pins } } else set .bypass
  | .creholt op => if d.sec.debugOpen then (set (.creholt op)).debugOp op else set .bypass
  | .unknown _ => set .bypass


/-! ### The command -/

/-- DEBUG_PORT_INSTRUCTION (R627). -/
def execDebugPortInstruction (i : DebugInstr) (s : State) : Host.Outcome State Fault Refusal := s.act fun d => d.jtag i

end Sys2Proof.Machine
end

