-- ==== Sys2Proof/Machine/Message.lean ====
section
/-! DEFINITION. Class-0x2 messages (R429, R430): register reads and writes, memory reads and writes, their order, and those
that wait for a scrub (R504) or for the exit from Dusk (R556); the fault records' clear and flash entries (R599, R609). -/

namespace Sys2Proof.Machine

/-! ### Registers -/

/-- A register message is an aligned 32-bit word (R9). -/
def regAligned (off bytes : Nat) : Bool := decide (bytes = 4 ∧ off % 4 = 0)

/-- REG_RD is answered with REG_CPL. -/
def Die.rdMsg (d : Die) (fn : Nat) (tag : BitVec 16) (off bytes : Nat) : Die :=
  if regAligned off bytes then
    let r := d.regRead fn off
    r.1.sendHost (.regCpl fn tag (BitVec.ofNat 24 off) r.2)
  else d.sendHost (.regCpl fn tag (BitVec.ofNat 24 off) 0)

def Die.wrMsg (d : Die) (fn off bytes : Nat) (v : W32) : Die := if regAligned off bytes then d.regWrite fn off v else d

/-! ### Memory -/

/-- Where a memory message of function s lands: inside the grant of slot s and one 256-byte block, and neither while the
slot is PROTECTED and CONFIG_LOCKED nor while it departs (R430, R486, R488). -/
def Die.memPhys (d : Die) (fn addr len : Nat) : Option Nat :=
  let q := d.prot fn
  if q.departing ∨ (q.protected_ = true ∧ q.tdi = .locked) ∨ len = 0 ∨ 256 < addr % 256 + len then none
  else (d.slot fn).phys addr len

/-- Each refusal adds 1 to CTX_HOST_VIOL. -/
def Die.memRefused (d : Die) : Die := { d with ctx := { d.ctx with hostViol := satInc32 d.ctx.hostViol 1 } }

/-- A memory message: refused, waiting for a scrub, ended in an error, or carried out. -/
def Die.memMsg (d : Die) (m : HostMsg) (fn addr len : Nat) (res : Access) (write : Bool) (fail : Die → Die)
    (ok : Die → Nat → Die) : Die :=
  match d.memPhys fn addr len with
  | none => fail d.memRefused
  | some p =>
    if d.scrubbing p len then { d with ctx := { d.ctx with held := d.ctx.held ++ [m] } }
    else
      let a := d.accessed res (if write then [] else [(p, len)]) (if write then [(p, len)] else []) (some fn)
      if a.2 then fail a.1 else ok a.1 p

/-- MEM_RD is answered with MEM_CPL: the bytes, or ERR and zero bytes. -/
def Die.memRdMsg (d : Die) (fn : Nat) (tag : BitVec 16) (addr len : Nat) (res : Access) : Die :=
  d.memMsg (.memRd fn tag addr len res) fn addr len res false
    (fun d => d.sendHost (.memCpl fn tag (BitVec.ofNat 40 addr) true (List.replicate len 0)))
    (fun d p => d.sendHost (.memCpl fn tag (BitVec.ofNat 40 addr) false (Mem.read d.st.hbm p len)))

/-- MEM_WR lands, or is discarded. -/
def Die.memWrMsg (d : Die) (fn addr : Nat) (data : List Byte) (res : Access) : Die :=
  d.memMsg (.memWr fn addr data res) fn addr data.length res true (fun d => d)
    (fun d p => { d with st := { d.st with hbm := Mem.write d.st.hbm p data } })

/-- Kinds 0x7 to 0xF are discarded and counted (R429). -/
def Die.reservedMsg (d : Die) (kind : Nat) : Die := if 7 ≤ kind then d.unclaimed else d

/-! ### Messages that waited -/

def Die.message (d : Die) : HostMsg → Die
  | .rd fn tag off bytes => d.rdMsg fn tag off bytes
  | .wr fn off bytes v => d.wrMsg fn off bytes v
  | .memRd fn tag addr len res => d.memRdMsg fn tag addr len res
  | .memWr fn addr data res => d.memWrMsg fn addr data res
  | .reserved kind => d.reservedMsg kind

/-- Messages take effect in arrival order. -/
def Die.messages (d : Die) (ms : List HostMsg) : Die := ms.foldl (fun (d : Die) m => d.inOrder m fun d => d.message m) d

/-- What waited for a scrub goes on. -/
def Die.releaseHeld (d : Die) : Die := Die.messages { d with ctx := { d.ctx with held := [] } } d.ctx.held

/-- The exit ends: the die is active, held messages are processed, a held reset begins (R556, R559, R583). -/
def Die.exitEnd (d : Die) : Die :=
  if d.exitEndDue then
    let d := d.wakeUp
    let ms := d.pwr.held
    let d := Die.messages { d with pwr := { d.pwr with held := [] } } ms
    d.heldReset
  else d

/-! ### Fatal records in flash (R609) -/

/-- Entries of the flash area. -/
def fatalEntries : Nat := 176 * 64

/-- An entry of 64 bytes. -/
def Die.fatalEntry (d : Die) (r : Rec) : List Byte :=
  let body := leBytes 4 (d.boot.flash.fatalSeq + 1) ++ ((r.words.take 7).flatMap fun w => leBytes 4 w.toNat) ++
    leBytes 8 d.time.aon.toNat ++ leBytes 8 (b2n d.boot.runSlotB + 256 * d.boot.svn.toNat) ++ List.replicate 12 0
  body ++ leBytes 4 (crc32c body)

/-- Entries are written in ascending order; a full area loses its oldest sector first. -/
def Flash.addFatal (f : Flash) (e : List Byte) : Flash :=
  { f with fatal := (if fatalEntries ≤ f.fatal.length then f.fatal.drop 64 else f.fatal) ++ [e], fatalSeq := f.fatalSeq + 1 }

def Die.fatalWrite (d : Die) (i : Nat) (flashOk : Bool) : Die :=
  if d.err.toFlash.contains i then
    let r := d.err.forFlash i
    let e := { d.err with toFlash := d.err.toFlash.erase i, cleared := Tab.write [] d.err.cleared i ((Tab.read [] d.err.cleared i).drop 1),
                          writeErr := !flashOk }
    if flashOk then
      Die.updFlash { d with err := { e with written := BitVec.ofNat 16 (satAdd 0xFFFF e.written.toNat 1) } } fun f => f.addFatal (d.fatalEntry r)
    else { d with err := e }
  else d

/-! ### The commands -/

/-- REG_RD (R430). -/
def execRegRd (fn : Fin 64) (tag : BitVec 16) (off : BitVec 24) (bytes : Nat) (s : State) : Host.Outcome State Fault Refusal :=
  s.act fun d => d.hostMsg (.rd fn.val tag off.toNat bytes) fun d => d.rdMsg fn.val tag off.toNat bytes

/-- REG_WR (R430). -/
def execRegWr (fn : Fin 64) (off : BitVec 24) (bytes : Nat) (val : W32) (s : State) : Host.Outcome State Fault Refusal :=
  s.act fun d => d.hostMsg (.wr fn.val off.toNat bytes val) fun d => d.wrMsg fn.val off.toNat bytes val

/-- MEM_RD (R430); `len` is the read length minus one. -/
def execMemRd (fn : Fin 64) (tag : BitVec 16) (addr : BitVec 40) (len : BitVec 8) (res : Access) (s : State) :
    Host.Outcome State Fault Refusal :=
  s.act fun d => d.hostMsg (.memRd fn.val tag addr.toNat (len.toNat + 1) res) fun d => d.memRdMsg fn.val tag addr.toNat (len.toNat + 1) res

/-- MEM_WR (R430). -/
def execMemWr (fn : Fin 64) (addr : BitVec 40) (data : List Byte) (res : Access) (s : State) : Host.Outcome State Fault Refusal :=
  s.act fun d => d.hostMsg (.memWr fn.val addr.toNat data res) fun d => d.memWrMsg fn.val addr.toNat data res

/-- RESERVED_HOST_KIND (R429). -/
def execReservedHostKind (kind : BitVec 4) (s : State) : Host.Outcome State Fault Refusal :=
  s.act fun d => d.hostMsg (.reserved kind.toNat) fun d => d.reservedMsg kind.toNat

/-- REGISTER_WRITE (R10): an aligned 32-bit write. -/
def execRegisterWrite (fn : Fin 64) (off : BitVec 24) (val : W32) (s : State) : Host.Outcome State Fault Refusal :=
  s.act fun d => d.hostMsg (.wr fn.val off.toNat 4 val) fun d => d.wrMsg fn.val off.toNat 4 val

/-- REG64_LO_READ (R13): a read of a 64-bit counter's low word; an absent unit's reads 0 (R6). -/
def execReg64LoRead (fn : Fin 64) (tag : BitVec 16) (off : BitVec 24) (s : State) : Host.Outcome State Fault Refusal :=
  s.act fun d =>
    if (d.counter64 fn.val off.toNat).isSome || d.absentPair off.toNat then
      d.hostMsg (.rd fn.val tag off.toNat 4) fun d => d.rdMsg fn.val tag off.toNat 4
    else d

/-- REGION_LOCK_SET (R11): a write of GLB_LOCK or FLD_LOCK. -/
def execRegionLockSet (fn : Fin 64) (off : BitVec 24) (val : W32) (s : State) : Host.Outcome State Fault Refusal :=
  s.act fun d =>
    if off.toNat = 0xC ∨ off.toNat = offFld 4 then
      d.hostMsg (.wr fn.val off.toNat 4 val) fun d => d.regWrite fn.val off.toNat val
    else d

/-- RXSTAT0_READ (R409): a read of FLD_LOOPn_RXSTAT0. -/
def execRxstat0Read (fn : Fin 64) (tag : BitVec 16) (n : Fin 8) (s : State) : Host.Outcome State Fault Refusal :=
  s.act fun d => d.hostMsg (.rd fn.val tag (offRxstat n.val 0) 4) fun d => d.rdMsg fn.val tag (offRxstat n.val 0) 4

/-- ERR_RECORD_CLEAR (R599): VALID written as 1 to ERR_RECi_HDR. -/
def execErrRecordClear (fn : Fin 64) (i : Fin 73) (s : State) : Host.Outcome State Fault Refusal :=
  s.act fun d => d.pfWr fn.val (offRec i.val 0) 0x80000000 fun d => d.recClear i.val 0x80000000

/-- ERR_HDR_READ (R600): a read of ERR_RECi_HDR. -/
def execErrHdrRead (fn : Fin 64) (tag : BitVec 16) (i : Fin 73) (s : State) : Host.Outcome State Fault Refusal :=
  s.act fun d => d.hostMsg (.rd fn.val tag (offRec i.val 0) 4) fun d => d.rdMsg fn.val tag (offRec i.val 0) 4

/-- FATAL_FLASH_WRITE (R609). -/
def execFatalFlashWrite (i : Fin 73) (flashOk : Bool) (s : State) : Host.Outcome State Fault Refusal :=
  s.act fun d => d.fatalWrite i.val flashOk

/-- SCRUB_DONE (R504): messages that waited for the scrub go on. -/
def execScrubDone (sl : Fin 64) (s : State) : Host.Outcome State Fault Refusal := s.act fun d => (d.scrubEnd sl.val).releaseHeld

/-- LOCK_INIT_DONE (R505). -/
def execLockInitDone (sl : Fin 64) (s : State) : Host.Outcome State Fault Refusal := s.act fun d => (d.lockDone sl.val).releaseHeld

/-- SLEEP_EXIT_DONE (R559). -/
def execSleepExitDone (s : State) : Host.Outcome State Fault Refusal := s.act fun d => d.exitEnd

end Sys2Proof.Machine
end

