-- ==== Sys2Proof/Machine/Sync.lean ====
section
/-! DEFINITION. What slot 3 does, and its way to the transfer engine (R99 to R102); what slot 6 does, synchronisation (R109 to R113). -/

namespace Sys2Proof.Machine

/-! ### Slot 3 (R99 to R102) -/

/-- Threads that a slot-3 action did not start or stop (R101, R115). -/
def Die.launchDrop (d : Die) (s n : Nat) : Die :=
  if d.isConf s then d else { d with iss := { d.iss with launchDrop := satInc32 d.iss.launchDrop n } }

/-- A slot-3 action takes one entry of the launch FIFO, or is lost when its 64 entries are taken. -/
def Die.slot3 (d : Die) (stop : Bool) (r : Run) (w : Nat) : Die :=
  let count := bitsOf w 45 34 + 1
  if d.iss.fifo.length < 64 then
    let base := match (d.slot r.slot).seg with | some g => g.xBase | none => 0
    let e : LaunchEntry := {
      stop := stop, slot := r.slot, first := bitsOf w 57 46, count := count, entry := base + bitsOf w 33 18,
      arg := if bit w 17 then w32 (bundleExt r.bundle) else 0, dead := r.ended }
    { d with iss := { d.iss with fifo := d.iss.fifo ++ [e] } }
  else d.launchDrop r.slot count

/-- A launched thread begins (R239); FAILED stays until its window is reassigned (R264). -/
def startThread (e : LaunchEntry) (k : Nat) (failed : Bool) : Thread :=
  { failed := failed, slot := e.slot, state := .running, pc := e.entry, entry := e.entry, idx := k, arg := e.arg }

/-- Thread `first + k` of a launch: it starts when it is in the window and not running (R101). A pass that it still holds, all
its requests complete, closes first (R370). -/
def Die.launchOne (d : Die) (e : LaunchEntry) (k : Nat) : Die :=
  match (d.slot e.slot).seg with
  | none => d.launchDrop e.slot 1
  | some g =>
    let p := g.thrBase + e.first + k
    if e.first + k < g.threads ∧ (d.thread p).running = false then (d.closePass p).updThread p fun x => startThread e k x.failed
    else d.launchDrop e.slot 1

def Die.stopOne (d : Die) (e : LaunchEntry) (k : Nat) : Die :=
  match (d.slot e.slot).seg with
  | none => d
  | some g => if e.first + k < g.threads then d.updThread (g.thrBase + e.first + k) Thread.stop else d

/-- The FIFO's oldest entry reaches the transfer engine; an aborted context's is discarded (R78). -/
def Die.arriveLaunch (d : Die) (stop : Bool) : Die :=
  match d.iss.fifo with
  | [] => d
  | e :: rest =>
    if e.stop = stop ∧ d.xfrRuns = true then
      let d := { d with iss := { d.iss with fifo := rest } }
      if e.dead then d else forUpto e.count (fun k d => if stop then d.stopOne e k else d.launchOne e k) d
    else d

/-! ### Slot 6 (R109 to R113) -/

/-- CMD: the block goes to the loop's hand-off FIFO; a refused read hands nothing over (R58, R111). -/
def Die.cmd (d : Die) (r : Run) (w : Nat) : Die :=
  let b := d.slotRead r.slot (if bit w 54 then 2 else 1) (64 * bitsOf w 53 34 : Nat) 64
  if b.2 then d.markRefused true
  else d.updLoop (bitsOf w 57 55) fun l => { l with fifo := l.fifo ++ [(r.slot, b.1)] }

/-- The block that SENSE writes for a loop: the latest SENSOR frame, or zeros (R112, R390). -/
def Die.senseBlock (d : Die) (slot n : Nat) : List Byte × Bool :=
  let l := d.loop n
  if l.enable && !l.unbound && decide (l.slot.toNat = slot) then
    (if l.haveSens then l.sensor else List.replicate 64 0, false)
  else (List.replicate 64 0, true)

/-- SENSE: one block for each selected loop, in ascending loop order. -/
def Die.sense (d : Die) (r : Run) (w : Nat) : Die :=
  let mask := bitsOf w 57 50
  let space := if bit w 49 then 2 else 1
  (((List.range 8).filter fun n => bit mask n).foldl (fun (p : Die × Nat) n =>
    let b := p.1.senseBlock r.slot n
    let d := if b.2 then p.1.foreign else p.1
    let a := 64 * p.2
    (if d.granted r.slot space a 64 then d.storeNow space a b.1 else d.markRefused true, p.2 + 1))
    (d, bitsOf w 48 29)).1

/-- MARK (R113, R448): the first 16 of a run, and none of a confidential context. -/
def Die.mark (d : Die) (r : Run) (w : Nat) : Die :=
  if d.isConf r.slot then d
  else d.updSlot r.slot fun x =>
    if x.marks.length < 16 then
      { x with marks := x.marks ++ [(w32 (min 0xFFFFFFFF r.cycles), BitVec.ofNat 8 (bitsOf w 57 50))] }
    else x

/-! ### The commands -/

/-- THREAD_LAUNCH_ARRIVE (R101). -/
def execThreadLaunchArrive (s : State) : Host.Outcome State Fault Refusal := s.act fun d => d.arriveLaunch false

/-- THREAD_STOP_ARRIVE (R101). -/
def execThreadStopArrive (s : State) : Host.Outcome State Fault Refusal := s.act fun d => d.arriveLaunch true

end Sys2Proof.Machine
end

