-- ==== Sys2Proof/Machine/Slots.lean ====
section
/-! DEFINITION. The commands of the bundle's slots: one issue cycle of each listed operation (R79 to R113). -/

namespace Sys2Proof.Machine

/-! ### Slots 0 and 1: the engines (R87 to R95) -/

/-- ENOP (R42, R87): the slot does nothing. -/
def execEnop (_te : Fin 2) (s : State) : Host.Outcome State Fault Refusal := s.act fun d => d

/-- WLOAD (R88, R90): one issue cycle. -/
def execWload (te : Fin 2) (ecc : Ecc) (s : State) : Host.Outcome State Fault Refusal :=
  s.act fun d => d.slotAction te.val 1 false ecc fun r w d => d.wload te.val r w

/-- STREAM (R91): one issue cycle. -/
def execStream (te : Fin 2) (ecc : Ecc) (s : State) : Host.Outcome State Fault Refusal :=
  s.act fun d => d.slotAction te.val 2 false ecc fun r w d => d.stream_ te.val r w

/-! ### Slot 2: the lane groups (R96, R97) -/

/-- VFMT of the operation, unless it is a reserved code, around what each group does. -/
def Die.vectorOp (d : Die) (op : Nat) (e : Ecc) (each : Run → Nat → Fmt → Nat → Die → Die) : Die :=
  d.slotAction 2 op false e fun r w d =>
    match vFmt w with
    | some f => d.vectorCycle r op w (each r w f)
    | none => d

/-! ### The commands (R97) -/

/-- VNOP. -/
def execVnop (s : State) : Host.Outcome State Fault Refusal := s.act fun d => d

/-- VADD: a + b. -/
def execVadd (ecc : Ecc) (s : State) : Host.Outcome State Fault Refusal :=
  s.act fun d => d.vectorOp 1 ecc fun r w f => Die.vElem r 1 w f

/-- VMUL: a × b. -/
def execVmul (ecc : Ecc) (s : State) : Host.Outcome State Fault Refusal :=
  s.act fun d => d.vectorOp 2 ecc fun r w f => Die.vElem r 2 w f

/-- VFMA: a × b + d, one rounding. -/
def execVfma (ecc : Ecc) (s : State) : Host.Outcome State Fault Refusal :=
  s.act fun d => d.vectorOp 3 ecc fun r w f => Die.vElem r 3 w f

/-- VMAX. -/
def execVmax (ecc : Ecc) (s : State) : Host.Outcome State Fault Refusal :=
  s.act fun d => d.vectorOp 4 ecc fun r w f => Die.vElem r 4 w f

/-- VMIN. -/
def execVmin (ecc : Ecc) (s : State) : Host.Outcome State Fault Refusal :=
  s.act fun d => d.vectorOp 5 ecc fun r w f => Die.vElem r 5 w f

/-- VCMPGT: 1 where a > b, else 0. -/
def execVcmpgt (ecc : Ecc) (s : State) : Host.Outcome State Fault Refusal :=
  s.act fun d => d.vectorOp 6 ecc fun r w f => Die.vElem r 6 w f

/-- VEXP, within 2 ulp. -/
def execVexp (ecc : Ecc) (s : State) : Host.Outcome State Fault Refusal :=
  s.act fun d => d.vectorOp 7 ecc fun r w f => Die.vUnary r 7 w f

/-- VRECIP, within 1 ulp. -/
def execVrecip (ecc : Ecc) (s : State) : Host.Outcome State Fault Refusal :=
  s.act fun d => d.vectorOp 8 ecc fun r w f => Die.vUnary r 8 w f

/-- VRSQRT, within 1 ulp. -/
def execVrsqrt (ecc : Ecc) (s : State) : Host.Outcome State Fault Refusal :=
  s.act fun d => d.vectorOp 9 ecc fun r w f => Die.vUnary r 9 w f

/-- VCVT (R206, R207, R214): the record, where there is one, is rolled and read first. -/
def execVcvt (ecc : Ecc) (s : State) : Host.Outcome State Fault Refusal :=
  s.act fun d => d.slotAction 2 10 false ecc fun r w d =>
    let x := d.cvtScale r w (d.prog r.slot 5 (vDst w))
    (x.1.vectorCycle r 10 w (Die.vCvt r w x.2)).cvtSkews r (d.cvtSkew r w 0) (d.cvtSkew r w 1)

/-- VRMAX. -/
def execVrmax (ecc : Ecc) (s : State) : Host.Outcome State Fault Refusal :=
  s.act fun d => d.vectorOp 11 ecc fun r w f => Die.vReduce r 11 w f

/-- VRSUM. -/
def execVrsum (ecc : Ecc) (s : State) : Host.Outcome State Fault Refusal :=
  s.act fun d => d.vectorOp 12 ecc fun r w f => Die.vReduce r 12 w f

/-- VAMAX (R213): a record that the destination names is rolled first. -/
def execVamax (ecc : Ecc) (s : State) : Host.Outcome State Fault Refusal :=
  s.act fun d => d.slotAction 2 13 false ecc fun r w d =>
    match vFmt w with
    | some f =>
      let p := d.prog r.slot 5 (vDst w)
      let d := if p.record then (d.rollFor r w p).1 else d
      d.vectorCycle r 13 w (Die.vAmax r w f)
    | none => d

/-- VMERGE (R373). -/
def execVmerge (ecc : Ecc) (s : State) : Host.Outcome State Fault Refusal :=
  s.act fun d => d.vectorOp 14 ecc fun r w f => Die.vMerge r w f

/-- VHAD (R220). -/
def execVhad (ecc : Ecc) (s : State) : Host.Outcome State Fault Refusal :=
  s.act fun d => d.vectorOp 15 ecc fun r w f => Die.vHad r w f

/-! ### Slot 3: the transfer engine (R99, R100) -/

/-- LAUNCH (R99, R100). -/
def execLaunch (s : State) : Host.Outcome State Fault Refusal :=
  s.act fun d => d.slotAction 3 1 false .ok fun r w d => d.slot3 false r w

/-- STOP (R99, R100). -/
def execStop (s : State) : Host.Outcome State Fault Refusal :=
  s.act fun d => d.slotAction 3 2 false .ok fun r w d => d.slot3 true r w

/-! ### Slot 4: Flint and Mica (R103 to R107) -/

/-- FWLOAD (R104): one issue cycle. -/
def execFwload (ecc : Ecc) (s : State) : Host.Outcome State Fault Refusal :=
  s.act fun d => d.slotAction 4 1 false ecc fun r w d => d.fwload r w

/-- FSTREAM (R104): one issue cycle. -/
def execFstream (ecc : Ecc) (s : State) : Host.Outcome State Fault Refusal :=
  s.act fun d => d.slotAction 4 2 false ecc fun r w d => d.fstream r w

/-- FFT (R316): one input cycle. -/
def execFft (ecc : Ecc) (s : State) : Host.Outcome State Fault Refusal :=
  s.act fun d => d.slotAction 4 1 true ecc fun r w d => d.micaCycle r 1 w

/-- IFFT (R316): one input cycle. -/
def execIfft (ecc : Ecc) (s : State) : Host.Outcome State Fault Refusal :=
  s.act fun d => d.slotAction 4 2 true ecc fun r w d => d.micaCycle r 2 w

/-- CMUL (R316): one input cycle. -/
def execCmul (ecc : Ecc) (s : State) : Host.Outcome State Fault Refusal :=
  s.act fun d => d.slotAction 4 3 true ecc fun r w d => d.micaCycle r 3 w

/-- WHT (R219): one input cycle. -/
def execWht (ecc : Ecc) (s : State) : Host.Outcome State Fault Refusal :=
  s.act fun d => d.slotAction 4 4 true ecc fun r w d => d.micaCycle r 4 w

/-! ### Slot 5: the post unit (R108) -/

/-- PNOP (R108). -/
def execPnop (s : State) : Host.Outcome State Fault Refusal := s.act fun d => d

/-- MAXPOOL (R328): one input cycle. -/
def execMaxpool (ecc : Ecc) (s : State) : Host.Outcome State Fault Refusal :=
  s.act fun d => d.slotAction 5 1 false ecc fun r w d => (d.postAction r.slot 1).poolCycle r 1 w

/-- AVGPOOL_INC (R329): one input cycle. -/
def execAvgpoolInc (ecc : Ecc) (s : State) : Host.Outcome State Fault Refusal :=
  s.act fun d => d.slotAction 5 2 false ecc fun r w d => (d.postAction r.slot 2).poolCycle r 2 w

/-- AVGPOOL_EXC (R329): one input cycle. -/
def execAvgpoolExc (ecc : Ecc) (s : State) : Host.Outcome State Fault Refusal :=
  s.act fun d => d.slotAction 5 3 false ecc fun r w d => (d.postAction r.slot 3).poolCycle r 3 w

/-- CROP_BILINEAR (R333): one input cycle. -/
def execCropBilinear (ecc : Ecc) (s : State) : Host.Outcome State Fault Refusal :=
  s.act fun d => d.slotAction 5 4 false ecc fun r w d => (d.postAction r.slot 4).cropCycle r 4 w

/-- CROP_NEAREST (R333): one input cycle. -/
def execCropNearest (ecc : Ecc) (s : State) : Host.Outcome State Fault Refusal :=
  s.act fun d => d.slotAction 5 5 false ecc fun r w d => (d.postAction r.slot 5).cropCycle r 5 w

/-- ARGMAX (R335): one input cycle. -/
def execArgmax (ecc : Ecc) (s : State) : Host.Outcome State Fault Refusal :=
  s.act fun d => d.slotAction 5 6 false ecc fun r w d => (d.postAction r.slot 6).argmaxCycle r w

/-! ### Slot 6: synchronisation (R109 to R113) -/

/-- SNOP (R109): the slot does nothing. -/
def execSnop (s : State) : Host.Outcome State Fault Refusal := s.act fun d => d

/-- TINC (R109, R110). A thread that it releases sees every value readable in its cycle, for those have landed (R256). -/
def execTinc (s : State) : Host.Outcome State Fault Refusal :=
  s.act fun d => d.slotAction 6 1 false .ok fun r w d => d.logTallyAdd r.slot (bitsOf w 57 50) (bitsOf w 49 34 + 1)

/-- CMD (R111). -/
def execCmd (ecc : Ecc) (s : State) : Host.Outcome State Fault Refusal :=
  s.act fun d => d.slotAction 6 2 false ecc fun r w d => d.cmd r w

/-- SENSE (R112). -/
def execSense (s : State) (ecc : Ecc := .ok) : Host.Outcome State Fault Refusal :=
  s.act fun d => d.slotAction 6 3 false ecc fun r w d => d.sense r w

/-- MARK (R113). -/
def execMark (s : State) : Host.Outcome State Fault Refusal :=
  s.act fun d => d.slotAction 6 4 false .ok fun r w d => d.mark r w

end Sys2Proof.Machine
end

