-- ==== Sys2Proof/Machine/Dispatch.lean ====
section
/-! DEFINITION. One arm per command, in the order of spec/opcode_table.json: a direct call of its meaning. -/

namespace Sys2Proof.Machine

def exec (i : Instr) (s : State) : Host.Outcome State Fault Refusal :=
  match i with
  | .bundleIssue fetch => Sys2Proof.Machine.execBundleIssue fetch s
  | .loopBegin => Sys2Proof.Machine.execLoopBegin s
  | .loopEnd => Sys2Proof.Machine.execLoopEnd s
  | .exit => Sys2Proof.Machine.execExit s
  | .tallyWaitRelease => Sys2Proof.Machine.execTallyWaitRelease s
  | .tallyTimeout => Sys2Proof.Machine.execTallyTimeout s
  | .enop te => Sys2Proof.Machine.execEnop te s
  | .wload te ecc => Sys2Proof.Machine.execWload te ecc s
  | .stream te ecc => Sys2Proof.Machine.execStream te ecc s
  | .streamRowComplete te ecc => Sys2Proof.Machine.execStreamRowComplete te ecc s
  | .vnop => Sys2Proof.Machine.execVnop s
  | .vadd ecc => Sys2Proof.Machine.execVadd ecc s
  | .vmul ecc => Sys2Proof.Machine.execVmul ecc s
  | .vfma ecc => Sys2Proof.Machine.execVfma ecc s
  | .vmax ecc => Sys2Proof.Machine.execVmax ecc s
  | .vmin ecc => Sys2Proof.Machine.execVmin ecc s
  | .vcmpgt ecc => Sys2Proof.Machine.execVcmpgt ecc s
  | .vexp ecc => Sys2Proof.Machine.execVexp ecc s
  | .vrecip ecc => Sys2Proof.Machine.execVrecip ecc s
  | .vrsqrt ecc => Sys2Proof.Machine.execVrsqrt ecc s
  | .vcvt ecc => Sys2Proof.Machine.execVcvt ecc s
  | .vrmax ecc => Sys2Proof.Machine.execVrmax ecc s
  | .vrsum ecc => Sys2Proof.Machine.execVrsum ecc s
  | .vamax ecc => Sys2Proof.Machine.execVamax ecc s
  | .vmerge ecc => Sys2Proof.Machine.execVmerge ecc s
  | .vhad ecc => Sys2Proof.Machine.execVhad ecc s
  | .vectorResult ecc => Sys2Proof.Machine.execVectorResult s ecc
  | .launch => Sys2Proof.Machine.execLaunch s
  | .stop => Sys2Proof.Machine.execStop s
  | .threadLaunchArrive => Sys2Proof.Machine.execThreadLaunchArrive s
  | .threadStopArrive => Sys2Proof.Machine.execThreadStopArrive s
  | .fwload ecc => Sys2Proof.Machine.execFwload ecc s
  | .fstream ecc => Sys2Proof.Machine.execFstream ecc s
  | .flintRowComplete ecc => Sys2Proof.Machine.execFlintRowComplete ecc s
  | .fft ecc => Sys2Proof.Machine.execFft ecc s
  | .ifft ecc => Sys2Proof.Machine.execIfft ecc s
  | .cmul ecc => Sys2Proof.Machine.execCmul ecc s
  | .wht ecc => Sys2Proof.Machine.execWht ecc s
  | .micaResult ecc => Sys2Proof.Machine.execMicaResult s ecc
  | .pnop => Sys2Proof.Machine.execPnop s
  | .maxpool ecc => Sys2Proof.Machine.execMaxpool ecc s
  | .avgpoolInc ecc => Sys2Proof.Machine.execAvgpoolInc ecc s
  | .avgpoolExc ecc => Sys2Proof.Machine.execAvgpoolExc ecc s
  | .cropBilinear ecc => Sys2Proof.Machine.execCropBilinear ecc s
  | .cropNearest ecc => Sys2Proof.Machine.execCropNearest ecc s
  | .argmax ecc => Sys2Proof.Machine.execArgmax ecc s
  | .postResult ecc => Sys2Proof.Machine.execPostResult s ecc
  | .snop => Sys2Proof.Machine.execSnop s
  | .tinc => Sys2Proof.Machine.execTinc s
  | .cmd ecc => Sys2Proof.Machine.execCmd ecc s
  | .sense ecc => Sys2Proof.Machine.execSense s ecc
  | .mark => Sys2Proof.Machine.execMark s
  | .requestIssue t room readNow walk => Sys2Proof.Machine.execRequestIssue t room readNow s walk
  | .requestComplete t which portWait res picks => Sys2Proof.Machine.execRequestComplete t which portWait res s picks
  | .hbmPhyLockLoss channel => Sys2Proof.Machine.execHbmPhyLockLoss channel s
  | .patrolRead found => Sys2Proof.Machine.execPatrolRead found s
  | .hbmRefresh site => Sys2Proof.Machine.execHbmRefresh site s
  | .move t ecc => Sys2Proof.Machine.execMove t ecc s
  | .stride t ecc => Sys2Proof.Machine.execStride t ecc s
  | .gather t ecc walk => Sys2Proof.Machine.execGather t ecc s walk
  | .scatter t ecc walk => Sys2Proof.Machine.execScatter t ecc s walk
  | .signal t ecc => Sys2Proof.Machine.execSignal t ecc s
  | .wait t ecc => Sys2Proof.Machine.execWait t ecc s
  | .threadWaitRelease t => Sys2Proof.Machine.execThreadWaitRelease t s
  | .loop t ecc => Sys2Proof.Machine.execLoop t ecc s
  | .endStep t ecc => Sys2Proof.Machine.execEndStep t ecc s
  | .threadFail t => Sys2Proof.Machine.execThreadFail t s
  | .passClose t => Sys2Proof.Machine.execPassClose t s
  | .reservedClassMessage cls => Sys2Proof.Machine.execReservedClassMessage cls s
  | .sof m frame sensorTs width height fmt fifoFull => Sys2Proof.Machine.execSof m frame sensorTs width height fmt fifoFull s
  | .line m row offset payload fifoFull => Sys2Proof.Machine.execLine m row offset payload fifoFull s
  | .eof m fifoFull => Sys2Proof.Machine.execEof m fifoFull s
  | .timesync timeNs => Sys2Proof.Machine.execTimesync timeNs s
  | .slewEnd => Sys2Proof.Machine.execSlewEnd s
  | .voidStripeHandover m => Sys2Proof.Machine.execVoidStripeHandover m s
  | .stripeFree m => Sys2Proof.Machine.execStripeFree m s
  | .ingStreamEnable fn m val => Sys2Proof.Machine.execIngStreamEnable fn m val s
  | .ingStreamDisable fn m val => Sys2Proof.Machine.execIngStreamDisable fn m val s
  | .allocate fn sl => Sys2Proof.Machine.execAllocate fn sl s
  | .share fn sl => Sys2Proof.Machine.execShare fn sl s
  | .cow fn sl => Sys2Proof.Machine.execCow fn sl s
  | .free fn sl => Sys2Proof.Machine.execFree fn sl s
  | .publish fn sl len => Sys2Proof.Machine.execPublish fn sl len s
  | .query fn sl => Sys2Proof.Machine.execQuery fn sl s
  | .kvpQueueHead acc => Sys2Proof.Machine.execKvpQueueHead acc s
  | .retire acc => Sys2Proof.Machine.execRetire acc s
  | .sensor p frame => Sys2Proof.Machine.execSensor p frame s
  | .status p frame => Sys2Proof.Machine.execStatus p frame s
  | .loopMessage mch frame => Sys2Proof.Machine.execLoopMessage mch frame s
  | .frameAbort p => Sys2Proof.Machine.execFrameAbort p s
  | .alignGain p => Sys2Proof.Machine.execAlignGain p s
  | .alignLoss p inFrame => Sys2Proof.Machine.execAlignLoss p inFrame s
  | .fldPortEnable fn p val => Sys2Proof.Machine.execFldPortEnable fn p val s
  | .fldPortDisable fn p val => Sys2Proof.Machine.execFldPortDisable fn p val s
  | .loopEnable fn n val => Sys2Proof.Machine.execLoopEnable fn n val s
  | .loopDisable fn n val => Sys2Proof.Machine.execLoopDisable fn n val s
  | .commandArrival n => Sys2Proof.Machine.execCommandArrival n s
  | .periodStart n => Sys2Proof.Machine.execPeriodStart n s
  | .deadline n => Sys2Proof.Machine.execDeadline n s
  | .txFrameStart p credits => Sys2Proof.Machine.execTxFrameStart p s credits
  | .heartbeatDue p => Sys2Proof.Machine.execHeartbeatDue p s
  | .hbPeriodWrite fn val => Sys2Proof.Machine.execHbPeriodWrite fn val s
  | .rxstat0Read fn tag n => Sys2Proof.Machine.execRxstat0Read fn tag n s
  | .watchSof number => Sys2Proof.Machine.execWatchSof number s
  | .watchData info data => Sys2Proof.Machine.execWatchData info data s
  | .watchEof => Sys2Proof.Machine.execWatchEof s
  | .nwtEnable fn val => Sys2Proof.Machine.execNwtEnable fn val s
  | .nwtFrameResult ecc => Sys2Proof.Machine.execNwtFrameResult ecc s
  | .regRd fn tag off bytes => Sys2Proof.Machine.execRegRd fn tag off bytes s
  | .regWr fn off bytes val => Sys2Proof.Machine.execRegWr fn off bytes val s
  | .memRd fn tag addr len res => Sys2Proof.Machine.execMemRd fn tag addr len res s
  | .memWr fn addr data res => Sys2Proof.Machine.execMemWr fn addr data res s
  | .reservedHostKind kind => Sys2Proof.Machine.execReservedHostKind kind s
  | .grant fn sl => Sys2Proof.Machine.execGrant fn sl s
  | .load fn sl => Sys2Proof.Machine.execLoad fn sl s
  | .loadComplete sl acc => Sys2Proof.Machine.execLoadComplete sl acc s
  | .arm fn sl runs => Sys2Proof.Machine.execArm fn sl runs s
  | .disarm fn sl => Sys2Proof.Machine.execDisarm fn sl s
  | .abort fn sl => Sys2Proof.Machine.execAbort fn sl s
  | .unload fn sl => Sys2Proof.Machine.execUnload fn sl s
  | .release fn sl => Sys2Proof.Machine.execRelease fn sl s
  | .unloadReleaseDone sl => Sys2Proof.Machine.execUnloadReleaseDone sl s
  | .calEntryDue => Sys2Proof.Machine.execCalEntryDue s
  | .dispatchStart => Sys2Proof.Machine.execDispatchStart s
  | .runEnd => Sys2Proof.Machine.execRunEnd s
  | .calSwap fn val => Sys2Proof.Machine.execCalSwap fn val s
  | .calSwapEffect => Sys2Proof.Machine.execCalSwapEffect s
  | .calEnable fn val => Sys2Proof.Machine.execCalEnable fn val s
  | .calDisable fn val => Sys2Proof.Machine.execCalDisable fn val s
  | .dataCell p cell => Sys2Proof.Machine.execDataCell p cell s
  | .cellForward p => Sys2Proof.Machine.execCellForward p s
  | .linkCell p cell => Sys2Proof.Machine.execLinkCell p cell s
  | .helloCell p cell => Sys2Proof.Machine.execHelloCell p cell s
  | .topoCell p cell => Sys2Proof.Machine.execTopoCell p cell s
  | .helloSend p nonce => Sys2Proof.Machine.execHelloSend p nonce s
  | .linkAck p => Sys2Proof.Machine.execLinkAck p s
  | .replayTimer p => Sys2Proof.Machine.execReplayTimer p s
  | .fabTimeout cause p chan t => Sys2Proof.Machine.execFabTimeout cause p chan t s
  | .portSleep p => Sys2Proof.Machine.execPortSleep p s
  | .fabWake p => Sys2Proof.Machine.execFabWake p s
  | .wakeResend p => Sys2Proof.Machine.execWakeResend p s
  | .lockInterfaceRequest sl path => Sys2Proof.Machine.execLockInterfaceRequest sl s path
  | .lockInitDone sl => Sys2Proof.Machine.execLockInitDone sl s
  | .startInterfaceRequest sl path => Sys2Proof.Machine.execStartInterfaceRequest sl s path
  | .stopInterfaceRequest sl path => Sys2Proof.Machine.execStopInterfaceRequest sl s path
  | .ideStreamInsecure sl => Sys2Proof.Machine.execIdeStreamInsecure sl s
  | .scrubDone sl => Sys2Proof.Machine.execScrubDone sl s
  | .prologuePiece acc => Sys2Proof.Machine.execProloguePiece s acc
  | .rotate fn sl => Sys2Proof.Machine.execRotate fn sl s
  | .sweepComplete sl => Sys2Proof.Machine.execSweepComplete sl s
  | .nfpOpen fn sl => Sys2Proof.Machine.execNfpOpen fn sl s
  | .nfpOpenDone sl acc => Sys2Proof.Machine.execNfpOpenDone sl acc s
  | .setEndpointId path eid => Sys2Proof.Machine.execSetEndpointId path eid s
  | .getEndpointId path => Sys2Proof.Machine.execGetEndpointId path s
  | .getMctpVersionSupport path mtype => Sys2Proof.Machine.execGetMctpVersionSupport path mtype s
  | .getMessageTypeSupport path => Sys2Proof.Machine.execGetMessageTypeSupport path s
  | .getVendorDefinedMessageSupport path sel => Sys2Proof.Machine.execGetVendorDefinedMessageSupport path sel s
  | .unsupportedMctpCommand path code => Sys2Proof.Machine.execUnsupportedMctpCommand path code s
  | .icmpv6Message kind => Sys2Proof.Machine.execIcmpv6Message kind s
  | .getVersion path => Sys2Proof.Machine.execGetVersion path s
  | .getCapabilities path flags transferSize => Sys2Proof.Machine.execGetCapabilities path flags s transferSize
  | .negotiateAlgorithms path offersAll => Sys2Proof.Machine.execNegotiateAlgorithms path offersAll s
  | .getDigests path => Sys2Proof.Machine.execGetDigests path s
  | .getCertificate path slot off len => Sys2Proof.Machine.execGetCertificate path slot off len s
  | .challenge path slot nonce => Sys2Proof.Machine.execChallenge path slot nonce s
  | .getMeasurements path index nonce => Sys2Proof.Machine.execGetMeasurements path index nonce s
  | .keyExchange path slot pub => Sys2Proof.Machine.execKeyExchange path slot pub s
  | .finish path sid macOk => Sys2Proof.Machine.execFinish path sid macOk s
  | .getEncapsulatedRequest path sid => Sys2Proof.Machine.execGetEncapsulatedRequest path sid s
  | .deliverEncapsulatedResponse path sid chain sigOk validNow selfSigned => Sys2Proof.Machine.execDeliverEncapsulatedResponse path sid chain sigOk validNow s selfSigned
  | .heartbeat path sid => Sys2Proof.Machine.execHeartbeat path sid s
  | .keyUpdate path sid => Sys2Proof.Machine.execKeyUpdate path sid s
  | .endSession path sid => Sys2Proof.Machine.execEndSession path sid s
  | .chunkSend path handle seqno last data => Sys2Proof.Machine.execChunkSend path handle seqno last data s
  | .chunkGet path handle seqno => Sys2Proof.Machine.execChunkGet path handle seqno s
  | .hybridSig path => Sys2Proof.Machine.execHybridSig path s
  | .kemMix path sid ct => Sys2Proof.Machine.execKemMix path sid ct s
  | .unsupportedSpdmRequest path code => Sys2Proof.Machine.execUnsupportedSpdmRequest path code s
  | .setFabAddr sid addr => Sys2Proof.Machine.execSetFabAddr sid addr s
  | .setRoute sid index pfx ctl => Sys2Proof.Machine.execSetRoute sid index pfx ctl s
  | .setChannel sid index words => Sys2Proof.Machine.execSetChannel sid index words s
  | .setJobKey sid job epoch op => Sys2Proof.Machine.execSetJobKey sid job epoch op s
  | .setPort sid p enable timeout => Sys2Proof.Machine.execSetPort sid p enable timeout s
  | .rotateSlot sid sl => Sys2Proof.Machine.execRotateSlot sid sl s
  | .stageFirmware sid img => Sys2Proof.Machine.execStageFirmware sid img s
  | .setNwtPackage sid bytes sigOk flashOk => Sys2Proof.Machine.execSetNwtPackage sid bytes sigOk s flashOk
  | .setBoardConfig sid conf flashOk => Sys2Proof.Machine.execSetBoardConfig sid conf flashOk s
  | .readFaults sid => Sys2Proof.Machine.execReadFaults sid s
  | .burnFuse sid lifecycleRow row value => Sys2Proof.Machine.execBurnFuse sid lifecycleRow row value s
  | .unlockDebug sid => Sys2Proof.Machine.execUnlockDebug sid s
  | .rollbackFirmware sid flashOk => Sys2Proof.Machine.execRollbackFirmware sid s flashOk
  | .eraseKeys sid => Sys2Proof.Machine.execEraseKeys sid s
  | .presenceAssert => Sys2Proof.Machine.execPresenceAssert s
  | .presenceRelease => Sys2Proof.Machine.execPresenceRelease s
  | .sealSample sealIn => Sys2Proof.Machine.execSealSample sealIn s
  | .plevelWrite fn val => Sys2Proof.Machine.execPlevelWrite fn val s
  | .thermalSample temps => Sys2Proof.Machine.execThermalSample temps s
  | .voteSet fn val => Sys2Proof.Machine.execVoteSet fn val s
  | .voteClr fn val => Sys2Proof.Machine.execVoteClr fn val s
  | .sleepEntryStart => Sys2Proof.Machine.execSleepEntryStart s
  | .entryWindowClose => Sys2Proof.Machine.execEntryWindowClose s
  | .sleepStateReached => Sys2Proof.Machine.execSleepStateReached s
  | .hostWake => Sys2Proof.Machine.execHostWake s
  | .wakeNAssert => Sys2Proof.Machine.execWakeNAssert s
  | .pwrTimerMatch => Sys2Proof.Machine.execPwrTimerMatch s
  | .sleepExitStart => Sys2Proof.Machine.execSleepExitStart s
  | .sleepExitDone => Sys2Proof.Machine.execSleepExitDone s
  | .pwrgoodRise straps => Sys2Proof.Machine.execPwrgoodRise straps s
  | .pwrgoodFall => Sys2Proof.Machine.execPwrgoodFall s
  | .resetNFall => Sys2Proof.Machine.execResetNFall s
  | .resetNRise straps certs certsPq => Sys2Proof.Machine.execResetNRise straps certs s certsPq
  | .dawnServiceStart board nwt => Sys2Proof.Machine.execDawnServiceStart board nwt s
  | .hbmTrainingDone at80 at64 => Sys2Proof.Machine.execHbmTrainingDone at80 at64 s
  | .fullService => Sys2Proof.Machine.execFullService s
  | .warmReset fn val => Sys2Proof.Machine.execWarmReset fn val s
  | .warmResetMsg => Sys2Proof.Machine.execWarmResetMsg s
  | .warmResetDone at80 at64 => Sys2Proof.Machine.execWarmResetDone at80 at64 s
  | .engineReset fn val => Sys2Proof.Machine.execEngineReset fn val s
  | .engineResetDone n => Sys2Proof.Machine.execEngineResetDone n s
  | .fwConfirm fn val => Sys2Proof.Machine.execFwConfirm fn val s
  | .errRecordClear fn n => Sys2Proof.Machine.execErrRecordClear fn n s
  | .errHdrRead fn tag n => Sys2Proof.Machine.execErrHdrRead fn tag n s
  | .fatalFlashWrite n flashOk => Sys2Proof.Machine.execFatalFlashWrite n flashOk s
  | .peerFailWindowEnd job peer => Sys2Proof.Machine.execPeerFailWindowEnd job peer s
  | .reg64LoRead fn tag off => Sys2Proof.Machine.execReg64LoRead fn tag off s
  | .regionLockSet fn off val => Sys2Proof.Machine.execRegionLockSet fn off val s
  | .registerWrite fn off val => Sys2Proof.Machine.execRegisterWrite fn off val s
  | .fieldFrameDiscard p frame => Sys2Proof.Machine.execFieldFrameDiscard p frame s
  | .sweepBlockRewrite sl acc => Sys2Proof.Machine.execSweepBlockRewrite sl acc s
  | .levelTransitionComplete => Sys2Proof.Machine.execLevelTransitionComplete s
  | .wakeNRise => Sys2Proof.Machine.execWakeNRise s
  | .referenceClockStop => Sys2Proof.Machine.execReferenceClockStop s
  | .powerLoss => Sys2Proof.Machine.execPowerLoss s
  | .mainStageChecked v => Sys2Proof.Machine.execMainStageChecked v s
  | .dawnWeightsChecked v => Sys2Proof.Machine.execDawnWeightsChecked v s
  | .updateStaged ok => Sys2Proof.Machine.execUpdateStaged ok s
  | .fuseRowCommit ok => Sys2Proof.Machine.execFuseRowCommit ok s
  | .ideKm path sid => Sys2Proof.Machine.execIdeKm path sid s
  | .mctpOtherMessageType path mtype => Sys2Proof.Machine.execMctpOtherMessageType path mtype s
  | .debugPortInstruction n => Sys2Proof.Machine.execDebugPortInstruction n s
  | .managementPortLink up => Sys2Proof.Machine.execManagementPortLink up s
  | .dynamicAddressAssign addr => Sys2Proof.Machine.execDynamicAddressAssign addr s
  | .entropyHealthTestFail => Sys2Proof.Machine.execEntropyHealthTestFail s

end Sys2Proof.Machine
end

