-- ==== Sys2Proof/Machine/Tick.lean ====
section
/-! DEFINITION. Time without a command: one 10 ns cycle of the 100 MHz reference (R281, R395), and what of AONCLK (R567),
of ACLK (R43, R51, R54) and of FCLK (R263, R481) falls into it. Which events then come is for the commands to say; entry 1 of the assumption log. -/

namespace Sys2Proof.Machine

/-- ACLK cycles in one reference cycle, by level (R543). -/
def aclkPerRef (level : Nat) : Nat := nth 4 [22, 19, 16, 12, 8] level

/-- One AONCLK cycle: PWR_AON, the residency counters (R567), and the steps of an entry or exit that fall in it. -/
def Die.aonCycle (d : Die) : Die :=
  let p := d.pwr
  let p := { p with res := Tab.upd 0 p.res p.state.code fun w => inc64 w 1 }
  let p := if p.state = .active then { p with resP := Tab.upd 0 p.resP p.cur.toNat fun w => inc64 w 1 } else p
  Die.seqRun { d with time := { d.time with aon := inc64 d.time.aon 1 }, pwr := p }

/-- AONCLK runs at 38.4 MHz while the die has power: 384 thousandths of a cycle. DESIGN CHOICE (log entry 1): its phase starts
at 0 and does not drift (R16 leaves both open). -/
def Die.aonTick (d : Die) : Die :=
  let f := d.time.aonFrac + 384
  if f < 1000 then { d with time := { d.time with aonFrac := f } }
  else Die.aonCycle { d with time := { d.time with aonFrac := f - 1000 } }

/-- The die time and FLD_TIMEBASE (R33, R281, R395). -/
def Die.refTime (d : Die) : Die :=
  let t := d.time
  let t := if t.everSet && decide (d.pwr.state ≠ .midnight) then
      { t with tq := t.tq + 10 * tqPerNs + (if t.slewLeft = 0 then 0 else t.slew), slewLeft := t.slewLeft - 1 }
    else t
  let t := if d.fldRuns then { t with timebase := inc64 t.timebase 10 } else t
  { d with time := t, boot := { d.boot with sinceRst := d.boot.sinceRst + 1 } }

/-- The ACLK cycles that the reference has given pass for bundle issue: a stalled wait stalls on, up to its timeout, and a
drain, or nobody at issue, lets results land. A bundle that issues takes its cycles by its own commands. -/
def Die.issueTime (d : Die) : Die :=
  let n := d.iss.owed.toNat
  match d.iss.run with
  | none => d.aclk n
  | some r =>
    match r.phase with
    | .stalled c lim =>
      if d.waitMet r || (d.waitErr r).isSome then d
      else
        let k := min n (lim - c)
        (d.stallCycles k).setRun fun r => { r with phase := .stalled (c + k) lim }
    | .drain => d.aclk n
    | _ => d

/-- ACLK cycles of this reference cycle: none in the 1 µs pause of a level transition, which comes 10 µs after the new VID
towards a faster level and first towards a slower one; the new frequency from then on (R544). -/
def Pwr.aclkNow (p : Pwr) : Nat :=
  match p.changing with
  | none => aclkPerRef p.cur.toNat
  | some l => if p.chgTicks < p.pauseFrom l then aclkPerRef p.cur.toNat else if p.paused then 0 else aclkPerRef l.toNat

/-- ACLK, while it runs (R34): the reference gives its cycles, and issue takes those it may. -/
def Die.aclkTick (d : Die) : Die :=
  if d.aclkRuns then
    Die.issueTime { d with iss := { d.iss with owed := d.iss.owed + d.pwr.aclkNow },
                           pwr := { d.pwr with chgTicks := if d.pwr.changing.isSome then d.pwr.chgTicks + 1 else d.pwr.chgTicks } }
  else d

/-- FCLK cycles in one reference cycle: 1.6 GHz. -/
def fclkPerRef : Nat := 16

/-- A request of a thread that is not confidential waits for a credit of port `p` (R481). -/
def Die.creditHeld (d : Die) (p : Nat) : Bool :=
  decide ((d.tport p).state = .up) && d.xfr.threads.any fun c => !d.isConf c.2.slot && d.waitsAt c.1 p

/-- FCLK, while it runs: the cycles in which a limit held a request ready (R263), and in which one waited for a credit. -/
def Die.fclkTick (d : Die) : Die :=
  if d.xfrRuns then
    let d := if d.xfr.threads.any (fun c => !d.isConf c.2.slot && d.limitHeld c.2) then
        { d with xfr := { d.xfr with limitCyc := inc64 d.xfr.limitCyc fclkPerRef } }
      else d
    forUpto 8 (fun p d =>
      if d.creditHeld p then d.updTport p fun x => { x with credWait := inc64 x.credWait fclkPerRef } else d) d
  else d

/-- A session lapses after two heartbeat periods of 10 s without a message (R522, SPDM); while MGT is in retention it is kept, and its
time does not run (R553). -/
def Die.lapse (d : Die) : Die :=
  let all := d.mgmt.sessions
  let kept :=
    if d.mgtRuns then all.filter fun x => decide (d.refNs < x.lastMsg + 20000000000)
    else all.map fun x => { x with lastMsg := x.lastMsg + 10 }
  { d with mgmt := { d.mgmt with sessions := kept } }

/-- One reference cycle. DESIGN CHOICE (log entry 1): ACLK counts from the rise of RESET_N on. -/
def Die.tick (d : Die) : Die :=
  if !d.boot.pwrgood then d
  else
    let d := d.aonTick
    if d.time.refRunning && d.boot.resetN then d.refTime.aclkTick.fclkTick.lapse else d

end Sys2Proof.Machine
end

