-- ==== Sys2Proof/Safety.lean ====
section
/-! DEFINITION. What counts as a safe run, and the terms in which claims say what a command does. A die that meets a fault
of R593 goes on with a record and aborted contexts; only a stop of the model is unsafe. -/

namespace Sys2Proof.Machine

/-- The outcome is a next state. -/
def Goes (o : Host.Outcome State Fault Refusal) : Prop := ∃ t, o = .next t

/-- Every step of a run from `s` goes on, `n` steps long. -/
def SafeFor : Nat → State → Prop
  | 0, _ => True
  | n + 1, s => ∃ t, step s = .next t ∧ SafeFor n t

/-- From `s` the command answers the next state whose die is `d` but for what every event brings with it
(`Die.afterEvent`: GEN of the report, and since when the entry conditions of sleep have held). The queue stays. -/
def Answers (c : Instr) (s : State) (d : Die) : Prop := exec c s = .next { s with die := Die.afterEvent s.die d }

/-- Slot `k` of the running bundle has yet to act in the present issue cycle, the `left`th from the end, and bundle issue acts
(R43, R544, R548, R554). -/
abbrev Acting (s : State) (k : Nat) (r : Run) (left : Nat) (todo : List Nat) : Prop :=
  s.die.iss.run = some r ∧ r.phase = .issuing left todo ∧ k ∈ todo ∧ s.die.issueRuns = true

/-- What a slot action finds (R85): every readable result lies in the stores, and what the check code found has been dealt with: nothing,
or a corrected word counted and recorded. -/
def Checked (s : State) (e : Ecc) (r : Run) : Die := s.die.landReadable.ecc e (some r.slot) { code := 0 }

/-- No result in flight, and no increment of a tally, has become readable without landing (R85, R180). -/
abbrev Landed (d : Die) : Prop :=
  (∀ w ∈ d.nextWrites, ∀ m, w = some m → d.iss.cyc ≤ m) ∧ ∀ x ∈ d.iss.incs, d.iss.cyc ≤ x.1

/-- Bundle issue acts, and finds the die as it is. -/
abbrev Steady (s : State) : Prop := s.die.issueRuns = true ∧ Landed s.die

/-- A register write or message of function `fn` takes effect at once: the die is awake, the mainline is up, and nothing of the function
waits. -/
abbrev Prompt (s : State) (fn : Nat) : Prop := s.die.hears = true ∧ (s.die.ctx.held.any fun h => decide (h.fn = fn)) = false

/-- The nine byte memories are in their canonical form. -/
abbrev MemoryForm (s : State) : Prop :=
  Memory.wf s.die.st.ws0 = true ∧ Memory.wf s.die.st.ws1 = true ∧ Memory.wf s.die.st.lb = true ∧ Memory.wf s.die.st.hbm = true ∧
    Memory.wf s.die.st.instr = true ∧ Memory.wf s.die.st.xprog = true ∧ Memory.wf s.die.st.ag = true ∧
    Memory.wf s.die.st.desc = true ∧ Memory.wf s.die.st.tmpl = true

end Sys2Proof.Machine
end

