-- ==== Sys2Proof/WellFormed.lean ====
section
/-! DEFINITION. Well-formed commands: what a message or an outcome that the spec lays out can carry. The meanings are total
on every command; this says which of them the outside can send. -/

namespace Sys2Proof

/-- A store index of R594. -/
def Ecc.wf (e : Ecc) : Bool := e.all fun w => decide (w.store ≤ 10)

/-- An HBM4 address of at most 40 bits, or a block's number and its 256 bytes. -/
def Access.wf : Access → Bool
  | .ok => true
  | .ecc e => e.wf
  | .crcFail a => decide (a < 0x10000000000)
  | .delivered n cipher _ => decide (n < 0x100000000 ∧ cipher.length = 256)

/-- Lists of a board configuration name loops and ports that exist, with defined rates (R383, R577). -/
def BoardConf.wf (c : BoardConf) : Bool :=
  (c.loops.all fun l => decide (l.loop < 8)) && (c.ports.all fun p => decide (p.1 < 4 ∧ p.2.toNat < 5)) &&
    decide (c.poolPages ≤ 131072 ∧ c.weights.length ≤ 2097152)

def MgmtCmd.wf : MgmtCmd → Bool
  | .setRoute index _ _ => decide (index < 4096)
  | .setChannel index words => decide (index < 4096 ∧ words.length = 8)
  | .setPort p _ _ => decide (p < 8)
  | .setBoardConfig c _ => c.wf
  | _ => true

def LargeReq.wf : LargeReq → Bool
  | .manage _ c => c.wf
  | _ => true

/-- The operands of a command fit the message or event that the spec lays out. -/
def Instr.wf : Instr → Bool
  | .bundleIssue e => e.wf
  | .wload _ e | .stream _ e | .streamRowComplete _ e => e.wf
  | .vadd e | .vmul e | .vfma e | .vmax e | .vmin e | .vcmpgt e | .vexp e | .vrecip e | .vrsqrt e | .vcvt e | .vrmax e | .vrsum e
  | .vamax e | .vmerge e | .vhad e => e.wf
  | .fwload e | .fstream e | .flintRowComplete e | .fft e | .ifft e | .cmul e | .wht e => e.wf
  | .maxpool e | .avgpoolInc e | .avgpoolExc e | .cropBilinear e | .cropNearest e | .argmax e => e.wf
  | .cmd e | .sense e | .vectorResult e | .micaResult e | .postResult e => e.wf
  | .chunkSend _ _ _ (some r) _ => r.wf
  | .patrolRead e => e.wf
  | .gather _ e a | .scatter _ e a => e.wf && a.wf
  | .requestIssue _ _ _ a => a.wf
  | .prologuePiece a => a.wf
  | .move _ e | .stride _ e | .signal _ e | .wait _ e | .loop _ e | .endStep _ e => e.wf
  | .requestComplete _ which _ res _ => decide (which < 8) && res.wf
  | .kvpQueueHead a | .retire a => a.wf
  | .loadComplete _ a | .nfpOpenDone _ a | .sweepBlockRewrite _ a => a.wf
  | .nwtFrameResult e => e.wf
  | .line _ row off payload _ => decide (row < 8192 ∧ off < 65536 ∧ payload.length ≤ 4096)
  | .sensor _ f | .status _ f => decide (f.length = 64)
  | .dataCell _ c | .helloCell _ c | .topoCell _ c => decide (c.length = 316)
  | .linkCell _ c => decide (c.length = 12)
  | .memRd _ _ _ _ res => res.wf
  | .memWr _ _ data res => decide (1 ≤ data.length ∧ data.length ≤ 256) && res.wf
  | .setRoute _ index _ _ => decide (index < 4096)
  | .setChannel _ index words => decide (index < 4096 ∧ words.length = 8)
  | .setPort _ p _ _ => decide (p < 8)
  | .getCapabilities _ _ n => decide (n < 0x100000000)
  | .txFrameStart _ credits => decide (credits ≤ 4)
  | .setBoardConfig _ c _ => c.wf
  | .thermalSample temps => decide (temps.length = 16)
  | .getCertificate _ _ off len => decide (off < 65536 ∧ len < 65536)
  | _ => true

end Sys2Proof
end

