-- ==== Sys2Proof/Certificates/Slice0/Obligations.lean ====
section
/-! DEFINITION. The statements for the provers. Each docstring names the rules of spec/ that the statement formalises.
`Answers c s d` is an equation on `exec c s`: it says that the command completes, what it changes, and, since `d` is written
as the old die with fields replaced, that everything else stays as it was. -/

open Sys2Proof Sys2Proof.Machine

/-- A step with a command in front of the queue is exec of that command with the queue's rest (01 The die at a glance, 95
What each step holds). The idle step is the model's own (log entry 1). -/
def Obligations.StepRunsFrontCommand : Prop :=
  (∀ (c : Instr) (rest : List Instr) (s : State), s.pending = c :: rest → step s = exec c { s with pending := rest }) ∧
  (∀ s : State, s.pending = [] → ∃ t, step s = .next t ∧ t.pending = [])

/-- Every command answers a next state and leaves the queue alone (20 Errors, Containment and Fault Records, 95 What each
step holds). That a command answers where its event is not due is the model's reading (log entry 14). -/
def Obligations.EveryCommandAnswers : Prop :=
  ∀ (c : Instr) (s : State), ∃ t, exec c s = .next t ∧ t.pending = s.pending

/-- Beside its own effect an event changes only GEN, the start of the holdoff, and what outstanding requests may have read
(R257, R537, R552). That GEN moves once for a command, with firmware running before and after it, is log entry 57, and what
is kept for requests is log entry 104: both the model's readings. -/
def Obligations.EventBringsOnlyGenAndHoldoff : Prop :=
  (∀ old new : Die,
    Die.afterEvent old new =
      { new with
        mgmt := { new.mgmt with
          gen := if old.boot.fwRuns = true ∧ new.boot.fwRuns = true ∧ old.boot.starts = new.boot.starts ∧ old.report ≠ new.report then new.mgmt.gen + 1
                 else new.mgmt.gen },
        pwr := { new.pwr with
          okSince := if new.entryReady = false then none
                     else if new.pwr.okSince.isSome = true then new.pwr.okSince else some new.time.aon.toNat }
        seen := (Die.afterEvent old new).seen }) ∧
  (∀ old new : Die, (∀ c ∈ new.xfr.threads, ∀ q ∈ c.2.out, q.data.isSome = true) → (Die.afterEvent old new).seen = []) ∧
  (∀ (old new : Die) (q : Req), (new.xfr.threads.flatMap fun c => c.2.out.filter fun r => r.data.isNone) = [q] →
    q.serial < old.xfr.issued → old.seen = [] →
    (Die.afterEvent old new).seen =
      (if old.st.source q = new.st.source q then [] else [(q.serial, [old.st.source q])]))

/-- After reset the byte memories are in canonical form, no slot is granted, no record is valid, and registers read the
values their tables give (R28, R70, R227, R408, R449, R480, R566, R610). -/
def Obligations.ResetLeavesTheStatedValues : Prop :=
  State.reset.pending = [] ∧ MemoryForm State.reset ∧ (∀ i, (State.reset.die.slot i).state = .free ∧ (State.reset.die.errRec i).valid = false) ∧
  ∀ p : Nat × W32, p ∈ ([(0x000000, 0x4E320100), (0x208000, 0x00432380), (0x900008, 0x3E8), (0x901000, 0x3F), (0x9011C0, 0x3F), (0x100004, 0x3D090),
      (0xB00004, 0xFFFFFFFF), (0xB00008, 0x7D0), (0xD00008, 0xC00), (0xD00018, 0xF), (0xD00024, 0x400), (0xE00004, 0x1FFFE),
      (0x100000, 0), (0x700000, 0), (0xF00000, 0), (0xE00000, 0), (0x000014, 0)] : List (Nat × W32)) → (State.reset.die.regRead 0 p.1).2 = p.2

/-- Every step keeps the nine byte memories in canonical form (R58, R227, R240, R258, R292). -/
def Obligations.EveryStepKeepsMemoryForm : Prop :=
  ∀ s t : State, MemoryForm s → step s = .next t → MemoryForm t

/-- BUNDLE_ISSUE fetches the 64 bytes at the run's address; without a wait the bundle issues for HOLD + 1 cycles, or ends on
an absent unit (R40, R41, R44, R86, R230). What issue finds landed is log entry 16, and that a new cycle starts with no event
of an earlier one log entry 131: the model's readings. -/
def Obligations.BundleWithoutWaitIssues : Prop :=
  (∀ (s : State) (r : Run) (e : Ecc), s.die.iss.run = some r → r.phase = .due → s.die.issueRuns = true → eccBad e = true →
    Answers (.bundleIssue e) s (Checked s e r)) ∧
  ∀ (s : State) (r : Run) (g : Segment), s.die.iss.run = some r → r.phase = .due → Steady s → (s.die.slot r.slot).seg = some g →
    let b : BitVec 512 := BitVec.ofNat 512 (leNat (Mem.read s.die.st.instr (64 * (g.base + r.pc)) 64))
    let r1 : Run := { r with
      bundle := b, firstCycle := true, started := true, reported := [], refused := false, consumed0 := 0, consumed1 := 0,
      entered0 := false, entered1 := false, second0 := false, second1 := false, phase := .issuing (bundleHold b + 1) (firstSlots b) }
    bundleWait b = false →
    (∀ k, s.die.absentSlot r.slot b = some k →
      let d : Die := { s.die with iss := { s.die.iss with run := some { r with bundle := b } } }
      k < 7 ∧ d.wordAbsent r.slot k (slotWord b k) = true ∧ (∀ j < k, d.wordAbsent r.slot j (slotWord b j) = false) ∧
      Answers (.bundleIssue .ok) s ((d.record 23 0x04 (some r.slot) r.pc k 0 0).abortSlot r.slot 0x04)) ∧
    (s.die.absentSlot r.slot b = none → firstSlots b ≠ [] →
      Answers (.bundleIssue .ok) s { s.die with
        iss := { s.die.iss with run := some r1 }
        err := { s.die.err with cycle := [] } }) ∧
    (s.die.absentSlot r.slot b = none → firstSlots b = [] →
      Answers (.bundleIssue .ok) s { s.die with
        iss := { s.die.iss with
          cyc := s.die.iss.cyc + (bundleHold b + 1), owed := s.die.iss.owed - (bundleHold b + 1 : Nat),
          run := some (if bundleLoopOp b = 0 then
              { r1 with cycles := r.cycles + (bundleHold b + 1), held := r.held + (bundleHold b + 1), pc := r.pc + 1, phase := .due }
            else { r1 with cycles := r.cycles + (bundleHold b + 1), held := r.held + (bundleHold b + 1), phase := .control }) }
        glb := { s.die.glb with aclkCycles := inc64 s.die.glb.aclkCycles (bundleHold b + 1) }
        err := { s.die.err with cycle := [] } })

/-- A wait, of a due bundle or stalled, ends the context on an error bit, releases when the tally meets the target, otherwise
stalls (R50, R51, R54, R55, R56, R71, R85, R180). The clauses are about a die whose bundle issue runs. That the abort has the
cause stored with the error bit is log entry 19 (DEDUCED: R55 gives no cause), that results land by the time they are
readable log entry 16. -/
def Obligations.WaitReleasesStallsOrEnds : Prop :=
  (∀ (s : State) (r q : Run) (g : Segment) (p n lim : Nat), s.die.iss.run = some r → Steady s → (s.die.slot r.slot).seg = some g →
    (r.phase = .due ∧ q = { r with bundle := s.die.fetchBundle r } ∨ r.phase = .stalled n lim ∧ q = r) →
    bitsOf q.bundle.toNat 26 19 < g.tallies → p = g.tallyBase + bitsOf q.bundle.toNat 26 19 →
    let T := bitsOf q.bundle.toNat 503 480
    let v := (s.die.tally p).value
    let d : Die := { s.die with iss := { s.die.iss with run := some q } }
    let released : Die := if bit q.bundle.toNat 18 then d.updTally p fun t => { t with value := v - BitVec.ofNat 24 T } else d
    let stalled (k m : Nat) : Die := { s.die with glb := { s.die.glb with aclkCycles := inc64 s.die.glb.aclkCycles 1 }, iss := { s.die.iss with
      cyc := s.die.iss.cyc + 1, owed := s.die.iss.owed - 1,
      stallCycles := if s.die.isConf r.slot then s.die.iss.stallCycles else inc64 s.die.iss.stallCycles 1,
      run := some { q with held := r.held + 1, cycles := if r.started then r.cycles + 1 else r.cycles, phase := .stalled k m } } }
    (r.phase = .due → bit q.bundle.toNat 17 = true →
      ((s.die.tally p).err = true → Answers (.bundleIssue .ok) s (d.abortSlot r.slot (s.die.tally p).cause)) ∧
      ((s.die.tally p).err = false → T ≤ v.toNat → Answers (.bundleIssue .ok) s released.enterBundle) ∧
      ((s.die.tally p).err = false → v.toNat < T →
        Answers (.bundleIssue .ok) s (stalled 1 (max s.die.iss.tallyTimeout.toNat 0x400)))) ∧
    (r.phase = .stalled n lim →
      ((s.die.tally p).err = true → Answers .tallyWaitRelease s (d.abortSlot r.slot (s.die.tally p).cause)) ∧
      ((s.die.tally p).err = false → T ≤ v.toNat → Answers .tallyWaitRelease s released.enterBundle) ∧
      ((s.die.tally p).err = false → v.toNat < T → n < lim → Answers .tallyWaitRelease s (stalled (n + 1) lim)) ∧
      ((s.die.tally p).err = true → lim ≤ n → Answers .tallyTimeout s (d.abortSlot r.slot (s.die.tally p).cause)) ∧
      ((s.die.tally p).err = false → T ≤ v.toNat → lim ≤ n → Answers .tallyTimeout s released.enterBundle) ∧
      ((s.die.tally p).err = false → v.toNat < T → lim ≤ n →
        Answers .tallyTimeout s ((s.die.record 22 0x03 (some r.slot) r.pc p T v.toNat).abortSlot r.slot 0x03)))) ∧
  (∀ (s : State) (r : Run) (c : Instr), s.die.iss.run = some r → s.die.issueRuns = true →
    c ∈ [Instr.bundleIssue .ok, .tallyWaitRelease, .tallyTimeout] →
    let landed : State := { s with die := s.die.landReadable }
    landed.die.iss.run = some r → Steady landed → ∃ e : Die, Answers c landed e ∧ Answers c s e)

/-- BEGIN pushes an entry that starts at the next address, END counts its levels down and branches or falls through, EXIT
lets the run drain (R44, R45, R47). -/
def Obligations.LoopControlMovesTheAddress : Prop :=
  ∀ (s : State) (r : Run), s.die.iss.run = some r → r.phase = .control → s.die.issueRuns = true →
    let after (q : Run) : Die := { s.die with iss := { s.die.iss with run := some q } }
    let N := bitsOf r.bundle.toNat 503 480
    let levels := bitsOf r.bundle.toNat 16 14 + 1
    (bitsOf r.bundle.toNat 13 12 = 1 →
      Answers .loopBegin s (after { r with
        loops := { start := r.pc + 1, remaining := if N = 0 then 16777216 else N } :: r.loops, pc := r.pc + 1, phase := .due })) ∧
    (∀ done e rest, bitsOf r.bundle.toNat 13 12 = 2 → r.loops = done ++ e :: rest → (∀ x ∈ done, x.remaining ≤ 1) →
      done.length < levels → 1 < e.remaining →
      Answers .loopEnd s (after { r with loops := { e with remaining := e.remaining - 1 } :: rest, pc := e.start, phase := .due })) ∧
    (∀ done rest, bitsOf r.bundle.toNat 13 12 = 2 → r.loops = done ++ rest → (∀ x ∈ done, x.remaining ≤ 1) → done.length = levels →
      Answers .loopEnd s (after { r with loops := rest, pc := r.pc + 1, phase := .due })) ∧
    (bitsOf r.bundle.toNat 13 12 = 3 → Answers .exit s (after { r with phase := .drain }))

/-- Once every slot of an issue cycle has acted the cycle passes; slots 3 and 6 act in the first cycle only (R40, R41, R58).
-/
def Obligations.IssueCycleEnds : Prop :=
  ∀ (d : Die) (r : Run) (k left : Nat) (todo : List Nat), d.iss.run = some r → r.phase = .issuing left todo → r.ended = false →
    let d1 : Die := if r.refused && !(d.isConf r.slot) then { d with xfr := { d.xfr with grantViol := satInc32 d.xfr.grantViol 1 } } else d
    let told := d.mainline && !d.iss.aborts.isEmpty
    let passed (n : Nat) (q : Run) : Die := { d1 with
      err := { d.err with cycle := [] }
      out := if told then (d.iss.aborts.reverse.map fun a => Out.intr a.1 (BitVec.ofNat 8 (0x40 + a.2))) ++ d.out else d.out
      fab := if told then { d.fab with modTurn := Tab.write 3 d.fab.modTurn 0 3 } else d.fab
      glb := { d.glb with aclkCycles := inc64 (if n = 1 then d.glb.aclkCycles else inc64 d.glb.aclkCycles 1) (if n = 1 then 1 else n - 1) }
      iss := { d.iss with
        cyc := d.iss.cyc + n, owed := d.iss.owed - (n : Nat), aborts := [],
        run := some { q with cycles := r.cycles + n, held := r.held + n, refused := false } } }
    let ended : Run := if bundleLoopOp r.bundle = 0 then { r with pc := r.pc + 1, phase := .due } else { r with phase := .control }
    let again := (firstSlots r.bundle).filter fun j => decide (j ≠ 3 ∧ j ≠ 6)
    (todo.erase k ≠ [] → d.slotDone k = { d with iss := { d.iss with run := some { r with phase := .issuing left (todo.erase k) } } }) ∧
    (todo.erase k = [] → (left ≤ 1 ∨ r.retired = true) → d.slotDone k = passed 1 ended) ∧
    (todo.erase k = [] → 1 < left → r.retired = false → again ≠ [] →
      d.slotDone k = passed 1 { r with phase := .issuing (left - 1) again, firstCycle := false }) ∧
    (todo.erase k = [] → 1 < left → r.retired = false → again = [] → d.slotDone k = passed left ended)

/-- ENOP, VNOP, PNOP and SNOP complete and change nothing (R42). -/
def Obligations.NoOperationsDoNothing : Prop :=
  ∀ s : State,
    (∀ te, Answers (.enop te) s s.die) ∧ Answers .vnop s s.die ∧ Answers .pnop s s.die ∧ Answers .snop s s.die ∧
    ∀ k w, slotOp k w = 0 → slotListed k w = false ∧ ∀ i, s.die.wordAbsent i k w = false

/-- In each issue cycle every slot acts once on its word: each slot command completes with its action, and an uncorrectable
word ends the action (R40, R60, R79, R83, R87, R96, R99, R103, R85, R108, R109, R230). A word of a reserved format has its
cycle and no effect (log entry 21, the model's reading); what is readable has landed (log entry 16). -/
def Obligations.SlotActionsActOncePerCycle : Prop :=
  ∀ (s : State) (k op : Nat) (mica : Bool) (c : Ecc → Instr) (f : Run → Nat → Die → Die),
    ((∃ te : Fin 2, k = te.val ∧
        ((op = 1 ∧ c = Instr.wload te ∧ f = fun r w d => d.wload te.val r w) ∨
         (op = 2 ∧ c = Instr.stream te ∧ f = fun r w d => d.stream_ te.val r w))) ∨
     (k = 2 ∧
       ((∃ g : Run → Nat → Fmt → Nat → Die → Die,
          (f = fun r w d => match vFmt w with | some v => d.vectorCycle r op w (g r w v) | none => d) ∧
          ((op = 1 ∧ c = Instr.vadd ∧ g = fun r w v => Die.vElem r 1 w v) ∨ (op = 2 ∧ c = Instr.vmul ∧ g = fun r w v => Die.vElem r 2 w v) ∨
           (op = 3 ∧ c = Instr.vfma ∧ g = fun r w v => Die.vElem r 3 w v) ∨ (op = 4 ∧ c = Instr.vmax ∧ g = fun r w v => Die.vElem r 4 w v) ∨
           (op = 5 ∧ c = Instr.vmin ∧ g = fun r w v => Die.vElem r 5 w v) ∨ (op = 6 ∧ c = Instr.vcmpgt ∧ g = fun r w v => Die.vElem r 6 w v) ∨
           (op = 7 ∧ c = Instr.vexp ∧ g = fun r w v => Die.vUnary r 7 w v) ∨ (op = 8 ∧ c = Instr.vrecip ∧ g = fun r w v => Die.vUnary r 8 w v) ∨
           (op = 9 ∧ c = Instr.vrsqrt ∧ g = fun r w v => Die.vUnary r 9 w v) ∨
           (op = 11 ∧ c = Instr.vrmax ∧ g = fun r w v => Die.vReduce r 11 w v) ∨
           (op = 12 ∧ c = Instr.vrsum ∧ g = fun r w v => Die.vReduce r 12 w v) ∨
           (op = 14 ∧ c = Instr.vmerge ∧ g = fun r w v => Die.vMerge r w v) ∨ (op = 15 ∧ c = Instr.vhad ∧ g = fun r w v => Die.vHad r w v))) ∨
        (op = 10 ∧ c = Instr.vcvt ∧ f = fun r w d =>
          (d.cvtScale r w (d.prog r.slot 5 (vDst w))).1.vectorCycle r 10 w
            (Die.vCvt r w (d.cvtScale r w (d.prog r.slot 5 (vDst w))).2)
            |>.cvtSkews r (d.cvtSkew r w 0) (d.cvtSkew r w 1)) ∨
        (op = 13 ∧ c = Instr.vamax ∧ f = fun r w d => match vFmt w with
          | some v => (if (d.prog r.slot 5 (vDst w)).record then (d.rollFor r w (d.prog r.slot 5 (vDst w))).1 else d).vectorCycle r 13 w
              (Die.vAmax r w v)
          | none => d))) ∨
     (k = 4 ∧ mica = false ∧
       ((op = 1 ∧ c = Instr.fwload ∧ f = fun r w d => d.fwload r w) ∨ (op = 2 ∧ c = Instr.fstream ∧ f = fun r w d => d.fstream r w))) ∨
     (k = 4 ∧ mica = true ∧ (f = fun r w d => d.micaCycle r op w) ∧
       ((op = 1 ∧ c = Instr.fft) ∨ (op = 2 ∧ c = Instr.ifft) ∨ (op = 3 ∧ c = Instr.cmul) ∨ (op = 4 ∧ c = Instr.wht))) ∨
     (k = 5 ∧
       ((op = 1 ∧ c = Instr.maxpool ∧ f = fun r w d => (d.postAction r.slot 1).poolCycle r 1 w) ∨ (op = 2 ∧ c = Instr.avgpoolInc ∧ f = fun r w d => (d.postAction r.slot 2).poolCycle r 2 w) ∨
        (op = 3 ∧ c = Instr.avgpoolExc ∧ f = fun r w d => (d.postAction r.slot 3).poolCycle r 3 w) ∨
        (op = 4 ∧ c = Instr.cropBilinear ∧ f = fun r w d => (d.postAction r.slot 4).cropCycle r 4 w) ∨
        (op = 5 ∧ c = Instr.cropNearest ∧ f = fun r w d => (d.postAction r.slot 5).cropCycle r 5 w) ∨ (op = 6 ∧ c = Instr.argmax ∧ f = fun r w d => (d.postAction r.slot 6).argmaxCycle r w))) ∨
     (k = 6 ∧ op = 2 ∧ c = Instr.cmd ∧ f = fun r w d => d.cmd r w) ∨
     (k = 6 ∧ op = 3 ∧ c = (fun e => Instr.sense e) ∧ f = fun r w d => d.sense r w)) →
    ∀ (e : Ecc) (r : Run) (left : Nat) (todo : List Nat), Acting s k r left todo →
      slotOp k (slotWord r.bundle k) = op → (k = 4 → slot4Mica (slotWord r.bundle k) = mica) →
      (eccBad e = false → Answers (c e) s ((f r (slotWord r.bundle k) (Checked s e r)).slotDone k)) ∧
      (eccBad e = true → Answers (c e) s ((Checked s e r).slotDone k))

/-- WLOAD writes the walk row at the source's cursor as the plane's next row; the first cycle marks every row unwritten and
starts the statistics (R88, R90, R150, R172, R300). That the entry's grant is tested as a whole in the first cycle is log
entry 132 (PRESUMED); what issue finds landed is log entry 16. -/
def Obligations.WeightLoadWritesOneRow : Prop :=
  (∀ (s : State) (te : Fin 2) (e : Ecc) (r : Run) (left : Nat) (todo : List Nat) (f : Fmt) (g : Segment), Acting s te.val r left todo →
    eccBad e = false →
    let w := slotWord r.bundle te.val
    slotOp te.val w = 1 → wlFmt w = some f →
    let d := Checked s e r
    (d.slot r.slot).seg = some g →
    let p := d.prog r.slot te.val (wlSrc w)
    let a := (if te.val = 0 then g.statBase0 else g.statBase1) + 8192 * bitsOf w 42 31
    let n := if f = .int4 ∨ f = .fp4 ∨ f = .e4m3 ∨ f = .e5m2 then 16384 else 8192
    let ok := d.granted r.slot (te.val + 1) a n
    let pl : Plane := if r.firstCycle then
        { fmt := BitVec.ofNat 3 (bitsOf w 57 55), loaded := true, stats := if ok then [] else List.replicate n 0,
          statRead := if ok then some { slot := r.slot, start := d.iss.cyc, space := te.val + 1, addr := a, len := n } else none }
      else (d.te te.val).plane (bitsOf w 54 54)
    let row := d.fetchRow r.slot p.space p (d.row r.slot te.val (wlSrc w)) 256 0
    let d1 := d.markRefused (r.firstCycle && !ok)
    p.rows ≠ 0 → p.swalk = false →
    (pl.next < 256 → Answers (.wload te e) s (Die.slotDone (Die.advance ((d1.markRefused row.2).updTe te.val fun x =>
        { x.setPlane (bitsOf w 54 54) { pl with rows := Tab.insert pl.rows pl.next (row.1.map Prod.snd), next := pl.next + 1 } with
          wrows := if d.isConf r.slot then x.wrows else inc64 x.wrows 1 })
        r.slot te.val (wlSrc w) 1) te.val)) ∧
    (256 ≤ pl.next → r.firstCycle = false → Answers (.wload te e) s ((d.advance r.slot te.val (wlSrc w) 1).slotDone te.val))) ∧
  (∀ (p : Plane) (q : StatRead) (st st' : Stores) (m m' : Nat), p.statRead = some q → p.stats = [] → q.start ≤ m → m ≤ m' →
    let k := 512 * min (q.len / 512) (m - q.start)
    let k' := 512 * min (q.len / 512) (m' - q.start)
    (p.statDue st m).stats = st.read q.space q.addr k ∧
    (m ≤ q.start + q.len / 512 →
      ((p.statDue st m).statDue st' m').stats = st.read q.space q.addr k ++ st'.read q.space (q.addr + k) (k' - k)))

/-- STREAM takes rows into the engine with the destination of that cycle: every format, block-scaled rows, INT16's two
presentations, elastic ranges (R91, R121, R123, R128, R150, R166, R179, R180, R202, R203, R300, R301). The row keeps the
plane as at its entry: log entry 90 (DESIGN CHOICE); entry 0 for a plane never loaded: log entry 112; when CTALLY is
incremented: log entry 22. -/
def Obligations.StreamRowEntersTheEngine : Prop :=
  ∀ (s : State) (te : Fin 2) (e : Ecc) (r : Run) (left : Nat) (todo : List Nat) (f : Fmt), Acting s te.val r left todo → eccBad e = false →
    let w := slotWord r.bundle te.val
    slotOp te.val w = 2 → wlFmt w = some f →
    let d := Checked s e r
    let t := d.te te.val
    let p := d.prog r.slot te.val (stSrc w)
    let q := d.prog r.slot te.val (stDst w)
    let i := d.row r.slot te.val (stSrc w)
    let j := d.row r.slot te.val (stDst w)
    let pl := t.plane (bitsOf w 54 54)
    let force := if te.val = 0 then r.force0 else r.force1
    let remain := bundleHold r.bundle + 1 - (if te.val = 0 then r.consumed0 else r.consumed1)
    let elastic := decide (bitsOf w 53 52 = 3)
    let done := r.reported.contains te.val
    let x0 := d.fetchRow r.slot p.space p i f.tokenBytes 0
    let x1 : RowBytes × Bool := if f.tokens = 2 ∧ ¬ (p.rows ≤ i + 1 ∧ p.rows % 2 = 1) then
        d.fetchRow r.slot p.space p ((i + 1) % p.rows) f.tokenBytes 0
      else (List.replicate f.tokenBytes (none, 0), false)
    let sc := d.actScales r.slot p f (if f.tokens = 2 then [x0.1, x1.1] else [x0.1])
    let entered (x : RowFlight) (act : List Byte) (at_ : Nat) (scales : List Nat) (blocked : Bool) : Prop :=
      x.entry = d.iss.cyc ∧ x.slot = r.slot ∧ x.word.toNat = w ∧ x.act = act ∧ x.actScale = scales ∧ x.blocked = (blocked || pl.blocked) ∧
      x.plane = (if pl.loaded = true then pl else { pl with stats := (d.readStats r.slot te.val 0 f).1 }) ∧
      x.dstSpace = q.space ∧ x.dstAddr = (q.rowAddr at_).toNat ∧ x.dstFmt.toNat = q.efmt % 16
    let only (d1 : Die) : Prop := d1.te (1 - te.val) = d.te (1 - te.val) ∧ d1 = { d with iss := d1.iss, te0 := d1.te0, te1 := d1.te1 }
    let counted (d1 : Die) : Prop := (d1.te te.val).rows = (if d.isConf r.slot then t.rows else inc64 t.rows 1)
    let skips (d1 : Die) (n : Nat) : Prop := (d1.te te.val).skipped = (if d.isConf r.slot then t.skipped else inc64 t.skipped n)
    let row (k : Nat) : List Byte := placeTokens f ((d.fetchRow r.slot p.space p ((i + k) % p.rows) f.tokenBytes 0).1.map Prod.snd) []
    let zero (k : Nat) : Prop := ∀ b ∈ row k, b = 0
    (p.rows = 0 → elastic = false → Answers (.stream te e) s ((d.markEmpty r.slot te.val).slotDone te.val)) ∧
    (elastic = true → done = true → Answers (.stream te e) s (d.slotDone te.val)) ∧
    (p.rows ≠ 0 → f ≠ .int16 → (elastic = false ∨ (done = false ∧ (bitsOf w 51 50 ≠ 1 ∨ force = true))) → sc.2.1 = none →
      ∃ (d1 : Die) (x : RowFlight), Answers (.stream te e) s (d1.slotDone te.val) ∧
        entered x (placeTokens f (x0.1.map Prod.snd) (x1.1.map Prod.snd)) j sc.1 (p.swalk && f.blockable) ∧
        x.ctally = (if elastic = true ∧ remain ≤ 1 then d.physTally r.slot (bitsOf w 25 18) else none) ∧
        (d1.te te.val).flight = t.flight ++ [x] ∧ counted d1 ∧ only d1) ∧
    (∀ k, p.rows ≠ 0 → f ≠ .int16 → elastic = false → sc.2.1 = some k → Answers (.stream te e) s
      (((((d.markRefused x0.2).markRefused x1.2).markRefused sc.2.2).scaleSkew r.slot (25 + te.val) r.pc k).slotDone te.val)) ∧
    (p.rows ≠ 0 → f = .int16 → elastic = false → (if te.val = 0 then r.second0 else r.second1) = false →
      ∃ (d1 : Die) (a : Run), Answers (.stream te e) s (d1.slotDone te.val) ∧ d1.iss.run = some a ∧
        (if te.val = 0 then a.second0 else a.second1) = true ∧ (d1.te te.val).pend16 = (d.fetchRow r.slot p.space p i 256 0).1.map Prod.snd ∧
        (d1.te te.val).flight = t.flight ∧ counted d1 ∧ only d1) ∧
    (p.rows ≠ 0 → f = .int16 → elastic = false → (if te.val = 0 then r.second0 else r.second1) = true →
      ∃ (d1 : Die) (a : Run) (x : RowFlight), Answers (.stream te e) s (d1.slotDone te.val) ∧ d1.iss.run = some a ∧
        (if te.val = 0 then a.second0 else a.second1) = false ∧ entered x (placeTokens .int16 t.pend16 []) j [] false ∧ x.ctally = none ∧
        (d1.te te.val).flight = t.flight ++ [x] ∧ counted d1 ∧ only d1) ∧
    (∀ k, p.rows ≠ 0 → elastic = true → done = false → bitsOf w 51 50 = 1 → force = false → q.rows ≠ 0 →
      k < min 4 remain → ¬ zero k → (∀ m < k, zero m) →
      ∃ (d1 : Die) (x : RowFlight), Answers (.stream te e) s (d1.slotDone te.val) ∧ entered x (row k) ((j + k) % q.rows) [] false ∧
        x.ctally = (if remain = k + 1 then d.physTally r.slot (bitsOf w 25 18) else none) ∧
        (d1.te te.val).flight = t.flight ++ [x] ∧ counted d1 ∧ skips d1 k ∧ only d1) ∧
    (p.rows ≠ 0 → elastic = true → done = false → bitsOf w 51 50 = 1 → force = false → 4 < remain → (∀ m < 4, zero m) →
      ∃ d1 : Die, Answers (.stream te e) s (d1.slotDone te.val) ∧ (d1.te te.val).flight = t.flight ∧ (d1.te te.val).rows = t.rows ∧
        skips d1 4 ∧ only d1)

/-- 517 cycles after its entry the oldest row of an engine writes its result row, and no other byte of any memory changes
(R85, R128, R129, R132, R149, R188). The model's readings: the reserved ACC code writes nothing (log entry 21), a row lands
at any cycle from its own on with the reads due before made first (log entry 16), and the command changes nothing before (log
entry 14). -/
def Obligations.EngineRowLandsAtItsDestination : Prop :=
  ∀ (s : State) (te : Fin 2) (x : RowFlight) (rest : List RowFlight), MemoryForm s → (s.die.te te.val).flight = x :: rest →
    x.sideAddr = none → x.ctally = none →
    let y : RowFlight := { x with plane := x.plane.statDue s.die.st (x.entry + 517) }
    let out := (y.complete (s.die.partialRead x x.acc (x.ncol * x.fmt.tokens)) (s.die.sidecarRead x x.acc)).data
    let d0 := s.die.readDue (x.entry + 517)
    let later := (d0.te te.val).flight.drop 1
    (s.die.iss.cyc < x.entry + 517 → Answers (.streamRowComplete te .ok) s s.die) ∧
    (x.entry + 517 ≤ s.die.iss.cyc → ∃ d : Die, Answers (.streamRowComplete te .ok) s d ∧
      d.te (1 - te.val) = d0.te (1 - te.val) ∧ later.length = rest.length ∧
      (∀ sp, ∀ a, d.st.read sp a 1 =
          if x.dstOk = true ∧ x.acc ≠ 3 ∧ sp = x.dstSpace ∧ x.dstAddr ≤ a ∧ a < x.dstAddr + out.length ∧ 1 ≤ sp ∧ sp ≤ 3 then
            [nth 0 out (a - x.dstAddr)]
          else s.die.st.read sp a 1) ∧
      d.te te.val = { d0.te te.val with
        flight := later, accSat := (d.te te.val).accSat, nanFinal := (d.te te.val).nanFinal, eligible := (d.te te.val).eligible,
        gated := (d.te te.val).gated } ∧
      (x.conf = true → d.te te.val = { d0.te te.val with flight := later }) ∧
      d = { s.die with te0 := d.te0, te1 := d.te1, fln := d0.fln, mca := d0.mca,
                       st := { s.die.st with ws0 := d.st.ws0, ws1 := d.st.ws1, lb := d.st.lb } })

/-- The INT8 sum of a column is the exact sum of signed products over the written weight rows (R90, R121, R130). -/
def Obligations.Int8ColumnSumIsExact : Prop :=
  ∀ (x : RowFlight) (c : Nat), x.blocked = false →
    let z : Int := (x.plane.rows.map fun k => sext 8 (byteAt x.act k.1) * sext 8 (byteAt k.2 c)).sum
    x.sum .int8 0 c = (FVal.ofInt (max (-2147483648) (min 2147483647 z)), decide (z < -2147483648 ∨ 2147483647 < z))

/-- For INT8 the high-high estimate never misses the exact column sum by more than the margin bound B (R154, R169, R90). -/
def Obligations.MarginBoundCoversInt8 : Prop :=
  ∀ (x : RowFlight) (c : Nat) (q : ColRec), x.blocked = false → Tab.wf [] x.plane.rows = true → (∀ k ∈ x.plane.rows, k.1 < 256) →
    (x.plane.rows.map fun k => (sext 8 (byteAt k.2 c) / 16).natAbs).sum ≤ q.sbh →
    (∀ k ∈ x.plane.rows, byteAt k.2 c % 16 ≤ q.mbl) →
    let z : Int := (x.plane.rows.map fun k => sext 8 (byteAt x.act k.1) * sext 8 (byteAt k.2 c)).sum
    let b := marginBound .int8 (x.rowBound .int8) q (boundK .int8 x.plane.rows)
    (z - (x.estimate .int8 c).toInt).natAbs ≤ b.toInt.toNat

/-- Every slot-2 operation but the unary ones sends one result per selected group on its way, lane by lane, and touches no
memory yet (R97, R98, R138, R139, R142, R150, R206, R213, R220, R300, R373). It holds where the destination's EFMT is not
VFMT: log entry 91 (DESIGN CHOICE); an INT32 sum or magnitude with no stated value is a free value (log entry 13); VHAD's
place in a block is log entry 117 (DESIGN CHOICE). -/
def Obligations.ElementwiseVectorRowsLand : Prop :=
  ∀ (s : State) (e : Ecc) (c : Ecc → Instr) (op lat : Nat) (r : Run) (left : Nat) (todo : List Nat) (f : Fmt), Acting s 2 r left todo →
    eccBad e = false →
    (c, op, lat) ∈ [(Instr.vadd, 1, 4), (Instr.vmul, 2, 4), (Instr.vfma, 3, 4), (Instr.vmax, 4, 2), (Instr.vmin, 5, 2), (Instr.vcmpgt, 6, 2),
      (Instr.vcvt, 10, 6), (Instr.vrmax, 11, 8), (Instr.vrsum, 12, 8), (Instr.vamax, 13, 8), (Instr.vmerge, 14, 14), (Instr.vhad, 15, 4)] →
    let w := slotWord r.bundle 2
    slotOp 2 w = op → (op ≠ 10 → vFmt w = some f) → (op = 14 → f = .fp32) →
    let d := Checked s e r
    let pa := d.prog r.slot 5 (vA w)
    let q := d.prog r.slot 5 (vDst w)
    let t := cvtTarget w q
    let two := op ≤ 6 ∧ vBext w = false ∨ op = 14 ∨ op = 15 ∧ 8 ≤ pa.hadStage
    let element := decide (11 ≤ op ∧ op ≤ 13)
    let as_ (g : Nat) : List FVal := if op = 10 then (d.cvtSource r w g).1 else (d.groupVals r.slot (vA w) g).1
    let bs (g : Nat) : List FVal := if op ≤ 6 then (d.operandB r w f g).1 else (d.groupVals r.slot (vB w) g).1
    let a (g i : Nat) : FVal := nth .zero (as_ g) i
    let b (g i : Nat) : FVal := nth .zero (bs g) i
    let h (g i : Nat) : FVal := if op = 3 then nth .zero (d.groupVals r.slot (vDst w) g).1 i else .zero
    let k (g i : Nat) : W32 × W32 × Bool := Tab.read (0, 0, false) d.vec.factors (g * 256 + i)
    let stage := pa.hadStage
    let lane (g i : Nat) : Nat :=
      if op ≤ 6 then (lane2 op f (a g i) (b g i) (h g i)).1
      else if op = 10 then (narrow (t.getD f) (a g i)).code
      else if op = 15 then
        (if stage < 8 then (laneResult f ((a g (i ^^^ 2 ^ stage)).add (if bit i stage then (a g i).neg else a g i))).1
         else (laneResult f ((b g i).add (if bit (d.row r.slot 5 (vA w)) (stage - 8) then (a g i).neg else a g i))).1)
      else if r.firstCycle then (if (a g i).isNan || (b g i).isNan then 0x7FC00000 else enc32 (laneMax (a g i) (b g i)))
      else if (k g i).2.2 then 0x7FC00000
      else if (k g i).1 = 0x80000000 ∧ (k g i).2.1 = 0x80000000 then 0
      else mergeRow (k g i).1.toNat (k g i).2.1.toNat (a g i) (b g i)
    let most (g : Nat) : FVal := rmax ((as_ g).map (laneAbs f))
    let bits := if op = 10 then (t.getD f).bits else f.bits
    let data (g : Nat) : List Byte :=
      if op = 11 then packCodes bits [(narrow f (rmax (as_ g))).code]
      else if op = 12 then packCodes bits [(narrow f (rsum f (as_ g))).code]
      else if op = 13 then packCodes bits [(narrow f (most g)).code]
      else (packCodes bits ((List.range 256).map (lane g))).take q.rowb
    let at_ (g : Nat) : Int := q.rowAddr (d.row r.slot 5 (vDst w)) + (if element then ((g * (bits / 8) : Nat) : Int) else groupShift q g)
    let shared (d : Die) (d1 : Die) : Prop := d1 = { d with
      vec := d1.vec, iss := { d.iss with cursors := d1.iss.cursors },
      te0 := { d.te0 with vecCycles := d1.te0.vecCycles, vecSat := d1.te0.vecSat, cvtSat := d1.te0.cvtSat, nanVcvt := d1.te0.nanVcvt },
      te1 := { d.te1 with vecCycles := d1.te1.vecCycles, vecSat := d1.te1.vecSat, cvtSat := d1.te1.cvtSat, nanVcvt := d1.te1.nanVcvt } }
    pa.rows ≠ 0 → (two → (d.prog r.slot 5 (vB w)).rows ≠ 0) → q.rows ≠ 0 →
    (∀ g ∈ vSelected w,
      (if op = 10 then (d.cvtSource r w g).2.1 = none ∧ (d.cvtSource r w g).2.2 = false else (d.groupVals r.slot (vA w) g).2 = false) ∧
      (op ≤ 6 → (d.operandB r w f g).2 = false) ∧ (two → (d.groupVals r.slot (vB w) g).2 = false) ∧
      (op = 3 → (d.groupVals r.slot (vDst w) g).2 = false)) →
    (q.record = false → (op = 10 → t.isSome = true ∧ (q.swalk && (t.getD f).blockable) = false) →
      (∀ g ∈ vSelected w, d.granted r.slot (g / 8 + 1) (at_ g) (data g).length = true) →
      ∃ d1 : Die, Answers (c e) s (d1.slotDone 2) ∧
        d1.vec.landings = d.vec.landings ++ (vSelected w).map (fun g =>
          { ready := d.iss.cyc + lat - 1, entry := d.iss.cyc, slot := r.slot, space := g / 8 + 1, addr := (at_ g).toNat, data := data g }) ∧
        (¬ (op = 14 ∧ r.firstCycle = true) → d1.vec.factors = d.vec.factors) ∧ shared d d1) ∧
    (op = 13 → q.record = true →
      let d2 := (d.rollFor r w q).1
      let m (g : Nat) : FVal := rmax ((d2.groupVals r.slot (vA w) g).1.map (laneAbs f))
      (∀ g ∈ vSelected w, (d2.groupVals r.slot (vA w) g).2 = false) → d2.granted r.slot (vSide w + 1) (q.sbase + 4 : Nat) 4 = true →
      ∃ d1 : Die, Answers (c e) s (d1.slotDone 2) ∧
        d1.vec.landings = d2.vec.landings ++ ((vSelected w).filter fun g => !(m g).isNan).map (fun g =>
          { ready := d.iss.cyc + lat - 1, entry := d.iss.cyc, slot := r.slot, space := vSide w + 17, addr := q.sbase + 4,
            data := leBytes 4 (enc32 (m g)) }) ∧
        d1.vec.factors = d2.vec.factors ∧ shared d2 d1)

/-- The special cases of the lane operations: NaN operands, signed zeros, infinities (R97, R139, R141). -/
def Obligations.LaneSpecialCases : Prop :=
  ∀ (a b : FVal) (f : Fmt) (pick : Nat), (f = .fp32 ∨ f = .bf16) →
    (a.isNan = true → laneMax a b = b ∧ laneMin a b = b) ∧ (b.isNan = true → a.isNan = false → laneMax a b = a ∧ laneMin a b = a) ∧
    (a.isZero = true → b.isZero = true → a.sign ≠ b.sign → laneMax a b = .zero ∧ laneMin a b = .fin true 0 0) ∧
    (FVal.lt a b = true → laneMax a b = b ∧ laneMin a b = a) ∧ (FVal.lt b a = true → laneMax a b = a ∧ laneMin a b = b) ∧
    (lane2 6 f a b .zero = (if FVal.lt b a = true then oneCode f else 0, false)) ∧
    (laneExp f pick .nan = f.nanCode ∧ laneRecip f pick .nan = f.nanCode ∧ laneRsqrt f pick .nan = f.nanCode) ∧
    (laneExp f pick (.inf false) = (narrow f (.inf false)).code ∧ laneExp f pick (.inf true) = 0) ∧
    (∀ n m, laneRecip f pick (.fin n 0 m) = (narrow f (.inf n)).code ∧ laneRecip f pick (.inf n) = (narrow f (.fin n 0 0)).code) ∧
    (∀ n m, laneRsqrt f pick (.fin n 0 m) = (narrow f (.inf n)).code) ∧
    (∀ m x, 0 < m → laneRsqrt f pick (.fin true m x) = f.nanCode) ∧ laneRsqrt f pick (.inf false) = 0

/-- VECTOR_RESULT, MICA_RESULT and POST_RESULT land exactly the results that are due first, and nothing when none is due
(R60, R85, R97, R106, R108). That a command with nothing due changes nothing is log entry 14, that results may land later
than their cycle is log entry 16: the model's readings. -/
def Obligations.DueResultsLand : Prop :=
  ∀ (s : State),
    let l := s.die.vec.landings
    let m := s.die.mca.jobs
    ((∀ x ∈ l, s.die.iss.cyc < x.ready) → Answers (.vectorResult .ok) s s.die) ∧
    (∀ t, (∃ x ∈ l, x.ready = t) → (∀ x ∈ l, t ≤ x.ready) → t ≤ s.die.iss.cyc →
      Answers (.vectorResult .ok) s { s.die.readDue t with
        st := (l.filter fun x => decide (x.ready = t)).foldl Stores.land s.die.st,
        vec := { s.die.vec with landings := l.filter fun x => decide (x.ready ≠ t) } }) ∧
    ((∀ x ∈ m, s.die.iss.cyc < x.ready) → Answers (.micaResult .ok) s s.die) ∧
    (∀ t, (∃ x ∈ m, x.ready = t) → (∀ x ∈ m, t ≤ x.ready) → t ≤ s.die.iss.cyc →
      let d0 := s.die.readDue t
      Answers (.micaResult .ok) s { d0 with
        st := (d0.mca.jobs.filter fun x => decide (x.ready = t)).foldl (Stores.landMica .ok) s.die.st,
        mca := { d0.mca with jobs := d0.mca.jobs.filter fun x => decide (x.ready ≠ t) } }) ∧
    (∀ x rest, s.die.pst.jobs = x :: rest → (∀ y ∈ rest, x.ready < y.ready) → x.ready ≤ s.die.iss.cyc →
      ∃ d : Die, Answers (.postResult .ok) s d ∧ d.pst.jobs = rest ∧
        d.pst.results = (if s.die.isConf x.slot then s.die.pst.results else inc64 s.die.pst.results (if x.ok then 1 else 0)) ∧
        d.st = (if x.ok then s.die.st.write x.space x.addr x.data else s.die.st) ∧
        d = { s.die.readDue x.ready with st := d.st, pst := d.pst }) ∧
    ((∀ x ∈ s.die.pst.jobs, s.die.iss.cyc < x.ready) → Answers (.postResult .ok) s s.die)

/-- LAUNCH and STOP each take one entry of the launch FIFO, or are lost and counted thread by thread when its 64 entries are
taken (R99, R100, R101, R102, R115). -/
def Obligations.LaunchAndStopTakeOneFifoEntry : Prop :=
  ∀ (s : State) (r : Run) (left : Nat) (todo : List Nat) (g : Segment) (c : Instr) (op : Nat), Acting s 3 r left todo →
    let d := s.die.landReadable
    (d.slot r.slot).seg = some g → ((c = .launch ∧ op = 1) ∨ (c = .stop ∧ op = 2)) →
    let w := slotWord r.bundle 3
    slotOp 3 w = op →
    (d.iss.fifo.length < 64 → Answers c s (Die.slotDone { d with iss := { d.iss with
      fifo := d.iss.fifo ++ [{
        stop := decide (op = 2), slot := r.slot, first := bitsOf w 57 46, count := bitsOf w 45 34 + 1, entry := g.xBase + bitsOf w 33 18,
        arg := if bit w 17 then w32 (bundleExt r.bundle) else 0, dead := r.ended }] } } 3)) ∧
    (64 ≤ d.iss.fifo.length → Answers c s (Die.slotDone { d with iss := { d.iss with
      launchDrop := if d.isConf r.slot then d.iss.launchDrop
        else w32 (min 0xFFFFFFFF (d.iss.launchDrop.toNat + (bitsOf w 45 34 + 1))) } } 3))

/-- An arriving launch starts each thread of its range that is in the window and not running; an arriving stop stops each; an
aborted context's is discarded (R78, R100, R101, R239, R554). That a command whose event is not due changes nothing is log
entry 14 (DEDUCED). -/
def Obligations.ArrivalStartsOrStopsTheThreads : Prop :=
  ∀ (s : State) (e : LaunchEntry) (rest : List LaunchEntry) (g : Segment), s.die.iss.fifo = e :: rest → (s.die.slot e.slot).seg = some g →
    Tab.wf {} s.die.xfr.threads = true → (s.die.xfrRuns = false → Answers .threadLaunchArrive s s.die ∧ Answers .threadStopArrive s s.die) ∧
    (s.die.xfrRuns = true →
    let popped : Die := { s.die with iss := { s.die.iss with fifo := rest } }
    let inRange (p : Nat) : Prop := g.thrBase + e.first ≤ p ∧ p < g.thrBase + e.first + e.count ∧ p < g.thrBase + g.threads
    (e.dead = true → e.stop = false → Answers .threadLaunchArrive s popped) ∧ (e.dead = true → e.stop = true → Answers .threadStopArrive s popped) ∧
    (e.stop = true → Answers .threadLaunchArrive s s.die) ∧ (e.stop = false → Answers .threadStopArrive s s.die) ∧
    (e.dead = false → e.stop = false → ∃ d : Die, Answers .threadLaunchArrive s d ∧
      (∀ p, inRange p → (s.die.thread p).running = false → d.thread p =
        { slot := e.slot, state := .running, pc := e.entry, entry := e.entry, idx := p - (g.thrBase + e.first), arg := e.arg,
          failed := (s.die.thread p).failed }) ∧
      (∀ p, ¬ inRange p ∨ (s.die.thread p).running = true → d.thread p = s.die.thread p) ∧
      d.iss.launchDrop = (if s.die.isConf e.slot then s.die.iss.launchDrop
        else w32 (min 0xFFFFFFFF (s.die.iss.launchDrop.toNat + ((List.range e.count).filter fun k =>
          decide (g.threads ≤ e.first + k ∨ (s.die.thread (g.thrBase + e.first + k)).running = true)).length))) ∧
      d.kvp = (((List.range e.count).filter fun k =>
          decide (e.first + k < g.threads) && !(s.die.thread (g.thrBase + e.first + k)).running).foldl
        (fun (d : Die) k => d.closePass (g.thrBase + e.first + k)) s.die).kvp ∧
      d = { popped with
        iss := { popped.iss with launchDrop := d.iss.launchDrop }, xfr := { s.die.xfr with threads := d.xfr.threads }, kvp := d.kvp }) ∧
    (e.dead = false → e.stop = true → ∃ d : Die, Answers .threadStopArrive s d ∧
      (∀ p, inRange p → d.thread p = (s.die.thread p).stop) ∧ (∀ p, ¬ inRange p → d.thread p = s.die.thread p) ∧
      d = { popped with xfr := { s.die.xfr with threads := d.xfr.threads } }))

/-- FWLOAD writes one row of Flint's array, FSTREAM takes one row in, and 133 cycles later its result row lands (R90, R103,
R104, R128, R230, R300, R306, R309, R312, R313, R314, R315). That a row keeps Flint's array as it stands at its entry is log
entry 90 (DESIGN CHOICE), a reserved format log entry 21 (DEDUCED), the reserved ACC code log entry 30 (DEDUCED), a result
given after its cycle log entry 16 (DEDUCED), one given before it log entry 14 (DEDUCED). -/
def Obligations.FlintLoadsStreamsAndLands : Prop :=
  ∀ (s : State) (e : Ecc) (r : Run) (left : Nat) (todo : List Nat),
    let w := slotWord r.bundle 4
    let d := Checked s e r
    (eccBad e = false → Acting s 4 r left todo → slotOp 4 w = 1 → slot4Mica w = false → (flFmt w).isSome = true →
      let p := d.prog r.slot 2 (flLoadSrc w)
      let row := d.fetchRow r.slot p.space p (d.row r.slot 2 (flLoadSrc w)) 64 0
      let k := if r.firstCycle then 0 else d.fln.next
      let old := if r.firstCycle then [] else d.fln.rows
      p.rows ≠ 0 → k < 64 → row.2 = false →
      Answers (.fwload e) s (Die.slotDone (Die.advance { d with fln := { d.fln with
        ffmt := if r.firstCycle then BitVec.ofNat 2 (bitsOf w 56 55) else d.fln.ffmt,
        rows := Tab.insert old k (row.1.map Prod.snd), next := k + 1,
        wrows := if d.isConf r.slot then d.fln.wrows else inc64 d.fln.wrows 1 } } r.slot 2 (flLoadSrc w) 1) 4)) ∧
    (eccBad e = false → Acting s 4 r left todo → slotOp 4 w = 2 → slot4Mica w = false → (flFmt w).isSome = true →
      let p := d.prog r.slot 2 (flSrc w)
      let q := d.prog r.slot 2 (flDst w)
      let row := d.fetchRow r.slot p.space p (d.row r.slot 2 (flSrc w)) 64 0
      p.rows ≠ 0 → ∃ (d1 : Die) (x : RowFlight), Answers (.fstream e) s (d1.slotDone 4) ∧
        x.entry = d.iss.cyc ∧ x.slot = r.slot ∧ x.word.toNat = w ∧ x.act = row.1.map Prod.snd ∧ x.plane.rows = d.fln.rows ∧
        x.dstSpace = q.space ∧ x.dstAddr = (q.rowAddr (d.row r.slot 2 (flDst w))).toNat ∧
        d1.fln = { d.fln with
          flight := d.fln.flight ++ [x], colrec := d1.fln.colrec,
          rowsCnt := if d.isConf r.slot then d.fln.rowsCnt else inc64 d.fln.rowsCnt 1 } ∧
        (r.firstCycle = false → d1.fln.colrec = d.fln.colrec) ∧ d1 = { d with iss := d1.iss, fln := d1.fln }) ∧
    (∀ (x : RowFlight) (rest : List RowFlight), s.die.fln.flight = x :: rest →
      let d0 := s.die.readDue (x.entry + 133)
      let d1 : Die := { d0 with fln := { d0.fln with flight := d0.fln.flight.drop 1 } }
      let d2 := d1.ecc e (some x.slot) { code := 0 }
      let acc := flAcc x.word.toNat
      let raw := s.die.partialRead x acc x.ncol
      (s.die.iss.cyc < x.entry + 133 → Answers (.flintRowComplete e) s s.die) ∧
      (x.entry + 133 ≤ s.die.iss.cyc → eccBad e = true → Answers (.flintRowComplete e) s d2) ∧
      (x.entry + 133 ≤ s.die.iss.cyc → eccBad e = false → flFmt x.word.toNat = none → Answers (.flintRowComplete e) s d2) ∧
      (∀ f, x.entry + 133 ≤ s.die.iss.cyc → eccBad e = false → flFmt x.word.toNat = some f →
        let out (i : Nat) : Nat × Nat × Bool :=
          x.flintOut f (x.col0 + i) (if acc = 0 then .zero else decodePartial f.isInt (le4 raw (4 * i)))
        let row := packCodes (if acc = 2 then x.outFmt.bits else 32) ((List.range x.ncol).map fun i => (out i).1)
        Answers (.flintRowComplete e) s { d2 with
          st := if x.dstOk = true ∧ acc ≠ 3 then d2.st.write x.dstSpace x.dstAddr row else d2.st,
          fln := if x.conf then d2.fln else { d2.fln with
            accSat := satInc32 d2.fln.accSat (((List.range x.ncol).map fun i => (out i).2.1).foldl (· + ·) 0),
            nan := d2.fln.nan || ((List.range x.ncol).any fun i => (out i).2.2) } }))

/-- A Mica operation takes its elements in cycle by cycle; in the last input cycle its job is due L cycles after the first
(R106, R107, R219, R300, R301, R306, R316). That an illegal LOG2N has no effect is log entry 31 (DEDUCED). -/
def Obligations.MicaTakesSixteenElementsACycle : Prop :=
  ∀ (s : State) (e : Ecc) (c : Ecc → Instr) (op : Nat) (r : Run) (left : Nat) (todo : List Nat), Acting s 4 r left todo → eccBad e = false →
    (c, op) ∈ [(Instr.fft, 1), (Instr.ifft, 2), (Instr.cmul, 3), (Instr.wht, 4)] →
    let w := slotWord r.bundle 4
    slotOp 4 w = op → slot4Mica w = true →
    let d := Checked s e r
    let n := bitsOf w 56 53
    let legal : Prop := 4 ≤ n ∧ n ≤ if op = 4 then 10 else 12
    let empty : Prop := (d.prog r.slot 3 (mcSrc w)).rows = 0 ∨ (op = 3 ∧ (d.prog r.slot 3 (mcSrc2 w)).rows = 0)
    let a := d.micaTake r.slot (mcSrc w) op
    let b := d.micaTake r.slot (mcSrc2 w) 3
    let full : Prop := 2 ^ n / 16 * (if op = 4 then 16 else 32) ≤ (d.mca.input ++ a.1).length
    (¬ legal → Answers (c e) s (d.slotDone 4)) ∧
    (legal → empty → Answers (c e) s (Die.slotDone (Die.micaAdvance { d with iss := { d.iss with
      agEmpty := if d.isConf r.slot then d.iss.agEmpty else d.iss.agEmpty ||| 0x20 } } r.slot op w) 4)) ∧
    (legal → ¬ empty → a.2 = false → (op = 3 → b.2 = false) → (∀ x ∈ d.micaRows r.slot (mcDst w) op, x.2.2.2 = true) →
      ∃ d1 : Die, Answers (c e) s (d1.slotDone 4) ∧
        d1.mca.inputCnt = (if d.isConf r.slot then d.mca.inputCnt else inc64 d.mca.inputCnt 1) ∧
        (op = 3 → ∃ j : MicaJob, d1.mca.jobs = d.mca.jobs ++ [j] ∧ j.a = a.1 ∧ j.b = b.1 ∧ j.ready = d.iss.cyc + 6 - 1 ∧
          j.rows = d.micaRows r.slot (mcDst w) 3 ∧ d1.mca.input = d.mca.input) ∧
        (op ≠ 3 → full → ∃ j : MicaJob, d1.mca.jobs = d.mca.jobs ++ [j] ∧ j.a = d.mca.input ++ a.1 ∧ j.op = op ∧ j.log2n = n ∧
          j.ready = d.iss.cyc + 1 - 2 ^ n / 16 + (if op = 4 then 2 ^ n / 16 + 2 * n + 6 else 2 * (2 ^ n / 16) + 4 * ((n + 1) / 2) + 8) - 1 ∧
          j.rows = d.mca.inRows ++ d.micaRows r.slot (mcDst w) op ∧ d1.mca.input = [] ∧ d1.mca.inRows = []) ∧
        (op ≠ 3 → ¬ full → d1.mca.jobs = d.mca.jobs ∧ d1.mca.input = d.mca.input ++ a.1 ∧
          d1.mca.inRows = d.mca.inRows ++ d.micaRows r.slot (mcDst w) op) ∧
        d1 = { d with mca := d1.mca, iss := { d.iss with cursors := d1.iss.cursors } })

/-- What the post unit's pooling, crop-and-resize and channel argmax compute (R324, R327, R328, R329, R331, R332, R333, R334,
R335, R336, R337). A row longer than ROWB is log entry 140 (DESIGN CHOICE), a box's rows as one write log entry 133
(DEDUCED). -/
def Obligations.PoolingAndArgmaxResults : Prop :=
  (∀ (a b : FVal) (n i : Nat), sampleAt a b n i =
    if n ≤ 1 then rne32 ((rne32 (a.add b)).shift (-1))
    else rne32 ((FVal.mul (.ofNat i) (rne32 (FVal.divNat (rne32 (b.sub a)) (n - 1)))).add a)) ∧
  (∀ (d : Die) (r : Run) (w op : Nat), op = 4 ∨ op = 5 →
    let q := descOf (d.descBytes r.slot (psDesc w))
    let p := d.prog r.slot postUnit (psSrc w)
    let pd := d.prog r.slot postUnit (psDst w)
    let d0 := (d.postCount r.slot).cropBegin r w q
    let at_ := d0.pst.cropPoint q p
    let y := at_.1
    let x := at_.2.1
    let fs := (Fmt.ofCode p.efmt).getD .int8
    let fd := d.dstFmt r.slot postUnit (psDst w)
    let y0 := floorOf y
    let x0 := floorOf x
    let y1 := min (y0 + 1) (p.ih - 1)
    let x1 := min (x0 + 1) (p.iw - 1)
    let element (i j : Nat) : List Byte := ((d0.takePiece r.slot p.space 0 (p.pixel i j)).1).map Prod.snd
    let d1 := d.cropCycle r op w
    p.kind = 2 →
    (∀ k, op = 4 → at_.2.2 = true → d0.pst.taps.length = k → k < 3 →
      d1.pst = { d0.pst with taps := d0.pst.taps ++ [(if k = 0 then element y0 x0 else if k = 1 then element y0 x1 else element y1 x0, true)] }) ∧
    (∀ (A B C : List Byte) (out : Nat → Narrowed),
      (op = 4 ∧ at_.2.2 = true ∧ d0.pst.taps = [(A, true), (B, true), (C, true)] ∧ out = (fun c =>
          let v (bs : List Byte) : FVal := fs.decode (leNat ((bs.drop (c * (fs.bits / 8))).take (fs.bits / 8)))
          let fma (t lo hi : FVal) : FVal := rne32 ((t.mul (rne32 (hi.sub lo))).add lo)
          narrow fd (fma (y.sub (.ofNat y0)) (fma (x.sub (.ofNat x0)) (v A) (v B)) (fma (x.sub (.ofNat x0)) (v C) (v (element y1 x1)))))) ∨
        (op = 5 ∧ at_.2.2 = true ∧ d0.pst.taps = [] ∧ out = (fun c => narrow fd (fs.decode (leNat
          (((element (nearestOf y) (nearestOf x)).drop (c * (fs.bits / 8))).take (fs.bits / 8)))))) ∨
        (at_.2.2 = false ∧ d0.pst.taps.length = (if op = 4 then 3 else 0) ∧ out = fun _ => narrow fd (dec32 q.extrap)) →
      d1.pst.extrap = (if at_.2.2 = true ∨ d.isConf r.slot = true then d0.pst.extrap else satInc32 d0.pst.extrap 1) ∧
      ∃ j : PostJob, j.data = (packCodes fd.bits ((List.range p.cpt).map fun c => (out c).code)).take pd.rowb ∧
        j.space = pd.space ∧ j.addr = (pd.rowAddr (d.row r.slot postUnit (psDst w))).toNat ∧ j.slot = r.slot ∧
        (d0.pst.sample + 1 < q.outH * q.outW → d1.pst.boxOut = d0.pst.boxOut ++ [j] ∧ d1.pst.sample = d0.pst.sample + 1 ∧
          d1.pst.taps = [] ∧ d1.pst.jobs = d0.pst.jobs) ∧
        (q.outH * q.outW ≤ d0.pst.sample + 1 → d1.pst.boxOut = [] ∧ d1.pst.sample = 0 ∧ d1.pst.taps = [] ∧
          d1.pst.jobs = d0.pst.jobs ++ (d0.pst.boxOut ++ [j]).map fun z =>
            { z with ready := d.iss.cyc + (if op = 4 then 14 else 6) - 1, entry := d.iss.cyc }))) ∧
  (∀ (fd : Fmt) (div : Nat) (vs : List (FVal × Bool)), poolChannel 1 div fd vs = narrow fd (rmax (vs.map Prod.fst))) ∧
  (∀ (fd : Fmt) (div : Nat) (v : FVal × Bool) (vs : List (FVal × Bool)),
    poolChannel 2 div fd (v :: vs) = narrow fd (((vs.map Prod.fst).foldl FVal.add v.1).divNat (if div = 0 then vs.length + 1 else div))) ∧
  (∀ (fd : Fmt) (div : Nat) (vs : List (FVal × Bool)), (∀ v ∈ vs, v.2 = false) → div = 0 → poolChannel 3 div fd vs = { code := 0 }) ∧
  (∀ (fd : Fmt) (div : Nat) (vs : List (FVal × Bool)) (v : FVal × Bool) (ins : List (FVal × Bool)), vs.filter Prod.snd = v :: ins →
    poolChannel 3 div fd vs = poolChannel 2 div fd (v :: ins)) ∧
  (∀ (f : Fmt) (codes : List Nat), (∀ c ∈ codes, (f.decode c).isNan = true) →
    argmaxRecord f codes = ([0xFF, 0xFF, 1, 0] ++ leBytes 4 0x7FC00000, true)) ∧
  (∀ (f : Fmt) (codes : List Nat) (i : Nat), f ∈ [Fmt.int16, .bf16, .int32, .fp32] →
    let v (j : Nat) : FVal := f.decode (nth 0 codes j)
    i < codes.length → (v i).isNan = false → (∀ j, j < codes.length → (v i).lt (v j) = false) →
    (∀ j, j < i → (v j).isNan = true ∨ (v j).lt (v i) = true) →
    (argmaxRecord f codes).2 = false ∧
    (argmaxRecord f codes).1 = leBytes 2 i ++
      [if ∃ j, j < codes.length ∧ j ≠ i ∧ (v j).isNan = false ∧ (v j).lt (v i) = false then 2 else 0, 0] ++
      leBytes 4 (if f = .int16 ∨ f = .int32 then wrapNat 32 (v i).toInt else enc32 (v i)))

/-- TINC adds to the window's tally, CMD hands a block over, SENSE writes one block per selected loop, MARK logs the run's
cycles (R48, R49, R58, R109, R110, R111, R112, R113, R256, R390, R448). -/
def Obligations.SynchronisationSlotActs : Prop :=
  ∀ (s : State) (r : Run) (left : Nat) (todo : List Nat), Acting s 6 r left todo →
    let d := s.die.landReadable
    let w := slotWord r.bundle 6
    let space := if bit w 49 then 2 else 1
    (∀ g, slotOp 6 w = 1 → (d.slot r.slot).seg = some g → bitsOf w 57 50 < g.tallies →
      let p := g.tallyBase + bitsOf w 57 50
      let v := (d.tally p).value.toNat + (bitsOf w 49 34 + 1)
      Answers .tinc s (Die.slotDone { d with iss := { d.iss with
        tallies := Tab.upd {} d.iss.tallies p fun t => { t with value := BitVec.ofNat 24 (min 0xFFFFFF v) },
        sat := if v ≤ 0xFFFFFF then d.iss.sat else d.iss.sat ||| (1#256 <<< (p % 256)) } } 6)) ∧
    (slotOp 6 w = 2 →
      let sp := if bit w 54 then 2 else 1
      let b := d.slotRead r.slot sp (64 * bitsOf w 53 34 : Nat) 64
      (b.2 = false → Answers (.cmd .ok) s (Die.slotDone
        (d.updLoop (bitsOf w 57 55) fun l => { l with fifo := l.fifo ++ [(r.slot, b.1)] }) 6)) ∧
      (b.2 = true → Answers (.cmd .ok) s ((d.setRun fun x => { x with refused := true }).slotDone 6))) ∧
    (slotOp 6 w = 3 → r.slot ≠ 63 →
      let loops := (List.range 8).filter fun n => bit (bitsOf w 57 50) n
      let bound (n : Nat) : Bool := (d.loop n).enable && decide ((d.loop n).slot.toNat = r.slot)
      let block (n : Nat) : List Byte := if bound n = true ∧ (d.loop n).haveSens = true then (d.loop n).sensor else List.replicate 64 0
      let place (i : Nat) : Nat := 64 * (bitsOf w 48 29 + i)
      let written := (List.range loops.length).filter fun i => d.granted r.slot space (place i) 64
      let d1 := if written = [] then d else d.readDue d.iss.cyc
      Answers (.sense .ok) s (Die.slotDone (Die.markRefused { d1 with
        st := written.foldl (fun st i => st.write space (place i) (block (nth 0 loops i))) d.st,
        fld := { d.fld with foreign := satInc32 d.fld.foreign (loops.filter fun n => !bound n).length } }
        (decide (written.length < loops.length))) 6)) ∧
    (slotOp 6 w = 4 →
      (d.isConf r.slot = false → (d.slot r.slot).marks.length < 16 → Answers .mark s (Die.slotDone (d.updSlot r.slot fun x =>
        { x with marks := x.marks ++ [(w32 (min 0xFFFFFFFF r.cycles), BitVec.ofNat 8 (bitsOf w 57 50))] }) 6)) ∧
      (d.isConf r.slot = true ∨ (16 ≤ (d.slot r.slot).marks.length ∧ Tab.wf {} d.ctx.slots = true) → Answers .mark s (d.slotDone 6)))

/-- A thread at a step takes it up: requests of MOVE and STRIDE, a page walk's pass, SIGNAL, WAIT and its release, LOOP, END
(07 Transfer Threads and the Memory System, R247, R248, R251, R252, R253, R254, R365, R366, R367, R368, R369). That a command
whose event is not due changes nothing is log entry 14 (DEDUCED); that the first page is resolved before the length record is
sent, and a shared first page fails the thread before it, is log entry 44 (DEDUCED). -/
def Obligations.ThreadsTakeUpTheirSteps : Prop :=
  ∀ (s : State) (t : Fin 4096), s.die.xfrRuns = true →
    let d := s.die
    let x := d.thread t.val
    let w := d.st.xword x.pc 0
    let w1 := d.st.xword x.pc 1
    let onto (y : Thread) (pc : Nat) : Die := (d.updThread t.val fun _ => y).toStep t.val pc
    let ready (k : Nat) : Prop := x.state = .running ∧ x.inStep = false ∧ x.stopping = false ∧ bitsOf w 7 0 = k
    (∀ k c, (k = 1 ∧ c = Instr.move t .ok) ∨ (k = 2 ∧ c = Instr.stride t .ok) → ready k →
      d.stepAbsent x [w1, d.st.xword x.pc 2] = false → 0 < (d.element { x with inStep := true, elem := 0, off := 0 }).len →
      Tab.wf {} d.xfr.threads = true →
      Answers c s (d.updThread t.val fun y => { y with inStep := true, elem := 0, off := 0 })) ∧
    (∀ k c a, (k = 3 ∧ c = Instr.gather t .ok a) ∨ (k = 4 ∧ c = Instr.scatter t .ok a) → ready k → d.stepAbsent x [w1] = false →
      (d.slot x.slot).seqCount ≤ walkSeq x w → 0 < walkPages w → 0 < (d.template x.slot (bitsOf w 15 8)).pgLen →
      Tab.wf {} d.xfr.threads = true →
      Answers c s (d.updThread t.val fun y =>
        { y with inStep := true, elem := 0, off := 0, page := none, lenRec := false, outside := true })) ∧
    (∀ k c pg, (k = 3 ∧ c = Instr.gather t .ok .ok) ∨ (k = 4 ∧ c = Instr.scatter t .ok .ok ∧ (d.page pg).refs < 2) → ready k →
      d.stepAbsent x [w1] = false → walkSeq x w < (d.slot x.slot).seqCount → x.pass = none → 0 < walkPages w →
      0 < (d.template x.slot (bitsOf w 15 8)).pgLen → Tab.wf {} d.xfr.threads = true →
      let q := (d.slot x.slot).seqBase + walkSeq x w
      let y := d.seq q
      d.kvp.entry q y.half (walkFirst w) = some pg → d.barred [(d.entryAddr q y.half (walkFirst w), 4)] [] = false →
      let held := d.updSeq q fun z => if y.half then { z with hold1 := z.hold1 + 1 } else { z with hold0 := z.hold0 + 1 }
      Answers c s ((held.kvCount x.slot fun v => { v with walkPages := inc64 v.walkPages 1 }).updThread t.val fun z => { z with
        pass := some { seq := q, half := y.half, gen := y.gen, len := y.len, once := decide (walkPass w = 0) }
        inStep := true, elem := 0, off := 0, page := some pg, outside := false
        lenRec := (d.template x.slot (bitsOf w 15 8)).lenOut })) ∧
    (ready 5 → x.out = [] → Answers (.signal t .ok) s ((d.logTallyAdd x.slot (bitsOf w 15 8) (bitsOf w 31 16 + 1)).toStep t.val (x.pc + 1))) ∧
    (x.out ≠ [] → Answers (.signal t .ok) s d ∧ Answers (.endStep t .ok) s d) ∧
    (ready 6 → Answers (.wait t .ok) s (d.updThread t.val fun y => { y with state := .waiting })) ∧
    (let l := d.landReadable
     let y := l.thread t.val
     ∀ p, l.threadTally t.val = some p →
      (l.bundleTakes p = true ∨ l.lowerWaiter t.val = true ∨ l.bankRuns = false → Answers (.threadWaitRelease t) s d) ∧
      (y.state = .waiting → l.bundleTakes p = false → l.lowerWaiter t.val = false → l.bankRuns = true →
        let target := bitsOf (l.waitWord t.val) 63 40
        ((l.tally p).err = true ∨ (l.tally p).value.toNat < target → Answers (.threadWaitRelease t) s d) ∧
        ((l.tally p).err = false → target ≤ (l.tally p).value.toNat → Answers (.threadWaitRelease t) s
          (((if bit (l.waitWord t.val) 16 then l.updTally p fun y => { y with value := y.value - BitVec.ofNat 24 target } else l).updThread
            t.val fun y => { y with state := .running }).toStep t.val (y.pc + 1))))) ∧
    (ready 7 →
      let lv := bitsOf w 9 8
      let count := if bitsOf w 47 24 = 0 then 16777216 else bitsOf w 47 24
      let dxs := sext 32 w1
      let dxd := sext 32 (w1 / 2 ^ 32)
      (nth 0 x.ctr lv + 1 < count → Answers (.loop t .ok) s (onto { x with
        ctr := setNth x.ctr lv (nth 0 x.ctr lv + 1), xs := x.xs + BitVec.ofInt 40 dxs, xd := x.xd + BitVec.ofInt 40 dxd }
        (x.pc - bitsOf w 23 16))) ∧
      (count ≤ nth 0 x.ctr lv + 1 → Answers (.loop t .ok) s (onto { x with
        ctr := setNth x.ctr lv 0, xs := x.xs - BitVec.ofInt 40 ((count - 1 : Nat) * dxs),
        xd := x.xd - BitVec.ofInt 40 ((count - 1 : Nat) * dxd) } (x.pc + 1)))) ∧
    (ready 0 → x.out = [] → Answers (.endStep t .ok) s (d.updThread t.val fun y =>
      { y with state := .stopped, pass := y.pass.map fun p => { p with closing := true, upTo := none } }))

/-- A request is held by the thread's eight and its cluster's turn, carries at most 256 bytes, and on completion writes
exactly its bytes (R229, R238, R240, R256, R257, R258, R259, R260, R263, R465, R466, R469). That an event which is not due
changes nothing is log entry 14 (DEDUCED), the instant of a read's bytes log entry 104 (DEDUCED), the wait at a bank port log
entry 106 (DEDUCED), the operands that stand for queue room and port waits log entry 44 (DEDUCED). Nothing readable is to
land when the command comes. -/
def Obligations.RequestsMoveTheirBytes : Prop :=
  (∀ (s : State) (t : Fin 4096) (room readNow : Bool) (walk : Access),
    (8 ≤ (s.die.thread t.val).out.length ∨ s.die.clusterTurn t.val = false ∨ s.die.xfrRuns = false) → Answers (.requestIssue t room readNow walk) s s.die) ∧
  (∀ (s : State) (t : Fin 4096) (readNow : Bool) (walk : Access),
    let x := s.die.thread t.val
    s.die.xfrRuns = true → x.state = .running → x.inStep = true → x.out.length < 8 → s.die.clusterTurn t.val = true → s.die.mayFill (s.die.nextRequest x) = true →
    Answers (.requestIssue t false readNow walk) s (s.die.updThread t.val fun y => { y with held := true })) ∧
  (∀ (s : State) (t : Fin 4096) (room readNow : Bool),
    let x := s.die.thread t.val
    let q := s.die.nextRequest x
    s.die.xfrRuns = true → x.state = .running → x.inStep = true → x.out.length < 8 → s.die.clusterTurn t.val = true → (room = true ∨ s.die.mayFill q = false) →
    q.dstSpace ≤ 3 → s.die.reqScrubbed q = false → q.srcOk = true → q.dstOk = true → Tab.wf {} s.die.xfr.threads = true →
    (x.lenRec = true ∨ s.die.st.xkind x.pc = 1 ∨ s.die.st.xkind x.pc = 2 ∨ x.outside = true ∨ x.off + q.len < (s.die.element x).len) →
    let now : Prop := readNow = true ∧ (q.readPort.map s.die.portTaken).getD false = false ∧ s.die.onDead q.reads = false ∧
      s.die.lost q.reads [] = none
    Landed s.die → ∃ (d : Die) (q1 : Req), Answers (.requestIssue t room readNow .ok) s d ∧
      (d.thread t.val).out = x.out ++ [q1] ∧ q1.serial = s.die.xfr.issued ∧
      q1 = { q with serial := q1.serial, data := if now then some (s.die.reqRead q []) else q.data } ∧
      d.xfr.issued = s.die.xfr.issued + 1 ∧ (∀ u, u ≠ t.val → d.thread u = s.die.thread u) ∧ d.st = s.die.st) ∧
  (∀ (d : Die) (x : Thread), x.lenRec = false →
    (d.nextRequest x).len ≤ 256 ∧ wrapNat 8 ((d.element x).src + x.off) + (d.nextRequest x).len ≤ 256) ∧
  (∀ (s : State) (t : Fin 4096) (i n : Nat) (q : Req),
    let x := s.die.thread t.val
    s.die.xfrRuns = true → x.out[i]? = some q → q.dstSpace ≤ 3 → s.die.barred q.reads q.writes = false → s.die.portHeld q = false → Landed s.die →
    let d0 := if q.dstOk = true ∧ q.dstSpace ≠ 0 then s.die.readDue s.die.iss.cyc else s.die
    ∃ d : Die, Answers (.requestComplete t i n .ok) s d ∧
      d.xfr.threads = (s.die.updThread t.val fun y => { y with out := y.out.eraseIdx i }).xfr.threads ∧
      d.st = (if q.dstOk = false then s.die.st
        else if q.dstSpace = 0 then { s.die.st with hbm := Mem.write s.die.st.hbm q.dstAddr (s.die.reqRead q []) }
        else s.die.st.write q.dstSpace q.dstAddr (s.die.reqRead q [])) ∧
      d = { d0 with st := d.st, xfr := { s.die.xfr with
        threads := d.xfr.threads, portWait := d.xfr.portWait, waited := d.xfr.waited, rdBytes := d.xfr.rdBytes, wrBytes := d.xfr.wrBytes } }) ∧
  (∀ (d : Die) (q : Req) (i : Nat), q.data = none → i < q.len → nth 0 (d.reqRead q []) i = nth 0 (d.st.source q) i) ∧
  (∀ (s : State) (t : Fin 4096) (i n : Nat) (q : Req) (picks : List Nat) (res : Access), (s.die.thread t.val).out[i]? = some q →
    (s.die.portHeld q = true ∨ s.die.xfrRuns = false ∨ q.dstSpace = 4 ∧ s.die.cellTurn (s.die.thread t.val).slot q = false) →
    Answers (.requestComplete t i n res picks) s s.die) ∧
  (∀ (s : State) (t : Fin 4096) (room readNow : Bool),
    let x := s.die.thread t.val
    let q := s.die.nextRequest x
    let waits := s.die.xfr.toPort
    s.die.xfrRuns = true → x.state = .running → x.inStep = true → x.out.length < 8 → s.die.clusterTurn t.val = true → (room = true ∨ s.die.mayFill q = false) →
    q.dstSpace = 4 → s.die.reqScrubbed q = false →
    (∀ code dst, s.die.originRoute x.slot q.fch = .inl (code, dst) → Answers (.requestIssue t room readNow .ok) s
      (Die.updThread (Die.record { s.die with fab := { s.die.fab with misses := (s.die.missCount (some x.slot)).fab.misses } } 43 0x0A (some x.slot)
        code dst.toNat q.fch 0) t.val fun y => y.fail 0x0A)) ∧
    (∀ c p, s.die.originRoute x.slot q.fch = .inr (c, p) → p < 8 →
      ((s.die.tport p).state = .asleep → Answers (.requestIssue t room readNow .ok) s
        (if s.die.fabRuns && s.die.fab.assigned then s.die.wakePeer p else s.die)) ∧
      ((s.die.tport p).state ≠ .asleep → s.die.takesOwn p (waits p) = false → Answers (.requestIssue t room readNow .ok) s s.die) ∧
      ((s.die.tport p).state ≠ .asleep → s.die.takesOwn p (waits p) = true → q.srcOk = true →
        (x.off + q.len < (s.die.element x).len ∨ s.die.st.xkind x.pc = 1 ∨ s.die.st.xkind x.pc = 2) → Tab.wf {} s.die.xfr.threads = true →
        ∃ (d : Die) (q1 : Req), Answers (.requestIssue t room false .ok) s d ∧ (d.thread t.val).out = x.out ++ [q1] ∧
          q1 = { q with chan := c, port := p, serial := s.die.xfr.issued } ∧ d.fab = s.die.fab ∧ d.st = s.die.st))) ∧
  (∀ (s : State) (t : Fin 4096) (i : Nat) (q : Req) (bytes : List Byte),
    let x := s.die.thread t.val
    s.die.xfrRuns = true → x.out[i]? = some q → q.dstSpace = 4 → q.port < 8 → q.data = some bytes → s.die.barred q.reads [] = false →
    s.die.cellTurn x.slot q = true →
    s.die.originStop x.slot = none → s.die.sendChannel x.slot q.fch = some q.chan → s.die.takesOwn q.port 0 = true →
    s.die.served q.port true = some 8 → s.die.moduleTurn q.port = true →
    let b := (s.die.updThread t.val fun y => { y with out := y.out.eraseIdx i }).buildCell x.slot q.chan q.dstAddr bytes
    Answers (.requestComplete t i 0 .ok) s (b.1.dataOut q.port 8 32 b.2))

/-- THREAD_FAIL puts the error bit on every tally of the thread's SIGNAL steps, stops the thread and aborts its context;
PASS_CLOSE closes a finished pass (R55, R252, R260, R361, R365, R370). That a command whose event is not due changes nothing
is log entry 14 (DEDUCED), the cause kept with an error bit log entry 19 (DEDUCED), the error bits before the abort log entry
44 (DEDUCED). -/
def Obligations.ThreadFailureEndsTheContext : Prop :=
  (∀ (s : State) (t : Fin 4096), s.die.xfrRuns = false → Answers (.threadFail t) s s.die ∧ Answers (.passClose t) s s.die) ∧
  (∀ (s : State) (t : Fin 4096) (c : Nat),
    let x := s.die.thread t.val
    s.die.xfrRuns = true → (x.failDue = some c ∨
      (x.failDue = none ∧ x.state = .waiting ∧ ∃ p, s.die.threadTally t.val = some p ∧ (s.die.tally p).err = true ∧ (s.die.tally p).cause = c)) →
    Answers (.threadFail t) s
      (((((s.die.st.signalTallies x.entry).filterMap fun l => s.die.physTally x.slot l).foldl (fun (d : Die) p => d.updTally p fun y =>
          { y with err := true, cause := if y.err then y.cause else c }) s.die).updThread t.val fun y =>
        if y.state = .failed then { y with failDue := none }
        else { y with state := .failed, failed := true, stopping := true, inStep := false, failDue := none,
                      pass := y.pass.map fun p => { p with closing := true, upTo := none } }).abortSlot x.slot c)) ∧
  (∀ (s : State) (t : Fin 4096), (s.die.thread t.val).failDue = none →
    ((s.die.thread t.val).state ≠ .waiting ∨ ∀ p, s.die.threadTally t.val = some p → (s.die.tally p).err = false) →
    Answers (.threadFail t) s s.die) ∧
  (∀ (s : State) (t : Fin 4096) (p : Pass),
    let x := s.die.thread t.val
    let ours (q : Req) : Prop := match p.upTo with | none => True | some n => p.from_ ≤ q.serial ∧ q.serial < n
    x.pass = some p → p.closing = true →
    ((∃ q ∈ x.out, ours q) → Answers (.passClose t) s s.die) ∧
    ((∀ q ∈ x.out, ¬ ours q) → s.die.xfrRuns = true → Tab.wf {} s.die.kvp.seqs = true →
      let left (y : Seq) : Nat := (if p.half then y.hold1 else y.hold0) - 1
      let y := s.die.seq p.seq
      let d1 := (s.die.updSeq p.seq fun y => if p.half then { y with hold1 := left y } else { y with hold0 := left y }).updThread t.val
        fun y => { y with pass := none }
      let retires : Prop := y.shadow = .retiring ∧ (if y.half = p.half then (if y.half then y.hold0 else y.hold1) = 0 else left y = 0) ∧
        s.die.kvp.queue.contains (.retire p.seq) = false
      (retires → Answers (.passClose t) s { d1 with kvp := { d1.kvp with queue := s.die.kvp.queue ++ [.retire p.seq] } }) ∧
      (¬ retires → Answers (.passClose t) s d1))) ∧
  (∀ (s : State) (t : Fin 4096), (∀ p, (s.die.thread t.val).pass = some p → p.closing = false) → Answers (.passClose t) s s.die)

/-- A refresh counts, the patrol moves to its next word, and a channel that loses lock fails with every context aborted
(R232, R235, R236, R559, R608). That a command whose event is not due changes nothing is log entry 14 (DEDUCED). -/
def Obligations.HbmEventsAreCountedAndRecorded : Prop :=
  (∀ (s : State) (site : Fin 4), Answers (.hbmRefresh site) s
    (if bit s.die.hbm.trained.toNat site.val = true ∧ s.die.hbm.selfRef = false then
      { s.die with hbm := { s.die.hbm with refreshes := s.die.hbm.refreshes + 1 } } else s.die)) ∧
  (∀ s : State, s.die.hbm.selfRef = false → s.die.patrols = true → s.die.hbm.groups ≠ 0 →
    Answers (.patrolRead .ok) s { s.die with hbm :=
      if s.die.hbm.patrolPos + 1 < s.die.hbmWords then { s.die.hbm with patrolPos := s.die.hbm.patrolPos + 1 }
      else { s.die.hbm with patrolPos := 0, patrol := s.die.hbm.patrol + 1 } }) ∧
  (∀ (s : State) (c : Fin 128), s.die.popSites.contains (c.val / 32) = true → s.die.hbm.deadChans.contains c.val = false →
    Tab.wf {} s.die.ctx.slots = true → ∃ d : Die, Answers (.hbmPhyLockLoss c) s d ∧
      d.hbm.failed = true ∧ d.hbm.deadChans = s.die.hbm.deadChans ++ [c.val] ∧ d.glb.service = 3 ∧
      (s.die.hbm.failValid = false → d.hbm.failValid = true ∧ d.hbm.failCause = 3 ∧ d.hbm.failChan = BitVec.ofNat 7 c.val) ∧
      (∀ i, i < 64 → (d.slot i).state ≠ .armed ∧ ((s.die.slot i).state = .armed → (d.slot i).state = .aborted))) ∧
  (∀ (s : State) (c : Fin 128), s.die.hbm.deadChans.contains c.val = true → Answers (.hbmPhyLockLoss c) s s.die)

/-- SOF opens a frame, LINE bytes fill its rows in the line buffers, EOF admits it or drops it; a message of a reserved class
is counted (R268, R270, R271, R272, R273, R275, R276, R278, R279, R286, R289, R291). That FIRST clears with the first
admitted frame only, and the pixels count at EOF, is log entry 54 (DEDUCED). What these packets do to Nightwatch is
NightwatchTakesWholeFrames. -/
def Obligations.FramePacketsFillTheRing : Prop :=
  ∀ (s : State) (m : Fin 16), s.die.ingRuns = true → s.die.streamPresent m.val = true → Tab.wf {} s.die.ing.streams = true →
    let d := s.die
    let x := d.stream m.val
    let only (e : Die) : Prop := e = { d with ing := { d.ing with streams := e.ing.streams }, nwt := e.nwt }
    (∀ cls : BitVec 4, Answers (.reservedClassMessage cls) s
      (if cls.toNat = 0 ∨ 5 ≤ cls.toNat then { d with ing := { d.ing with unclaimed := satInc32 d.ing.unclaimed 1 } } else d)) ∧
    (∀ frame ts w h fmt, x.enabled = true → x.open_ = false → x.voidQ = [] → w.toNat = x.width → h.toNat = x.height → fmt.toNat = x.fmt →
      ∃ e : Die, Answers (.sof m frame ts w h fmt false) s e ∧ only e ∧ e.ing.streams = (d.updStream m.val fun x =>
        { x with open_ := true, dropped := false, frame := frame, frameNo := x.frameNo + 1, sensorTs := ts, sofTime := d.time.reading,
                 row := 0, rowPos := 0, rowBegun := false, rowBytes := [], lineTimes := [], timeStep := false, handed := 0 }).ing.streams) ∧
    (∀ off (pay : List Byte), x.enabled = true → x.open_ = true → x.row < x.height → off = x.rowPos →
      (x.rowBegun = false → x.row % x.stripe = 0 → x.slotFree (x.row / x.stripe % x.slots) x.frameNo (x.row / x.stripe) = true) →
      let q : Stream := { (if x.row % x.stripe = 0 then x.occupy (x.row / x.stripe % x.slots) x.frameNo (x.row / x.stripe) else x) with
        lineTimes := if x.rowBegun = false then Tab.write 0 x.lineTimes (x.row % x.stripe) d.time.reading else x.lineTimes,
        rowBegun := true, rowPos := off + pay.length, rowBytes := x.rowBytes ++ pay }
      (off + pay.length < wireBytes x.fmt x.width → Answers (.line m x.row off pay false) s (d.updStream m.val fun _ => q)) ∧
      (off + pay.length = wireBytes x.fmt x.width → x.row % x.stripe + 1 ≠ x.stripe → x.row + 1 ≠ x.height →
        ∃ e : Die, Answers (.line m x.row off pay false) s e ∧
          e.st.lb = Mem.write d.st.lb (x.rowAddr (x.row / x.stripe % x.slots) (x.row % x.stripe)) (x.storeRow (x.rowBytes ++ pay)).1 ∧
          e.stream m.val = { q with
            row := x.row + 1, rowPos := 0, rowBegun := false, rowBytes := [],
            sat := if d.streamConf m.val then x.sat else satInc32 x.sat (x.storeRow (x.rowBytes ++ pay)).2 } ∧
          e = { d with st := { d.st with lb := e.st.lb }, ing := { d.ing with streams := e.ing.streams }, nwt := e.nwt }) ∧
      (off + pay.length = wireBytes x.fmt x.width → (x.row % x.stripe + 1 = x.stripe ∨ x.row + 1 = x.height) →
        let j := x.row / x.stripe
        let h : StripeInfo := { frame := x.frame, frameNo := x.frameNo, stripe := j, void := false, timeStep := x.timeStep,
                                sofTime := x.sofTime, sensorTs := x.sensorTs, times := (List.range 64).map fun i => Tab.read 0 q.lineTimes i }
        ∃ e : Die, Answers (.line m x.row off pay false) s e ∧
          e.st.lb = Mem.write (Mem.write d.st.lb (x.rowAddr (j % x.slots) (x.row % x.stripe)) (x.storeRow (x.rowBytes ++ pay)).1)
            (x.headerAddr (j % x.slots)) (x.header h) ∧
          (e.stream m.val).held = x.held ++ [(x.frameNo, j, decide (j + 1 = x.stripes))] ∧ (e.stream m.val).seq = x.seq + 1 ∧
          (e.stream m.val).handed = j + 1 ∧ (e.stream m.val).row = x.row + 1 ∧ (e.stream m.val).open_ = true ∧
          e.iss = (d.logTallyAdd x.slotOf x.readyTally 1).iss ∧
          e = { d with st := { d.st with lb := e.st.lb }, iss := e.iss, ing := { d.ing with streams := e.ing.streams }, nwt := e.nwt })) ∧
    (x.enabled = true → x.open_ = true → x.height ≤ x.row → ∃ e : Die, Answers (.eof m false) s e ∧
      e.stream m.val = { x with
        open_ := false, dropped := false, frames := if d.streamConf m.val then x.frames else satInc32 x.frames 1, dropCnt := 0, first := false } ∧
      e.ing.pixels = d.ing.pixels + BitVec.ofNat 64 (x.width * x.height) ∧
      e = { d with ing := { d.ing with streams := e.ing.streams, pixels := e.ing.pixels }, nwt := e.nwt }) ∧
    (x.enabled = true → x.open_ = true → x.row < x.height → ∃ e : Die, Answers (.eof m false) s e ∧ only e ∧
      (e.stream m.val).open_ = false ∧ (e.stream m.val).lastCause = 3 ∧
      (e.stream m.val).drops = (if d.streamConf m.val then x.drops else satInc32 x.drops 1))

/-- STRIPE_FREE takes one unit of FREE for the oldest stripe held; a VOID stripe is handed over with READY; ENABLE checks and
starts a stream (R275, R276, R277, R279, R283, R284). That a command whose event is not due changes nothing is log entry 14
(DEDUCED). -/
def Obligations.StripesChangeHandsOverTallies : Prop :=
  ∀ (s : State) (m : Fin 16), Tab.wf {} s.die.ing.streams = true →
    let d := s.die
    let x := d.stream m.val
    (∀ f j l rest p, d.ingRuns = true → x.held = (f, j, l) :: rest → d.physTally x.slotOf x.freeTally = some p → x.enabled = true →
      Answers (.stripeFree m) s (if (d.tally p).value.toNat = 0 ∨ d.bundleTakes p = true ∨ d.threadTakes p = true then d else
        (d.updTally p fun t => { t with value := t.value - 1 }).updStream m.val fun x =>
          { x with held := rest, freed := Tab.write 0 x.freed f (Tab.read 0 x.freed f + 1) })) ∧
    (∀ v rest, d.ingRuns = true → x.voidQ = v :: rest → x.enabled = true → x.slotFree (v.from_ % x.slots) v.frameNo v.from_ = true →
      let h : StripeInfo := { frame := v.frame, frameNo := v.frameNo, stripe := v.from_, void := true, timeStep := v.timeStep,
                              sofTime := v.sofTime, sensorTs := v.sensorTs, times := List.replicate 64 0 }
      ∃ e : Die, Answers (.voidStripeHandover m) s e ∧
        e.st = { d.st with lb := Mem.write d.st.lb (x.addr + 1024 * (v.from_ % x.slots)) (x.header h) } ∧
        (e.stream m.val).held = x.held ++ [(v.frameNo, v.from_, decide (v.from_ + 1 = x.stripes))] ∧
        (e.stream m.val).voidQ = (if v.from_ + 1 < x.stripes then { v with from_ := v.from_ + 1, timeStep := false } :: rest else rest) ∧
        e.iss = (d.logTallyAdd x.slotOf x.readyTally 1).iss ∧
        e = { d with st := e.st, iss := e.iss, ing := { d.ing with streams := e.ing.streams } }) ∧
    (∀ val : W32, Prompt s 0 → d.hostOpen = true → d.streamPresent m.val = true → x.enabled = false → val.getLsbD 0 = true →
      let y : Stream := { x with ctrl := val &&& 0x370 }
      let d1 := d.updStream m.val fun _ => y
      (d1.streamCheck m.val y ≠ 0 → Answers (.ingStreamEnable 0 m val) s
        (d.updStream m.val fun _ => { y with cfgErr := BitVec.ofNat 4 (d1.streamCheck m.val y) })) ∧
      (d1.streamCheck m.val y = 0 → ∃ e : Die, Answers (.ingStreamEnable 0 m val) s e ∧ (e.stream m.val).enabled = true ∧
        (e.stream m.val).cfgErr = 0 ∧ (e.stream m.val).held = [] ∧ (e.stream m.val).first = true ∧
        e = { d with ing := { d.ing with streams := e.ing.streams }, nwt := e.nwt })) ∧
    (∀ val : W32, Prompt s 0 → d.hostOpen = true → d.streamPresent m.val = true → x.enabled = true → val.getLsbD 0 = false →
      ∃ e : Die, Answers (.ingStreamDisable 0 m val) s e ∧ (e.stream m.val).enabled = false ∧ (e.stream m.val).open_ = false ∧
        (e.stream m.val).drops = x.drops ∧ e = { d with ing := { d.ing with streams := e.ing.streams }, nwt := e.nwt })

/-- A TIMESYNC more than 1 us off, or the first one, steps the die time; any other slews it over 2^20 reference cycles (R33,
R281). That a command whose event is not due changes nothing is log entry 14 (DEDUCED). -/
def Obligations.TimesyncStepsOrSlewsTheTime : Prop :=
  ∀ (s : State), (∀ timeNs : W64, s.die.ingRuns = true →
    let t := s.die.time
    let off : Int := (timeNs.toNat : Int) + (s.die.ing.latency.toNat : Nat) - t.tq / 1048576
    let offset : W32 := BitVec.ofInt 32 (max (-2147483648) (min 2147483647 off))
    (t.valid = true → off.natAbs ≤ 1000 → Answers (.timesync timeNs) s
      { s.die with time := { t with slew := off, slewLeft := 1048576 }, ing := { s.die.ing with offset := offset } }) ∧
    (t.valid = false ∨ 1000 < off.natAbs → ∃ e : Die, Answers (.timesync timeNs) s e ∧
      e.time = { t with tq := t.tq + off * 1048576, slew := 0, slewLeft := 0, valid := true, everSet := true } ∧
      e.ing.offset = offset ∧ e.ing.steps = satInc32 s.die.ing.steps 1)) ∧
  Answers .slewEnd s (if s.die.time.slewLeft = 0 then { s.die with time := { s.die.time with slew := 0 } } else s.die)

/-- A write of GO or PUBLISH enters one command of its slot at the queue's end; while one is pending it only sets OVERRUN
(R354, R355, R379). That the arguments are those at the write of GO is log entry 37 (DEDUCED). -/
def Obligations.KvCommandsEnterTheQueue : Prop :=
  ∀ (s : State) (fn i : Fin 64) (c : Instr) (op : Nat) (a2 : W32), Prompt s fn.val → s.die.hostOpen = true →
    let k := s.die.kvCmd i.val
    ((c = .allocate fn i ∧ op = 1 ∧ a2 = k.arg2) ∨ (c = .share fn i ∧ op = 2 ∧ a2 = k.arg2) ∨ (c = .cow fn i ∧ op = 3 ∧ a2 = k.arg2) ∨
     (c = .free fn i ∧ op = 4 ∧ a2 = k.arg2) ∨ (c = .query fn i ∧ op = 6 ∧ a2 = k.arg2) ∨
     (∃ len : BitVec 17, c = .publish fn i len ∧ op = 5 ∧ a2 = w32 len.toNat)) →
    ((fn = 0 ∨ fn = i) → k.pending = false → Answers c s { s.die with kvp := { s.die.kvp with
      pages_ := Tab.upd {} s.die.kvp.pages_ i.val fun k => { k with pending := true, done := false, overrun := false },
      queue := s.die.kvp.queue ++ [.command i.val op k.arg0 k.arg1 a2 fn.val] } }) ∧
    ((fn = 0 ∨ fn = i) → k.pending = true → Answers c s { s.die with kvp := { s.die.kvp with
      pages_ := Tab.upd {} s.die.kvp.pages_ i.val fun k => { k with overrun := true } } }) ∧
    (fn ≠ 0 → fn ≠ i → Answers c s s.die)

/-- KVP_QUEUE_HEAD runs the oldest command: the first failing check sets STATUS and nothing else, each command has its
effect; a retire ends in READY (R348, R351, R352, R354, R355, R356, R357, R358, R359, R360, R361, R554). That PUBLISH reaches
its publish point, and a command its end, in one step is log entry 17 (DEDUCED); arguments are those at GO, log entry 37
(DEDUCED). The order of the checks with failed accesses is log entry 123 (DEDUCED). -/
def Obligations.KvQueueHeadRunsInOrder : Prop :=
  (∀ (s : State) (i op : Nat) (a0 a1 a2 : W32) (fn : Nat) (acc : Access) (rest : List KvOp),
    s.die.kvp.queue = .command i op a0 a1 a2 fn :: rest → Tab.wf {} s.die.kvp.pages_ = true → Tab.wf {} s.die.kvp.pages = true →
    Tab.wf {} s.die.kvp.seqs = true → (s.die.xfrRuns = false → Answers (.kvpQueueHead acc) s s.die) ∧ (s.die.xfrRuns = true →
    let x := s.die.slot i
    let q := x.seqBase + wbits a0 27 16
    let y := s.die.seq q
    let gen := wbits a0 15 0
    let h := !y.half
    let idx := wbits a1 11 0
    let z := wbits a2 16 0
    let src := s.die.kvp.entry (x.seqBase + wbits a1 27 16) (s.die.seq (x.seqBase + wbits a1 27 16)).half z
    let cur := s.die.kvp.entry q h idx
    let chain := Tab.read [] s.die.kvp.chains i
    let bad : Prop := op = 0 ∨ 6 < op ∨ x.isGranted = false ∨ x.seqCount ≤ wbits a0 27 16 ∨
      (op = 2 ∧ (x.seqCount ≤ wbits a1 27 16 ∨ 4095 < z)) ∨ (op = 5 ∧ 65536 < z)
    let edit : Prop := ¬ bad ∧ gen = (y.gen.toNat + 1) % 65536 ∧ y.shadow = .ready
    let reach (rs ws : List (Nat × Nat)) : Prop :=
      acc = .ok ∧ s.die.hbm.failed = false ∧ s.die.barred ((s.die.entryAddr q h idx, 4) :: rs) ws = false
    let mapped (p : Nat) : Tab W32 := Tab.write 0 s.die.kvp.tables (halfKey q h + idx) (w32 (0x80000000 + p))
    let status (st : Nat) (e : Die) : Prop := (e.kvCmd i).done = true ∧ (e.kvCmd i).pending = false ∧
      (e.kvCmd i).status = BitVec.ofNat 4 st ∧ e.kvp.cmds = inc64 s.die.kvp.cmds 1
    let res1 (v : Nat) (e : Die) : Prop := (e.kvCmd i).res1 = w32 v
    let ends (st : Nat) (f : Die → Prop) : Prop := ∃ e : Die, Answers (.kvpQueueHead acc) s e ∧ status st e ∧ f e
    let untouched (e : Die) : Prop := e = { s.die with kvp := { s.die.kvp with queue := rest, pages_ := e.kvp.pages_, cmds := e.kvp.cmds } }
    let edited (e : Die) : Prop := e = { s.die with kvp := { s.die.kvp with
      queue := rest, cmds := e.kvp.cmds, pages := e.kvp.pages, chains := e.kvp.chains, tables := e.kvp.tables, pages_ := e.kvp.pages_ } }
    (bad → ends 6 untouched) ∧
    (¬ bad → op = 6 → ends 0 fun e => untouched e ∧ res1 (s.die.kvQuery q) e) ∧
    (¬ bad → op ≠ 6 → gen = y.gen.toNat → ends 9 fun e =>
      e.kvp = { s.die.kvp with queue := rest, pages_ := e.kvp.pages_, cmds := e.kvp.cmds } ∧
      (i < 64 → Tab.wf {} s.die.ctx.slots = true → x.state = .armed → (e.slot i).state = .aborted)) ∧
    (¬ bad → op ≠ 6 → gen ≠ y.gen.toNat → gen ≠ (y.gen.toNat + 1) % 65536 → ends 2 untouched) ∧
    (¬ bad → op ≠ 6 → gen = (y.gen.toNat + 1) % 65536 → y.shadow ≠ .ready → ends 1 untouched) ∧
    (edit → s.die.kvSound [(s.die.entryAddr q h idx, 4)] = true →
      ((op = 1 ∨ op = 2) → cur ≠ none → ends 3 untouched) ∧
      (((op = 3 ∨ op = 4) ∧ cur = none) ∨ (op = 2 ∧ cur = none ∧ src = none) → ends 4 untouched) ∧
      ((op = 1 ∧ cur = none ∧ chain = []) ∨ (op = 3 ∧ chain = [] ∧ ∃ p, cur = some p ∧ (s.die.page p).refs ≠ 1) → ends 5 untouched)) ∧
    (∀ p t, edit → op = 1 → reach [] [] → cur = none → chain = p :: t → ends 0 fun e => edited e ∧ res1 p e ∧
      e.kvp.pages = Tab.write {} s.die.kvp.pages p { live := true, refs := 1, pins := 0 } ∧
      e.kvp.chains = Tab.write [] s.die.kvp.chains i t ∧ e.kvp.tables = mapped p) ∧
    (∀ p, edit → op = 2 → cur = none → src = some p →
      reach [(s.die.entryAddr (x.seqBase + wbits a1 27 16) (s.die.seq (x.seqBase + wbits a1 27 16)).half z, 4)] [] →
      ends 0 fun e => edited e ∧ res1 p e ∧ e.kvp.chains = s.die.kvp.chains ∧ e.kvp.tables = mapped p ∧
        ∀ r, e.page r = if r = p then { s.die.page p with refs := (s.die.page p).refs + 1 } else s.die.page r) ∧
    (∀ p, edit → op = 3 → cur = some p → (s.die.page p).refs = 1 → reach [] [] → ends 0 fun e => untouched e ∧ res1 p e) ∧
    (∀ p n t, edit → op = 3 → cur = some p → 2 ≤ (s.die.page p).refs → chain = n :: t → n ≠ p → s.die.kvWaits i 3 a0 a1 = false →
      let at_ (r : Nat) : Nat × Nat := (s.die.poolBase + r * pageBytes, pageBytes)
      reach [at_ p] [at_ n] → ends 0 fun e => res1 n e ∧ e.kvp.chains = Tab.write [] s.die.kvp.chains i t ∧ e.kvp.tables = mapped n ∧
        e.st = { s.die.st with hbm := Mem.copy s.die.st.hbm (at_ p).1 (at_ n).1 pageBytes } ∧
        (∀ r, e.page r = if r = n then { live := true, refs := 1, pins := 0 }
          else if r = p then { s.die.page p with refs := (s.die.page p).refs - 1 } else s.die.page r) ∧
        e.kvp.copies = (if s.die.isConf i then s.die.kvp.copies else satInc32 s.die.kvp.copies 1) ∧ e = { s.die with st := e.st, kvp := e.kvp }) ∧
    (∀ p, edit → op = 4 → cur = some p → reach [] [] → 0 < (s.die.page p).refs →
      let stays : Prop := 1 < (s.die.page p).refs ∨ 0 < (s.die.page p).pins
      let cleared := Tab.write 0 s.die.kvp.tables (halfKey q h + idx) 0
      (stays → ends 0 fun e => edited e ∧ res1 p e ∧ e.kvp.tables = cleared ∧ e.kvp.chains = s.die.kvp.chains ∧
        ∀ r, e.page r = if r = p then { s.die.page p with refs := (s.die.page p).refs - 1 } else s.die.page r) ∧
      (∀ o, ¬ stays → (s.die.page p).live = true → (s.die.page p).kept = false → s.die.pageOwner p = some o →
        ends 0 fun e => edited e ∧ res1 p e ∧ e.kvp.tables = cleared ∧
          e.kvp.chains = Tab.write [] s.die.kvp.chains o (p :: Tab.read [] s.die.kvp.chains o) ∧
          ∀ r, e.page r = if r = p then {} else s.die.page r)) ∧
    (edit → op = 5 → acc = .ok → s.die.hbm.failed = false →
      s.die.barred [(s.die.entryAddr q h 0, 4 * s.die.kvp.mapped q h)] [] = false → s.die.kvp.queue.contains (.retire q) = false →
      ends 0 fun e => res1 z e ∧ (e.kvCmd i).gen = BitVec.ofNat 16 gen ∧
        e.seq q = { y with gen := BitVec.ofNat 16 gen, half := h, len := z, shadow := .retiring } ∧ (∀ r, r ≠ q → e.seq r = s.die.seq r) ∧
        e.kvp.queue = rest ++ (if (if y.half then y.hold1 else y.hold0) = 0 then [.retire q] else []) ∧
        (∀ p, e.page p = { s.die.page p with
          pins := (s.die.page p).pins + ((s.die.kvp.half q h).filter fun c => decide (c.2 = p)).length }) ∧
        e = { s.die with kvp := { s.die.kvp with
          queue := e.kvp.queue, cmds := e.kvp.cmds, pages := e.kvp.pages, seqs := e.kvp.seqs, pages_ := e.kvp.pages_ } }))) ∧
  (∀ (s : State) (q : Nat) (rest : List KvOp), s.die.kvp.queue = .retire q :: rest → s.die.xfrRuns = true → s.die.hbm.failed = false →
    s.die.barred [(s.die.entryAddr q false 0, 32768)] [] = false → Tab.wf {} s.die.kvp.seqs = true → Tab.wf {} s.die.kvp.pages = true →
    Tab.wf 0 s.die.kvp.tables = true → (∀ c ∈ s.die.kvp.tables, c.2.getLsbD 31 = true) →
    let active := (s.die.seq q).half
    let was := (s.die.kvp.half q (!active)).map Prod.snd
    was.Nodup → (∀ p ∈ was, 0 < (s.die.page p).pins ∧ 0 < (s.die.page p).refs) →
    ∃ e : Die, Answers (.retire .ok) s e ∧ e.seq q = { s.die.seq q with shadow := .ready } ∧ (∀ j, j ≠ q → e.seq j = s.die.seq j) ∧
      (∀ p, e.page p = if p ∈ was then { s.die.page p with pins := (s.die.page p).pins - 1 } else s.die.page p) ∧
      (∀ k, k < 4096 → e.kvp.entry q (!active) k = s.die.kvp.entry q active k ∧ e.kvp.entry q active k = s.die.kvp.entry q active k) ∧
      e = { s.die with kvp := { s.die.kvp with queue := rest, seqs := e.kvp.seqs, pages := e.kvp.pages, tables := e.kvp.tables } })

/-- A valid SENSOR or STATUS frame reaches its loop; frames that are not valid, aborted frames and alignment losses are
counted (R382, R386, R387, R392, R393, R399, R400). -/
def Obligations.FieldFramesAreReceivedOrCounted : Prop :=
  ∀ (s : State) (p : Fin 4) (f : List Byte), Tab.wf {} s.die.fld.loops = true → Tab.wf {} s.die.fld.ports = true →
    let d := s.die
    let count (d : Die) : Die := d.updFport p.val fun x => { x with rxFrames := satInc32 x.rxFrames 1 }
    let sensed (n : Nat) (d : Die) : Die := d.updLoop n fun l => { l with sensor := f, haveSens := true, sensorK := l.periodOf (d.baseNow l.ptp) }
    let told (n : Nat) (d : Die) : Die := d.updLoop n fun l => { l with rxstat := f, rxNew := true }
    let ticked (n : Nat) (d : Die) : Die :=
      if (d.loop n).tally.getLsbD 8 = true ∧ (d.loop n).slot ≠ 0x3F then d.logTallyAdd (d.loop n).slot.toNat (wbits (d.loop n).tally 7 0) 1 else d
    let valid : Prop := f.length = 64 ∧ leNat (f.drop 60) = crc32c (f.take 60)
    let bad (d : Die) : Die := d.updFport p.val fun x => { x with rxErr := satInc32 x.rxErr 1 }
    let up : Prop := (d.fport p.val).enable = true ∧ (d.fport p.val).align = true ∧ d.fldRuns = true
    (∀ n, up → valid → byteOf f 0 = 0x51 → d.portLoop p.val (frameChan f) = some n → Answers (.sensor p f) s (ticked n (sensed n (count d)))) ∧
    (∀ n, up → valid → byteOf f 0 = 0x53 → d.portLoop p.val (frameChan f) = some n → Answers (.status p f) s (told n (count d))) ∧
    (up → (¬ valid ∨ (byteOf f 0 ≠ 0x51 ∧ byteOf f 0 ≠ 0x53) ∨ d.portLoop p.val (frameChan f) = none) →
      Answers (.fieldFrameDiscard p f) s (bad d)) ∧
    (up → Answers (.frameAbort p) s (bad d)) ∧
    ((d.fport p.val).enable = true → Answers (.alignGain p) s (d.updFport p.val fun x => { x with align := true })) ∧
    (up → Answers (.alignLoss p false) s (d.updFport p.val fun x => { x with align := false }) ∧
      Answers (.alignLoss p true) s (bad (d.updFport p.val fun x => { x with align := false }))) ∧
    (∀ mch n, d.fldRuns = true → d.mainline = true → valid → d.mchLoop mch = some n →
      (byteOf f 0 = 0x51 → Answers (.loopMessage mch f) s (ticked n (sensed n d))) ∧
      (byteOf f 0 = 0x53 → Answers (.loopMessage mch f) s (told n d))) ∧
    (∀ mch, d.fldRuns = true → d.mainline = true → ¬ valid ∨ d.mchLoop mch = none →
      Answers (.loopMessage mch f) s { d with fld := { d.fld with msgRxErr := satInc32 d.fld.msgRxErr 1 } })

/-- Enabling a port aligns nothing and restarts its HEARTBEATs; a loop's BIND is checked before it is enabled; disabling a
loop or port drops its frames (R382, R391, R394, R395, R403, R409). That the frames waiting for a disabled loop are dropped
is log entry 33 (DEDUCED). How BIND's SLOT 0x3F and an ABORTED slot are taken is log entry 35 (DEDUCED); HEARTBEAT numbers
from 0, log entry 33. -/
def Obligations.PortsAndLoopsAreEnabledAndDisabled : Prop :=
  ∀ (s : State), Prompt s 0 → s.die.hostOpen = true → Tab.wf {} s.die.fld.loops = true → Tab.wf {} s.die.fld.ports = true →
    let d := s.die
    let off (l : Loop) : Loop := { l with enable := false, dawn := false, inPeriod := false, ready := false }
    let without (gone : Nat → Bool) (l : List TxFrame) : List TxFrame := l.filter fun f => !gone f.loop
    let only (e : Die) : Prop := e = { d with fld := { d.fld with
      loops := e.fld.loops, ports := e.fld.ports, msgGuards := e.fld.msgGuards, msgCmds := e.fld.msgCmds } }
    (∀ (p : Fin 4) (val : W32), val.getLsbD 0 = true → (d.fport p.val).enable = false → ∃ e : Die, Answers (.fldPortEnable 0 p val) s e ∧
      (e.fport p.val).enable = true ∧ (e.fport p.val).align = false ∧ (e.fport p.val).hbSeq = 0 ∧
      (e.fport p.val).guards = [] ∧ (e.fport p.val).cmds = [] ∧
      (e.fport p.val).hbNext = (if d.fld.hbPeriod = 0 then none else some (d.fldNow + hbInterval d.fld.hbPeriod)) ∧
      (e.fport p.val).rate.toNat = (if wbits val 6 4 < 5 then wbits val 6 4 else (d.fport p.val).rate.toNat) ∧
      (∀ q, q ≠ p.val → e.fport q = d.fport q) ∧ e = { d with fld := { d.fld with ports := e.fld.ports } }) ∧
    (∀ (p : Fin 4) (val : W32), val.getLsbD 0 = false → (d.fport p.val).enable = true →
      let bound (n : Nat) : Bool := decide (n < 8) && (d.loop n).enable && !(d.loop n).msg && decide ((d.loop n).port.toNat = p.val)
      ∃ e : Die, Answers (.fldPortDisable 0 p val) s e ∧ only e ∧
        e.fport p.val = { d.fport p.val with enable := false, align := false, hbNext := none, hbDue := 0, guards := [], cmds := [] } ∧
        (∀ q, q ≠ p.val → e.fport q = { d.fport q with guards := without bound (d.fport q).guards, cmds := without bound (d.fport q).cmds }) ∧
        e.fld.msgGuards = without bound d.fld.msgGuards ∧ e.fld.msgCmds = without bound d.fld.msgCmds ∧
        (∀ n, e.loop n = if bound n then off (d.loop n) else d.loop n)) ∧
    (∀ (n : Fin 8) (val : W32), d.loopPresent n.val = true → val.getLsbD 31 = true → (d.loop n.val).enable = false →
      let l := (d.loop n.val).setBind val
      let d1 := d.updLoop n.val fun _ => l
      (d1.loopCheck n.val l ≠ 0 → Answers (.loopEnable 0 n val) s
        (d.updLoop n.val fun _ => { l with enable := false, cfgErr := BitVec.ofNat 4 (d1.loopCheck n.val l) })) ∧
      (d1.loopCheck n.val l = 0 → ∃ e : Die, Answers (.loopEnable 0 n val) s e ∧ (e.loop n.val).enable = true ∧
        (e.loop n.val).consec = 0 ∧ (e.loop n.val).k = l.firstFrom (d.baseNow l.ptp) ∧ (e.loop n.val).inPeriod = false ∧
        (e.loop n.val).haveSens = false ∧ (∀ j, j ≠ n.val → e.loop j = d.loop j) ∧ e = { d with fld := { d.fld with loops := e.fld.loops } })) ∧
    (∀ (n : Fin 8) (val : W32), d.loopPresent n.val = true → val.getLsbD 31 = false → (d.loop n.val).enable = true →
      let gone (k : Nat) : Bool := decide (k = n.val)
      ∃ e : Die, Answers (.loopDisable 0 n val) s e ∧ only e ∧ e.loop n.val = (off (d.loop n.val)).setBind val ∧
        (∀ j, j ≠ n.val → e.loop j = d.loop j) ∧
        (∀ q, e.fport q = { d.fport q with guards := without gone (d.fport q).guards, cmds := without gone (d.fport q).cmds }) ∧
        e.fld.msgGuards = without gone d.fld.msgGuards ∧ e.fld.msgCmds = without gone d.fld.msgCmds) ∧
    (∀ (val : W32), ∃ e : Die, Answers (.hbPeriodWrite 0 val) s e ∧ e.fld.hbPeriod.toNat = wbits val 15 0 ∧
      (∀ p, p < 4 → e.fport p =
        if (d.fport p).enable = true ∧ wbits val 15 0 = 0 then { d.fport p with hbNext := none }
        else if (d.fport p).enable = true ∧ d.fld.hbPeriod = 0 then
          { d.fport p with hbNext := some (d.fldNow + hbInterval (BitVec.ofNat 16 (wbits val 15 0))) }
        else d.fport p) ∧
      e = { d with fld := { d.fld with hbPeriod := e.fld.hbPeriod, ports := e.fld.ports } })

/-- A period takes one COMMAND of its own context before its deadline; the guard acts at the deadline; guards go out before
COMMANDs (R111, R389, R390, R391, R393, R395, R396, R397, R398, R400, R402, R405). That a command whose event is not due
changes nothing is log entry 14 (DEDUCED); the controller's block is a free value, and the loop whose period runs the
controller a choice: log entry 36 (DESIGN CHOICE); port 4 for the loop messages, the one frame for each credit, and a
HEARTBEAT event apart from its start: log entry 33 (DEDUCED). -/
def Obligations.LoopPeriodsCommandsAndGuards : Prop :=
  ∀ (s : State) (n : Fin 8), Tab.wf {} s.die.fld.loops = true → Tab.wf {} s.die.fld.ports = true →
    let d := s.die
    let l := d.loop n.val
    let k := if l.inPeriod then l.k + 1 else l.k
    let now := d.baseNow l.ptp
    let popped (rest : List (Nat × List Byte)) : Die := d.updLoop n.val fun l => { l with fifo := rest }
    let guarded (e : Die) (f : TxFrame) : Die :=
      if l.msg then { e with fld := { e.fld with msgGuards := e.fld.msgGuards ++ [f] } }
      else e.updFport l.port.toNat fun p => { p with guards := p.guards ++ [f] }
    let served (c : Nat) : Die := d.updLoop n.val fun l => { l with served := true, lastServed := some (l.due l.k), consec := c }
    (l.enable = true → d.fldRuns = true → (l.inPeriod = false ∨ l.served = true) → l.start k ≤ now →
      ∃ e : Die, Answers (.periodStart n) s e ∧ (e.loop n.val).k = k ∧ (e.loop n.val).inPeriod = true ∧ (e.loop n.val).served = false ∧
        (e.loop n.val).ready = false ∧ (e.loop n.val).taken = false ∧ (∀ j, j ≠ n.val → e.loop j = d.loop j) ∧
        (e.loop n.val).fifo = l.fifo ++ (if d.dawnServes l then [(0x40, Config.dawnBlock d.dawnWeightBytes d.dawnFrames n.val)] else []) ∧
        e = { d with fld := { d.fld with loops := e.fld.loops }, fln := if d.dawnServes l = true ∧ ∀ j, j < n.val → ¬ ((d.loop j).enable = true ∧ d.dawnServes (d.loop j) = true) then d.dawnRun.fln else d.fln } ∧
        d.dawnRun.fln.rowsCnt = inc64 d.fln.rowsCnt (8 * ceilDiv d.dawnWeightBytes.length 2048) ∧
        d.dawnRun.fln.wrows = inc64 d.fln.wrows (64 * ceilDiv d.dawnWeightBytes.length 2048)) ∧
    (now < l.start k → Answers (.periodStart n) s d) ∧
    (l.fifo = [] → Answers (.commandArrival n) s d) ∧
    let own (slot : Nat) : Prop := l.enable = true ∧ if slot = 0x40 then d.dawnServes l = true else slot ≠ 63 ∧ l.slot.toNat = slot
    (∀ slot block rest, l.fifo = (slot, block) :: rest → ¬ own slot → Answers (.commandArrival n) s
      { popped rest with fld := { (popped rest).fld with foreign := satInc32 d.fld.foreign 1 } }) ∧
    (∀ slot block rest, l.fifo = (slot, block) :: rest → own slot →
      let inTime : Prop := l.abortedCtx = false ∧ l.inPeriod = true ∧ l.haveSens = true ∧ l.lost = false ∧ l.served = false ∧
        l.taken = false ∧ now < l.due l.k
      let f : TxFrame := { loop := n.val, type := 0xC1, payload := (block.drop 12).take 48 }
      let took : Die := d.updLoop n.val fun l => { l with fifo := rest, taken := true, ready := true }
      (inTime → l.msg = false → Answers (.commandArrival n) s (took.updFport l.port.toNat fun p => { p with cmds := p.cmds ++ [f] })) ∧
      (inTime → l.msg = true → Answers (.commandArrival n) s { took with fld := { took.fld with msgCmds := d.fld.msgCmds ++ [f] } }) ∧
      (¬ inTime → Answers (.commandArrival n) s (if l.slot ≠ 0x3F ∧ d.isConf l.slot.toNat = true then popped rest else
        d.updLoop n.val fun l => { l with fifo := rest, late := satInc32 l.late 1 }))) ∧
    (l.enable = true → d.fldRuns = true → l.inPeriod = true → l.served = false → l.due l.k ≤ now →
      (d.guardSilentSafe l = true → Answers (.deadline n) s
        (guarded (served l.consec) { loop := n.val, type := 0xC3, payload := d.safePayload n.val })) ∧
      (d.guardSilentSafe l = false → l.ready = true → Answers (.deadline n) s (served 0)) ∧
      (d.guardSilentSafe l = false → l.ready = false →
        let c := l.consec + 1
        let safe : Prop := l.guardSafe = true ∨ l.sentCmd = false ∨ (l.holdMax ≠ 0 ∧ l.holdMax < c)
        let t : Byte := if safe then 0xC3 else 0xC2
        Answers (.deadline n) s
          ((guarded (served c) { loop := n.val, type := t, payload := if safe then d.safePayload n.val else l.lastCmd, miss := true }).record
            (45 + n.val) 0x0B (if l.unbound then none else some l.slot.toNat) (wrapNat 32 l.k) t.toNat c 0))) ∧
    (l.served = true ∨ now < l.due l.k → Answers (.deadline n) s d) ∧
    (∀ (p : Fin 5) (credits : Nat), p.val < 4 →
      let x := d.fport p.val
      let clear (own : Option Nat) : Prop := ∀ i, i < 8 → (d.loop i).enable = true → (d.loop i).msg = false → (d.loop i).port.toNat = p.val →
        own ≠ some i → d.baseNow (d.loop i).ptp + frameSlotNs x.rate.toNat < d.pendingDue (d.loop i)
      let wire (q : FldPort) : FldPort := { q with txFrames := satInc32 x.txFrames 1, wireFree := d.fldNow + frameSlotNs x.rate.toNat }
      let sends (f : TxFrame) (q : FldPort) : Prop := ∃ e : Die, Answers (.txFrameStart p credits) s e ∧
        e.out = .field p.val ((d.loop f.loop).bytes f d.time.stamp) :: d.out ∧ e.fport p.val = wire q ∧
        (∀ i, i ≠ p.val → e.fport i = d.fport i) ∧ (e.loop f.loop).seq = (d.loop f.loop).seq + 1 ∧
        (∀ i, i ≠ f.loop → e.loop i = d.loop i) ∧
        e = { d with out := e.out, fld := { d.fld with loops := e.fld.loops, ports := e.fld.ports } }
      (x.enable = false ∨ d.fldRuns = false ∨ d.fldNow < x.wireFree → Answers (.txFrameStart p credits) s d) ∧
      (x.enable = true → d.fldRuns = true → x.wireFree ≤ d.fldNow →
        (∀ f rest, x.guards = f :: rest → sends f { x with guards := rest }) ∧
        (∀ f rest, x.guards = [] → x.cmds = f :: rest →
          (clear (some f.loop) → sends f { x with cmds := rest }) ∧ (¬ clear (some f.loop) → Answers (.txFrameStart p credits) s d)) ∧
        (x.guards = [] → x.cmds = [] →
          (0 < x.hbDue → clear none → Answers (.txFrameStart p credits) s
            { (d.updFport p.val fun x => wire { x with hbDue := x.hbDue - 1, hbSeq := x.hbSeq + 1 }) with
              out := .field p.val (buildFrame 0xC4 0xF false x.hbSeq.toNat d.time.stamp (d.heartbeat p.val)) :: d.out }) ∧
          (x.hbDue = 0 ∨ ¬ clear none → Answers (.txFrameStart p credits) s d)))) ∧
    (d.fld.msgCredits = 0 → Answers (.txFrameStart 4 0) s d) ∧
    (∀ f rest credits, 0 < d.fld.msgCredits + credits → d.fldRuns = true → d.mainline = true →
      (d.fld.msgGuards = f :: rest ∨ (d.fld.msgGuards = [] ∧ d.fld.msgCmds = f :: rest)) → ∃ e : Die, Answers (.txFrameStart 4 credits) s e ∧
      (d.fld.msgGuards = f :: rest → e.fld.msgGuards = rest ∧ e.fld.msgCmds = d.fld.msgCmds) ∧
      (d.fld.msgGuards = [] → e.fld.msgGuards = [] ∧ e.fld.msgCmds = rest) ∧
      e.fld.msgCredits + 1 = min 4 (d.fld.msgCredits + credits) ∧ (e.loop f.loop).seq = (d.loop f.loop).seq + 1 ∧
      e.out = .loopMsg (d.loop f.loop).mch ((d.loop f.loop).bytes f d.time.stamp) :: d.out) ∧
    (∀ (p : Fin 4) t, (d.fport p.val).hbNext = some t → Answers (.heartbeatDue p) s (if t ≤ d.fldNow then
      d.updFport p.val fun x =>
        { x with hbDue := x.hbDue + 1, hbNext := if d.fld.hbPeriod = 0 then none else some (t + hbInterval d.fld.hbPeriod) } else d))

/-- The sideband's messages make a frame of 19,200 bytes in order; anything else is counted; a frame's outputs land once,
none in warm-up (R278, R410, R411, R412, R414, R415, R416, R417, R418, R423, R425). That a command whose event is not due
changes nothing is log entry 14 (DEDUCED). One error for each bad sequence, and what a Nightwatch that does not run ignores,
are log entry 56 (DEDUCED); the finding of the check code is an operand, log entry 29 (DEDUCED). -/
def Obligations.NightwatchTakesWholeFrames : Prop :=
  (∀ s : State, s.die.nwtSideband = s.die.nwt.sideband →
    let n := s.die.nwt
    let on (m : Nwt) : Die := { s.die with nwt := m }
    let bad : Die := on { n with sbErr := satInc32 n.sbErr 1, sbOpen := false, sbSkip := true, sbBytes := [] }
    let taken (m : Nwt) (luma : List Byte) : Nwt :=
      let fresh (m : Nwt) : Nwt := { m with
        lastSof := some n.sofAt, work := some luma, frames := satInc32 n.frames 1, taken := n.taken + 1 }
      match n.lastSof with
      | none => fresh m
      | some l => if n.sofAt < l + 1200000 then { m with skipped := satInc32 n.skipped 1 }
        else if l + 38400000 < n.sofAt then fresh { m with warmup := 8, fresh := true, present := false, logit := 0, bg := [] }
        else fresh m
    (n.enable = true ∧ n.pkg = 1 → n.sideband = true →
      (∀ num, n.sbOpen = false → Answers (.watchSof num) s
        (on { n with sbOpen := true, sbSkip := false, sbBytes := [], sofAt := s.die.time.aon.toNat })) ∧
      (∀ info data, n.sbOpen = true → Answers (.watchData info data) s
        (if n.sbBytes.length < 19200 ∧ 8 * info.toNat = n.sbBytes.length then on { n with sbBytes := n.sbBytes ++ leBytes 8 data.toNat } else bad)) ∧
      (n.sbOpen = true → n.sbBytes.length ≠ 19200 → Answers .watchEof s (on { n with
        sbErr := satInc32 n.sbErr 1, sbOpen := false, sbSkip := false, sbBytes := [] })) ∧
      (n.sbOpen = true → n.sbBytes.length = 19200 → Answers .watchEof s (on (taken { n with sbOpen := false, sbBytes := [] } n.sbBytes)))) ∧
    ((n.enable = false ∨ n.pkg ≠ 1) → (∀ num, Answers (.watchSof num) s s.die) ∧ (∀ info data, Answers (.watchData info data) s s.die) ∧
      Answers .watchEof s s.die ∧ ∀ e, Answers (.nwtFrameResult e) s s.die) ∧
    (∀ m : Fin 16, n.enable = true → n.pkg = 1 → n.sideband = false → m.val = n.stream.toNat → s.die.ingRuns = true →
      s.die.streamPresent m.val = true → Tab.wf {} s.die.ing.streams = true →
      let x := s.die.stream m.val
      let gives (c : Instr) (m : Nwt) : Prop := ∃ e : Die, Answers c s e ∧ e.nwt = m
      let closed : Nwt := { n with inRows := [], inOpen := false }
      x.enabled = true →
      (∀ frame ts w h fmt, x.open_ = false → x.voidQ = [] → w.toNat = x.width → h.toNat = x.height → fmt.toNat = x.fmt →
        gives (.sof m frame ts w h fmt false) { n with inOpen := true, inRows := [], sofAt := s.die.time.aon.toNat }) ∧
      (∀ (pay : List Byte), x.open_ = true → x.row < x.height →
        (x.rowBegun = false → x.row % x.stripe = 0 → x.slotFree (x.row / x.stripe % x.slots) x.frameNo (x.row / x.stripe) = true) →
        x.rowPos + pay.length = wireBytes x.fmt x.width → n.inOpen = true →
        gives (.line m x.row x.rowPos pay false) { n with inRows := lumaRow x.fmt x.width (x.rowBytes ++ pay) :: n.inRows }) ∧
      (x.open_ = true → n.inOpen = true → (x.row < x.height → gives (.eof m false) { closed with skipped := satInc32 n.skipped 1 }) ∧
        (x.height ≤ x.row →
          let picture := nwtReduce (decide (x.fmt ≤ 2)) ((n.inRows.map fun r => r.toArray).reverse).toArray x.width x.height
          (picture = none → gives (.eof m false) { closed with skipped := satInc32 n.skipped 1 }) ∧
          (∀ luma, picture = some luma → gives (.eof m false) (taken closed luma)))))) ∧
  (∀ (raw : Bool) (rows : Array (Array Nat)) (w h : Nat),
    let side (n cells : Nat) : Nat := if raw then n / cells / 2 * 2 else n / cells
    let bx := side w 160
    let by_ := side h 120
    (nwtReduce raw rows w h = none ↔ bx = 0 ∨ by_ = 0) ∧
    ∀ luma, nwtReduce raw rows w h = some luma → luma.length = 19200 ∧ ∀ i, i < 19200 →
      let sum := ((List.range by_).map fun v => ((List.range bx).map fun u =>
        (rows.getD ((h - 120 * by_) / 2 + i / 160 * by_ + v) #[]).getD ((w - 160 * bx) / 2 + i % 160 * bx + u) 0).sum).sum
      ∃ v : Nat, nth 0 luma i = BitVec.ofNat 8 v ∧
        2 * ((sum : Int) - v * (bx * by_ : Nat)).natAbs ≤ bx * by_ ∧
        (2 * ((sum : Int) - v * (bx * by_ : Nat)).natAbs = bx * by_ → v % 2 = 0)) ∧
  (∀ (s : State) (luma : List Byte), s.die.nwt.enable = true → s.die.nwt.pkg = 1 → s.die.nwt.work = some luma → s.die.nwt.warmup ≠ 0 →
    ∃ e : Die, Answers (.nwtFrameResult .ok) s e ∧ e.nwt = { s.die.nwt with
      bg := e.nwt.bg, fresh := false, work := none, warmup := s.die.nwt.warmup - 1 } ∧ e = { s.die with nwt := e.nwt }) ∧
  (∀ (s : State) (luma : List Byte) (c : Nat), s.die.nwt.enable = true → s.die.nwt.pkg = 1 → s.die.nwt.work = some luma → s.die.nwt.warmup = 0 →
    let n := s.die.nwt
    let p := n.param.toArray
    let o := nwtNetwork p (n.background luma.toArray).2
    let z (j : Nat) : Int := nth 0 o.2 j
    c < 9 → (∀ j, j < 9 → z j ≤ z c) → (∀ j, j < c → z j < z c) →
    let reports : Prop := c < 8 ∧ (∀ j, j < 9 → j ≠ c → pI32 p (nwtThresh + 8) ≤ z c - z j) ∧
      (n.lastRept = none ∨ ∃ was k, n.lastRept = some (was, k) ∧ (was ≠ c ∨ pU p (nwtThresh + 12) 2 ≤ n.taken - 1 - k))
    ∃ e : Die, Answers (.nwtFrameResult .ok) s e ∧ e = { s.die with nwt := e.nwt } ∧ e.nwt.work = none ∧ e.nwt.warmup = 0 ∧
      e.nwt.logit = BitVec.ofInt 32 o.1 ∧
      e.nwt.present = (if pI32 p nwtThresh ≤ o.1 then true else if o.1 < pI32 p (nwtThresh + 4) then false else n.present) ∧
      (reports → e.nwt.pend = n.pend ||| (1#8 <<< c) ∧ e.nwt.lastRept = some (c, n.taken - 1) ∧
        e.nwt.last = w32 (0x80000000 + c * 2 ^ 24 + (n.taken - 1) % 2 ^ 24)) ∧
      (¬ reports → e.nwt.pend = n.pend ∧ e.nwt.lastRept = n.lastRept ∧ e.nwt.last = n.last)) ∧
  (∀ (s : State) (luma : List Byte) (ecc : Ecc), s.die.nwt.enable = true → s.die.nwt.pkg = 1 → s.die.nwt.work = some luma →
    eccBad ecc = true → ∃ e : Die, Answers (.nwtFrameResult ecc) s e ∧ e.nwt.work = none ∧
      ((∃ w ∈ ecc, w.uncorr = true ∧ w.off < 15936) → e.nwt.pkg = 3) ∧
      ((∀ w ∈ ecc, w.uncorr = true → 15936 ≤ w.off) → e.nwt.pkg = 1 ∧ e.nwt.warmup = 8 ∧ e.nwt.present = false)) ∧
  (∀ (s : State) (val : W32), Prompt s 0 → s.die.hostOpen = true → val.getLsbD 31 = true → s.die.nwt.enable = false → s.die.nwt.pkg = 1 →
    wbits val 19 16 < s.die.variant.streams → ∃ e : Die, Answers (.nwtEnable 0 val) s e ∧ e.nwt.enable = true ∧ e.nwt.warmup = 8 ∧
      e.nwt.present = false ∧ e.nwt.stream.toNat = wbits val 19 16 ∧ e = { s.die with nwt := e.nwt })

/-- REG_RD answers one completion with its tag and the register's value, 0 for an unaligned access; an unaligned REG_WR does
nothing; kinds from 0x7 up are counted (R9, R10, R11, R28, R32, R429, R430). Which messages a die hears is log entry 60
(DEDUCED), that both write commands have every effect log entry 73 (DEDUCED), the turn of the module after a message log
entry 121, what is sent lies in out by log entry 12 (DESIGN CHOICE). -/
def Obligations.RegisterMessagesAnswerAndTakeEffect : Prop :=
  (∀ (s : State) (fn : Fin 64) (tag : BitVec 16) (off : BitVec 24) (bytes : Nat), Prompt s fn.val →
    (bytes = 4 ∧ off.toNat % 4 = 0 →
      let r := s.die.regRead fn.val off.toNat
      ∃ e : Die, Answers (.regRd fn tag off bytes) s e ∧ e.out = .regCpl fn.val tag off r.2 :: r.1.out ∧
        e = { r.1 with out := e.out, fab := { r.1.fab with modTurn := Tab.write 3 r.1.fab.modTurn 0 3 } } ∧
        (off.toNat < 0x18 → r = (s.die, if off.toNat = 0 then 0x4E320100 else if off.toNat = 0xC then (if s.die.glb.lock then 1 else 0)
          else if off.toNat = 0x10 then s.die.glb.boardId else if off.toNat = 0x14 then s.die.glb.scratch else r.2))) ∧
    (bytes ≠ 4 ∨ off.toNat % 4 ≠ 0 → Answers (.regRd fn tag off bytes) s { s.die with
      out := .regCpl fn.val tag off 0 :: s.die.out, fab := { s.die.fab with modTurn := Tab.write 3 s.die.fab.modTurn 0 3 } }) ∧
    (∀ val, bytes ≠ 4 ∨ off.toNat % 4 ≠ 0 → Answers (.regWr fn off bytes val) s s.die) ∧
    (∀ val, exec (.registerWrite fn off val) s = exec (.regWr fn off 4 val) s)) ∧
  (∀ (s : State) (kind : BitVec 4), Prompt s 64 → Answers (.reservedHostKind kind) s
    (if 7 ≤ kind.toNat then { s.die with ing := { s.die.ing with unclaimed := satInc32 s.die.ing.unclaimed 1 } } else s.die)) ∧
  (∀ (s : State) (val : W32), Prompt s 0 →
    Answers (.registerWrite 0 0x14 val) s { s.die with glb := { s.die.glb with scratch := val } } ∧
    (s.die.glb.lock = false → Answers (.regWr 0 0x10 4 val) s { s.die with glb := { s.die.glb with boardId := val } }) ∧
    (s.die.glb.lock = true → Answers (.regWr 0 0x10 4 val) s s.die) ∧
    (val.getLsbD 0 = true → Answers (.regionLockSet 0 0xC val) s { s.die with glb := { s.die.glb with lock := true } }))

/-- MEM_RD answers the bytes of the function's own grant, MEM_WR writes exactly its bytes there; outside it each is refused
and counted (R430, R434, R486, R488, R504). The refused message, ERR 1 with zero bytes of the asked length, is log entry 74
(DEDUCED); the wait for a scrub log entry 75 (DEDUCED); the turn of the module log entry 121; unwritten memory reads 0 by log
entry 6 (DESIGN CHOICE). -/
def Obligations.MemoryMessagesStayInTheGrant : Prop :=
  ∀ (s : State) (fn : Fin 64) (tag : BitVec 16) (addr : BitVec 40) (len : BitVec 8) (data : List Byte), Prompt s fn.val →
    let n := len.toNat + 1
    let viol : Die := { s.die with ctx := { s.die.ctx with hostViol := satInc32 s.die.ctx.hostViol 1 } }
    let answered (d : Die) (o : Out) : Die :=
      { d with out := o :: d.out, fab := { d.fab with modTurn := Tab.write 3 d.fab.modTurn 0 3 } }
    (∀ p, s.die.memPhys fn.val addr.toNat n = some p → s.die.scrubbing p n = false →
      s.die.barred [(p, n)] [] = false →
      Answers (.memRd fn tag addr len .ok) s
        (answered s.die (.memCpl fn.val tag addr false (Mem.read s.die.st.hbm p n)))) ∧
    (s.die.memPhys fn.val addr.toNat n = none → ∀ res, Answers (.memRd fn tag addr len res) s
      (answered viol (.memCpl fn.val tag addr true (List.replicate n 0)))) ∧
    (∀ p, s.die.memPhys fn.val addr.toNat data.length = some p → s.die.scrubbing p data.length = false →
      s.die.barred [] [(p, data.length)] = false →
      Answers (.memWr fn addr data .ok) s { s.die with st := { s.die.st with hbm := Mem.write s.die.st.hbm p data } } ∧
      (MemoryForm s → ∀ a, (a < p ∨ p + data.length ≤ a) → Tab.read 0 (Mem.write s.die.st.hbm p data) a = Tab.read 0 s.die.st.hbm a)) ∧
    (s.die.memPhys fn.val addr.toNat data.length = none → ∀ res, Answers (.memWr fn addr data res) s viol)

/-- A command to a busy slot sets OVERRUN, an ARM beside UNLOAD or RELEASE STATE too; the wrong function gets DENIED, the
wrong state STATE (R435, R436, R437, R439, R447). An ARM beside an UNLOAD or a RELEASE is log entry 45 (DEDUCED, with R447);
DENIED ahead of STATE, and that a reserved code clears OVERRUN, log entry 47 (DEDUCED); that a slot which departs answers
STATE log entry 38 (DEDUCED), GRANT before full service log entries 46 and 77 (DEDUCED). -/
def Obligations.SlotCommandsAreCheckedInOrder : Prop :=
  ∀ (s : State) (fn i : Fin 64) (c : Instr) (op : Nat) (runs : W32), Prompt s fn.val → s.die.hostOpen = true → Tab.wf {} s.die.ctx.slots = true →
    let x := s.die.slot i.val
    ((c = .grant fn i ∧ op = 1) ∨ (c = .load fn i ∧ op = 2) ∨ (c = .disarm fn i ∧ op = 3) ∨ (c = .abort fn i ∧ op = 4) ∨
      (c = .unload fn i ∧ op = 5) ∨ (c = .release fn i ∧ op = 6) ∨ (c = .arm fn i runs ∧ op = 7)) →
    let denied : Prop :=
      ((op = 1 ∨ op = 6) ∧ fn ≠ 0) ∨ ((op = 2 ∨ op = 7) ∧ fn ≠ i) ∨ (3 ≤ op ∧ op ≤ 5 ∧ fn ≠ 0 ∧ fn ≠ i)
    let allowed : Prop :=
      (op = 1 ∧ x.state = .free) ∨ (op = 2 ∧ x.state = .granted) ∨ ((op = 3 ∨ op = 4) ∧ x.state = .armed) ∨
      ((op = 5 ∨ op = 7) ∧ (x.state = .loaded ∨ x.state = .aborted)) ∨
      (op = 6 ∧ (x.state = .granted ∨ x.state = .loaded ∨ x.state = .aborted))
    let ends (st : BitVec 4) : Die := s.die.updSlot i.val fun x => { x with overrun := false, busy := .idle, status := st }
    (fn ≠ 0 → fn ≠ i → Answers c s s.die) ∧
    ((fn = 0 ∨ fn = i) → x.busy ≠ .idle → Answers c s (s.die.updSlot i.val fun x =>
      { x with overrun := true, status := if op = 7 ∧ x.unloading = true then 1 else x.status })) ∧
    ((fn = 0 ∨ fn = i) → x.busy = .idle → denied → Answers c s (ends 2)) ∧
    (x.busy = .idle → (fn = 0 ∨ fn = i) → ¬ denied → (¬ allowed ∨ (s.die.prot i.val).departing = true) → Answers c s (ends 1))

/-- GRANT empties and grants the slot, LOAD and UNLOAD begin, DISARM and ABORT leave the slot LOADED and ABORTED (R78, R345,
R433, R435, R438, R440, R444, R488, R504, R506, R606). A vector that waits for the end of the issue cycle is log entry 142
(DEDUCED). GRANTED with BUSY until the prologue and the scrubs are over, and GRANT before full service, are log entry 46
(DEDUCED). -/
def Obligations.SlotCommandsTakeEffect : Prop :=
  ∀ (s : State) (fn i : Fin 64), Prompt s fn.val → s.die.hostOpen = true → Tab.wf {} s.die.ctx.slots = true →
    Tab.wf [] s.die.kvp.chains = true →
    let d := s.die
    let x := d.slot i.val
    x.busy = .idle → (d.prot i.val).departing = false →
    (fn = 0 → x.state = .free → 2 ≤ d.glb.service.toNat → d.boot.full = true → d.boot.warm = false → d.fuses.lifecycle ≠ 3 → d.grantRange i.val = true →
      Answers (.grant fn i) s (d.updSlot i.val fun x => { x with overrun := false, status := 4 })) ∧
    (fn = 0 → x.state = .free → 2 ≤ d.glb.service.toNat → d.boot.full = true → d.boot.warm = false → d.fuses.lifecycle ≠ 3 → d.grantRange i.val = false → d.grantOverlap i.val = true →
      Answers (.grant fn i) s (d.updSlot i.val fun x => { x with overrun := false, status := 3 })) ∧
    (fn = 0 → x.state = .free → 2 ≤ d.glb.service.toNat → d.boot.full = true → d.boot.warm = false → d.fuses.lifecycle ≠ 3 → d.grantRange i.val = false → d.grantOverlap i.val = false →
      ∃ e : Die, Answers (.grant fn i) s e ∧ (e.slot i.val).state = .granted ∧ (e.slot i.val).seg = none ∧ (e.slot i.val).runNum = 0 ∧
        (∀ j, j ≠ i.val → e.slot j = d.slot j) ∧
        Tab.read [] e.kvp.chains i.val = (List.range x.pages).map (fun n => x.firstPage + n) ∧ e.boot.clean = false ∧
        (x.prologueCycles = 0 → (d.sec.prologues.any fun p => decide (p.slot = i.val)) = false → d.sec.scrubs = [] →
          (e.slot i.val).busy = .idle ∧ (e.slot i.val).status = 0) ∧
        (x.prologueCycles ≠ 0 → (e.slot i.val).busy = .grant ∧
          e.sec.prologues = d.sec.prologues ++ [{ slot := i.val, left := x.prologueCycles, lock := false }]) ∧
        e = { d with ctx := { d.ctx with slots := e.ctx.slots }, kvp := e.kvp, boot := { d.boot with clean := false },
                     sec := { d.sec with prots := e.sec.prots, prologues := e.sec.prologues } }) ∧
    (fn = i → x.state = .granted → (d.prot i.val).protected_ = false → (d.prot i.val).init = false →
      (x.phys x.imageAddr x.imageLen.toNat).isSome = true →
      Answers (.load fn i) s (d.updSlot i.val fun x => { x with overrun := false, state := .loading, busy := .load })) ∧
    (fn = i → x.state = .granted → (d.prot i.val).protected_ = false → (d.prot i.val).init = false →
      x.phys x.imageAddr x.imageLen.toNat = none → Answers (.load fn i) s (d.updSlot i.val fun x => { x with overrun := false, status := 8 })) ∧
    (fn = i → x.state = .granted → (d.prot i.val).protected_ = true → (d.prot i.val).tdi = .locked →
      Answers (.load fn i) s (d.updSlot i.val fun x => { x with overrun := false, status := 1 })) ∧
    ((fn = 0 ∨ fn = i) → x.state = .armed →
      Answers (.disarm fn i) s (Die.updSlot { d with ctx := { d.ctx with cal := d.ctx.cal.dropPending i.val } } i.val fun x =>
        { x with overrun := false, state := .loaded, conf := false, runsLeft := 0, status := 0 })) ∧
    ((fn = 0 ∨ fn = i) → x.state = .armed → ∃ e : Die, Answers (.abort fn i) s e ∧
      e.slot i.val = { x with overrun := false, state := .aborted, cause := 0, runsLeft := 0, status := 0 } ∧
      (∀ j, j ≠ i.val → e.slot j = d.slot j) ∧ e.err = d.err ∧ e.st = d.st ∧
      (d.issuing = false → e.out = .intr i.val 0x40 :: d.out ∧ e.fab = { d.fab with modTurn := Tab.write 3 d.fab.modTurn 0 3 }) ∧
      (d.issuing = true → e.out = d.out ∧ e.fab = d.fab ∧ e.iss.aborts = d.iss.aborts ++ [(i.val, 0)]) ∧
      e.ctx.cal.pending ≠ some i.val ∧ e.kvp = d.kvp ∧ e.sec = d.sec) ∧
    ((fn = 0 ∨ fn = i) → x.state = .loaded ∨ x.state = .aborted → (d.prot i.val).tdi = .unlocked →
      Answers (.unload fn i) s ((d.updSlot i.val fun x => { x with overrun := false, busy := .unload false }).stopUnits i.val)) ∧
    (fn = 0 → x.state = .granted ∨ x.state = .loaded ∨ x.state = .aborted → (d.prot i.val).tdi = .unlocked →
      Answers (.release fn i) s ((d.updSlot i.val fun x => { x with overrun := false, busy := .unload true }).stopUnits i.val))

/-- LOAD_COMPLETE installs the image or gives a code, ARM arms a loaded slot, UNLOAD_RELEASE_DONE frees what the slot held
(R69, R76, R345, R438, R439, R440, R487, R504). An image that cannot be read is log entry 48 (DEDUCED), the two steps of a
departure log entry 38 (DEDUCED), an event that is not due log entry 14 (DEDUCED). -/
def Obligations.SlotWorkCompletes : Prop :=
  ∀ (s : State) (i : Fin 64), Tab.wf {} s.die.ctx.slots = true → Tab.wf [] s.die.kvp.chains = true →
    let d := s.die
    let x := d.slot i.val
    (∀ p m g, x.busy = .load → x.phys x.imageAddr x.imageLen.toNat = some p → (d.prot i.val).departing = false → d.hbm.failed = false →
      d.barred [(p, x.imageLen.toNat)] [] = false →
      let r := d.checkImage i.val (Mem.read d.st.hbm p x.imageLen.toNat)
      (r.2 = some (m, g) → ∃ e : Die, Answers (.loadComplete i .ok) s e ∧
        e.slot i.val = { x with state := .loaded, seg := some g, runsDone := 0, runNum := 0, loadStat := 0, busy := .idle, status := 0 } ∧
        (∀ j, j ≠ i.val → e.slot j = d.slot j) ∧ e.st = (d.installImage i.val m g).st) ∧
      (r.2 = none → Answers (.loadComplete i .ok) s (d.updSlot i.val fun x =>
        { x with loadStat := BitVec.ofNat 4 r.1, state := .granted, busy := .idle, status := 7 }))) ∧
    (∀ runs : W32, Prompt s i.val → d.hostOpen = true → x.busy = .idle → (d.prot i.val).departing = false →
      let conf := x.runCtrl.getLsbD 0
      let meets : Prop := if conf = true then
          d.variant.hasConf = true ∧ (d.prot i.val).protected_ = true ∧ (d.prot i.val).tdi = .run ∧ d.sec.debugOpen = false
        else (d.prot i.val).protected_ = false
      (x.state = .loaded ∨ x.state = .aborted → ¬ meets →
        Answers (.arm i i runs) s (d.updSlot i.val fun x => { x with overrun := false, busy := .idle, status := 5 })) ∧
      (meets → x.state = .loaded ∨ (x.state = .aborted ∧ d.slotRunning i.val = false) → ∃ e : Die, Answers (.arm i i runs) s e ∧
        e.slot i.val = { x with overrun := false, state := .armed, conf := conf, runsLeft := runs.setWidth 16, cause := 0,
                                armTick := d.boot.sinceRst + 1, busy := .idle, status := 0 } ∧
        (∀ j, j ≠ i.val → e.slot j = d.slot j) ∧
        e = { d with ctx := { d.ctx with slots := e.ctx.slots }, fab := { d.fab with channels := e.fab.channels },
                     iss := if x.state = .loaded then d.iss else e.iss,
                     sec := { d.sec with prots := e.sec.prots }, fld := { d.fld with loops := e.fld.loops } }) ∧
      (meets → x.state = .aborted → d.slotRunning i.val = true →
        Answers (.arm i i runs) s (d.updSlot i.val fun x => { x with overrun := false, busy := .idle, status := 6 }))) ∧
    (d.slotQuiet i.val = false ∨ (x.unloading = false ∧ (d.prot i.val).departing = false) → Answers (.unloadReleaseDone i) s d) ∧
    (d.slotQuiet i.val = true → (d.prot i.val).departing = false → x.busy = .unload false →
      ∃ e : Die, Answers (.unloadReleaseDone i) s e ∧
        e.slot i.val = { x with seg := none, state := .granted, conf := false, runsLeft := 0, cause := 0, busy := .idle, status := 0 } ∧
        (∀ j, j ≠ i.val → e.slot j = d.slot j)) ∧
    (d.slotQuiet i.val = true → (d.prot i.val).departing = false → x.busy = .unload true → (d.prot i.val).lastConf = false →
      (d.sec.scrubs.any fun c => decide (c.slot = i.val) && c.release) = false →
      ∃ e : Die, Answers (.unloadReleaseDone i) s e ∧
        e.slot i.val = { x with seg := none, state := .free, conf := false, runsLeft := 0, cause := 0, busy := .idle, status := 0 } ∧
        (∀ j, j ≠ i.val → e.slot j = d.slot j) ∧ e.sec.scrubs = d.sec.scrubs ++ [x.scrub i.val 0 false false] ∧
        Tab.read [] e.kvp.chains i.val = []) ∧
    (d.slotQuiet i.val = true → (d.prot i.val).departing = false → x.busy = .unload true → (d.prot i.val).lastConf = true →
      (d.sec.scrubs.any fun c => decide (c.slot = i.val) && c.release) = false →
      ∃ e : Die, Answers (.unloadReleaseDone i) s e ∧
        e.slot i.val = { x with seg := none, state := .granted, conf := false, runsLeft := 0, cause := 0 } ∧
        (∀ j, j ≠ i.val → e.slot j = d.slot j) ∧ e.sec.scrubs = d.sec.scrubs ++ [x.scrub i.val 0 false true])

/-- CAL_SWAP is checked at once and takes effect at a quantum boundary; CAL_ENABLE is checked in order; CAL_DISABLE drops the
pending entry (R441, R445, R446). A swap of a disabled calendar, and what a disable drops, are log entry 50 (DEDUCED); an
event that is not due log entry 14 (DEDUCED). -/
def Obligations.CalendarSwapsAndEnables : Prop :=
  ∀ (s : State) (fn : Fin 64) (val : W32),
    let c := s.die.ctx.cal
    let with_ (c : Cal) : Die := { s.die with ctx := { s.die.ctx with cal := c } }
    let now := s.die.baseNow c.ptp
    let timing : Prop := c.quantum.toNat < 10000 ∨ 100000000 < c.quantum.toNat ∨ c.quantum.toNat % 10 ≠ 0 ∨ c.quantum.toNat ≤ c.phase.toNat
    let ptp := val.getLsbD 29
    (Prompt s fn.val → s.die.hostOpen = true → fn ≠ 0 →
      Answers (.calSwap fn val) s s.die ∧ Answers (.calEnable fn val) s s.die ∧ Answers (.calDisable fn val) s s.die) ∧
    (Prompt s fn.val → s.die.hostOpen = true → fn = 0 → val.getLsbD 0 = true → c.swapPend = false → c.bankErr (!c.active) ≠ 0 →
      Answers (.calSwap fn val) s (with_ { c with swapErr := BitVec.ofNat 4 (c.bankErr (!c.active)) })) ∧
    (Prompt s fn.val → s.die.hostOpen = true → fn = 0 → val.getLsbD 0 = true → c.swapPend = false → c.bankErr (!c.active) = 0 →
      c.enable = true → 0 < c.quantum.toNat → ∃ k : Int, now < c.start k ∧ c.start (k - 1) ≤ now ∧
        Answers (.calSwap fn val) s (with_ { c with swapErr := 0, swapPend := true, swapAt := k })) ∧
    (c.swapDue now = true → Answers .calSwapEffect s (with_ { c with
      active := !c.active, swapPend := false, quantumK := max c.swapAt c.quantumK, next := 0 })) ∧
    (c.swapDue now = false → Answers .calSwapEffect s s.die) ∧
    (Prompt s fn.val → s.die.hostOpen = true → fn = 0 → val.getLsbD 31 = true → c.enable = false →
      (timing → Answers (.calEnable fn val) s (with_ { c with ptp := ptp, cfgErr := 1 })) ∧
      (¬ timing → ptp = true → s.die.time.valid = false → Answers (.calEnable fn val) s (with_ { c with ptp := ptp, cfgErr := 2 })) ∧
      (¬ timing → (ptp = true → s.die.time.valid = true) → c.bankErr c.active ≠ 0 →
        Answers (.calEnable fn val) s (with_ { c with ptp := ptp, cfgErr := 3 })) ∧
      (¬ timing → (ptp = true → s.die.time.valid = true) → c.bankErr c.active = 0 →
        ∃ k : Int, s.die.baseNow ptp ≤ c.start k ∧ c.start (k - 1) < s.die.baseNow ptp ∧
          Answers (.calEnable fn val) s (with_ { c with
            ptp := ptp, enable := true, cfgErr := 0, quantumK := k, next := 0, lastDue := some (c.start k - 1) }))) ∧
    (Prompt s fn.val → s.die.hostOpen = true → fn = 0 → val.getLsbD 31 = false → c.enable = true → c.swapPend = false →
      Answers (.calDisable fn val) s (with_ { c with enable := false, pending := none, next := 0 }))

/-- An entry due replaces the pending one and counts it as missed; DISPATCH_START starts the run; RUN_END ends it and disarms
after the last (R180, R210, R441, R442, R443, R444, R448, R565). When a run may start is log entry 51 (DEDUCED), an ARM in
the entry's own cycle log entry 50 (DEDUCED), an event that is not due log entry 14 (DEDUCED), an INTR while the mainline is
down log entry 60 (DEDUCED). -/
def Obligations.CalendarEntriesStartAndEndRuns : Prop :=
  (∀ (s : State) (k : Int) (n : Nat), Tab.wf {} s.die.ctx.slots = true →
    let d := s.die
    let c := d.ctx.cal
    let sl := wbits (c.entry c.active n) 29 24
    let taken (p : Option Nat) : Cal := { c with quantumK := k, next := n + 1, lastDue := some (c.start k + c.offset c.active n), pending := p }
    c.nextEntry = some (k, n) →
    (d.baseNow c.ptp < c.start k + c.offset c.active n → Answers .calEntryDue s d) ∧
    (c.start k + c.offset c.active n ≤ d.baseNow c.ptp → ((d.slot sl).state ≠ .armed ∨ (d.slot sl).armTick = d.boot.sinceRst + 1) →
      Answers .calEntryDue s { d with ctx := { d.ctx with cal := taken c.pending } }) ∧
    (c.start k + c.offset c.active n ≤ d.baseNow c.ptp → (d.slot sl).state = .armed → (d.slot sl).armTick ≠ d.boot.sinceRst + 1 →
      (c.pending = none → Answers .calEntryDue s { d with ctx := { d.ctx with cal := taken (some sl) } }) ∧
      (∀ p, c.pending = some p → Answers .calEntryDue s
        (Die.updSlot { d with ctx := { d.ctx with cal := taken (some sl) } } p fun x => { x with missed := satInc32 x.missed 1 })))) ∧
  (∀ (s : State) (p : Nat) (g : Segment), Tab.wf {} s.die.ctx.slots = true →
    let d := s.die
    let x := d.slot p
    d.ctx.cal.pending = some p → x.seg = some g → d.iss.run = none → d.drained = true → (d.glb.service = 1 ∨ d.glb.service = 2) →
    d.hbm.failed = false → d.issueRuns = true → d.te0.inReset = false → d.te1.inReset = false →
    (x.state ≠ .armed → Answers .dispatchStart s { d with ctx := { d.ctx with cal := { d.ctx.cal with pending := none } } }) ∧
    (x.state = .armed → ∃ e : Die, Answers .dispatchStart s e ∧ e.ctx.cal = { d.ctx.cal with pending := none } ∧
      e.iss.run = some { slot := p, force0 := d.te0.forceExact, force1 := d.te1.forceExact } ∧
      e.slot p = { x with runNum := if x.runNum = 0xFFFFFFFF then 1 else x.runNum + 1, marks := [] } ∧
      (∀ j, j ≠ p → e.slot j = d.slot j) ∧ e.te0 = { d.te0 with plane0 := d.te0.plane0.unwritten, plane1 := d.te0.plane1.unwritten, pend16 := [] } ∧
      e.te1 = { d.te1 with plane0 := d.te1.plane0.unwritten, plane1 := d.te1.plane1.unwritten, pend16 := [] } ∧ e.fln = { d.fln with rows := [], next := 0 } ∧ e.st = d.st)) ∧
  (∀ (s : State) (r : Run), Tab.wf {} s.die.ctx.slots = true →
    let d := s.die.tallyReadable
    let x := d.slot r.slot
    let y : Slot := { x with runsDone := x.runsDone + 1, lastCyc := w32 (min 0xFFFFFFFF r.held) }
    d.iss.run = some r → r.phase = .drain → d.drained = true →
    ∃ e : Die, Answers .runEnd s e ∧ e.iss = { d.iss with run := none } ∧
      (x.state = .armed → x.runsLeft = 1 → e.slot r.slot = { y with runsLeft := 0, state := .loaded, conf := false }) ∧
      (x.state = .armed → 1 < x.runsLeft.toNat → e.slot r.slot = { y with runsLeft := x.runsLeft - 1 }) ∧
      (x.state = .armed → x.runsLeft = 0 → e.slot r.slot = y) ∧ (x.state = .loaded → e.slot r.slot = y) ∧
      (∀ j, j ≠ r.slot → e.slot j = d.slot j) ∧
      e.out = (if x.runCtrl.getLsbD 1 && d.mainline then .intr r.slot 0 :: d.out else d.out) ∧
      e = { d with iss := e.iss, ctx := { d.ctx with slots := e.ctx.slots }, pwr := { d.pwr with fcast := e.pwr.fcast },
                   fab := { d.fab with modTurn := e.fab.modTurn }, out := e.out })

/-- A port takes cells in LSEQ order and answers a damaged or misplaced one with a NAK; LINK cells acknowledge, replay, sleep
and wake (R456, R457, R458, R459, R460, R476, R548, R554). A NAK that goes at once and moves the round is log entry 121
(DESIGN CHOICE), the onward copy that is cut short log entry 42 (DEDUCED), the turn of a module over its ports log entry 103
(DEDUCED), what a cell does in a cycle that uses its bank port log entry 106 (DEDUCED), an event that is not due log entry 14
(DEDUCED). -/
def Obligations.LinksKeepSequenceAndCredits : Prop :=
  ∀ (s : State) (p : Fin 8) (cell : List Byte), Tab.wf {} s.die.fab.ports = true → s.die.portPresent p.val = true → cellClass cell = 4 →
    let d := s.die
    let x := d.tport p.val
    let link (d : Die) (nak sleep : Bool) : Out :=
      let h := d.linkHeader p.val 1 0 0 nak sleep
      .cell p.val (h ++ leBytes 4 (crc32c h))
    let turned (f : Fab) : Fab := { f with modTurn := Tab.write 3 f.modTurn (p.val / 4) (p.val % 4) }
    let sends (d : Die) (o : Out) : Die := { d with out := o :: d.out, fab := turned d.fab }
    let free : Prop := cellDst cell ≠ d.fab.addr ∨ d.landHeld (cellRch cell) (cellOffset cell) (cellLen cell) = false
    let turn : Prop := d.moduleTurn p.val = true
    (d.fabRuns = false → Answers (.dataCell p cell) s d ∧ Answers (.linkCell p cell) s d ∧ Answers (.linkAck p) s d ∧
      Answers (.portSleep p) s d ∧ Answers (.replayTimer p) s d ∧ Answers (.wakeResend p) s d) ∧
    (x.state = .asleep → d.pwr.state = .active → d.pwr.tripped = false →
      Answers (.fabWake p) s (d.updTport p.val fun x => { x with wakeHeld := true, woken := true, state := .training })) ∧
    (d.fabRuns = true →
    (x.state = .up → cellKind cell = 0 → free → cellCrcGood cell = false →
      let d0 := d.cutOnward p.val cell
      let d1 := d0.updTport p.val fun x => { x with crcErrs := satInc32 x.crcErrs 1 }
      (d0 = d ∨ ∃ q, d.egress (cellDst cell) = some q ∧ d0 = d.send (.cellCut q)) ∧
      Answers (.dataCell p cell) s (sends (d1.updTport p.val FabPort.headerSent) (link d1 true false))) ∧
    (x.state = .up → cellKind cell = 0 → free → cellCrcGood cell = true → cellLseq cell ≠ (x.rxSeq + 1) % 4096 →
      Answers (.dataCell p cell) s (sends (d.updTport p.val FabPort.headerSent) (link d true false))) ∧
    (x.state = .up → cellKind cell = 1 → linkCrcGood cell = false →
      Answers (.linkCell p cell) s (d.updTport p.val fun x => { x with crcErrs := satInc32 x.crcErrs 1 })) ∧
    (x.state = .up → cellKind cell = 1 → linkCrcGood cell = true → cellNak cell = false → ∃ e : Die, Answers (.linkCell p cell) s e ∧
      (e.tport p.val).state = (if cellSleep cell then .asleep else .up) ∧
      (e.tport p.val).credits = (if cellCrdVc cell then x.credits else min 512 (x.credits + cellCrd cell)) ∧
      (e.tport p.val).credits1 = (if cellCrdVc cell then min 16 (x.credits1 + cellCrd cell) else x.credits1) ∧
      (∀ kept k sent, x.replayBuf = kept ++ k :: sent → cellLseq k = cellAck cell → (∀ j ∈ kept, cellLseq j ≠ cellAck cell) →
        (e.tport p.val).replayBuf = sent) ∧
      ((∀ j ∈ x.replayBuf, cellLseq j ≠ cellAck cell) → (e.tport p.val).replayBuf = x.replayBuf) ∧
      e = { d with fab := { d.fab with ports := e.fab.ports } }) ∧
    (x.state = .up → (0 < x.unackedRx ∨ 0 < x.ret0 ∨ 0 < x.ret1) → turn →
      Answers (.linkAck p) s (sends (d.updTport p.val FabPort.headerSent) (link d false false))) ∧
    (x.state = .up → x.replayBuf = [] → turn → Answers (.portSleep p) s
      (sends (d.updTport p.val fun x => { x.headerSent with state := .asleep }) (link d false true))) ∧
    (¬ turn → Answers (.linkAck p) s d ∧ Answers (.portSleep p) s d ∧ Answers (.replayTimer p) s d) ∧
    (x.state = .up → x.replayBuf ≠ [] → turn → ∃ e : Die, Answers (.replayTimer p) s e ∧ (e.tport p.val).replays = satInc32 x.replays 1 ∧
      (e.tport p.val).replayCnt = x.replayCnt + 1 ∧ (e.tport p.val).replayBuf = x.replayBuf ∧
      e.out.length = d.out.length + x.replayBuf.length ∧
      e = { d with fab := { d.fab with ports := e.fab.ports, modTurn := e.fab.modTurn }, out := e.out }) ∧
    (x.state = .asleep → x.waking = true → Answers (.wakeResend p) s (d.send (.wakeSet p.val))))

/-- A DATA cell for the die lands in its channel's window, counts in LANDED and signals; a failed check adds to FAB_DISCARDS
with its code (R229, R461, R467, R468, R470). Nothing readable is to land when the cell comes (log entry 16, DEDUCED); the
wait for the bank port is log entry 106 (DEDUCED). -/
def Obligations.DataCellsLandOrAreDiscarded : Prop :=
  ∀ (s : State) (p : Fin 8) (cell : List Byte), Tab.wf {} s.die.fab.ports = true → Tab.wf {} s.die.fab.channels = true →
    s.die.portPresent p.val = true → (s.die.tport p.val).state = .up → cellClass cell = 4 → cellKind cell = 0 → cellCrcGood cell = true →
    cellLseq cell = ((s.die.tport p.val).rxSeq + 1) % 4096 → cellNak cell = false → s.die.fab.addr ≠ 0xFFFFFFFF → cellDst cell = s.die.fab.addr →
    s.die.landHeld (cellRch cell) (cellOffset cell) (cellLen cell) = false → s.die.fabRuns = true →
    let d := s.die
    let n := cellRch cell
    let ch := d.channel n
    let got : Die := d.updTport p.val fun x =>
      { ({ x with rxSeq := cellLseq cell, unackedRx := x.unackedRx + 1 } : FabPort).takeAck cell with
        rxCells := inc64 x.rxCells 1, ret0 := x.ret0 + 1 }
    let discarded (code : BitVec 4) : Die :=
      { got with fab := { got.fab with discards := satInc32 d.fab.discards 1, lastDisc := code } }
    (ch.isRecv = false → Answers (.dataCell p cell) s (discarded 1)) ∧
    (ch.isRecv = true → d.isConf ch.slotOf = false →
      ((d.slot ch.slotOf).state ≠ .armed → Answers (.dataCell p cell) s (discarded 2)) ∧
      ((d.slot ch.slotOf).state = .armed → cellSrc cell ≠ ch.peer → Answers (.dataCell p cell) s (discarded 3)) ∧
      ((d.slot ch.slotOf).state = .armed → cellSrc cell = ch.peer → cellJob cell ≠ (d.slot ch.slotOf).jobId →
        Answers (.dataCell p cell) s (discarded 4)) ∧
      ((d.slot ch.slotOf).state = .armed → cellSrc cell = ch.peer → cellJob cell = (d.slot ch.slotOf).jobId → cellEnc cell = false →
        (ch.inWindow cell = false → Answers (.dataCell p cell) s (discarded 6)) ∧
        (ch.inWindow cell = true → Landed d → ch.space ≠ 0 → d.granted ch.slotOf ch.space (ch.winBase + cellOffset cell) (min (cellLen cell) 256) = true →
          (cellPayload cell).length = 256 →
          ∃ e : Die, Answers (.dataCell p cell) s e ∧
            e.st = d.st.write ch.space (ch.winBase + cellOffset cell) ((cellPayload cell).take (cellLen cell)) ∧
            e.channel n = { ch with w := setNth ch.w 7 (ch.landed + 1) } ∧ (∀ m, m ≠ n → e.channel m = d.channel m) ∧
            e.fab = { got.fab with channels := e.fab.channels } ∧
            e.iss = (if ch.sigCells ≠ 0 ∧ (ch.landed + 1).toNat % ch.sigCells = 0 then (d.logTallyAdd ch.slotOf ch.tallyOf 1).iss else d.iss) ∧
            e = { d.readDue d.iss.cyc with st := e.st, fab := e.fab, iss := e.iss }))) ∧
    (∀ cell', cellDst cell' = d.fab.addr → d.landHeld (cellRch cell') (cellOffset cell') (cellLen cell') = true →
      Answers (.dataCell p cell') s d)

/-- A cell for another die waits for its egress port and leaves with TTL less one; HELLO brings a port UP; TOPO probes follow
their route (R456, R457, R461, R462, R474, R475, R594, R596). The turn of a module over its ports is log entry 103 (DEDUCED),
the ingress port in the route log entry 42 (DEDUCED). -/
def Obligations.TransitCellsAreForwarded : Prop :=
  (∀ (s : State) (p : Fin 8) (cell : List Byte), s.die.fabRuns = true → Tab.wf {} s.die.fab.ports = true →
    s.die.portPresent p.val = true → (s.die.tport p.val).state = .up → cellClass cell = 4 → cellCrcGood cell = true →
    cellLseq cell = ((s.die.tport p.val).rxSeq + 1) % 4096 → cellNak cell = false →
    let d := s.die
    let got (x : FabPort) : FabPort := { ({ x with rxSeq := cellLseq cell, unackedRx := x.unackedRx + 1 } : FabPort).takeAck cell with
      rxCells := inc64 x.rxCells 1 }
    let missed (code : Nat) (f : Fab → Fab) : Die :=
      let d1 := d.updTport p.val fun x => { got x with ret0 := x.ret0 + 1 }
      Die.record { d1 with fab := f d1.fab } 44 0x0A none code (cellDst cell).toNat p.val (cellSrc cell).toNat
    (cellKind cell = 0 → d.fab.addr ≠ 0xFFFFFFFF → cellDst cell ≠ d.fab.addr →
      (∀ q, 1 < cellTtl cell → d.egress (cellDst cell) = some q → (d.tport q).state = .up →
        Answers (.dataCell p cell) s (d.updTport p.val fun x =>
          { got x with inbuf := x.inbuf ++ [(q, setNth cell 7 (BitVec.ofNat 8 (cellTtl cell - 1)))] })) ∧
      (cellTtl cell ≤ 1 → Answers (.dataCell p cell) s (missed 4 fun f => { f with ttlDrops := satInc32 f.ttlDrops 1 })) ∧
      (1 < cellTtl cell → d.egress (cellDst cell) = none →
        Answers (.dataCell p cell) s (missed 2 fun f => { f with misses := satInc32 f.misses 1 }))) ∧
    (∀ q, cellKind cell = 3 → bit (nth 0 (cellPayload cell) 0).toNat 0 = false → (nth 0 (cellPayload cell) 1).toNat ≤ 14 →
      (nth 0 (cellPayload cell) 2).toNat < (nth 0 (cellPayload cell) 1).toNat →
      q = (nth 0 (cellPayload cell) (3 + (nth 0 (cellPayload cell) 2).toNat)).toNat → q < 8 → (d.tport q).room true = true → d.nextTopo q = none →
      (d.updTport p.val got).moduleTurn q = true →
      let i := (nth 0 (cellPayload cell) 2).toNat
      ∃ (e : Die) (c : List Byte), Answers (.topoCell p cell) s e ∧ e.out = .cell q c :: d.out ∧
        cellTtl c = cellTtl cell ∧
        cellBody c = padTo 304 (passOn cell (setNth (setNth (cellPayload cell) 2 (BitVec.ofNat 8 (i + 1))) (3 + i) (BitVec.ofNat 8 p.val))) ∧
        e = { d with fab := { d.fab with
          ports := e.fab.ports, modTurn := Tab.write 3 d.fab.modTurn (q / 4) (q % 4) }, out := e.out })) ∧
  (∀ (s : State) (p : Fin 8) (q : Nat) (cell : List Byte), s.die.fabRuns = true → Tab.wf {} s.die.fab.ports = true → s.die.nextForward p.val = some (q, cell) →
    s.die.nextTopo p.val = none → s.die.fab.addr ≠ 0xFFFFFFFF → s.die.moduleTurn p.val = true →
    (s.die.tport p.val).room false = true → ∃ (e : Die) (c : List Byte), Answers (.cellForward p) s e ∧ e.out = .cell p.val c :: s.die.out ∧
      cellBody c = padTo 304 (cellBody cell) ∧ cellTtl c = cellTtl cell ∧ (e.tport q).inbuf = removeFirst p.val (s.die.tport q).inbuf ∧
      e.fab.fwdCells = inc64 s.die.fab.fwdCells 1 ∧ (e.tport p.val).lastIn = q ∧
      e = { s.die with fab := { s.die.fab with
        ports := e.fab.ports, fwdCells := e.fab.fwdCells, modTurn := Tab.write 3 s.die.fab.modTurn (p.val / 4) (p.val % 4) }, out := e.out }) ∧
  (∀ (s : State) (p : Fin 8) (cell : List Byte) (nonce : W64), s.die.fabRuns = true → Tab.wf {} s.die.fab.ports = true → s.die.portPresent p.val = true →
    let x := s.die.tport p.val
    x.state = .training →
    (cellClass cell = 4 → cellKind cell = 2 → cellCrcGood cell = true → x.nonce = some (BitVec.ofNat 64 (cellField (cellPayload cell) 20 8)) →
      ∃ e : Die, Answers (.helloCell p cell) s e ∧ (e.tport p.val).state = .up ∧ (e.tport p.val).credits = 512 ∧
        (e.tport p.val).credits1 = 16 ∧ (e.tport p.val).peer = w32 (cellField (cellPayload cell) 0 4) ∧
        (e.tport p.val).peerPort = BitVec.ofNat 3 (cellField (cellPayload cell) 4 1) ∧ (e.tport p.val).rxSeq = 4095 ∧
        (∀ j, j ≠ p.val → e.tport j = s.die.tport j) ∧ e = { s.die with fab := { s.die.fab with ports := e.fab.ports } }) ∧
    (s.die.moduleTurn p.val = true → ∃ (e : Die) (c : List Byte), Answers (.helloSend p nonce) s e ∧ e.out = .cell p.val c :: s.die.out ∧
      cellField c (40 + 12) 8 = nonce.toNat ∧ (e.tport p.val).nonce = some nonce ∧ (e.tport p.val).txSeq = (x.txSeq + 1) % 4096 ∧
      (∀ j, j ≠ p.val → e.tport j = s.die.tport j) ∧ e = { s.die with fab := { s.die.fab with
        ports := e.fab.ports, modTurn := Tab.write 3 s.die.fab.modTurn (p.val / 4) (p.val % 4) }, out := e.out }))

/-- A RETRY or HELLO time-out fails and resets the port; the end of a peer-failure window sends FINAL when the entry counted
more than one (R477, R478, R479, R604, R605). That a command whose event is not due changes nothing is log entry 14
(DEDUCED). The clock of the 10 ms window is log entry 130 (DEDUCED). -/
def Obligations.FabricTimeoutsFailPortsAndReport : Prop :=
  (∀ (s : State) (p : Fin 8) (ch t : Fin 4096) (cause : BitVec 4), s.die.fabRuns = true → Tab.wf {} s.die.fab.ports = true →
    let d := s.die
    let x := d.tport p.val
    ((cause = 3 ∧ x.state = .up ∧ 8 ≤ x.replayCnt) ∨ (cause = 4 ∧ x.state = .up) →
      ∃ e : Die, Answers (.fabTimeout cause p ch t) s e ∧ (e.tport p.val).state = .failed ∧
        (e.tport p.val).lastCause = cause ∧ (e.tport p.val).credits = 0 ∧ (e.tport p.val).replayBuf = [] ∧ (e.tport p.val).inbuf = [] ∧
        (∀ j, j ≠ p.val → e.tport j = d.tport j) ∧
        e.fab.addr = d.fab.addr ∧ e.fab.routes = d.fab.routes ∧ e.fab.channels = d.fab.channels ∧ e.fab.jobs = d.fab.jobs ∧
        (∀ u, (u ∈ e.xfr.threads) → ∀ r ∈ u.2.out, r.dstSpace = 4 → r.port ≠ p.val)) ∧
    ((cause = 0 ∨ 5 < cause.toNat ∨ (cause = 3 ∧ (x.state ≠ .up ∨ x.replayCnt < 8)) ∨ (cause = 4 ∧ x.state ≠ .up) ∨
        (cause = 5 ∧ (x.state ≠ .asleep ∨ x.waking = false)) ∨
        (cause = 1 ∧ (d.waitingPorts t.val).contains (ch.val, p.val) = false)) → Answers (.fabTimeout cause p ch t) s d)) ∧
  (∀ (s : State) (job peer : W32),
    let d := s.die
    (∀ e, d.fab.peerFails.find? (fun e => decide (e.job = job ∧ e.peer = peer)) = some e →
      let d1 : Die := { d with fab := { d.fab with peerFails := d.fab.peerFails.filter fun x => decide (x ≠ e) } }
      (d.refNs < e.opened + 10000000 → Answers (.peerFailWindowEnd job peer) s d) ∧
      (e.opened + 10000000 ≤ d.refNs → Answers (.peerFailWindowEnd job peer) s (if 1 < e.count then d1.sendPeerFail e true else d1))) ∧
    ((∀ e ∈ d.fab.peerFails, ¬ (e.job = job ∧ e.peer = peer)) → Answers (.peerFailWindowEnd job peer) s d))

/-- LOCK begins K0, initialisation and prologue; START leads to RUN; STOP and error events begin the departure; a refused
request changes nothing (R484, R485, R486, R498, R505, R518, R520, R539). What a request does in each state of the TDI, and
when LOCK is accepted, is log entry 52 (DEDUCED), how a departure goes on log entry 38 (DEDUCED), the numbers that a key
draws log entry 99 (DEDUCED). -/
def Obligations.InterfaceRequestsMoveTheTdi : Prop :=
  ∀ (s : State) (i : Fin 64) (p : Path), Tab.wf {} s.die.ctx.slots = true → Tab.wf {} s.die.sec.prots = true → Memory.wf s.die.st.hbm = true →
    let d := s.die
    let x := d.slot i.val
    let q := d.prot i.val
    let open_ : Prop := d.firmwareAnswers = true ∧ d.fuses.lifecycle ≠ 3 ∧ p ≠ .i3c
    let gone (t : TdiState) : Prot := { q with
      tdi := t, departing := true, depRelease := false, sweeping := false, sweepStuck := false, init := false, protected_ := false }
    let departs (e : Die) : Prop :=
      (∀ j, j ≠ i.val → e.prot j = d.prot j ∧ e.slot j = d.slot j) ∧
      (x.state = .armed → (e.slot i.val).state = .aborted ∧ (e.slot i.val).cause = 0) ∧ (d.abortable i.val = false → e.slot i.val = x ∧ e.out = d.out) ∧
      e.err = d.err ∧ e.st = d.st ∧ e.sec.keyGen = d.sec.keyGen
    (d.firmwareAnswers = false → Answers (.lockInterfaceRequest i p) s d ∧ Answers (.startInterfaceRequest i p) s d ∧ Answers (.stopInterfaceRequest i p) s d) ∧
    (d.firmwareAnswers = true → d.fuses.lifecycle = 3 ∨ p = .i3c → Answers (.lockInterfaceRequest i p) s (d.send (.spdmError p 7)) ∧
      Answers (.startInterfaceRequest i p) s (d.send (.spdmError p 7)) ∧ Answers (.stopInterfaceRequest i p) s (d.send (.spdmError p 7))) ∧
    (open_ → d.lockAccepted i.val = false → Answers (.lockInterfaceRequest i p) s (d.send (.tdisp p i.val false))) ∧
    (open_ → d.lockAccepted i.val = true → Answers (.lockInterfaceRequest i p) s { d with
      boot := { d.boot with clean := false },
      sec := { d.sec.draw 3 with
        keyGen := d.sec.keyGen + 1,
        prots := Tab.upd {} d.sec.prots i.val fun q =>
          { q with tdi := .locked, init := true, lockPath := p, key0 := d.sec.keyGen + 1, key1 := 0, cur := false, epochs := [], rotations := 0,
                   sweeping := false, sweepStuck := false, pointer := 0, swept := 0 },
        scrubs := d.sec.scrubs ++ [x.scrub i.val (d.sec.keyGen + 1) false false],
        prologues := if x.prologueCycles = 0 then d.sec.prologues
          else d.sec.prologues ++ [{ slot := i.val, left := x.prologueCycles, lock := true }] } }) ∧
    (∀ c, q.init = true → (d.sec.prologues.any fun p => decide (p.slot = i.val ∧ p.lock = true)) = false → d.ctx.held = [] →
      (∀ j, (d.slot j).busy ≠ .grant) → d.sec.scrubs.filter (fun c => decide (c.slot = i.val ∧ c.initKey ≠ 0)) = [c] →
      ∃ e : Die, Answers (.lockInitDone i) s e ∧ e.prot i.val = { q with init := false, protected_ := true } ∧
        (∀ j, j ≠ i.val → e.prot j = d.prot j) ∧ e.out = .tdisp q.lockPath i.val true :: d.out ∧
        (∀ a, Tab.read 0 e.st.hbm a = if c.covers d.poolBase a 1 then 0 else Tab.read 0 d.st.hbm a) ∧
        e = { d with st := { d.st with hbm := e.st.hbm }, out := e.out, sec := { d.sec with prots := e.sec.prots, scrubs := e.sec.scrubs } }) ∧
    (open_ → i ≠ 0 → q.tdi = .locked → q.init = false → Answers (.startInterfaceRequest i p) s
      ((d.updProt i.val fun q => { q with tdi := .run }).send (.tdisp p i.val true))) ∧
    (open_ → (i = 0 ∨ q.tdi ≠ .locked ∨ q.init = true) → Answers (.startInterfaceRequest i p) s (d.send (.tdisp p i.val false))) ∧
    (open_ → i ≠ 0 → d.variant.hasConf = true → x.isGranted = true → q.tdi ≠ .error → q.departing = false →
      ∃ e : Die, Answers (.stopInterfaceRequest i p) s e ∧ e.prot i.val = { gone .unlocked with stopWaits := true, stopPath := p } ∧ departs e) ∧
    (open_ → i ≠ 0 → d.variant.hasConf = true → (x.isGranted = false ∨ q.tdi = .error) → q.departing = false →
      Answers (.stopInterfaceRequest i p) s ((d.updProt i.val fun q => { q with tdi := .unlocked }).send (.tdisp p i.val true))) ∧
    (open_ → i ≠ 0 → d.variant.hasConf = true → q.departing = true →
      Answers (.stopInterfaceRequest i p) s (d.updProt i.val fun q => { q with tdi := .unlocked, stopWaits := true, stopPath := p })) ∧
    (i ≠ 0 → (q.tdi = .locked ∨ q.tdi = .run) → q.departing = false →
      ∃ e : Die, Answers (.ideStreamInsecure i) s e ∧ e.prot i.val = gone .error ∧ departs e) ∧
    (q.tdi = .unlocked ∨ q.tdi = .error → Answers (.ideStreamInsecure i) s d)

/-- SCRUB_DONE leaves every byte of its range zero and ends the departure it belongs to; a prologue's last piece leaves the
slot's store ranges zero (R150, R263, R486, R504, R506, R579). The pieces of a prologue, and what it counts, are log entry 46
(DEDUCED), the end of a departure log entry 38 (DEDUCED). -/
def Obligations.ScrubsAndProloguesWriteZeros : Prop :=
  (∀ (s : State) (i : Fin 64) (n : Nat) (c : Scrub), Tab.wf {} s.die.ctx.slots = true → Tab.wf {} s.die.sec.prots = true →
    Memory.wf s.die.st.hbm = true →
    let d := s.die
    let q := d.prot i.val
    d.sec.scrubs.findIdx? (fun c => decide (c.slot = i.val ∧ c.initKey = 0)) = some n → d.sec.scrubs[n]? = some c →
    d.ctx.held = [] → (∀ j, (d.slot j).busy ≠ .grant) →
    ∃ e : Die, Answers (.scrubDone i) s e ∧
      (∀ a, Tab.read 0 e.st.hbm a = if c.covers d.poolBase a 1 then 0 else Tab.read 0 d.st.hbm a) ∧
      e.st = { d.st with hbm := e.st.hbm } ∧ e.sec.scrubs = d.sec.scrubs.eraseIdx n ∧
      (c.depart = true → e.prot i.val = { q with
        departing := false, depRelease := false, stopWaits := false, init := false, key0 := 0, key1 := 0, cur := false, epochs := [] }) ∧
      (c.depart = true → q.stopWaits = true → e.out = .tdisp q.stopPath i.val true :: d.out) ∧
      (c.depart = true → q.stopWaits = false → e.out = d.out) ∧
      (c.depart = true → (q.depRelease = true ∨ (d.slot i.val).busy = .unload true) → (e.slot i.val).state = .free) ∧
      (c.depart = true → (d.slot i.val).busy = .unload true → (e.slot i.val).busy = .idle ∧ (e.slot i.val).status = 0) ∧
      (c.depart = false → e.prot i.val = q ∧ e.out = d.out) ∧
      (c.depart = false → c.release = true → (d.slot i.val).busy = .unload true →
        e.slot i.val = { d.slot i.val with state := .free, busy := .idle, status := 0 }) ∧
      (c.depart = false → (c.release = false ∨ (d.slot i.val).busy ≠ .unload true) → e.slot i.val = d.slot i.val) ∧
      (e.sec.scrubs = [] → (∀ j, (e.slot j).state = .free) → (∀ j, (e.prot j).sweeping = false) → e.boot.clean = true) ∧
      (∀ j, j ≠ i.val → e.prot j = d.prot j ∧ e.slot j = d.slot j)) ∧
  (∀ (s : State) (p : Prologue) (rest : List Prologue) (acc : Access), Tab.wf {} s.die.ctx.slots = true →
    Memory.wf s.die.st.ws0 = true → Memory.wf s.die.st.ws1 = true → Memory.wf s.die.st.lb = true →
    let d := s.die
    let x := d.slot p.slot
    let zeroed (sp : Nat) (m m' : Tab Byte) : Prop :=
      ∀ a, Tab.read 0 m' a = if (x.range sp).1 ≤ a ∧ a < (x.range sp).1 + (x.range sp).2 then 0 else Tab.read 0 m a
    let part (sp : Nat) (m m' : Tab Byte) : Prop :=
      let c := x.prologueCycles - p.left
      ∀ a, Tab.read 0 m' a = if (x.range sp).1 + 8192 * c ≤ a ∧ a < (x.range sp).1 + 8192 * c + min 8388608 ((x.range sp).2 - 8192 * c) then 0
        else Tab.read 0 m a
    let cycles (e : Die) (n : Nat) : Prop := e.iss = { d.iss with cyc := d.iss.cyc + n, owed := d.iss.owed - (n : Nat) } ∧
      e.glb = { d.glb with aclkCycles := inc64 d.glb.aclkCycles n }
    let counts (e : Die) (n : Nat) : Prop :=
      let c := x.prologueCycles - p.left
      e.te0 = { d.te0 with vecCycles := inc64 d.te0.vecCycles (min n (ceilDiv (x.range 1).2 8192 - c)) } ∧
      e.te1 = { d.te1 with vecCycles := inc64 d.te1.vecCycles (min n (ceilDiv (x.range 2).2 8192 - c)) } ∧
      e.xfr = { d.xfr with rdBytes := inc64 d.xfr.rdBytes (min (8192 * n) ((x.range 3).2 - 8192 * c)) }
    d.sec.prologues = p :: rest → d.iss.run = none → d.drained = true → d.ctx.cal.pending = none → d.issueRuns = true →
    let copies : Prop := 8192 * (x.prologueCycles - p.left) < (x.range 3).2
    let zeros := [(d.zeroArea, 0x10000)]
    let fetched : Prop := copies → acc = .ok ∧ d.barred zeros [] = false
    (p.place = none → d.placeBundles 1 = none → Answers (.prologuePiece acc) s d) ∧
    (p.place ≠ none ∨ d.placeBundles 1 ≠ none → copies → d.onDead zeros = true → ∃ e : Die, Answers (.prologuePiece acc) s e ∧
      cycles e (min 1024 p.left) ∧ e = { d with iss := e.iss, glb := e.glb }) ∧
    (∀ b, fetched → (p.place = some b ∨ (p.place = none ∧ d.placeBundles 1 = some b)) → 1024 < p.left → ∃ e : Die, Answers (.prologuePiece acc) s e ∧
      cycles e 1024 ∧ counts e 1024 ∧ e.sec = { d.sec with prologues := { p with left := p.left - 1024, place := some b } :: rest } ∧
      part 1 d.st.ws0 e.st.ws0 ∧ part 2 d.st.ws1 e.st.ws1 ∧ part 3 d.st.lb e.st.lb ∧
      e = { d with iss := e.iss, glb := e.glb, te0 := e.te0, te1 := e.te1, xfr := e.xfr, sec := e.sec, st := { d.st with ws0 := e.st.ws0, ws1 := e.st.ws1, lb := e.st.lb } }) ∧
    (fetched → (p.place ≠ none ∨ d.placeBundles 1 ≠ none) → p.left ≤ 1024 → ∃ e : Die, Answers (.prologuePiece acc) s e ∧ cycles e p.left ∧ counts e p.left ∧
      e.sec.prologues = rest ∧ zeroed 1 d.st.ws0 e.st.ws0 ∧ zeroed 2 d.st.ws1 e.st.ws1 ∧ zeroed 3 d.st.lb e.st.lb ∧
      e.st = { d.st with ws0 := e.st.ws0, ws1 := e.st.ws1, lb := e.st.lb } ∧ (∀ j, j ≠ p.slot → e.slot j = d.slot j)))

/-- ROTATE draws a key into the slot CUR does not name, swaps CUR and starts the sweep; each block moves it on; its end
erases the old key (R498, R499, R500, R502, R511, R516, R594, R596). What the sweep's access meets is an operand (log entry
29, DEDUCED); the numbers that a key draws are log entry 99 (DEDUCED). -/
def Obligations.RotationSweepsEveryBlock : Prop :=
  ∀ (s : State) (fn i : Fin 64), Tab.wf {} s.die.sec.prots = true →
    let d := s.die
    let q := d.prot i.val
    let ends (d : Die) (st : BitVec 4) (f : Prot → Prot) : Die := d.updProt i.val fun q =>
      { f q with overrun := false, done := true, pending := false, nfpBusy := false, status := st }
    (Prompt s fn.val → fn ≠ i → Answers (.rotate fn i) s d) ∧
    (Prompt s i.val → d.variant.hasConf = true → d.hostOpen = true →
      (q.pending = true → Answers (.rotate i i) s (d.updProt i.val fun q => { q with overrun := true })) ∧
      (q.pending = false → (q.tdi ≠ .run ∨ q.departing = true) → Answers (.rotate i i) s (ends d 1 id)) ∧
      (q.pending = false → q.tdi = .run → q.departing = false → q.sweeping = true →
        Answers (.rotate i i) s (ends (d.record 69 0x0D (some i.val) 0 q.swept 0 0) 2 id)) ∧
      (q.pending = false → q.tdi = .run → q.departing = false → q.sweeping = false →
        (d.sec.entropyOk = false → Answers (.rotate i i) s (ends d 10 id)) ∧
        (d.sec.entropyOk = true → Answers (.rotate i i) s
          (ends { d with sec := { d.sec.draw 3 with keyGen := d.sec.keyGen + 1 } } 0 fun q =>
            { q with key0 := if q.cur then d.sec.keyGen + 1 else q.key0, key1 := if q.cur then q.key1 else d.sec.keyGen + 1,
                     cur := !q.cur, sweeping := true, pointer := 0, swept := 0,
                     rotateAt := some d.boot.sinceRst })))) ∧
    (q.sweeping = true → q.sweepStuck = false →
      let n := (d.slot i.val).regionBlocks q.swept
      (q.swept < wbits (d.slot i.val).memSize 17 0 → n = 4096) ∧
      (q.swept < (d.slot i.val).regions → d.barred [(d.sweepAddr i.val, 256)] [] = false → q.pointer + 1 < n →
        Answers (.sweepBlockRewrite i .ok) s (d.updProt i.val fun q => { q with pointer := q.pointer + 1 })) ∧
      (q.swept < (d.slot i.val).regions → d.barred [(d.sweepAddr i.val, 256)] [] = false → n ≤ q.pointer + 1 →
        Answers (.sweepBlockRewrite i .ok) s (d.updProt i.val fun q =>
          { q with pointer := 0, swept := q.swept + 1, epochs := Tab.write false q.epochs q.swept q.cur })) ∧
      (∀ w : EccWord, w.uncorr = true → d.barred [(d.sweepAddr i.val, 256)] [] = false → q.swept < (d.slot i.val).regions → i ≠ 0 → (q.tdi = .locked ∨ q.tdi = .run) → q.departing = false →
        ∃ e : Die, Answers (.sweepBlockRewrite i (.ecc [w])) s e ∧ (e.prot i.val).tdi = .error ∧
          (e.prot i.val).departing = true ∧ (e.prot i.val).sweeping = false) ∧
      (q.swept = (d.slot i.val).regions → Answers (.sweepComplete i) s (d.updProt i.val fun q =>
        { q with sweeping := false, rotations := q.rotations + 1, key0 := if q.cur then 0 else q.key0, key1 := if q.cur then q.key1 else 0 }))) ∧
    Answers .entropyHealthTestFail s { d with sec := { d.sec with entropyOk := false } }

/-- NFP_OPEN begins an open; it ends with the first failing step's STATUS and no write, zeros at DST for a bad chunk, or the
plaintext at DST (R507, R508, R509, R510, R511). What an access meets is an operand (log entry 29, DEDUCED); that the package
is read before its lengths are checked is log entry 53 (DESIGN CHOICE). -/
def Obligations.NafinPackagesOpenInOrder : Prop :=
  ∀ (s : State) (i : Fin 64), Tab.wf {} s.die.sec.prots = true → Memory.wf s.die.st.hbm = true →
    let d := s.die
    let q := d.prot i.val
    let x := d.slot i.val
    let ends (st : BitVec 4) : Die := d.updProt i.val fun q => { q with done := true, pending := false, nfpBusy := false, status := st }
    (Prompt s i.val → d.variant.hasConf = true → d.hostOpen = true → q.pending = false →
      (q.departing = true ∨ q.tdi = .locked → Answers (.nfpOpen i i) s (d.updProt i.val fun q =>
        { q with overrun := false, done := true, pending := false, nfpBusy := false, status := 1 })) ∧
      (q.departing = false → q.tdi ≠ .locked → Answers (.nfpOpen i i) s (d.updProt i.val fun q =>
        { q with overrun := false, done := false, pending := true, nfpBusy := true }))) ∧
    (q.nfpBusy = true → q.departing = false → q.tdi ≠ .locked →
      (x.phys q.src q.len.toNat = none → ∀ acc, Answers (.nfpOpenDone i acc) s (ends 3)) ∧
      (∀ a, x.phys q.src q.len.toNat = some a →
        let n := nfpOf (Mem.read d.st.hbm a q.len.toNat)
        (d.scrubbing a q.len.toNat = true → ∀ acc, Answers (.nfpOpenDone i acc) s d) ∧
        (d.scrubbing a q.len.toNat = false → d.onDead [(a, q.len.toNat)] = true → ∀ acc, Answers (.nfpOpenDone i acc) s (ends 10)) ∧
        (d.scrubbing a q.len.toNat = false → d.barred [(a, q.len.toNat)] [] = false →
        (x.phys q.dst n.plain = none ∨ rangesMeet q.src q.len.toNat q.dst n.plain = true ∨ q.len.toNat ≠ n.total →
          Answers (.nfpOpenDone i .ok) s (ends 3)) ∧
        (∀ b, x.phys q.dst n.plain = some b → rangesMeet q.src q.len.toNat q.dst n.plain = false → q.len.toNat = n.total →
          (d.scrubbing b n.plain = true → Answers (.nfpOpenDone i .ok) s d) ∧
          (d.scrubbing b n.plain = false →
          (n.formatBad = true → Answers (.nfpOpenDone i .ok) s (ends 4)) ∧
          (n.formatBad = false → bit (le n.bytes 6 2) 0 = true → q.protected_ = false → Answers (.nfpOpenDone i .ok) s (ends 9)) ∧
          (n.formatBad = false → (bit (le n.bytes 6 2) 0 = true → q.protected_ = true) →
            (sliceOf n.bytes 0x28 48 ≠ q.signerBytes ∨ Config.nfpVerify n.bytes = false) → Answers (.nfpOpenDone i .ok) s (ends 6)) ∧
          let sound : Prop := n.formatBad = false ∧ (bit (le n.bytes 6 2) 0 = true → q.protected_ = true) ∧
            sliceOf n.bytes 0x28 48 = q.signerBytes ∧ Config.nfpVerify n.bytes = true
          (sound → (∀ k, d.mgmt.keys = some k → ∀ m, m < n.members → (n.entry m).take 48 ≠ k.device) →
            Answers (.nfpOpenDone i .ok) s (ends 5)) ∧
          (∀ k m, sound → d.mgmt.keys = some k → m < n.members → (n.entry m).take 48 = k.device →
            (∀ o, o < m → (n.entry o).take 48 ≠ k.device) →
            (n.unwrap k (n.entry m) = none → Answers (.nfpOpenDone i .ok) s (ends 7)) ∧
            (∀ gk, n.unwrap k (n.entry m) = some gk →
              let writes (st : BitVec 4) (plain : List Byte) : Prop := d.barred [] [(b, plain.length)] = false →
                ∃ e : Die, Answers (.nfpOpenDone i .ok) s e ∧ Mem.read e.st.hbm b plain.length = plain ∧
                  (∀ a, a < b ∨ b + plain.length ≤ a → Tab.read 0 e.st.hbm a = Tab.read 0 d.st.hbm a) ∧
                  e = { ends st with st := { d.st with hbm := e.st.hbm } }
              ((∃ c, c < n.chunks ∧ n.openChunk gk c = none) → writes 8 (List.replicate n.plain 0)) ∧
              ((∀ c, c < n.chunks → n.openChunk gk c ≠ none) →
                writes 0 ((List.range n.chunks).flatMap fun c => (n.openChunk gk c).getD [])))))))))

/-- MCTP control is answered on two paths, other types are dropped; presence, seal and link follow their pins; JTAG takes its
instructions (R520, R521, R528, R529, R531, R541, R614, R615, R622, R627). That the host path takes no MCTP control is log
entry 78 (PRESUMED), that a waiting presence command ends with status 2 log entry 67 (DEDUCED), that the link and the dynamic
address gate nothing log entry 81 (DEDUCED), what each group of outputs does log entry 127 (DEDUCED), the SEAL loop log entry
79 (DEDUCED), the instruction in force after a rejected one, the reach of debug and its holding register log entry 80 (DESIGN
CHOICE). -/
def Obligations.ManagementBusesAndPinsAnswer : Prop :=
  ∀ (s : State) (path : Path) (b : Byte) (kind : Frame520) (up hit : Bool) (a : BitVec 7) (pins : W64) (op : W32) (off : BitVec 24) (v : W32) (ad : Nat),
    let d := s.die
    let reply (d : Die) (code : Byte) (data : List Byte) : Die := d.send (.mctp path code data)
    let m := d.mgmt
    let ir (i : DebugInstr) : Die := { d with mgmt := { m with jtagIr := i } }
    let scan : Prop := d.fuses.lifecycle = 1 ∨ d.sec.debugOpen = true ∨ d.glb.service = 3
    (d.answersOn path = true → path ≠ .host →
      Answers (.setEndpointId path b) s
        (reply { d with mgmt := { m with eid := Tab.write 0 m.eid (pathIndex path) b } } 0 [b]) ∧
      Answers (.getEndpointId path) s (reply d 0 [Tab.read 0 m.eid (pathIndex path)]) ∧
      Answers (.getMctpVersionSupport path b) s (reply d 0 [b]) ∧
      Answers (.getMessageTypeSupport path) s (reply d 0 [3, 0, 5, 6]) ∧
      Answers (.getVendorDefinedMessageSupport path b) s (reply d 0 [b]) ∧
      Answers (.unsupportedMctpCommand path b) s (reply d 5 [b])) ∧
    (d.answersOn path = false ∨ path = .host → ∀ c,
      (c = .setEndpointId path b ∨ c = .getEndpointId path ∨ c = .getMctpVersionSupport path b ∨ c = .getMessageTypeSupport path ∨
        c = .getVendorDefinedMessageSupport path b ∨ c = .unsupportedMctpCommand path b) → Answers c s d) ∧
    Answers (.mctpOtherMessageType path b) s d ∧
    Answers (.icmpv6Message kind) s (if d.firmwareAnswers = true ∧ d.fuses.lifecycle ≠ 3 ∧ kind ≠ .other then d.send (.icmp kind) else d) ∧
    Answers .presenceAssert s { d with mgmt := { m with presence := true } } ∧
    (d.fuses.burning = none → Answers .presenceRelease s { d with mgmt := { m with
      presence := false, waiting := m.waiting.map fun x => if needsPresence x.2.2 = true ∧ x.2.1 = 0 then (x.1, 2, x.2.2) else x } }) ∧
    (∀ r sid, d.fuses.burning = some r → m.cmdSid = some sid → m.waiting = [] → Answers .presenceRelease s
      (Die.send { d with fuses := { d.fuses with burning := none }, mgmt := { m with presence := false, cmdSid := none } } (.mgmtStatus sid 2 []))) ∧
    (d.boot.pwrgood = true → d.boot.resetN = true ∨ d.pwr.heldReset = true →
      let l := Config.lfsrStep m.lfsr
      (hit = l.getLsbD 0 → Answers (.sealSample hit) s { d with mgmt := { m with lfsr := l, sealRun := min 32 (m.sealRun + 1), sealMiss := 0 } }) ∧
      (hit ≠ l.getLsbD 0 → Answers (.sealSample hit) s { d with mgmt := { m with
        lfsr := l, sealRun := 0, sealMiss := min 4 (m.sealMiss + 1), sealBroken := m.sealBroken || decide (3 ≤ m.sealMiss) } })) ∧
    (d.boot.pwrgood = false ∨ (d.boot.resetN = false ∧ d.pwr.heldReset = false) → Answers (.sealSample hit) s d) ∧
    Answers (.managementPortLink up) s { d with mgmt := { m with link := up } } ∧
    Answers (.dynamicAddressAssign a) s { d with mgmt := { m with i3cAddr := a } } ∧
    Answers (.debugPortInstruction .bypass) s (ir .bypass) ∧ Answers (.debugPortInstruction .idcode) s (ir .idcode) ∧
    Answers (.debugPortInstruction (.unknown op)) s (ir .bypass) ∧
    (scan → Answers (.debugPortInstruction .samplePreload) s (ir .samplePreload) ∧
      Answers (.debugPortInstruction (.extest pins)) s { d with mgmt := { m with jtagIr := .extest pins, jtagPins := some pins } }) ∧
    (¬ scan → Answers (.debugPortInstruction .samplePreload) s (ir .bypass) ∧ Answers (.debugPortInstruction (.extest pins)) s (ir .bypass)) ∧
    (∀ c, d.sec.debugOpen = false → Answers (.debugPortInstruction (.creholt c)) s (ir .bypass)) ∧
    (d.sec.debugOpen = true →
      let reached : Prop := 0x200000 ≤ off.toNat ∧ off.toNat < 0x700000
      let does (c : DebugOp) (e : Die) : Prop := Answers (.debugPortInstruction (.creholt c)) s e
      let now (c : DebugOp) : Die := ir (.creholt c)
      (let e := now (.readReg off)
       let r := (e.settled off.toNat).regTake 0 off.toNat
       (¬ reached → does (.readReg off) e) ∧ (reached → off.toNat % 4 ≠ 0 → does (.readReg off) (e.send (.tdo [0, 0, 0, 0]))) ∧
       (reached → off.toNat % 4 = 0 → does (.readReg off) (r.1.send (.tdo (leBytes 4 r.2.toNat))))) ∧
      (let e := now (.writeReg off v)
       does (.writeReg off v) (if reached ∧ off.toNat % 4 = 0 then e.wrRegion 0 off.toNat v else e)) ∧
      (Landed d → d.awake = true → d.pwr.tripped = false →
        let shows (c : DebugOp) (x : Byte) : Prop := does c ((now c).send (.tdo [x]))
        shows (.readStore 0 ad) (if ad < 0x4000000 then Tab.read 0 d.st.ws0 ad else 0) ∧
        shows (.readStore 1 ad) (if d.hasTe1 = true ∧ ad < 0x4000000 then Tab.read 0 d.st.ws1 ad else 0) ∧
        shows (.readStore 2 ad) (if ad < 0x800000 then Tab.read 0 d.st.lb ad else 0) ∧
        shows (.readStore 3 ad) (if ad < 0x400000 then Tab.read 0 d.st.instr ad else 0) ∧
        shows (.readStore 4 ad) (if ad < 0x100000 then Tab.read 0 d.st.xprog ad else 0) ∧
        (let e := now (.writeStore 1 ad b)
         does (.writeStore 1 ad b) (if d.hasTe1 = true ∧ ad < 0x4000000 then
           { e.readDue e.iss.cyc with st := { e.st with ws1 := Mem.write e.st.ws1 ad [b] } } else e)) ∧
        (let e := now (.writeStore 3 ad b)
         does (.writeStore 3 ad b) (if ad < 0x400000 then { e with st := { e.st with instr := Tab.write 0 e.st.instr ad b } } else e)))) ∧
    (d.boot.pwrgood = false → ∀ g, d.pin g = .highZ)

/-- SPDM requests are answered in negotiated order; sessions open, update and end; measurements give the blocks asked for
(R517, R518, R520, R522, R523, R524, R532, R533, R538). Error codes and the order of the first three requests are the model's
(log entry 40). HYBRID_SIG on every path is log entry 78 (PRESUMED), what a key exchange draws log entry 99 (DEDUCED), the
certificates of the slots log entry 101 (DEDUCED), the bytes of session keys log entry 102 (DEDUCED), the check of a chain
log entry 125 (DEDUCED), the order of the nonces log entry 126 (DEDUCED). -/
def Obligations.SpdmRequestsFollowTheirOrder : Prop :=
  ∀ (s : State) (p : Path) (slot h : Byte) (off len sid z : Nat) (n : BitVec 256) (on : Option (BitVec 256)) (pub : BitVec 768) (ct : BitVec 12544)
    (flags : W32) (ok now own : Bool) (last : Option LargeReq) (chain : List (BitVec 384)) (data : List Byte) (q : BitVec 16),
    let d := s.die
    let m := d.mgmt
    let i := pathIndex p
    let at_ (k : Nat) : Die := { d with mgmt := { m with vca := Tab.write 0 m.vca (pathIndex p) k } }
    let tells (d : Die) (code : Byte) (b : List Byte) : Die := d.send (.spdm p code b)
    let err (code : Byte) : Die := d.send (.spdmError p code)
    let sess (l : List Session) : Die := { d with mgmt := { m with sessions := l } }
    let upd (f : Session → Session) : List Session := m.sessions.map fun x => if x.id = sid then { f x with lastMsg := d.refNs } else x
    let nonce : List Byte := leBytes 32 (Config.dieNonce (m.transcripts + 1)).toNat
    let signed (asked : List Byte) : Die := { d with mgmt := { m with
      transcripts := m.transcripts + 1, lastSigned := Tab.write 0 m.lastSigned (pathIndex p) (m.transcripts + 1),
      nonces := Tab.write [] m.nonces (pathIndex p) (asked ++ nonce) } }
    let ofSession (c : Instr) : Prop :=
      c = .keyExchange p slot pub ∨ c = .finish p sid ok ∨ c = .getEncapsulatedRequest p sid ∨ c = .deliverEncapsulatedResponse p sid chain ok now own ∨
      c = .heartbeat p sid ∨ c = .keyUpdate p sid ∨ c = .endSession p sid ∨ c = .kemMix p sid ct
    let chunked (c : Instr) : Prop := c = .chunkSend p h q last data ∨ c = .chunkGet p h q
    let later (c : Instr) : Prop :=
      c = .getDigests p ∨ c = .getCertificate p slot off len ∨ c = .challenge p slot n ∨ c = .getMeasurements p slot on ∨ ofSession c ∨
      chunked c ∨ c = .hybridSig p ∨ c = .ideKm p sid
    let life : Prop := d.fuses.lifecycle = 3
    d.answersOn p = true →
    Answers (.getVersion p) s (tells (at_ 1) 0x84 [0x12, 0x13]) ∧
    Answers (.getCapabilities p flags z) s (if d.vcaOf p = 0 then err 4 else
      tells { d with mgmt := { m with xferSize := Tab.write 0 m.xferSize i z, vca := Tab.write 0 m.vca i 2 } } 0xE1 (leBytes 4 spdmFlags)) ∧
    (¬ life → Answers (.negotiateAlgorithms p ok) s
      (if d.vcaOf p < 2 then err 4 else if ok then tells (at_ 3) 0xE3 [] else err 1)) ∧
    Answers (.unsupportedSpdmRequest p slot) s (err 7) ∧
    (∀ c, later c → life → Answers c s (err 7)) ∧
    (∀ c, later c → ¬ life → d.vcaOf p < 3 → Answers c s (err 4)) ∧
    (∀ c, ofSession c ∨ chunked c → ¬ life → 3 ≤ d.vcaOf p → p = .i3c → Answers c s (err 7)) ∧
    (¬ life → 3 ≤ d.vcaOf p →
      (∀ (e : Die) code b, (Tab.read 0 e.mgmt.xferSize i = 0 ∨ b.length + 4 ≤ Tab.read 0 e.mgmt.xferSize i → e.spdmLong p code b = tells e code b) ∧
        (Tab.read 0 e.mgmt.xferSize i ≠ 0 → Tab.read 0 e.mgmt.xferSize i < b.length + 4 → e.spdmLong p code b =
          (let k := (Tab.read 0 e.mgmt.largeId i + 1) % 256
           tells { e with mgmt := { e.mgmt with largeId := Tab.write 0 e.mgmt.largeId i k, large := Tab.write [] e.mgmt.large i (code :: b) } }
             0x7F [0x0F, BitVec.ofNat 8 k]))) ∧
      Answers (.getDigests p) s (d.spdmLong p 0x81 ([BitVec.ofNat 8 ((if m.certsOk then 5 else 0) + if m.certsPqOk then 10 else 0)] ++
        ((List.range 4).filter fun k => if k % 2 = 0 then m.certsOk else m.certsPqOk).flatMap fun k => leBytes 48 (Config.sha384 (d.chain k)).toNat)) ∧
      Answers (.getCertificate p slot off len) s
        (let b := ((d.chain slot.toNat).drop off).take len
         if slot.toNat < 4 ∧ (if slot.toNat % 2 = 0 then m.certsOk else m.certsPqOk) = true then
           d.spdmLong p 0x82 ([slot] ++ leBytes 2 b.length ++ leBytes 2 ((d.chain slot.toNat).length - off - b.length) ++ b)
         else err 1) ∧
      Answers (.challenge p slot n) s (if slot = 0 then (signed (leBytes 32 n.toNat)).spdmLong p 0x83 (nonce ++ (signed (leBytes 32 n.toNat)).aliasSig p) else err 1) ∧
      (∀ k : Fin 8, Answers (.getMeasurements p (BitVec.ofNat 8 (k.val + 1)) none) s (d.spdmLong p 0xE0 (d.measureBytes (k.val + 1)))) ∧
      (let e := signed (leBytes 32 n.toNat)
       Answers (.getMeasurements p 0xFF (some n)) s
         (e.spdmLong p 0xE0 (((List.range 8).flatMap fun k => d.measureBytes (k + 1)) ++ nonce ++ e.aliasSig p)) ∧
       ∀ k : Fin 8, Answers (.getMeasurements p (BitVec.ofNat 8 (k.val + 1)) (some n)) s
         (e.spdmLong p 0xE0 (d.measureBytes (k.val + 1) ++ nonce ++ e.aliasSig p))) ∧
      Answers (.hybridSig p) s
        (if Tab.read 0 m.lastSigned (pathIndex p) = 0 then err 4 else d.spdmLong p 0xFE (d.aliasSigPq p)) ∧
      Answers (.ideKm p sid) s (if p = .i3c then err 7 else d.send (.ideKm sid))) ∧
    (¬ life → 3 ≤ d.vcaOf p → p ≠ .i3c →
      (let k := 256 * i + h.toNat
       let gathered (b : List Byte) : Die := tells { d with mgmt := { m with chunks := Tab.write [] m.chunks k b } } 0x05 ([h] ++ leBytes 2 q.toNat)
       (last = none → Answers (.chunkSend p h q last data) s (gathered ((if q = 0 then [] else Tab.read [] m.chunks k) ++ data))) ∧
       (∀ r, last = some r → Answers (.chunkSend p h q last data) s ((gathered []).largeReq p r))) ∧
      (let b := ((Tab.read [] m.large i).drop ((Tab.read 0 m.xferSize i - 16) * q.toNat)).take (Tab.read 0 m.xferSize i - 16)
       Answers (.chunkGet p h q) s
         (if Tab.read 0 m.largeId i = h.toNat ∧ b ≠ [] then tells d 0x06 ([h] ++ leBytes 2 q.toNat ++ b) else err 1)) ∧
      (slot ≠ 0 → Answers (.keyExchange p slot pub) s (err 1)) ∧
      (let l := (m.sessions.filter fun x => decide (x.path = p)).length
       (sessionLimit p ≤ l → Answers (.keyExchange p 0 pub) s (err 0x0A)) ∧
       (l < sessionLimit p → d.sec.entropyOk = false → Answers (.keyExchange p 0 pub) s (err 5)) ∧
       (l < sessionLimit p → d.sec.entropyOk = true →
         let x := exchangeScalar (d.sec.keyGen + 1)
         let master := bytesOf 48 (Config.spdmMaster x (leBytes 96 pub.toNat))
         let e : Die := { d with
           sec := { d.sec.draw 3 with keyGen := d.sec.keyGen + 1 },
           mgmt := { (signed (leBytes 96 pub.toNat)).mgmt with
             nextSid := m.nextSid + 1
             sessions := m.sessions ++ [{ id := m.nextSid, path := p, master := master, keys := updatedKeys master, lastMsg := d.refNs }] } }
         Answers (.keyExchange p 0 pub) s
           (e.spdmLong p 0xE4 (leBytes 2 m.nextSid ++ (bytesOf 97 (Config.p384Point x)).drop 1 ++ e.aliasSig p)))) ∧
      (d.session p sid = none → ∀ c, ofSession c → (∀ sl k, c ≠ .keyExchange p sl k) →
        (p = .mgmtPort ∨ c ≠ .getEncapsulatedRequest p sid) → Answers c s (err 1)) ∧
      (∀ x, d.session p sid = some x → x.open_ = false →
        Answers (.finish p sid true) s (tells (sess (upd fun x => { x with open_ := true })) 0xE5 []) ∧
        Answers (.finish p sid false) s ((sess (m.sessions.filter fun x => decide (x.id ≠ sid))).send (.spdmError p 6))) ∧
      (∀ x, d.session p sid = some x → x.open_ = true →
        Answers (.heartbeat p sid) s (tells (sess (upd id)) 0xE8 []) ∧
        Answers (.keyUpdate p sid) s (tells (sess (upd fun x => { x with keyEpoch := x.keyEpoch + 1, keys := updatedKeys x.keys })) 0xE9 []) ∧
        (m.keys = none → Answers (.kemMix p sid ct) s ((sess (upd id)).send (.spdmError p 7))) ∧
        (∀ k, m.keys = some k → Answers (.kemMix p sid ct) s (tells (sess (upd fun x => { x with
          kemMixed := true, keyEpoch := x.keyEpoch + 1,
          keys := mixedKeys x.master (bytesOf 32 (Config.mlkemDecaps k.aliasKem (leBytes 1568 ct.toNat))) })) 0xFE [])) ∧
        Answers (.endSession p sid) s (tells (sess (m.sessions.filter fun x => decide (x.id ≠ sid))) 0xEC [])) ∧
      (∀ x, d.session p sid = some x → p = .mgmtPort →
        Answers (.getEncapsulatedRequest p sid) s (tells d 0xEA []) ∧
        (ok = true → 1 ≤ chain.length → chain.length ≤ 4 → (now = true ∨ d.time.valid = false) →
          Answers (.deliverEncapsulatedResponse p sid chain ok now own) s (tells (sess (m.sessions.map fun x => if x.id = sid then
            { x with mutualAuth := true, selfSigned := own, rootDigest := chain.getLast?.getD 0 } else x)) 0xEB []))))

/-- A command from a session that may not give it is denied; a presence command needs presence and an intact seal; each then
has its effect (R464, R471, R477, R499, R524, R525, R526, R528, R531, R570, R584, R588). The checks of a configuration are
log entry 64 (DEDUCED), the checks at receipt and their order log entry 67 (DEDUCED), the forms of SET_JOB_KEY log entry 68
(DESIGN CHOICE), the order of READ_FAULTS log entry 69 (DESIGN CHOICE), what a key draws and a tie of two rotations log entry
99 (DEDUCED), the rows of a burn log entry 124 (DESIGN CHOICE), what a slot holds while and after it is staged log entry 128
(DEDUCED), a command whose event is not due log entry 14 (DEDUCED). -/
def Obligations.ManagementCommandsRunOneAtATime : Prop :=
  ∀ (s : State) (sid : Nat), s.die.firmwareAnswers = true → s.die.fuses.lifecycle ≠ 3 → Tab.wf {} s.die.fab.jobs = true →
    Tab.wf {} s.die.sec.prots = true → Tab.wf {} s.die.fuses.rows = true →
    let b := s.die
    let d := b.updSession sid fun x => { x with lastMsg := b.refNs }
    let reply (d : Die) (st : Byte) (b : List Byte) : Die := d.send (.mgmtStatus sid st b)
    let runs (c : Instr) (m : MgmtCmd) : Prop :=
      (∃ a, c = .setFabAddr sid a ∧ m = .setFabAddr a) ∨ (∃ i p k, c = .setRoute sid i p k ∧ m = .setRoute i p k) ∨
      (∃ i w, c = .setChannel sid i w ∧ m = .setChannel i w) ∨ (∃ j e o, c = .setJobKey sid j e o ∧ m = .setJobKey j e o) ∨
      (∃ p e t, c = .setPort sid p e t ∧ m = .setPort p e t) ∨ (∃ i : Fin 64, c = .rotateSlot sid i ∧ m = .rotateSlot i.val) ∨
      (∃ i, c = .stageFirmware sid i ∧ m = .stageFirmware i) ∨ (∃ b o f, c = .setNwtPackage sid b o f ∧ m = .setNwtPackage b o f) ∨
      (∃ b o, c = .setBoardConfig sid b o ∧ m = .setBoardConfig b o) ∨ (c = .readFaults sid ∧ m = .readFaults) ∨
      (∃ l r v, c = .burnFuse sid l r v ∧ m = .burnFuse l r v) ∨ (c = .unlockDebug sid ∧ m = .unlockDebug) ∨
      (∃ o, c = .rollbackFirmware sid o ∧ m = .rollbackFirmware o) ∨ (c = .eraseKeys sid ∧ m = .eraseKeys)
    let sealed : Prop := d.mgmt.presence = true ∧ 32 ≤ d.mgmt.sealRun ∧ d.mgmt.sealBroken = false
    let may (m : MgmtCmd) : Prop := d.mgmt.cmdSid = none ∧ b.mgmtAllowed sid m = true ∧
      (needsPresence m = true → sealed ∧ (d.fuses.lifecycle = 2 ∨ (d.fuses.lifecycle = 1 ∧ isBurnFuse m = true)))
    let held (d : Die) : Die := { d with mgmt := { d.mgmt with cmdSid := some sid } }
    (∀ c m, runs c m → d.mgmt.cmdSid.isSome = true → Answers c s
      { d with mgmt := { d.mgmt with waiting := d.mgmt.waiting ++ [(sid, b.mgmtCheck sid m, m)] } }) ∧
    (∀ c m, runs c m → d.mgmt.cmdSid = none → b.mgmtAllowed sid m = false → Answers c s (reply d 1 [])) ∧
    (∀ c m, runs c m → d.mgmt.cmdSid = none → b.mgmtAllowed sid m = true → needsPresence m = true → ¬ sealed → Answers c s (reply d 2 [])) ∧
    (∀ c m, runs c m → d.mgmt.cmdSid = none → b.mgmtAllowed sid m = true → needsPresence m = true → sealed →
      d.fuses.lifecycle ≠ 2 → (d.fuses.lifecycle ≠ 1 ∨ isBurnFuse m = false) → Answers c s (reply d 3 [])) ∧
    (∀ a, may (.setFabAddr a) → Answers (.setFabAddr sid a) s (reply { d with fab := { d.fab with addr := a } } 0 [])) ∧
    (∀ i pfx ctl, may (.setRoute i pfx ctl) → i < 4096 → wbits ctl 13 8 ≤ 32 → (wbits ctl 3 0 < 8 ∨ wbits ctl 3 0 = 14) →
      Answers (.setRoute sid i pfx ctl) s
        (reply { d with fab := { d.fab with routes := Tab.write {} d.fab.routes i { pfx := pfx, ctl := ctl &&& 0x80003F0F } } } 0 [])) ∧
    (∀ i w, may (.setChannel i w) → i < 4096 → (nth 0 w 0).getLsbD 31 = false →
      Answers (.setChannel sid i w) s (reply { d with fab := { d.fab with channels := Tab.write {} d.fab.channels i {} } } 0 [])) ∧
    (∀ i w, may (.setChannel i w) → i < 4096 → (nth 0 w 0).getLsbD 31 = true →
      let c : Channel := { w := channelWords w }
      (d.slot c.slotOf).state ≠ .free → c.isRecv = true → c.isSend = false → d.windowGranted c = true →
      Answers (.setChannel sid i w) s (reply { d with fab := { d.fab with channels := Tab.write {} d.fab.channels i c } } 0 [])) ∧
    (∀ j e k, may (.setJobKey j e (.install k)) → ((d.job j).held = true ∨ (d.fab.jobs.filter fun x => x.2.held).length < 256) →
      ∃ t : Die, Answers (.setJobKey sid j e (.install k)) s (reply t 0 []) ∧
        t.job j = (let x := { d.job j with cur := if (d.job j).held then (d.job j).cur else e }
          if e then { x with key1 := some k, cseq1 := 0 } else { x with key0 := some k, cseq0 := 0 }) ∧
        (∀ j', j' ≠ j → t.job j' = d.job j') ∧ t = { d with fab := { d.fab with jobs := t.fab.jobs, channels := t.fab.channels } }) ∧
    (∀ j e, may (.setJobKey j e .useSlot) →
      ((if e then (d.job j).key1 else (d.job j).key0).isSome = true → ∃ t : Die, Answers (.setJobKey sid j e .useSlot) s (reply t 0 []) ∧
        t.job j = { d.job j with cur := e } ∧ (∀ j', j' ≠ j → t.job j' = d.job j') ∧ t = { d with fab := { d.fab with jobs := t.fab.jobs } }) ∧
      ((if e then (d.job j).key1 else (d.job j).key0).isSome = false → Answers (.setJobKey sid j e .useSlot) s (reply d 3 []))) ∧
    (∀ j e, may (.setJobKey j e .clear) → ∃ t : Die, Answers (.setJobKey sid j e .clear) s (reply t 0 []) ∧
      (if e then (t.job j).key1 = none else (t.job j).key0 = none) ∧ t = { d with fab := { d.fab with jobs := t.fab.jobs } }) ∧
    (∀ p t, may (.setPort p true t) → d.portPresent p = true → t.toNat ≤ 0xFFFF → (d.tport p).enable = false →
      Answers (.setPort sid p true t) s (reply ((Die.updTport { d with fab := { d.fab with timeout := t } } p fun x =>
        { x with enable := true, state := if d.pwr.tripped then .disabled else .training, lastCause := 0 })) 0 [])) ∧
    (∀ i : Fin 64, may (.rotateSlot i.val) → (d.prot i.val).protected_ = true → (d.prot i.val).sweeping = false → d.sec.entropyOk = true →
      Answers (.rotateSlot sid i) s (reply (Die.updProt { d with sec := { d.sec.draw 3 with keyGen := d.sec.keyGen + 1 } } i.val fun q =>
        { q with key0 := if q.cur then d.sec.keyGen + 1 else q.key0, key1 := if q.cur then q.key1 else d.sec.keyGen + 1,
                 cur := !q.cur, sweeping := true, pointer := 0, swept := 0, rotateAt := none }) 0 [])) ∧
    (∀ i : Fin 64, may (.rotateSlot i.val) → (d.prot i.val).protected_ = true → (d.prot i.val).sweeping = true →
      let busy (mgmt : Nat) : Die := d.record 69 0x0D (some i.val) mgmt (d.prot i.val).swept 0 0
      ((d.prot i.val).rotateAt ≠ some d.boot.sinceRst → Answers (.rotateSlot sid i) s (reply (busy 1) 5 [])) ∧
      ((d.prot i.val).rotateAt = some d.boot.sinceRst → Answers (.rotateSlot sid i) s
        (reply ((busy 0).updProt i.val fun q => { q with rotateAt := none, status := 2 }) 0 []))) ∧
    (∀ k ok f, may (.setNwtPackage k ok f) → (d.mgNwt k ok f).2 = 4 → Answers (.setNwtPackage sid k ok f) s (reply d 4 [])) ∧
    (∀ k ok f, may (.setNwtPackage k ok f) → (d.mgNwt k ok f).2 ≠ 4 → f = false → Answers (.setNwtPackage sid k ok f) s (reply d 6 [])) ∧
    (∀ k ok, may (.setNwtPackage k ok true) → (d.mgNwt k ok true).2 = 0 → ∃ e : Die, Answers (.setNwtPackage sid k ok true) s (reply e 0 []) ∧
      e.boot.flash.nwtPkg = some k ∧ e.nwt.pkg = 1 ∧ e.nwt.param = (k.drop 0x40).take 15936 ∧ e.nwt.warmup = 8 ∧
      e = { d with boot := { d.boot with flash := e.boot.flash }, nwt := e.nwt }) ∧
    (∀ c ok, may (.setBoardConfig c ok) → (c.sigOk = false ∨ c.root ≠ d.fuses.root) → Answers (.setBoardConfig sid c ok) s (reply d 4 [])) ∧
    (∀ c, may (.setBoardConfig c true) → c.sigOk = true → c.root = d.fuses.root → Answers (.setBoardConfig sid c true) s
      (reply { d with boot := { d.boot with flash := if d.boot.conf = none ∨ d.boot.flash.conf0 ≠ d.boot.conf
        then { d.boot.flash with conf0 := some c } else { d.boot.flash with conf1 := some c } } } 0 [])) ∧
    (may .readFaults → Answers (.readFaults sid) s (reply d 0 b.faults)) ∧
    (∀ m, may (.stageFirmware m) → d.stageBarred = true → Answers (.stageFirmware sid m) s (reply d 3 [])) ∧
    (∀ m, may (.stageFirmware m) → d.stageBarred = false → Answers (.stageFirmware sid m) s (held { d with boot := { d.boot with
      staging := some m,
      flash := if d.boot.runSlotB then { d.boot.flash with slotA := none } else { d.boot.flash with slotB := none } } })) ∧
    (∀ row v, may (.burnFuse false row v) → d.fuses.rootRow ≠ 0 → d.fuses.rootRow < row → row ≤ 4 →
      ∃ f : Fuses, Answers (.burnFuse sid false row v) s (held { d with fuses := f }) ∧
        f = { d.fuses with burning := some (1, row, v), rows := f.rows } ∧
        ∀ n, Tab.read {} f.rows n = if 8 * row ≤ n ∧ n < 8 * row + 6 then
          { Tab.read {} d.fuses.rows n with data := (Tab.read {} d.fuses.rows n).data ||| v.extractLsb' (64 * (n - 8 * row)) 64 }
          else Tab.read {} d.fuses.rows n) ∧
    (may .eraseKeys → Answers (.eraseKeys sid) s
      (held { d with fuses := { d.fuses with
        burning := some (3, 0, 0), rows := Tab.upd {} d.fuses.rows 3 fun x => { x with data := x.data ||| 3 } } })) ∧
    (may .unlockDebug → ∃ e : Die, Answers (.unlockDebug sid) s (reply e 0 []) ∧ e.sec.debugOpen = true ∧
      e.mgmt.unlocks = d.mgmt.unlocks + 1 ∧ (∀ i : Fin 64, i ≠ 0 → (e.prot i.val).tdi ≠ .locked ∧ (e.prot i.val).tdi ≠ .run) ∧ e.st = d.st) ∧
    (may (.rollbackFirmware false) → Answers (.rollbackFirmware sid false) s (reply d 6 [])) ∧
    (may (.rollbackFirmware true) → ∃ e : Die, Answers (.rollbackFirmware sid true) s (reply e 0 []) ∧
      e.mgmt.presCmds = satInc32 d.mgmt.presCmds 1 ∧
      (d.boot.flash.ctl.seq ≠ 0xFFFFFFFF → e.boot.flash.ctl = { d.boot.flash.ctl with rollback := true, seq := d.boot.flash.ctl.seq + 1 }) ∧
      e = { d with mgmt := { d.mgmt with presCmds := e.mgmt.presCmds }, boot := { d.boot with flash := { d.boot.flash with
        ctl0 := e.boot.flash.ctl0, ctl1 := e.boot.flash.ctl1 } } }) ∧
    (∀ m sid', b.boot.staging = some m → b.mgmt.cmdSid = some sid' → b.mgmt.waiting = [] →
      (imageWhole m = true → b.boot.flash.ctl.seq ≠ 0xFFFFFFFF → ∃ e : Die, Answers (.updateStaged true) s e ∧ e.updateStaged = true ∧ e.stagedTo = (!b.boot.runSlotB) ∧
        e.stagedDigest = imageDigest m ∧ e.boot.flash.slot (!b.boot.runSlotB) = some m ∧
        (e.boot.flash.ctl = { b.boot.flash.ctl.setState (!b.boot.runSlotB) 1 with
          preferred := !b.boot.runSlotB, tries := 3, seq := b.boot.flash.ctl.seq + 1 }) ∧ e.boot.staging = none ∧ e.mgmt.cmdSid = none ∧ e.out = .mgmtStatus sid' 0 [] :: b.out) ∧
      (imageWhole m = false → ∃ e : Die, Answers (.updateStaged true) s e ∧ e.boot.flash.slot (!b.boot.runSlotB) = some m ∧
        e.boot.flash.ctl = b.boot.flash.ctl ∧ e.boot.staging = none ∧ e.mgmt.cmdSid = none ∧ e.out = .mgmtStatus sid' 6 [] :: b.out) ∧
      Answers (.updateStaged false) s (Die.send { b with
        boot := { b.boot with staging := none }, mgmt := { b.mgmt with cmdSid := none } } (.mgmtStatus sid' 6 []))) ∧
    (∀ row v sid', b.fuses.burning = some (1, row, v) → b.mgmt.cmdSid = some sid' → b.mgmt.waiting = [] →
      let whole : Prop := ∀ i, i < 6 → (Tab.read {} b.fuses.rows (8 * row + i)).data = v.extractLsb' (64 * i) 64
      let failed : Die := Die.send { b with
        fuses := { b.fuses with burning := none }, mgmt := { b.mgmt with cmdSid := none } } (.mgmtStatus sid' 6 [])
      (whole → ∃ f : Fuses, Answers (.fuseRowCommit true) s (Die.send { b with
          fuses := f, mgmt := { b.mgmt with cmdSid := none, presCmds := satInc32 b.mgmt.presCmds 1 } } (.mgmtStatus sid' 0 [])) ∧
        f = { b.fuses with burning := none, rows := f.rows } ∧
        ∀ n, Tab.read {} f.rows n = if 8 * row ≤ n ∧ n < 8 * row + 6 then { Tab.read {} b.fuses.rows n with commit := true }
          else Tab.read {} b.fuses.rows n) ∧
      (¬ whole → Answers (.fuseRowCommit true) s failed) ∧
      Answers (.fuseRowCommit false) s failed)

/-- An increment past 0xFF_FFFF leaves the tally there and sets its bit of XFR_TALLY_SAT; no fault is raised; no increment
lowers a tally (R49). -/
def Obligations.TalliesHoldAtTheTop : Prop :=
  ∀ (d : Die) (p n : Nat), p < 256 → Tab.wf {} d.iss.tallies = true →
    let e := d.tallyAdd p n
    (0xFFFFFF < (d.tally p).value.toNat + n → (e.tally p).value = 0xFFFFFF ∧ e.iss.sat.getLsbD p = true) ∧
    ((d.tally p).value.toNat + n ≤ 0xFFFFFF → (e.tally p).value.toNat = (d.tally p).value.toNat + n ∧ e.iss.sat = d.iss.sat) ∧
    (∀ q, q ≠ p → e.iss.sat.getLsbD q = d.iss.sat.getLsbD q ∧ e.tally q = d.tally q) ∧
    (e.tally p).err = (d.tally p).err ∧ (d.tally p).value.toNat ≤ (e.tally p).value.toNat ∧
    e = { d with iss := { d.iss with tallies := e.iss.tallies, sat := e.iss.sat } }

/-- Levels follow REQ and the floor; entry, window and state come at their AONCLK cycles; wakes are held; an exit ends active
with messages processed (R281, R544, R547, R548, R551, R552, R553, R554, R555, R556, R557, R559). That a trip keeps the
stores and ends an entry is log entry 134 (DESIGN CHOICE). The tie of sensors and the level before full service are log entry
58 (DEDUCED), when a wake is latched log entry 59 (DEDUCED), messages to a die that sleeps log entry 60 (DEDUCED), the steps
of an entry and an exit log entry 61 (DEDUCED), VCORE_EN and VID as levels log entry 111 (DEDUCED), an event that is not due
log entry 14 (DEDUCED). -/
def Obligations.LevelsVotesSleepAndWake : Prop :=
  ∀ (s : State) (fn : Fin 64) (val : W32) (temps : List Int),
    let d := s.die
    let with_ (p : Pwr) : Die := { d with pwr := p }
    (Prompt s fn.val → d.hostOpen = true → fn ≠ 0 → Answers (.voteSet fn val) s d ∧ Answers (.voteClr fn val) s d ∧ Answers (.plevelWrite fn val) s d) ∧
    (Prompt s 0 → d.hostOpen = true → Answers (.voteSet 0 val) s (with_ { d.pwr with hostVotes := d.pwr.hostVotes ||| val.setWidth 8 }) ∧
      Answers (.voteClr 0 val) s (with_ { d.pwr with hostVotes := d.pwr.hostVotes &&& ~~~(val.setWidth 8) })) ∧
    (Prompt s 0 → d.hostOpen = true → d.boot.full = true → d.boot.resetN = true → d.pwr.tripped = false → d.pwr.changing = none →
      let l := max (min 5 (val.toNat % 8)) d.pwr.floor.toNat
      let p : Pwr := { d.pwr with req := val.setWidth 3 }
      (l = d.pwr.cur.toNat → Answers (.plevelWrite 0 val) s (with_ p)) ∧
      (l < d.pwr.cur.toNat → Answers (.plevelWrite 0 val) s
        ((with_ { p with changing := some (BitVec.ofNat 3 l), chgTicks := 0, vid := some (BitVec.ofNat 3 l) }).send (.vid (BitVec.ofNat 3 l)))) ∧
      (d.pwr.cur.toNat < l → Answers (.plevelWrite 0 val) s (with_ { p with changing := some (BitVec.ofNat 3 l), chgTicks := 0 }))) ∧
    (∀ l, d.pwr.changing = some l →
      let wait := (if l.toNat < d.pwr.cur.toNat then 1000 else 0) + 100
      let p : Pwr := { d.pwr with changing := none, cur := l }
      (d.pwr.chgTicks < wait → Answers .levelTransitionComplete s d) ∧
      (wait ≤ d.pwr.chgTicks → l.toNat = max (min 5 d.pwr.req.toNat) d.pwr.floor.toNat → d.boot.full = true →
        Answers .levelTransitionComplete s
          (if d.pwr.cur.toNat < l.toNat then (with_ { p with vid := some l }).send (.vid l) else with_ p))) ∧
    (Answers (.thermalSample []) s d) ∧
    (∀ t ∈ temps, (∀ u ∈ temps, u ≤ t) → ∃ e : Die, Answers (.thermalSample temps) s e ∧ e.pwr.temp = t ∧
      (temps.findIdx? (fun u => decide (u = t)) = some e.pwr.sensor.toNat ∨ 16 < temps.length) ∧
      (let now := d.time.aon.toNat
       let hotter : Prop := e.pwr.floor = d.pwr.floor + 1 ∧ e.pwr.throttles = satInc32 d.pwr.throttles 1
       let cooler : Prop := e.pwr.floor = d.pwr.floor - 1 ∧ e.pwr.throttles = satInc32 d.pwr.throttles 1
       let same : Prop := e.pwr.floor = d.pwr.floor ∧ e.pwr.throttles = d.pwr.throttles
       (100 ≤ t → e.pwr.coolSince = none ∧
         (d.pwr.hotSince = none → e.pwr.hotSince = some now ∧ (d.pwr.floor.toNat < 5 → hotter) ∧ (5 ≤ d.pwr.floor.toNat → same)) ∧
         (∀ h, d.pwr.hotSince = some h → (now < h + 38400 → e.pwr.hotSince = some h ∧ same) ∧
           (h + 38400 ≤ now → e.pwr.hotSince = some (h + 38400) ∧ (d.pwr.floor.toNat < 5 → hotter) ∧ (5 ≤ d.pwr.floor.toNat → same)))) ∧
       (95 ≤ t → t < 100 → e.pwr.hotSince = none ∧ e.pwr.coolSince = none ∧ same) ∧
       (t < 95 → e.pwr.hotSince = none ∧
         (d.pwr.coolSince = none → e.pwr.coolSince = some now ∧ same) ∧
         (∀ c, d.pwr.coolSince = some c → (now < c + 384000 → e.pwr.coolSince = some c ∧ same) ∧
           (c + 384000 ≤ now → e.pwr.coolSince = some (c + 384000) ∧ (0 < d.pwr.floor.toNat → cooler) ∧ (d.pwr.floor = 0 → same))))) ∧
      (110 ≤ t → d.pwr.tripped = false → e.pwr.tripped = true ∧ e.glb.service = 3 ∧ e.hbm.selfRef = true ∧ e.st = d.st ∧
        e.pwr.entry = none ∧ e.fabPowered = false ∧ (∀ p, (e.tport p).state = .disabled) ∧ e.kvp.queue = []) ∧
      (t < 110 → e.pwr.tripped = d.pwr.tripped ∧ e.glb = d.glb ∧ e.st = d.st ∧ e.iss = d.iss)) ∧
    (d.entryDueNow = true → Answers .sleepEntryStart s ((with_ { d.pwr with
      entry := some (Sleep.ofCode d.permitted, false), window := d.time.aon, seqStart := d.time.aon.toNat, seqDone := 0,
      truncated := false }).send (.dieState (Sleep.ofCode d.permitted) true d.fabPowered))) ∧
    (d.entryDueNow = false → Answers .sleepEntryStart s d) ∧
    (∀ t, d.pwr.entry = some (t, false) → d.pwr.seqStart + 12 ≤ d.time.aon.toNat →
      (t = .dusk → Answers .entryWindowClose s (with_ { d.pwr with entry := some (t, true) })) ∧
      ((t = .night ∨ t = .midnight) → (∀ m, (d.stream m).enabled = false) → d.nwtSideband = d.nwt.sideband →
        Answers .entryWindowClose s (with_ { d.pwr with entry := some (t, true) }))) ∧
    (d.pwr.entry = some (.dusk, true) → d.pwr.seqStart + 16 ≤ d.time.aon.toNat → ∃ e : Die, Answers .sleepStateReached s e ∧
      e.pwr = { d.pwr with
        state := .dusk, entry := none, entDusk := satInc32 d.pwr.entDusk 1, seqDone := max d.pwr.seqDone (d.time.aon.toNat - d.pwr.seqStart) } ∧
      e.out = .dieState .dusk false true :: d.out ∧ e = { d with pwr := e.pwr, out := e.out, nwt := e.nwt }) ∧
    (∀ t n, ((t = Sleep.night ∧ n = 128) ∨ (t = Sleep.midnight ∧ n = 192)) → d.pwr.entry = some (t, true) → d.pwr.seqStart + n ≤ d.time.aon.toNat →
      Memory.wf d.st.ws0 = true →
      (160 ≤ d.pwr.seqDone → ∃ e : Die, Answers .sleepStateReached s e ∧ e.pwr.state = t ∧ e.pwr.entry = none ∧ e.st = d.st ∧ e.hbm = d.hbm ∧
        e.pwr.vcoreEn = d.pwr.vcoreEn) ∧
      (d.pwr.seqDone < 16 →
      ∃ e : Die, Answers .sleepStateReached s e ∧ e.pwr.state = t ∧ e.pwr.entry = none ∧ e.st.hbm = d.st.hbm ∧ e.hbm = { d.hbm with selfRef := true } ∧ e.st.lb = [] ∧ e.st.instr = [] ∧
        e.st.xprog = [] ∧ e.st.ag = [] ∧ e.st.desc = [] ∧ e.st.tmpl = [] ∧ e.iss.tallies = [] ∧
        (∀ a, Tab.read 0 e.st.ws0 a =
          if (d.selectedBanks.take (retainMax t)).contains (bankOfByte 0 a) = true then Tab.read 0 d.st.ws0 a else 0) ∧
        e.ctx = d.ctx ∧ e.kvp = d.kvp ∧ e.fab = d.fab ∧ e.fld = d.fld ∧ e.sec = d.sec ∧ e.time = (if t = .midnight then { d.time with valid := false } else d.time) ∧
        (t = .midnight → e.pwr.vcoreEn = some false))) ∧
    (d.pwr.state ≠ .active ∨ d.pwr.entry.isSome = true → Answers .hostWake s (with_ { d.pwr with hostWake := true })) ∧
    (d.pwr.wakeN = true → d.pwr.pinEdge = true → d.pwr.inWindow = false → Answers .wakeNAssert s
      (with_ { d.pwr with wakeN := false, latched := d.pwr.latched ||| 0x10#7 })) ∧
    (d.pwr.wakeN = true → d.pwr.pinEdge = false ∨ d.pwr.inWindow = true → Answers .wakeNAssert s (with_ { d.pwr with wakeN := false })) ∧
    Answers .wakeNRise s (with_ { d.pwr with wakeN := true }) ∧
    (d.time.aon = d.pwr.timer → d.pwr.inWindow = false → Answers .pwrTimerMatch s (with_ { d.pwr with latched := d.pwr.latched ||| 0x20#7 })) ∧
    (d.exitDue = true → ∃ e : Die, Answers .sleepExitStart s e ∧ e = { d with out := e.out, pwr := { d.pwr with
      exiting := true, seqStart := d.time.aon.toNat, seqDone := 0, lastExit := e.pwr.lastExit, vcoreEn := e.pwr.vcoreEn } } ∧
      (d.pwr.state = .midnight → e.pwr.vcoreEn = some true) ∧
      (d.pwr.state ≠ .midnight → e.out = d.out ∧ e.pwr.vcoreEn = d.pwr.vcoreEn)) ∧
    (let due : Prop := d.pwr.exiting = true ∧ d.pwr.entry = none ∧ d.pwr.tripped = false ∧
       d.pwr.seqStart + exitCycles d.pwr.state ≤ d.time.aon.toNat
     let woken (e : Die) : Prop := e.pwr.state = .active ∧ e.pwr.exiting = false ∧ e.pwr.hostWake = false ∧ e.pwr.held = [] ∧
       e.st = d.st ∧ e.ctx = d.ctx ∧ e.iss = d.iss ∧
       (d.pwr.state = .dusk → e.hbm = d.hbm) ∧ ((d.pwr.state = .night ∨ d.pwr.state = .midnight) → d.pwr.seqDone = 0 → e.hbm = { d.hbm with selfRef := false }) ∧
       (d.pwr.state = .midnight → d.pwr.seqDone = 0 → e.time.refRunning = true) ∧
       (∀ p, (d.tport p).state = .asleep → (d.tport p).wakeHeld = true → Tab.wf {} d.fab.ports = true → (e.tport p).state = .training)
     (due → d.pwr.heldReset = false → d.pwr.heldWarm = false → ∃ e : Die, woken e ∧
       Answers .sleepExitDone s (d.pwr.held.foldl (fun (e : Die) m => e.inOrder m fun e => e.message m) e)) ∧
     (∀ a v, due → d.pwr.heldReset = false → d.pwr.heldWarm = false → d.pwr.held = [.memWr 0 a v .ok] → d.ctx.held = [] →
       ∀ q, d.memPhys 0 a v.length = some q → d.scrubbing q v.length = false → d.barred [] [(q, v.length)] = false →
       ∃ e : Die, Answers .sleepExitDone s e ∧ e.st.hbm = Mem.write d.st.hbm q v ∧ e.pwr.state = .active) ∧
     (due → d.pwr.heldReset = false → d.pwr.heldWarm = true → d.pwr.held = [] → d.boot.warm = false → d.boot.full = true →
       ∃ e : Die, Answers .sleepExitDone s e ∧ e.boot.warm = true ∧ e.glb.service = 0 ∧ e.pwr.heldWarm = false ∧ e.st = { hbm := d.st.hbm }) ∧
     (¬ due → d.pwr.entry = none → Answers .sleepExitDone s d)) ∧
    Answers .referenceClockStop s { d with time := { d.time with refRunning := false, valid := false } }

/-- Resets keep what their tables keep; bring-up passes from boot ROM to Dawn and full service; a warm reset and an engine
reset end as they should (R402, R548, R575, R576, R577, R578, R580, R581, R582, R586, R589, R619). Dawn weights from offset 0
of working store 0 on are log entry 36 (DESIGN CHOICE), the key store empty after a warm reset log entry 100 (DEDUCED), the
check of the certificates log entry 125 (DEDUCED). What each reset keeps beyond its table is log entry 62 (DEDUCED), the
choice of a slot log entry 63 (DEDUCED), the configuration log entry 64 (DEDUCED), training and the warm reset log entry 65
(DEDUCED), an event that is not due log entry 14 (DEDUCED). The order of the checks of an image is log entry 129 (DEDUCED).
-/
def Obligations.ResetsAndServiceStages : Prop :=
  ∀ (s : State) (fn : Fin 64) (straps : BitVec 3) (v80 v64 : BitVec 4) (val : W32) (n : Fin 2) (nwt : Verdict),
    Tab.wf {} s.die.ctx.slots = true →
    let d := s.die
    let off (g r : Bool) (st : BitVec 3) : Die := {
      fuses := { d.fuses with burning := none }, hbm := { populated := d.hbm.populated, capacity := d.hbm.capacity },
      sec := { keyGen := d.sec.keyGen, reseeds := d.sec.reseeds + 1 }, pwr := { wakeN := d.pwr.wakeN },
      boot := { flash := d.boot.flash, straps := st, starts := d.boot.starts, pwrgood := g, resetN := r }, out := d.out, freeCtr := d.freeCtr }
    let warm (e : Die) : Prop :=
      (∀ i, (e.slot i).state = .free) ∧ e.st = { hbm := d.st.hbm } ∧ e.glb = { d.glb with service := 0 } ∧ e.boot.warm = true ∧
      e.boot.lastReset = 2 ∧ e.iss.run = none ∧ e.fuses = d.fuses.keepBurn ∧ e.err = d.err ∧ e.fab = { d.fab with channels := [] } ∧
      (∀ i, (e.prot i).protected_ = false ∧ (e.prot i).key0 = 0 ∧ (e.prot i).key1 = 0) ∧ (∀ i, (e.loop i).slot = 0x3F)
    Answers .pwrgoodFall s (off false false d.boot.straps) ∧ Answers .powerLoss s (off false false d.boot.straps) ∧
    (d.boot.pwrgood = false → Answers (.pwrgoodRise straps) s (off true false straps)) ∧
    (d.boot.pwrgood = true → Answers (.pwrgoodRise straps) s d) ∧
    (d.boot.resetN = true → d.pwr.state = .active → d.pwr.entry = none → ∃ e : Die, Answers .resetNFall s e ∧ e.ctx = {} ∧ e.iss = {} ∧ e.st = {} ∧
      e.fab = {} ∧ e.kvp = {} ∧ e.ing = {} ∧ e.fld = {} ∧ e.nwt = {} ∧ e.glb = {} ∧ e.boot.clean = d.boot.clean ∧ e.boot.flash = d.boot.flash ∧
      e.fuses = { d.fuses with burning := none } ∧ e.mgmt.sealBroken = d.mgmt.sealBroken ∧ e.mgmt.presCmds = d.mgmt.presCmds ∧
      e.time.aon = d.time.aon ∧ e.pwr.res = d.pwr.res ∧ e.pwr.resP = d.pwr.resP ∧ e.pwr.throttles = d.pwr.throttles ∧
      e.pwr.entDusk = d.pwr.entDusk ∧ e.pwr.entNight = d.pwr.entNight ∧ e.pwr.entMidn = d.pwr.entMidn ∧ e.err.recs = [] ∧ e.err.written = d.err.written) ∧
    (∀ m, d.boot.resetN = false → d.boot.pwrgood = true → d.pwr.heldReset = false → straps.getLsbD 0 = false →
      d.boot.flash.ctl.rollback = false → d.boot.flash.ctl.state d.boot.flash.ctl.preferred = fsConfirmed →
      d.boot.flash.slot d.boot.flash.ctl.preferred = some m → imageFormat m = true → imageSigned m = true →
      m.signer = Config.firmwareSigner → imageDawnOk m = true → d.fuses.arb ≤ m.svn.toNat →
      ∃ e : Die, Answers (.resetNRise straps .good .good) s e ∧ e.boot.fwRuns = true ∧ e.boot.runSlotB = d.boot.flash.ctl.preferred ∧
        e.boot.svn = m.svn ∧ e.boot.digest = imageDigest m ∧ e.boot.unconfirmed = false ∧ e.boot.flash = d.boot.flash ∧ e.mgmt.gen = 0 ∧
        e.glb.service = d.glb.service ∧ e.mgmt.certsOk = d.deviceOk 0 ∧ e.mgmt.certsPqOk = d.deviceOk 1 ∧
        (d.deviceOk 0 = true → d.deviceOk 1 = true → e.err = d.err) ∧ e.mgmt.udsHidden = true ∧ (e.mgmt.keys.isSome = true ↔ d.fuses.lifecycle ≠ 3)) ∧
    (d.boot.fwRuns = true → d.glb.service = 0 → d.boot.full = false →
      (d.fuses.rootRow = 0 → d.boot.flash.nwtPkg = none →
        ∃ e : Die, Answers (.dawnServiceStart .good nwt) s e ∧ e.glb = { d.glb with service := 1 } ∧ e.boot.conf = none ∧ e.err = d.err ∧
          e.boot.dawnMs = BitVec.ofNat 16 (d.boot.sinceRst / 100000) ∧ e.boot.linked = true ∧ e.fld = d.fld) ∧
      (∀ c cs, d.fuses.rootRow ≠ 0 → d.boot.flash.confs = c :: cs → d.confVerdict c = .good →
        ∃ e : Die, Answers (.dawnServiceStart .good nwt) s e ∧ e.boot.conf = some c ∧ e.boot.confDig = c.digest ∧ e.glb.service = 1) ∧
      (∀ c c', d.fuses.rootRow ≠ 0 → d.boot.flash.confs = [c, c'] → d.confVerdict c ≠ .good → d.confVerdict c' = .good →
        ∃ e : Die, Answers (.dawnServiceStart .good nwt) s e ∧ e.boot.conf = some c' ∧ e.boot.confDig = c'.digest ∧ e.glb.service = 1)) ∧
    (∀ c, d.glb.service = 1 → d.boot.conf = some c →
      (d.boot.weightsRead = false → Answers (.dawnWeightsChecked .good) s
        { d with st := { d.st with ws0 := Mem.write d.st.ws0 0 c.weights }, fld := { d.fld with dawn := decide (c.weights ≠ []) },
                 boot := { d.boot with weightsRead := true } }) ∧
      (d.boot.weightsRead = true → Answers (.dawnWeightsChecked .good) s d) ∧
      (d.boot.weightsRead = false → c.weights ≠ [] → Answers (.mainStageChecked .good) s d)) ∧
    (d.glb.service = 1 → d.boot.mainRun = false → (d.boot.weightsRead = true ∨ d.boot.conf = none) →
      (d.mainOk = true → Answers (.mainStageChecked .good) s { d with boot := { d.boot with mainRun := true } }) ∧
      (d.mainOk = false → ∃ e : Die, Answers (.mainStageChecked .good) s e ∧ e.boot.mainRun = false ∧ e.mgmt.gen = 0 ∧ e.ctx = {} ∧
        e.boot.lastReset = 1)) ∧
    (d.glb.service = 1 → d.boot.mainRun = true → d.hbm.rate = 0 → d.variant = .crz2240 → d.hbm.populated = 0xF → d.hbm.capacity = 36 →
      d.boot.conf = none → ∃ e : Die, Answers (.hbmTrainingDone 0xF v64) s e ∧ e.hbm.trained = 0xF ∧ e.hbm.rate = 0x50 ∧
        e.hbm.groups = 0xFFFF ∧ e.hbm.exclude = 0 ∧ e.hbm.failed = false ∧ e.glb.hbmPop = 0xF ∧ e.sec.carveBase = 142848 ∧
        e.sec.carveSize = 4608 ∧ e.kvp.ptBase = 142720 ∧ e.ctx.memLimit = 142719) ∧
    (d.glb.service = 1 → d.hbm.rate ≠ 0 → ∃ e : Die, Answers .fullService s e ∧ e.glb = { d.glb with service := 2 } ∧ e.st = { d.st with hbm := [] } ∧
      e.boot.clean = true ∧ e.boot.full = true ∧ e.boot.scrubbed = true ∧ e.fld.dawn = false ∧ e.ctx = d.ctx) ∧
    (d.boot.warm = false → d.boot.full = true → d.pwr.tripped = false → d.pwr.state = .active → d.pwr.entry = none →
      (∃ e : Die, Answers .warmResetMsg s e ∧ warm e) ∧
      (Prompt s 0 → d.hostOpen = true → val.toNat / 0x10000 = 0x5E5E → val.getLsbD 2 = true → ∃ e : Die, Answers (.warmReset 0 val) s e ∧ warm e)) ∧
    (Prompt s fn.val → (fn ≠ 0 ∨ val.toNat / 0x10000 ≠ 0x5E5E) → Answers (.warmReset fn val) s d ∧ Answers (.engineReset fn val) s d) ∧
    (d.boot.warm = true → d.pwr.tripped = true → Answers (.warmResetDone v80 v64) s d) ∧
    (d.boot.warm = true → d.pwr.tripped = false → d.boot.warmFail = false → d.boot.clean = true → ∃ e : Die, Answers (.warmResetDone v80 v64) s e ∧
      e.glb = { d.glb with service := if d.hbm.warmAgain then 3 else 2 } ∧ e.boot.warm = false ∧
      e.hbm = { d.hbm with selfRef := false, warmAgain := false } ∧ e.st = d.st) ∧
    (Prompt s 0 → d.hostOpen = true → d.boot.warm = false → d.pwr.tripped = false → val.toNat / 0x10000 = 0x5E5E → val.getLsbD 2 = false →
      val.getLsbD 0 = true → val.getLsbD 1 = false → ∃ e : Die, Answers (.engineReset 0 val) s e ∧ e.te0.inReset = true ∧ e.te0.plane0 = {} ∧
        e.te0.plane1 = {} ∧ e.te0.flight = [] ∧ e.te1.inReset = d.te1.inReset ∧ e.st = d.st ∧ e.err = d.err ∧
        (∀ i : Fin 64, (d.slot i.val).state = .armed → d.slotUses i.val 0 = true → (e.slot i.val).state = .aborted ∧ (e.slot i.val).cause = 0) ∧
        (∀ i : Fin 64, d.slotUses i.val 0 = false → e.slot i.val = d.slot i.val)) ∧
    Answers (.engineResetDone n) s
      (if n = 0 then { d with te0 := { d.te0 with inReset := false } } else { d with te1 := { d.te1 with inReset := false } }) ∧
    (Prompt s 0 → d.hostOpen = true → d.glb.service = 2 → d.boot.unconfirmed = true → ∃ e : Die, Answers (.fwConfirm 0 0x434F4E46) s e ∧
      e.boot.unconfirmed = false ∧ (d.boot.flash.ctl.seq ≠ 0xFFFFFFFF →
        e.boot.flash.ctl.state d.boot.runSlotB = fsConfirmed ∧ e.boot.flash.ctl.seq = d.boot.flash.ctl.seq + 1)) ∧
    (Prompt s fn.val → d.hostOpen = true → (fn ≠ 0 ∨ val ≠ 0x434F4E46) → Answers (.fwConfirm fn val) s d)

/-- An event makes or counts a record; HDR reads hold W1 to W6; 64-bit pairs hold their high word; a clear zeroes; a fatal
record reaches flash once (R13, R409, R597, R598, R599, R600, R606, R609). A fatal record's one flash entry is log entry 70
(DEDUCED), the one set of holding words log entry 71 (DEDUCED), an INTR while the mainline is down log entry 60 (DEDUCED),
the round of a module log entry 121 (DESIGN CHOICE). A clear in the cycle of an event is log entry 131 (DEDUCED). -/
def Obligations.RecordsAndReadsFollowTheirRules : Prop :=
  let sends : Die → Out → Die := fun d o => { d with out := o :: d.out, fab := { d.fab with modTurn := Tab.write 3 d.fab.modTurn 0 3 } }
  (∀ (d : Die) (i c : Nat) (sl : Option Nat) (f0 f1 f2 f3 : Nat), d.recPresent i = true → c < 32 → Tab.wf {} d.err.recs = true →
    let r := d.errRec i
    let e := d.record i c sl f0 f1 f2 f3
    let fatal : Prop := c = 0x0E ∨ c = 0x0F ∨ c = 0x10
    (r.valid = true → e.out = d.out ∧ e.err.toFlash = d.err.toFlash ∧ ((e.errRec i).count.toNat = min 0xFFFF (r.count.toNat + 1)) ∧
      (d.issuing = false ∨ (d.cycleEvents i).length + 1 < min 0xFFFF (r.count.toNat + 1) →
        e.errRec i = { r with count := BitVec.ofNat 16 (min 0xFFFF (r.count.toNat + 1)) })) ∧
    (∀ x : Rec, d.issuing = true → d.err.cycle = [(i, x)] → r = x → x.valid = true → x.count = 1 →
      let y := d.capture c sl f0 f1 f2 f3
      let earlier : Prop := y.slot.toNat < x.slot.toNat ∨ (y.slot = x.slot ∧ y.place i < x.place i)
      (earlier → e.errRec i = { y with count := 2 }) ∧ (¬ earlier → e.errRec i = { x with count := 2 })) ∧
    (r.valid = false → (e.errRec i).valid = true ∧ (e.errRec i).cause.toNat = c ∧ (e.errRec i).count = 1 ∧ (e.errRec i).f0 = w32 f0 ∧
      (e.errRec i).f1 = w32 f1 ∧ (e.errRec i).f2 = w32 f2 ∧ (e.errRec i).f3 = w32 f3 ∧ (e.errRec i).time = d.time.stamp ∧
      ((e.errRec i).fatal = true ↔ fatal) ∧ (∀ k, sl = some k → (e.errRec i).conf = d.isConf k ∧ (e.errRec i).slot = BitVec.ofNat 6 k) ∧
      (sl = none → (e.errRec i).slot = 0x3F) ∧
      (let told : List Out := if bit d.err.irqEn.toNat c = true ∧ d.mainline = true then .intr 0 1 :: d.out else d.out
       (fatal → e.err.toFlash = d.err.toFlash ++ [i] ∧ e.out = (if d.mainline = true then .intr 0 2 :: told else d.out)) ∧
       (¬ fatal → e.err.toFlash = d.err.toFlash ∧ e.out = told))) ∧
    e.err.cycle = (if d.issuing then d.err.cycle ++ [(i, d.capture c sl f0 f1 f2 f3)] else d.err.cycle) ∧
    (∀ j, j ≠ i → e.errRec j = d.errRec j) ∧ e = { d with
      err := { d.err with recs := e.err.recs, toFlash := e.err.toFlash, cycle := e.err.cycle }, out := e.out,
      fab := { d.fab with modTurn := e.fab.modTurn } }) ∧
  (∀ (s : State) (fn : Fin 64) (tag : BitVec 16) (i : Fin 73), Prompt s fn.val → s.die.hostOpen = true → Tab.wf {} s.die.err.recs = true →
    let d := s.die
    let w := (d.errRec i.val).words
    (fn ≠ 0 → Answers (.errHdrRead fn tag i) s (sends d (.regCpl fn.val tag (BitVec.ofNat 24 (0xE10000 + 0x20 * i.val)) 0)) ∧ Answers (.errRecordClear fn i) s d) ∧
    (fn = 0 → Answers (.errHdrRead fn tag i) s
      (sends { d with err := { d.err with hold := [(i.val, (w.drop 1).take 6)] } }
        (.regCpl 0 tag (BitVec.ofNat 24 (0xE10000 + 0x20 * i.val)) (nth 0 w 0)))) ∧
    (∀ (ws : List W32) (j : Fin 6), fn = 0 → d.err.hold = [(i.val, ws)] →
      Answers (.regRd fn tag (BitVec.ofNat 24 (0xE10000 + 0x20 * i.val + 4 * (j.val + 1))) 4) s
        (sends d (.regCpl 0 tag (BitVec.ofNat 24 (0xE10000 + 0x20 * i.val + 4 * (j.val + 1))) (nth 0 ws j.val)))) ∧
    (fn = 0 → (d.issuing = false ∨ ∀ x ∈ d.err.cycle, x.1 ≠ i.val) → ∃ e : Die, Answers (.errRecordClear fn i) s e ∧ e.errRec i.val = {} ∧ (∀ j, j ≠ i.val → e.errRec j = d.errRec j) ∧
      e = { d with err := { d.err with recs := e.err.recs, cleared := e.err.cleared } }) ∧
    (∀ r, fn = 0 → d.issuing = true → d.err.cycle = [(i.val, r)] → r.valid = true → ∃ e : Die, Answers (.errRecordClear fn i) s e ∧ e.errRec i.val = r)) ∧
  (∀ (s : State) (i : Fin 73) (ok : Bool),
    let d := s.die
    (i.val ∈ d.err.toFlash → ∃ (e : Die) (b : List Byte), Answers (.fatalFlashWrite i ok) s e ∧ e.err.toFlash = d.err.toFlash.erase i.val ∧
      e.err.writeErr = (!ok) ∧ b = d.fatalEntry (d.err.forFlash i.val) ∧ b.length = 64 ∧ leNat (b.drop 60) = crc32c (b.take 60) ∧ leNat (b.take 4) = (d.boot.flash.fatalSeq + 1) % 2 ^ 32 ∧
      (ok = true → d.boot.flash.fatal.length < 176 * 64 → e.boot.flash.fatal = d.boot.flash.fatal ++ [b]) ∧
      (ok = false → e.boot.flash = d.boot.flash)) ∧
    (i.val ∉ d.err.toFlash → Answers (.fatalFlashWrite i ok) s d)) ∧
  (∀ (s : State) (fn : Fin 64) (tag : BitVec 16) (off : BitVec 24) (v : W64), Prompt s fn.val → (s.die.counter64 fn.val off.toNat).isSome = true →
    let l := s.die.settled off.toNat
    l.counter64 fn.val off.toNat = some v → s.die.reaches fn.val off.toNat = true → s.die.readOpen off.toNat = true → off.toNat % 4 = 0 →
    Answers (.reg64LoRead fn tag off) s
      (sends { l with latch := Tab.write 0 l.latch (latchKey fn.val (off.toNat + 4)) (hiHalf v) } (.regCpl fn.val tag off (loHalf v)))) ∧
  (∀ (s : State) (fn : Fin 64) (tag : BitVec 16) (off : BitVec 24), Prompt s fn.val → off.toNat % 4 = 0 → off.toNat + 4 < 0x1000000 →
    let l := s.die.settled (off.toNat + 4)
    (l.counter64 fn.val off.toNat).isSome = true → l.counter64 fn.val (off.toNat + 4) = none → off ≠ 0x20 →
    s.die.reaches fn.val (off.toNat + 4) = true → s.die.readOpen (off.toNat + 4) = true →
    Answers (.regRd fn tag (off + 4) 4) s (sends l (.regCpl fn.val tag (off + 4) (Tab.read 0 l.latch (latchKey fn.val (off.toNat + 4)))))) ∧
  (∀ (s : State) (tag : BitVec 16) (n : Fin 8), Prompt s 0 → s.die.hostOpen = true → s.die.loopPresent n.val = true →
    Answers (.rxstat0Read 0 tag n) s (sends (s.die.updLoop n.val fun l => { l with rxNew := false })
      (.regCpl 0 tag (BitVec.ofNat 24 (offRxstat n.val 0)) (if s.die.loopConf (s.die.loop n.val) then 0 else w32 (leNat ((s.die.loop n.val).rxstat.take 4))))))
end

