-- ==== Sys2Proof/Laws/Tab.lean ====
section
/-! SUPPORT. Sparse tables and byte memories: what a read gives after an erase, an insert, a write or a map, that each of them keeps
the canonical form, and that canonical tables are equal when all their reads are. -/

namespace Sys2Proof

variable {α : Type}

/-! ### The canonical form -/

section
variable [DecidableEq α] {d : α}

theorem Tab.wfAbove_mono : ∀ {t : List (Nat × α)} {m n : Nat}, n ≤ m → Tab.wfAbove d m t = true → Tab.wfAbove d n t = true
  | [], _, _, _, _ => rfl
  | (j, v) :: t, m, n, h, w => by
    simp only [Tab.wfAbove, Bool.and_eq_true, decide_eq_true_eq] at w ⊢
    exact ⟨⟨by omega, w.1.2⟩, w.2⟩

theorem Tab.wf_nil : Tab.wf d ([] : List (Nat × α)) = true := rfl

theorem Tab.wfAbove_wf {t : List (Nat × α)} {n : Nat} (w : Tab.wfAbove d n t = true) : Tab.wf d t = true :=
  Tab.wfAbove_mono (Nat.zero_le n) w

theorem Tab.wfAbove_key_ge : ∀ {t : List (Nat × α)} {n : Nat}, Tab.wfAbove d n t = true → ∀ c ∈ t, n ≤ c.1
  | (j, v) :: t, n, w, c, h => by
    simp only [Tab.wfAbove, Bool.and_eq_true, decide_eq_true_eq] at w
    rcases List.mem_cons.1 h with rfl | h
    · exact w.1.1
    · have := Tab.wfAbove_key_ge w.2 c h; omega

theorem Tab.read_below : ∀ {t : List (Nat × α)} {n k : Nat}, Tab.wfAbove d n t = true → k < n → Tab.read d t k = d
  | [], _, _, _, _ => rfl
  | (j, v) :: t, n, k, w, h => by
    simp only [Tab.wfAbove, Bool.and_eq_true, decide_eq_true_eq] at w
    have h1 : j ≠ k := by omega
    have h2 : k < j := by omega
    simp [Tab.read, h1, h2]

theorem Tab.wfAbove_erase : ∀ {t : List (Nat × α)} {n : Nat} (k : Nat), Tab.wfAbove d n t = true → Tab.wfAbove d n (Tab.erase t k) = true
  | [], _, _, _ => rfl
  | (j, v) :: t, n, k, w => by
    have w' := w
    simp only [Tab.wfAbove, Bool.and_eq_true, decide_eq_true_eq] at w'
    unfold Tab.erase
    split
    · exact Tab.wfAbove_mono (by omega) w'.2
    · split
      · exact w
      · simp only [Tab.wfAbove, Bool.and_eq_true, decide_eq_true_eq]
        exact ⟨w'.1, Tab.wfAbove_erase k w'.2⟩

theorem Tab.wfAbove_insert : ∀ {t : List (Nat × α)} {n k : Nat} {v : α}, v ≠ d → n ≤ k → Tab.wfAbove d n t = true →
    Tab.wfAbove d n (Tab.insert t k v) = true
  | [], n, k, v, h, hk, _ => by simp [Tab.insert, Tab.wfAbove, h, hk]
  | (j, u) :: t, n, k, v, h, hk, w => by
    have w' := w
    simp only [Tab.wfAbove, Bool.and_eq_true, decide_eq_true_eq] at w'
    unfold Tab.insert
    split
    · next e => subst e; simp only [Tab.wfAbove, Bool.and_eq_true, decide_eq_true_eq]; exact ⟨⟨hk, h⟩, w'.2⟩
    · split
      · simp only [Tab.wfAbove, Bool.and_eq_true, decide_eq_true_eq]
        exact ⟨⟨hk, h⟩, ⟨by omega, w'.1.2⟩, w'.2⟩
      · simp only [Tab.wfAbove, Bool.and_eq_true, decide_eq_true_eq]
        exact ⟨w'.1, Tab.wfAbove_insert h (by omega) w'.2⟩

theorem Tab.wf_erase {t : List (Nat × α)} (k : Nat) (w : Tab.wf d t = true) : Tab.wf d (Tab.erase t k) = true :=
  Tab.wfAbove_erase k w

theorem Tab.wf_write {t : List (Nat × α)} (k : Nat) (v : α) (w : Tab.wf d t = true) : Tab.wf d (Tab.write d t k v) = true := by
  unfold Tab.write
  split
  · exact Tab.wf_erase k w
  · next h => exact Tab.wfAbove_insert h (Nat.zero_le _) w

theorem Tab.wf_upd {t : List (Nat × α)} (k : Nat) (f : α → α) (w : Tab.wf d t = true) : Tab.wf d (Tab.upd d t k f) = true :=
  Tab.wf_write k _ w

theorem Tab.wfAbove_filter (p : Nat × α → Bool) : ∀ {t : List (Nat × α)} {n : Nat}, Tab.wfAbove d n t = true →
    Tab.wfAbove d n (t.filter p) = true
  | [], _, _ => rfl
  | (j, v) :: t, n, w => by
    simp only [Tab.wfAbove, Bool.and_eq_true, decide_eq_true_eq] at w
    rw [List.filter_cons]
    split
    · simp only [Tab.wfAbove, Bool.and_eq_true, decide_eq_true_eq]
      exact ⟨w.1, Tab.wfAbove_filter p w.2⟩
    · exact Tab.wfAbove_mono (by omega) (Tab.wfAbove_filter p w.2)

theorem Tab.wf_filter {t : List (Nat × α)} (p : Nat × α → Bool) (w : Tab.wf d t = true) : Tab.wf d (t.filter p) = true :=
  Tab.wfAbove_filter p w

theorem Tab.wfAbove_mapVal (f : α → α) : ∀ {t : List (Nat × α)} {n : Nat}, Tab.wfAbove d n t = true →
    Tab.wfAbove d n (Tab.mapVal d f t) = true
  | [], _, _ => rfl
  | (j, v) :: t, n, w => by
    simp only [Tab.wfAbove, Bool.and_eq_true, decide_eq_true_eq] at w
    have ih := Tab.wfAbove_mapVal f w.2
    unfold Tab.mapVal at ih ⊢
    rw [List.map_cons, List.filter_cons]
    split
    · next h =>
      simp only [Tab.wfAbove, Bool.and_eq_true, decide_eq_true_eq]
      exact ⟨⟨w.1.1, by simpa using h⟩, ih⟩
    · exact Tab.wfAbove_mono (by omega) ih

theorem Tab.wf_mapVal {t : List (Nat × α)} (f : α → α) (w : Tab.wf d t = true) : Tab.wf d (Tab.mapVal d f t) = true :=
  Tab.wfAbove_mapVal f w

/-! ### Reads after updates -/

theorem Tab.read_erase_self : ∀ {t : List (Nat × α)} {n : Nat} (k : Nat), Tab.wfAbove d n t = true → Tab.read d (Tab.erase t k) k = d
  | [], _, _, _ => rfl
  | (j, v) :: t, n, k, w => by
    simp only [Tab.wfAbove, Bool.and_eq_true, decide_eq_true_eq] at w
    unfold Tab.erase
    split
    · exact Tab.read_below w.2 (by omega)
    · split
      · simp [Tab.read, *]
      · simp only [Tab.read, *, if_false]
        exact Tab.read_erase_self k w.2

theorem Tab.read_erase_ne : ∀ {t : List (Nat × α)} {n : Nat} {k j : Nat}, Tab.wfAbove d n t = true → j ≠ k →
    Tab.read d (Tab.erase t k) j = Tab.read d t j
  | [], _, _, _, _, _ => rfl
  | (i, v) :: t, n, k, j, w, h => by
    simp only [Tab.wfAbove, Bool.and_eq_true, decide_eq_true_eq] at w
    unfold Tab.erase
    split
    · next e =>
      subst e
      rw [Tab.read, if_neg (fun h' => h h'.symm)]
      split
      · exact Tab.read_below w.2 (by omega)
      · rfl
    · split
      · rfl
      · simp only [Tab.read]
        rw [Tab.read_erase_ne w.2 h]
end

theorem Tab.read_insert_self (d : α) : ∀ (t : List (Nat × α)) (k : Nat) (v : α), Tab.read d (Tab.insert t k v) k = v
  | [], k, v => by simp [Tab.insert, Tab.read]
  | (j, u) :: t, k, v => by
    unfold Tab.insert
    split
    · simp [Tab.read]
    · split
      · simp [Tab.read]
      · simp only [Tab.read, *, if_false]
        exact Tab.read_insert_self d t k v

theorem Tab.read_insert_ne (d : α) : ∀ (t : List (Nat × α)) {k j : Nat} (v : α), j ≠ k →
    Tab.read d (Tab.insert t k v) j = Tab.read d t j
  | [], k, j, v, h => by
    have : k ≠ j := fun e => h e.symm
    simp [Tab.insert, Tab.read, this]
  | (i, u) :: t, k, j, v, h => by
    have hk : k ≠ j := fun e => h e.symm
    unfold Tab.insert
    split
    · next e => subst e; simp [Tab.read, hk]
    · split
      · next hlt =>
        rw [Tab.read, if_neg hk]
        split
        · rw [Tab.read, if_neg (by omega), if_pos (by omega)]
        · rfl
      · simp only [Tab.read]
        rw [Tab.read_insert_ne d t v h]

section
variable [DecidableEq α] {d : α}

theorem Tab.read_write_self {t : List (Nat × α)} (k : Nat) (v : α) (w : Tab.wf d t = true) : Tab.read d (Tab.write d t k v) k = v := by
  unfold Tab.write
  split
  · next h => rw [Tab.read_erase_self k w, h]
  · exact Tab.read_insert_self d t k v

theorem Tab.read_write_ne {t : List (Nat × α)} {k j : Nat} (v : α) (w : Tab.wf d t = true) (h : j ≠ k) :
    Tab.read d (Tab.write d t k v) j = Tab.read d t j := by
  unfold Tab.write
  split
  · exact Tab.read_erase_ne w h
  · exact Tab.read_insert_ne d t v h

theorem Tab.read_write {t : List (Nat × α)} (k j : Nat) (v : α) (w : Tab.wf d t = true) :
    Tab.read d (Tab.write d t k v) j = if j = k then v else Tab.read d t j := by
  split
  · next h => subst h; exact Tab.read_write_self _ v w
  · next h => exact Tab.read_write_ne v w h

/-- A value that is not the default stands after its write in any table. -/
theorem Tab.read_write_self_of_ne (t : List (Nat × α)) (k : Nat) {v : α} (h : v ≠ d) : Tab.read d (Tab.write d t k v) k = v := by
  rw [Tab.write, if_neg h, Tab.read_insert_self]

theorem Tab.read_upd_self {t : List (Nat × α)} (k : Nat) (f : α → α) (w : Tab.wf d t = true) :
    Tab.read d (Tab.upd d t k f) k = f (Tab.read d t k) := Tab.read_write_self k _ w

theorem Tab.read_upd_ne {t : List (Nat × α)} {k j : Nat} (f : α → α) (w : Tab.wf d t = true) (h : j ≠ k) :
    Tab.read d (Tab.upd d t k f) j = Tab.read d t j := Tab.read_write_ne _ w h

theorem Tab.read_upd {t : List (Nat × α)} (k j : Nat) (f : α → α) (w : Tab.wf d t = true) :
    Tab.read d (Tab.upd d t k f) j = if j = k then f (Tab.read d t k) else Tab.read d t j := Tab.read_write k j _ w

/-- A filter on keys keeps what it keeps and leaves the default elsewhere. -/
theorem Tab.read_filter_key (p : Nat → Bool) : ∀ {t : List (Nat × α)} {n : Nat} (k : Nat), Tab.wfAbove d n t = true →
    Tab.read d (t.filter fun c => p c.1) k = if p k then Tab.read d t k else d
  | [], _, k, _ => by simp [Tab.read]
  | (j, v) :: t, n, k, w => by
    simp only [Tab.wfAbove, Bool.and_eq_true, decide_eq_true_eq] at w
    have ih := Tab.read_filter_key p k w.2
    rw [List.filter_cons]
    by_cases hj : j = k
    · subst hj
      by_cases hp : p j = true
      · simp [hp, Tab.read]
      · rw [if_neg hp, if_neg hp, ih, if_neg hp]
    · by_cases hlt : k < j
      · have r := Tab.read_below (k := k) (Tab.wfAbove_filter (fun c => p c.1) w.2) (by omega)
        split
        · simp [Tab.read, hj, hlt]
        · rw [r]; simp [Tab.read, hj, hlt]
      · split
        · simp only [Tab.read, hj, hlt, if_false]; rw [ih]
        · simp only [Tab.read, hj, hlt, if_false]; rw [ih]

/-- A map over the entries whose image of the default is the default. -/
theorem Tab.read_mapVal (f : α → α) (hf : f d = d) : ∀ {t : List (Nat × α)} {n : Nat} (k : Nat), Tab.wfAbove d n t = true →
    Tab.read d (Tab.mapVal d f t) k = f (Tab.read d t k)
  | [], _, k, _ => by simp [Tab.mapVal, Tab.read, hf]
  | (j, v) :: t, n, k, w => by
    simp only [Tab.wfAbove, Bool.and_eq_true, decide_eq_true_eq] at w
    have ih := Tab.read_mapVal f hf k w.2
    have w2 := Tab.wfAbove_mapVal f w.2
    have e : Tab.mapVal d f ((j, v) :: t) = if f v ≠ d then (j, f v) :: Tab.mapVal d f t else Tab.mapVal d f t := by
      unfold Tab.mapVal
      rw [List.map_cons, List.filter_cons]
      by_cases h : f v = d <;> simp [h]
    rw [e]
    by_cases hj : j = k
    · subst hj
      have r := Tab.read_below (k := j) w2 (by omega)
      by_cases h : f v = d <;> simp [h, Tab.read, r]
    · by_cases hlt : k < j
      · have r := Tab.read_below (k := k) w2 (by omega)
        by_cases h : f v = d <;> simp [h, Tab.read, hj, hlt, hf, r]
      · by_cases h : f v = d <;> simp [h, Tab.read, hj, hlt, ih]

/-! ### Canonical tables are equal when their reads are -/

omit [DecidableEq α] in
theorem Tab.read_head_ne {j : Nat} {v : α} {t : List (Nat × α)} : Tab.read d ((j, v) :: t) j = v := by simp [Tab.read]

theorem Tab.ext_above : ∀ {t u : List (Nat × α)} {m n : Nat}, Tab.wfAbove d m t = true → Tab.wfAbove d n u = true →
    (∀ k, Tab.read d t k = Tab.read d u k) → t = u
  | [], [], _, _, _, _, _ => rfl
  | [], (j, v) :: u, _, n, _, w, h => by
    have := h j
    simp only [Tab.wfAbove, Bool.and_eq_true, decide_eq_true_eq] at w
    rw [Tab.read_head_ne] at this
    exact absurd this.symm w.1.2
  | (j, v) :: t, [], m, _, w, _, h => by
    have := h j
    simp only [Tab.wfAbove, Bool.and_eq_true, decide_eq_true_eq] at w
    rw [Tab.read_head_ne] at this
    exact absurd this w.1.2
  | (i, v) :: t, (j, u) :: r, m, n, w, w', h => by
    simp only [Tab.wfAbove, Bool.and_eq_true, decide_eq_true_eq] at w w'
    have hij : i = j := by
      have hi := h i
      have hj := h j
      rw [Tab.read_head_ne] at hi hj
      by_contra ne
      by_cases lt : i < j
      · simp only [Tab.read, if_neg (show j ≠ i from fun e => ne e.symm), if_pos lt] at hi
        exact w.1.2 hi
      · simp only [Tab.read, if_neg ne, if_pos (show j < i by omega)] at hj
        exact w'.1.2 hj.symm
    subst hij
    have hv : v = u := by simpa [Tab.read] using h i
    subst hv
    have ht : t = r := Tab.ext_above w.2 w'.2 fun k => by
      by_cases hk : k < i + 1
      · rw [Tab.read_below w.2 hk, Tab.read_below w'.2 hk]
      · have := h k
        simpa [Tab.read, show i ≠ k by omega, show ¬ k < i by omega] using this
    rw [ht]

theorem Tab.ext {t u : List (Nat × α)} (w : Tab.wf d t = true) (w' : Tab.wf d u = true)
    (h : ∀ k, Tab.read d t k = Tab.read d u k) : t = u := Tab.ext_above w w' h

theorem Tab.write_write {t : List (Nat × α)} (k : Nat) (a b : α) (w : Tab.wf d t = true) :
    Tab.write d (Tab.write d t k a) k b = Tab.write d t k b :=
  Tab.ext (Tab.wf_write k b (Tab.wf_write k a w)) (Tab.wf_write k b w) fun j => by
    simp only [Tab.read_write k j _ (Tab.wf_write k a w), Tab.read_write k j _ w]
    split <;> rfl

theorem Tab.write_read {t : List (Nat × α)} (k : Nat) (w : Tab.wf d t = true) : Tab.write d t k (Tab.read d t k) = t :=
  Tab.ext (Tab.wf_write k _ w) w fun j => by
    rw [Tab.read_write k j _ w]
    split
    · next h => rw [h]
    · rfl

theorem Tab.upd_upd {t : List (Nat × α)} (k : Nat) (f g : α → α) (w : Tab.wf d t = true) :
    Tab.upd d (Tab.upd d t k f) k g = Tab.upd d t k fun x => g (f x) := by
  unfold Tab.upd
  rw [Tab.read_write_self k _ w, Tab.write_write k _ _ w]

theorem Tab.upd_const_read {t : List (Nat × α)} (k : Nat) (f : α → α) (w : Tab.wf d t = true) (h : f (Tab.read d t k) = Tab.read d t k) :
    Tab.upd d t k f = t := by rw [Tab.upd, h, Tab.write_read k w]

theorem Tab.upd_congr (t : List (Nat × α)) (k : Nat) {f g : α → α} (h : f (Tab.read d t k) = g (Tab.read d t k)) :
    Tab.upd d t k f = Tab.upd d t k g := by rw [Tab.upd, Tab.upd, h]

theorem Tab.write_comm {t : List (Nat × α)} {j k : Nat} (a b : α) (w : Tab.wf d t = true) (h : j ≠ k) :
    Tab.write d (Tab.write d t j a) k b = Tab.write d (Tab.write d t k b) j a :=
  Tab.ext (Tab.wf_write k b (Tab.wf_write j a w)) (Tab.wf_write j a (Tab.wf_write k b w)) fun i => by
    simp only [Tab.read_write k i _ (Tab.wf_write j a w), Tab.read_write j i _ (Tab.wf_write k b w), Tab.read_write k i _ w,
      Tab.read_write j i _ w]
    split
    · split
      · omega
      · rfl
    · rfl
end

/-! ### Byte memories -/

theorem Mem.wf_write : ∀ (bs : List Byte) {m : Tab Byte} (a : Nat), Memory.wf m = true → Memory.wf (Mem.write m a bs) = true
  | [], _, _, w => w
  | b :: bs, _, a, w => Mem.wf_write bs (a + 1) (Tab.wf_write a b w)

theorem Mem.wf_zero {m : Tab Byte} (a n : Nat) (w : Memory.wf m = true) : Memory.wf (Mem.zero m a n) = true := Tab.wf_filter _ w

theorem Mem.wf_foldl_write (f : Nat × Byte → Nat) : ∀ (l : List (Nat × Byte)) {m : Tab Byte}, Memory.wf m = true →
    Memory.wf (l.foldl (fun (m : Tab Byte) c => Tab.write 0 m (f c) c.2) m) = true
  | [], _, w => w
  | c :: l, _, w => Mem.wf_foldl_write f l (Tab.wf_write (f c) c.2 w)

theorem Mem.wf_copy {m : Tab Byte} (src dst n : Nat) (w : Memory.wf m = true) : Memory.wf (Mem.copy m src dst n) = true :=
  Mem.wf_foldl_write (fun c => c.1 - src + dst) _ (Mem.wf_zero dst n w)

/-- One byte after a store: the byte stored there, or what was there. -/
theorem Mem.read_write : ∀ (bs : List Byte) {m : Tab Byte} (a k : Nat), Memory.wf m = true →
    Tab.read 0 (Mem.write m a bs) k = if a ≤ k ∧ k < a + bs.length then bs.getD (k - a) 0 else Tab.read 0 m k
  | [], m, a, k, _ => by rw [Mem.write, if_neg (by simp)]
  | b :: bs, m, a, k, w => by
    have w0 : Tab.wf (0 : Byte) m = true := w
    have w1 : Memory.wf (Tab.write (0 : Byte) m a b) = true := Tab.wf_write (d := (0 : Byte)) a b w0
    rw [Mem.write, Mem.read_write bs (a + 1) k w1, Tab.read_write a k b w0]
    by_cases h1 : k = a
    · subst h1
      simp
    · by_cases h2 : a + 1 ≤ k ∧ k < a + 1 + bs.length
      · have e : k - a = (k - (a + 1)) + 1 := by omega
        have h3 : a ≤ k ∧ k < a + (b :: bs).length := by simp; omega
        rw [if_pos h2, if_pos h3, e]
        rfl
      · have h3 : ¬ (a ≤ k ∧ k < a + (b :: bs).length) := by simp; omega
        rw [if_neg h2, if_neg h3, if_neg h1]

theorem Mem.read_write_out {m : Tab Byte} {a k : Nat} {bs : List Byte} (w : Memory.wf m = true) (h : k < a ∨ a + bs.length ≤ k) :
    Tab.read 0 (Mem.write m a bs) k = Tab.read 0 m k := by
  rw [Mem.read_write bs a k w, if_neg (by omega)]

theorem Mem.read_zero {m : Tab Byte} (a n k : Nat) (w : Memory.wf m = true) :
    Tab.read 0 (Mem.zero m a n) k = if a ≤ k ∧ k < a + n then 0 else Tab.read 0 m k := by
  have w0 : Tab.wf (0 : Byte) m = true := w
  unfold Mem.zero
  rw [Tab.read_filter_key (fun j => decide (j < a ∨ a + n ≤ j)) k w0]
  by_cases h : a ≤ k ∧ k < a + n
  · rw [if_pos h, if_neg]; simp; omega
  · rw [if_neg h, if_pos]; simp; omega

theorem Mem.length_read (m : Tab Byte) (a n : Nat) : (Mem.read m a n).length = n := by simp [Mem.read]

/-- What was stored is read back. -/
theorem Mem.read_back {m : Tab Byte} (a : Nat) (bs : List Byte) (w : Memory.wf m = true) :
    Mem.read (Mem.write m a bs) a bs.length = bs := by
  apply List.ext_getElem
  · simp [Mem.read]
  · intro i h1 h2
    simp only [Mem.read, List.getElem_map, List.getElem_range]
    rw [Mem.read_write bs a (a + i) w, if_pos (by omega)]
    simp [List.getD_eq_getElem?_getD, List.getElem?_eq_getElem h2]

/-! ### Bytes of a number -/

theorem length_leBytes : ∀ (n v : Nat), (Machine.leBytes n v).length = n
  | 0, _ => rfl
  | n + 1, v => by simp [Machine.leBytes, length_leBytes n]

theorem leNat_leBytes : ∀ (n v : Nat), leNat (Machine.leBytes n v) = v % 256 ^ n
  | 0, v => by simp [Machine.leBytes, leNat, Nat.mod_one]
  | n + 1, v => by
    have h : 256 ^ (n + 1) = 256 * 256 ^ n := by rw [Nat.pow_succ, Nat.mul_comm]
    rw [Machine.leBytes, leNat, leNat_leBytes n, BitVec.toNat_ofNat, h, Nat.mod_mul]

end Sys2Proof
end

