-- ==== Sys2Proof/Laws/State.lean ====
section
/-! SUPPORT. State and its named updates: what each update of indexed state leaves as it was, field by field, what it makes of the
table it is about, and what every event brings with it. No later proof unfolds a record update. -/

namespace Sys2Proof.Machine

variable (d : Die)


/-! ### updSlot -/

@[simp] theorem Die.updSlot_fuses (s : Nat) (f : Slot → Slot) : (d.updSlot s f).fuses = d.fuses := rfl
@[simp] theorem Die.updSlot_glb (s : Nat) (f : Slot → Slot) : (d.updSlot s f).glb = d.glb := rfl
@[simp] theorem Die.updSlot_time (s : Nat) (f : Slot → Slot) : (d.updSlot s f).time = d.time := rfl
@[simp] theorem Die.updSlot_latch (s : Nat) (f : Slot → Slot) : (d.updSlot s f).latch = d.latch := rfl
@[simp] theorem Die.updSlot_iss (s : Nat) (f : Slot → Slot) : (d.updSlot s f).iss = d.iss := rfl
@[simp] theorem Die.updSlot_st (s : Nat) (f : Slot → Slot) : (d.updSlot s f).st = d.st := rfl
@[simp] theorem Die.updSlot_te0 (s : Nat) (f : Slot → Slot) : (d.updSlot s f).te0 = d.te0 := rfl
@[simp] theorem Die.updSlot_te1 (s : Nat) (f : Slot → Slot) : (d.updSlot s f).te1 = d.te1 := rfl
@[simp] theorem Die.updSlot_vec (s : Nat) (f : Slot → Slot) : (d.updSlot s f).vec = d.vec := rfl
@[simp] theorem Die.updSlot_fln (s : Nat) (f : Slot → Slot) : (d.updSlot s f).fln = d.fln := rfl
@[simp] theorem Die.updSlot_mca (s : Nat) (f : Slot → Slot) : (d.updSlot s f).mca = d.mca := rfl
@[simp] theorem Die.updSlot_pst (s : Nat) (f : Slot → Slot) : (d.updSlot s f).pst = d.pst := rfl
@[simp] theorem Die.updSlot_xfr (s : Nat) (f : Slot → Slot) : (d.updSlot s f).xfr = d.xfr := rfl
@[simp] theorem Die.updSlot_hbm (s : Nat) (f : Slot → Slot) : (d.updSlot s f).hbm = d.hbm := rfl
@[simp] theorem Die.updSlot_ing (s : Nat) (f : Slot → Slot) : (d.updSlot s f).ing = d.ing := rfl
@[simp] theorem Die.updSlot_kvp (s : Nat) (f : Slot → Slot) : (d.updSlot s f).kvp = d.kvp := rfl
@[simp] theorem Die.updSlot_fld (s : Nat) (f : Slot → Slot) : (d.updSlot s f).fld = d.fld := rfl
@[simp] theorem Die.updSlot_nwt (s : Nat) (f : Slot → Slot) : (d.updSlot s f).nwt = d.nwt := rfl
@[simp] theorem Die.updSlot_fab (s : Nat) (f : Slot → Slot) : (d.updSlot s f).fab = d.fab := rfl
@[simp] theorem Die.updSlot_sec (s : Nat) (f : Slot → Slot) : (d.updSlot s f).sec = d.sec := rfl
@[simp] theorem Die.updSlot_mgmt (s : Nat) (f : Slot → Slot) : (d.updSlot s f).mgmt = d.mgmt := rfl
@[simp] theorem Die.updSlot_pwr (s : Nat) (f : Slot → Slot) : (d.updSlot s f).pwr = d.pwr := rfl
@[simp] theorem Die.updSlot_boot (s : Nat) (f : Slot → Slot) : (d.updSlot s f).boot = d.boot := rfl
@[simp] theorem Die.updSlot_err (s : Nat) (f : Slot → Slot) : (d.updSlot s f).err = d.err := rfl
@[simp] theorem Die.updSlot_out (s : Nat) (f : Slot → Slot) : (d.updSlot s f).out = d.out := rfl
@[simp] theorem Die.updSlot_freeCtr (s : Nat) (f : Slot → Slot) : (d.updSlot s f).freeCtr = d.freeCtr := rfl
@[simp] theorem Die.updSlot_seen (s : Nat) (f : Slot → Slot) : (d.updSlot s f).seen = d.seen := rfl
theorem Die.updSlot_slot (s : Nat) (f : Slot → Slot) (k : Nat) (w : Tab.wf {} d.ctx.slots = true) :
    (d.updSlot s f).slot k = if k = s then f (d.slot s) else d.slot k := Tab.read_upd s k f w
theorem Die.updSlot_slot_self (s : Nat) (f : Slot → Slot) (w : Tab.wf {} d.ctx.slots = true) : (d.updSlot s f).slot s = f (d.slot s) :=
  Tab.read_upd_self s f w
theorem Die.updSlot_slot_ne {k : Nat} (s : Nat) (f : Slot → Slot) (w : Tab.wf {} d.ctx.slots = true) (h : k ≠ s) :
    (d.updSlot s f).slot k = d.slot k := Tab.read_upd_ne f w h
theorem Die.updSlot_updSlot (s : Nat) (f : Slot → Slot) (g : Slot → Slot) (w : Tab.wf {} d.ctx.slots = true) :
    (d.updSlot s f).updSlot s g = d.updSlot s (fun x => g (f x)) := by
  unfold Die.updSlot; simp only [Tab.upd_upd s f g w]
theorem Die.wf_updSlot (s : Nat) (f : Slot → Slot) (w : Tab.wf {} d.ctx.slots = true) : Tab.wf {} (d.updSlot s f).ctx.slots = true := Tab.wf_upd s f w
theorem Die.updSlot_congr (s : Nat) (f : Slot → Slot) (g : Slot → Slot) (h : f (d.slot s) = g (d.slot s)) : d.updSlot s f = d.updSlot s g := by
  unfold Die.updSlot; rw [Tab.upd_congr _ s h]
theorem Die.updSlot_id (s : Nat) (f : Slot → Slot) (w : Tab.wf {} d.ctx.slots = true) (h : f (d.slot s) = d.slot s) : d.updSlot s f = d := by
  unfold Die.updSlot; rw [Tab.upd_const_read s f w h]
@[simp] theorem Die.updSlot_prot (s : Nat) (f : Slot → Slot) (k : Nat) : (d.updSlot s f).prot k = d.prot k := rfl
@[simp] theorem Die.updSlot_thread (s : Nat) (f : Slot → Slot) (k : Nat) : (d.updSlot s f).thread k = d.thread k := rfl
@[simp] theorem Die.updSlot_tally (s : Nat) (f : Slot → Slot) (k : Nat) : (d.updSlot s f).tally k = d.tally k := rfl
@[simp] theorem Die.updSlot_stream (s : Nat) (f : Slot → Slot) (k : Nat) : (d.updSlot s f).stream k = d.stream k := rfl
@[simp] theorem Die.updSlot_loop (s : Nat) (f : Slot → Slot) (k : Nat) : (d.updSlot s f).loop k = d.loop k := rfl
@[simp] theorem Die.updSlot_fport (s : Nat) (f : Slot → Slot) (k : Nat) : (d.updSlot s f).fport k = d.fport k := rfl
@[simp] theorem Die.updSlot_tport (s : Nat) (f : Slot → Slot) (k : Nat) : (d.updSlot s f).tport k = d.tport k := rfl
@[simp] theorem Die.updSlot_page (s : Nat) (f : Slot → Slot) (k : Nat) : (d.updSlot s f).page k = d.page k := rfl
@[simp] theorem Die.updSlot_seq (s : Nat) (f : Slot → Slot) (k : Nat) : (d.updSlot s f).seq k = d.seq k := rfl
@[simp] theorem Die.updSlot_kvCmd (s : Nat) (f : Slot → Slot) (k : Nat) : (d.updSlot s f).kvCmd k = d.kvCmd k := rfl

/-! ### updProt -/

@[simp] theorem Die.updProt_fuses (s : Nat) (f : Prot → Prot) : (d.updProt s f).fuses = d.fuses := rfl
@[simp] theorem Die.updProt_glb (s : Nat) (f : Prot → Prot) : (d.updProt s f).glb = d.glb := rfl
@[simp] theorem Die.updProt_time (s : Nat) (f : Prot → Prot) : (d.updProt s f).time = d.time := rfl
@[simp] theorem Die.updProt_latch (s : Nat) (f : Prot → Prot) : (d.updProt s f).latch = d.latch := rfl
@[simp] theorem Die.updProt_iss (s : Nat) (f : Prot → Prot) : (d.updProt s f).iss = d.iss := rfl
@[simp] theorem Die.updProt_st (s : Nat) (f : Prot → Prot) : (d.updProt s f).st = d.st := rfl
@[simp] theorem Die.updProt_te0 (s : Nat) (f : Prot → Prot) : (d.updProt s f).te0 = d.te0 := rfl
@[simp] theorem Die.updProt_te1 (s : Nat) (f : Prot → Prot) : (d.updProt s f).te1 = d.te1 := rfl
@[simp] theorem Die.updProt_vec (s : Nat) (f : Prot → Prot) : (d.updProt s f).vec = d.vec := rfl
@[simp] theorem Die.updProt_fln (s : Nat) (f : Prot → Prot) : (d.updProt s f).fln = d.fln := rfl
@[simp] theorem Die.updProt_mca (s : Nat) (f : Prot → Prot) : (d.updProt s f).mca = d.mca := rfl
@[simp] theorem Die.updProt_pst (s : Nat) (f : Prot → Prot) : (d.updProt s f).pst = d.pst := rfl
@[simp] theorem Die.updProt_xfr (s : Nat) (f : Prot → Prot) : (d.updProt s f).xfr = d.xfr := rfl
@[simp] theorem Die.updProt_hbm (s : Nat) (f : Prot → Prot) : (d.updProt s f).hbm = d.hbm := rfl
@[simp] theorem Die.updProt_ing (s : Nat) (f : Prot → Prot) : (d.updProt s f).ing = d.ing := rfl
@[simp] theorem Die.updProt_kvp (s : Nat) (f : Prot → Prot) : (d.updProt s f).kvp = d.kvp := rfl
@[simp] theorem Die.updProt_fld (s : Nat) (f : Prot → Prot) : (d.updProt s f).fld = d.fld := rfl
@[simp] theorem Die.updProt_nwt (s : Nat) (f : Prot → Prot) : (d.updProt s f).nwt = d.nwt := rfl
@[simp] theorem Die.updProt_ctx (s : Nat) (f : Prot → Prot) : (d.updProt s f).ctx = d.ctx := rfl
@[simp] theorem Die.updProt_fab (s : Nat) (f : Prot → Prot) : (d.updProt s f).fab = d.fab := rfl
@[simp] theorem Die.updProt_mgmt (s : Nat) (f : Prot → Prot) : (d.updProt s f).mgmt = d.mgmt := rfl
@[simp] theorem Die.updProt_pwr (s : Nat) (f : Prot → Prot) : (d.updProt s f).pwr = d.pwr := rfl
@[simp] theorem Die.updProt_boot (s : Nat) (f : Prot → Prot) : (d.updProt s f).boot = d.boot := rfl
@[simp] theorem Die.updProt_err (s : Nat) (f : Prot → Prot) : (d.updProt s f).err = d.err := rfl
@[simp] theorem Die.updProt_out (s : Nat) (f : Prot → Prot) : (d.updProt s f).out = d.out := rfl
@[simp] theorem Die.updProt_freeCtr (s : Nat) (f : Prot → Prot) : (d.updProt s f).freeCtr = d.freeCtr := rfl
@[simp] theorem Die.updProt_seen (s : Nat) (f : Prot → Prot) : (d.updProt s f).seen = d.seen := rfl
@[simp] theorem Die.updProt_slot (s : Nat) (f : Prot → Prot) (k : Nat) : (d.updProt s f).slot k = d.slot k := rfl
theorem Die.updProt_prot (s : Nat) (f : Prot → Prot) (k : Nat) (w : Tab.wf {} d.sec.prots = true) :
    (d.updProt s f).prot k = if k = s then f (d.prot s) else d.prot k := Tab.read_upd s k f w
theorem Die.updProt_prot_self (s : Nat) (f : Prot → Prot) (w : Tab.wf {} d.sec.prots = true) : (d.updProt s f).prot s = f (d.prot s) :=
  Tab.read_upd_self s f w
theorem Die.updProt_prot_ne {k : Nat} (s : Nat) (f : Prot → Prot) (w : Tab.wf {} d.sec.prots = true) (h : k ≠ s) :
    (d.updProt s f).prot k = d.prot k := Tab.read_upd_ne f w h
theorem Die.updProt_updProt (s : Nat) (f : Prot → Prot) (g : Prot → Prot) (w : Tab.wf {} d.sec.prots = true) :
    (d.updProt s f).updProt s g = d.updProt s (fun x => g (f x)) := by
  unfold Die.updProt; simp only [Tab.upd_upd s f g w]
theorem Die.wf_updProt (s : Nat) (f : Prot → Prot) (w : Tab.wf {} d.sec.prots = true) : Tab.wf {} (d.updProt s f).sec.prots = true := Tab.wf_upd s f w
theorem Die.updProt_congr (s : Nat) (f : Prot → Prot) (g : Prot → Prot) (h : f (d.prot s) = g (d.prot s)) : d.updProt s f = d.updProt s g := by
  unfold Die.updProt; rw [Tab.upd_congr _ s h]
theorem Die.updProt_id (s : Nat) (f : Prot → Prot) (w : Tab.wf {} d.sec.prots = true) (h : f (d.prot s) = d.prot s) : d.updProt s f = d := by
  unfold Die.updProt; rw [Tab.upd_const_read s f w h]
@[simp] theorem Die.updProt_thread (s : Nat) (f : Prot → Prot) (k : Nat) : (d.updProt s f).thread k = d.thread k := rfl
@[simp] theorem Die.updProt_tally (s : Nat) (f : Prot → Prot) (k : Nat) : (d.updProt s f).tally k = d.tally k := rfl
@[simp] theorem Die.updProt_stream (s : Nat) (f : Prot → Prot) (k : Nat) : (d.updProt s f).stream k = d.stream k := rfl
@[simp] theorem Die.updProt_loop (s : Nat) (f : Prot → Prot) (k : Nat) : (d.updProt s f).loop k = d.loop k := rfl
@[simp] theorem Die.updProt_fport (s : Nat) (f : Prot → Prot) (k : Nat) : (d.updProt s f).fport k = d.fport k := rfl
@[simp] theorem Die.updProt_tport (s : Nat) (f : Prot → Prot) (k : Nat) : (d.updProt s f).tport k = d.tport k := rfl
@[simp] theorem Die.updProt_page (s : Nat) (f : Prot → Prot) (k : Nat) : (d.updProt s f).page k = d.page k := rfl
@[simp] theorem Die.updProt_seq (s : Nat) (f : Prot → Prot) (k : Nat) : (d.updProt s f).seq k = d.seq k := rfl
@[simp] theorem Die.updProt_kvCmd (s : Nat) (f : Prot → Prot) (k : Nat) : (d.updProt s f).kvCmd k = d.kvCmd k := rfl

/-! ### updThread -/

@[simp] theorem Die.updThread_fuses (t : Nat) (f : Thread → Thread) : (d.updThread t f).fuses = d.fuses := rfl
@[simp] theorem Die.updThread_glb (t : Nat) (f : Thread → Thread) : (d.updThread t f).glb = d.glb := rfl
@[simp] theorem Die.updThread_time (t : Nat) (f : Thread → Thread) : (d.updThread t f).time = d.time := rfl
@[simp] theorem Die.updThread_latch (t : Nat) (f : Thread → Thread) : (d.updThread t f).latch = d.latch := rfl
@[simp] theorem Die.updThread_iss (t : Nat) (f : Thread → Thread) : (d.updThread t f).iss = d.iss := rfl
@[simp] theorem Die.updThread_st (t : Nat) (f : Thread → Thread) : (d.updThread t f).st = d.st := rfl
@[simp] theorem Die.updThread_te0 (t : Nat) (f : Thread → Thread) : (d.updThread t f).te0 = d.te0 := rfl
@[simp] theorem Die.updThread_te1 (t : Nat) (f : Thread → Thread) : (d.updThread t f).te1 = d.te1 := rfl
@[simp] theorem Die.updThread_vec (t : Nat) (f : Thread → Thread) : (d.updThread t f).vec = d.vec := rfl
@[simp] theorem Die.updThread_fln (t : Nat) (f : Thread → Thread) : (d.updThread t f).fln = d.fln := rfl
@[simp] theorem Die.updThread_mca (t : Nat) (f : Thread → Thread) : (d.updThread t f).mca = d.mca := rfl
@[simp] theorem Die.updThread_pst (t : Nat) (f : Thread → Thread) : (d.updThread t f).pst = d.pst := rfl
@[simp] theorem Die.updThread_hbm (t : Nat) (f : Thread → Thread) : (d.updThread t f).hbm = d.hbm := rfl
@[simp] theorem Die.updThread_ing (t : Nat) (f : Thread → Thread) : (d.updThread t f).ing = d.ing := rfl
@[simp] theorem Die.updThread_kvp (t : Nat) (f : Thread → Thread) : (d.updThread t f).kvp = d.kvp := rfl
@[simp] theorem Die.updThread_fld (t : Nat) (f : Thread → Thread) : (d.updThread t f).fld = d.fld := rfl
@[simp] theorem Die.updThread_nwt (t : Nat) (f : Thread → Thread) : (d.updThread t f).nwt = d.nwt := rfl
@[simp] theorem Die.updThread_ctx (t : Nat) (f : Thread → Thread) : (d.updThread t f).ctx = d.ctx := rfl
@[simp] theorem Die.updThread_fab (t : Nat) (f : Thread → Thread) : (d.updThread t f).fab = d.fab := rfl
@[simp] theorem Die.updThread_sec (t : Nat) (f : Thread → Thread) : (d.updThread t f).sec = d.sec := rfl
@[simp] theorem Die.updThread_mgmt (t : Nat) (f : Thread → Thread) : (d.updThread t f).mgmt = d.mgmt := rfl
@[simp] theorem Die.updThread_pwr (t : Nat) (f : Thread → Thread) : (d.updThread t f).pwr = d.pwr := rfl
@[simp] theorem Die.updThread_boot (t : Nat) (f : Thread → Thread) : (d.updThread t f).boot = d.boot := rfl
@[simp] theorem Die.updThread_err (t : Nat) (f : Thread → Thread) : (d.updThread t f).err = d.err := rfl
@[simp] theorem Die.updThread_out (t : Nat) (f : Thread → Thread) : (d.updThread t f).out = d.out := rfl
@[simp] theorem Die.updThread_freeCtr (t : Nat) (f : Thread → Thread) : (d.updThread t f).freeCtr = d.freeCtr := rfl
@[simp] theorem Die.updThread_seen (t : Nat) (f : Thread → Thread) : (d.updThread t f).seen = d.seen := rfl
@[simp] theorem Die.updThread_slot (t : Nat) (f : Thread → Thread) (k : Nat) : (d.updThread t f).slot k = d.slot k := rfl
@[simp] theorem Die.updThread_prot (t : Nat) (f : Thread → Thread) (k : Nat) : (d.updThread t f).prot k = d.prot k := rfl
theorem Die.updThread_thread (t : Nat) (f : Thread → Thread) (k : Nat) (w : Tab.wf {} d.xfr.threads = true) :
    (d.updThread t f).thread k = if k = t then f (d.thread t) else d.thread k := Tab.read_upd t k f w
theorem Die.updThread_thread_self (t : Nat) (f : Thread → Thread) (w : Tab.wf {} d.xfr.threads = true) : (d.updThread t f).thread t = f (d.thread t) :=
  Tab.read_upd_self t f w
theorem Die.updThread_thread_ne {k : Nat} (t : Nat) (f : Thread → Thread) (w : Tab.wf {} d.xfr.threads = true) (h : k ≠ t) :
    (d.updThread t f).thread k = d.thread k := Tab.read_upd_ne f w h
theorem Die.updThread_updThread (t : Nat) (f : Thread → Thread) (g : Thread → Thread) (w : Tab.wf {} d.xfr.threads = true) :
    (d.updThread t f).updThread t g = d.updThread t (fun x => g (f x)) := by
  unfold Die.updThread; simp only [Tab.upd_upd t f g w]
theorem Die.wf_updThread (t : Nat) (f : Thread → Thread) (w : Tab.wf {} d.xfr.threads = true) : Tab.wf {} (d.updThread t f).xfr.threads = true := Tab.wf_upd t f w
theorem Die.updThread_congr (t : Nat) (f : Thread → Thread) (g : Thread → Thread) (h : f (d.thread t) = g (d.thread t)) : d.updThread t f = d.updThread t g := by
  unfold Die.updThread; rw [Tab.upd_congr _ t h]
theorem Die.updThread_id (t : Nat) (f : Thread → Thread) (w : Tab.wf {} d.xfr.threads = true) (h : f (d.thread t) = d.thread t) : d.updThread t f = d := by
  unfold Die.updThread; rw [Tab.upd_const_read t f w h]
@[simp] theorem Die.updThread_tally (t : Nat) (f : Thread → Thread) (k : Nat) : (d.updThread t f).tally k = d.tally k := rfl
@[simp] theorem Die.updThread_stream (t : Nat) (f : Thread → Thread) (k : Nat) : (d.updThread t f).stream k = d.stream k := rfl
@[simp] theorem Die.updThread_loop (t : Nat) (f : Thread → Thread) (k : Nat) : (d.updThread t f).loop k = d.loop k := rfl
@[simp] theorem Die.updThread_fport (t : Nat) (f : Thread → Thread) (k : Nat) : (d.updThread t f).fport k = d.fport k := rfl
@[simp] theorem Die.updThread_tport (t : Nat) (f : Thread → Thread) (k : Nat) : (d.updThread t f).tport k = d.tport k := rfl
@[simp] theorem Die.updThread_page (t : Nat) (f : Thread → Thread) (k : Nat) : (d.updThread t f).page k = d.page k := rfl
@[simp] theorem Die.updThread_seq (t : Nat) (f : Thread → Thread) (k : Nat) : (d.updThread t f).seq k = d.seq k := rfl
@[simp] theorem Die.updThread_kvCmd (t : Nat) (f : Thread → Thread) (k : Nat) : (d.updThread t f).kvCmd k = d.kvCmd k := rfl

/-! ### updTally -/

@[simp] theorem Die.updTally_fuses (p : Nat) (f : Tally → Tally) : (d.updTally p f).fuses = d.fuses := rfl
@[simp] theorem Die.updTally_glb (p : Nat) (f : Tally → Tally) : (d.updTally p f).glb = d.glb := rfl
@[simp] theorem Die.updTally_time (p : Nat) (f : Tally → Tally) : (d.updTally p f).time = d.time := rfl
@[simp] theorem Die.updTally_latch (p : Nat) (f : Tally → Tally) : (d.updTally p f).latch = d.latch := rfl
@[simp] theorem Die.updTally_st (p : Nat) (f : Tally → Tally) : (d.updTally p f).st = d.st := rfl
@[simp] theorem Die.updTally_te0 (p : Nat) (f : Tally → Tally) : (d.updTally p f).te0 = d.te0 := rfl
@[simp] theorem Die.updTally_te1 (p : Nat) (f : Tally → Tally) : (d.updTally p f).te1 = d.te1 := rfl
@[simp] theorem Die.updTally_vec (p : Nat) (f : Tally → Tally) : (d.updTally p f).vec = d.vec := rfl
@[simp] theorem Die.updTally_fln (p : Nat) (f : Tally → Tally) : (d.updTally p f).fln = d.fln := rfl
@[simp] theorem Die.updTally_mca (p : Nat) (f : Tally → Tally) : (d.updTally p f).mca = d.mca := rfl
@[simp] theorem Die.updTally_pst (p : Nat) (f : Tally → Tally) : (d.updTally p f).pst = d.pst := rfl
@[simp] theorem Die.updTally_xfr (p : Nat) (f : Tally → Tally) : (d.updTally p f).xfr = d.xfr := rfl
@[simp] theorem Die.updTally_hbm (p : Nat) (f : Tally → Tally) : (d.updTally p f).hbm = d.hbm := rfl
@[simp] theorem Die.updTally_ing (p : Nat) (f : Tally → Tally) : (d.updTally p f).ing = d.ing := rfl
@[simp] theorem Die.updTally_kvp (p : Nat) (f : Tally → Tally) : (d.updTally p f).kvp = d.kvp := rfl
@[simp] theorem Die.updTally_fld (p : Nat) (f : Tally → Tally) : (d.updTally p f).fld = d.fld := rfl
@[simp] theorem Die.updTally_nwt (p : Nat) (f : Tally → Tally) : (d.updTally p f).nwt = d.nwt := rfl
@[simp] theorem Die.updTally_ctx (p : Nat) (f : Tally → Tally) : (d.updTally p f).ctx = d.ctx := rfl
@[simp] theorem Die.updTally_fab (p : Nat) (f : Tally → Tally) : (d.updTally p f).fab = d.fab := rfl
@[simp] theorem Die.updTally_sec (p : Nat) (f : Tally → Tally) : (d.updTally p f).sec = d.sec := rfl
@[simp] theorem Die.updTally_mgmt (p : Nat) (f : Tally → Tally) : (d.updTally p f).mgmt = d.mgmt := rfl
@[simp] theorem Die.updTally_pwr (p : Nat) (f : Tally → Tally) : (d.updTally p f).pwr = d.pwr := rfl
@[simp] theorem Die.updTally_boot (p : Nat) (f : Tally → Tally) : (d.updTally p f).boot = d.boot := rfl
@[simp] theorem Die.updTally_err (p : Nat) (f : Tally → Tally) : (d.updTally p f).err = d.err := rfl
@[simp] theorem Die.updTally_out (p : Nat) (f : Tally → Tally) : (d.updTally p f).out = d.out := rfl
@[simp] theorem Die.updTally_freeCtr (p : Nat) (f : Tally → Tally) : (d.updTally p f).freeCtr = d.freeCtr := rfl
@[simp] theorem Die.updTally_seen (p : Nat) (f : Tally → Tally) : (d.updTally p f).seen = d.seen := rfl
@[simp] theorem Die.updTally_slot (p : Nat) (f : Tally → Tally) (k : Nat) : (d.updTally p f).slot k = d.slot k := rfl
@[simp] theorem Die.updTally_prot (p : Nat) (f : Tally → Tally) (k : Nat) : (d.updTally p f).prot k = d.prot k := rfl
@[simp] theorem Die.updTally_thread (p : Nat) (f : Tally → Tally) (k : Nat) : (d.updTally p f).thread k = d.thread k := rfl
theorem Die.updTally_tally (p : Nat) (f : Tally → Tally) (k : Nat) (w : Tab.wf {} d.iss.tallies = true) :
    (d.updTally p f).tally k = if k = p then f (d.tally p) else d.tally k := Tab.read_upd p k f w
theorem Die.updTally_tally_self (p : Nat) (f : Tally → Tally) (w : Tab.wf {} d.iss.tallies = true) : (d.updTally p f).tally p = f (d.tally p) :=
  Tab.read_upd_self p f w
theorem Die.updTally_tally_ne {k : Nat} (p : Nat) (f : Tally → Tally) (w : Tab.wf {} d.iss.tallies = true) (h : k ≠ p) :
    (d.updTally p f).tally k = d.tally k := Tab.read_upd_ne f w h
theorem Die.updTally_updTally (p : Nat) (f : Tally → Tally) (g : Tally → Tally) (w : Tab.wf {} d.iss.tallies = true) :
    (d.updTally p f).updTally p g = d.updTally p (fun x => g (f x)) := by
  unfold Die.updTally; simp only [Tab.upd_upd p f g w]
theorem Die.wf_updTally (p : Nat) (f : Tally → Tally) (w : Tab.wf {} d.iss.tallies = true) : Tab.wf {} (d.updTally p f).iss.tallies = true := Tab.wf_upd p f w
theorem Die.updTally_congr (p : Nat) (f : Tally → Tally) (g : Tally → Tally) (h : f (d.tally p) = g (d.tally p)) : d.updTally p f = d.updTally p g := by
  unfold Die.updTally; rw [Tab.upd_congr _ p h]
theorem Die.updTally_id (p : Nat) (f : Tally → Tally) (w : Tab.wf {} d.iss.tallies = true) (h : f (d.tally p) = d.tally p) : d.updTally p f = d := by
  unfold Die.updTally; rw [Tab.upd_const_read p f w h]
@[simp] theorem Die.updTally_stream (p : Nat) (f : Tally → Tally) (k : Nat) : (d.updTally p f).stream k = d.stream k := rfl
@[simp] theorem Die.updTally_loop (p : Nat) (f : Tally → Tally) (k : Nat) : (d.updTally p f).loop k = d.loop k := rfl
@[simp] theorem Die.updTally_fport (p : Nat) (f : Tally → Tally) (k : Nat) : (d.updTally p f).fport k = d.fport k := rfl
@[simp] theorem Die.updTally_tport (p : Nat) (f : Tally → Tally) (k : Nat) : (d.updTally p f).tport k = d.tport k := rfl
@[simp] theorem Die.updTally_page (p : Nat) (f : Tally → Tally) (k : Nat) : (d.updTally p f).page k = d.page k := rfl
@[simp] theorem Die.updTally_seq (p : Nat) (f : Tally → Tally) (k : Nat) : (d.updTally p f).seq k = d.seq k := rfl
@[simp] theorem Die.updTally_kvCmd (p : Nat) (f : Tally → Tally) (k : Nat) : (d.updTally p f).kvCmd k = d.kvCmd k := rfl

/-! ### updStream -/

@[simp] theorem Die.updStream_fuses (m : Nat) (f : Stream → Stream) : (d.updStream m f).fuses = d.fuses := rfl
@[simp] theorem Die.updStream_glb (m : Nat) (f : Stream → Stream) : (d.updStream m f).glb = d.glb := rfl
@[simp] theorem Die.updStream_time (m : Nat) (f : Stream → Stream) : (d.updStream m f).time = d.time := rfl
@[simp] theorem Die.updStream_latch (m : Nat) (f : Stream → Stream) : (d.updStream m f).latch = d.latch := rfl
@[simp] theorem Die.updStream_iss (m : Nat) (f : Stream → Stream) : (d.updStream m f).iss = d.iss := rfl
@[simp] theorem Die.updStream_st (m : Nat) (f : Stream → Stream) : (d.updStream m f).st = d.st := rfl
@[simp] theorem Die.updStream_te0 (m : Nat) (f : Stream → Stream) : (d.updStream m f).te0 = d.te0 := rfl
@[simp] theorem Die.updStream_te1 (m : Nat) (f : Stream → Stream) : (d.updStream m f).te1 = d.te1 := rfl
@[simp] theorem Die.updStream_vec (m : Nat) (f : Stream → Stream) : (d.updStream m f).vec = d.vec := rfl
@[simp] theorem Die.updStream_fln (m : Nat) (f : Stream → Stream) : (d.updStream m f).fln = d.fln := rfl
@[simp] theorem Die.updStream_mca (m : Nat) (f : Stream → Stream) : (d.updStream m f).mca = d.mca := rfl
@[simp] theorem Die.updStream_pst (m : Nat) (f : Stream → Stream) : (d.updStream m f).pst = d.pst := rfl
@[simp] theorem Die.updStream_xfr (m : Nat) (f : Stream → Stream) : (d.updStream m f).xfr = d.xfr := rfl
@[simp] theorem Die.updStream_hbm (m : Nat) (f : Stream → Stream) : (d.updStream m f).hbm = d.hbm := rfl
@[simp] theorem Die.updStream_kvp (m : Nat) (f : Stream → Stream) : (d.updStream m f).kvp = d.kvp := rfl
@[simp] theorem Die.updStream_fld (m : Nat) (f : Stream → Stream) : (d.updStream m f).fld = d.fld := rfl
@[simp] theorem Die.updStream_nwt (m : Nat) (f : Stream → Stream) : (d.updStream m f).nwt = d.nwt := rfl
@[simp] theorem Die.updStream_ctx (m : Nat) (f : Stream → Stream) : (d.updStream m f).ctx = d.ctx := rfl
@[simp] theorem Die.updStream_fab (m : Nat) (f : Stream → Stream) : (d.updStream m f).fab = d.fab := rfl
@[simp] theorem Die.updStream_sec (m : Nat) (f : Stream → Stream) : (d.updStream m f).sec = d.sec := rfl
@[simp] theorem Die.updStream_mgmt (m : Nat) (f : Stream → Stream) : (d.updStream m f).mgmt = d.mgmt := rfl
@[simp] theorem Die.updStream_pwr (m : Nat) (f : Stream → Stream) : (d.updStream m f).pwr = d.pwr := rfl
@[simp] theorem Die.updStream_boot (m : Nat) (f : Stream → Stream) : (d.updStream m f).boot = d.boot := rfl
@[simp] theorem Die.updStream_err (m : Nat) (f : Stream → Stream) : (d.updStream m f).err = d.err := rfl
@[simp] theorem Die.updStream_out (m : Nat) (f : Stream → Stream) : (d.updStream m f).out = d.out := rfl
@[simp] theorem Die.updStream_freeCtr (m : Nat) (f : Stream → Stream) : (d.updStream m f).freeCtr = d.freeCtr := rfl
@[simp] theorem Die.updStream_seen (m : Nat) (f : Stream → Stream) : (d.updStream m f).seen = d.seen := rfl
@[simp] theorem Die.updStream_slot (m : Nat) (f : Stream → Stream) (k : Nat) : (d.updStream m f).slot k = d.slot k := rfl
@[simp] theorem Die.updStream_prot (m : Nat) (f : Stream → Stream) (k : Nat) : (d.updStream m f).prot k = d.prot k := rfl
@[simp] theorem Die.updStream_thread (m : Nat) (f : Stream → Stream) (k : Nat) : (d.updStream m f).thread k = d.thread k := rfl
@[simp] theorem Die.updStream_tally (m : Nat) (f : Stream → Stream) (k : Nat) : (d.updStream m f).tally k = d.tally k := rfl
theorem Die.updStream_stream (m : Nat) (f : Stream → Stream) (k : Nat) (w : Tab.wf {} d.ing.streams = true) :
    (d.updStream m f).stream k = if k = m then f (d.stream m) else d.stream k := Tab.read_upd m k f w
theorem Die.updStream_stream_self (m : Nat) (f : Stream → Stream) (w : Tab.wf {} d.ing.streams = true) : (d.updStream m f).stream m = f (d.stream m) :=
  Tab.read_upd_self m f w
theorem Die.updStream_stream_ne {k : Nat} (m : Nat) (f : Stream → Stream) (w : Tab.wf {} d.ing.streams = true) (h : k ≠ m) :
    (d.updStream m f).stream k = d.stream k := Tab.read_upd_ne f w h
theorem Die.updStream_updStream (m : Nat) (f : Stream → Stream) (g : Stream → Stream) (w : Tab.wf {} d.ing.streams = true) :
    (d.updStream m f).updStream m g = d.updStream m (fun x => g (f x)) := by
  unfold Die.updStream; simp only [Tab.upd_upd m f g w]
theorem Die.wf_updStream (m : Nat) (f : Stream → Stream) (w : Tab.wf {} d.ing.streams = true) : Tab.wf {} (d.updStream m f).ing.streams = true := Tab.wf_upd m f w
theorem Die.updStream_congr (m : Nat) (f : Stream → Stream) (g : Stream → Stream) (h : f (d.stream m) = g (d.stream m)) : d.updStream m f = d.updStream m g := by
  unfold Die.updStream; rw [Tab.upd_congr _ m h]
theorem Die.updStream_id (m : Nat) (f : Stream → Stream) (w : Tab.wf {} d.ing.streams = true) (h : f (d.stream m) = d.stream m) : d.updStream m f = d := by
  unfold Die.updStream; rw [Tab.upd_const_read m f w h]
@[simp] theorem Die.updStream_loop (m : Nat) (f : Stream → Stream) (k : Nat) : (d.updStream m f).loop k = d.loop k := rfl
@[simp] theorem Die.updStream_fport (m : Nat) (f : Stream → Stream) (k : Nat) : (d.updStream m f).fport k = d.fport k := rfl
@[simp] theorem Die.updStream_tport (m : Nat) (f : Stream → Stream) (k : Nat) : (d.updStream m f).tport k = d.tport k := rfl
@[simp] theorem Die.updStream_page (m : Nat) (f : Stream → Stream) (k : Nat) : (d.updStream m f).page k = d.page k := rfl
@[simp] theorem Die.updStream_seq (m : Nat) (f : Stream → Stream) (k : Nat) : (d.updStream m f).seq k = d.seq k := rfl
@[simp] theorem Die.updStream_kvCmd (m : Nat) (f : Stream → Stream) (k : Nat) : (d.updStream m f).kvCmd k = d.kvCmd k := rfl

/-! ### updLoop -/

@[simp] theorem Die.updLoop_fuses (n : Nat) (f : Loop → Loop) : (d.updLoop n f).fuses = d.fuses := rfl
@[simp] theorem Die.updLoop_glb (n : Nat) (f : Loop → Loop) : (d.updLoop n f).glb = d.glb := rfl
@[simp] theorem Die.updLoop_time (n : Nat) (f : Loop → Loop) : (d.updLoop n f).time = d.time := rfl
@[simp] theorem Die.updLoop_latch (n : Nat) (f : Loop → Loop) : (d.updLoop n f).latch = d.latch := rfl
@[simp] theorem Die.updLoop_iss (n : Nat) (f : Loop → Loop) : (d.updLoop n f).iss = d.iss := rfl
@[simp] theorem Die.updLoop_st (n : Nat) (f : Loop → Loop) : (d.updLoop n f).st = d.st := rfl
@[simp] theorem Die.updLoop_te0 (n : Nat) (f : Loop → Loop) : (d.updLoop n f).te0 = d.te0 := rfl
@[simp] theorem Die.updLoop_te1 (n : Nat) (f : Loop → Loop) : (d.updLoop n f).te1 = d.te1 := rfl
@[simp] theorem Die.updLoop_vec (n : Nat) (f : Loop → Loop) : (d.updLoop n f).vec = d.vec := rfl
@[simp] theorem Die.updLoop_fln (n : Nat) (f : Loop → Loop) : (d.updLoop n f).fln = d.fln := rfl
@[simp] theorem Die.updLoop_mca (n : Nat) (f : Loop → Loop) : (d.updLoop n f).mca = d.mca := rfl
@[simp] theorem Die.updLoop_pst (n : Nat) (f : Loop → Loop) : (d.updLoop n f).pst = d.pst := rfl
@[simp] theorem Die.updLoop_xfr (n : Nat) (f : Loop → Loop) : (d.updLoop n f).xfr = d.xfr := rfl
@[simp] theorem Die.updLoop_hbm (n : Nat) (f : Loop → Loop) : (d.updLoop n f).hbm = d.hbm := rfl
@[simp] theorem Die.updLoop_ing (n : Nat) (f : Loop → Loop) : (d.updLoop n f).ing = d.ing := rfl
@[simp] theorem Die.updLoop_kvp (n : Nat) (f : Loop → Loop) : (d.updLoop n f).kvp = d.kvp := rfl
@[simp] theorem Die.updLoop_nwt (n : Nat) (f : Loop → Loop) : (d.updLoop n f).nwt = d.nwt := rfl
@[simp] theorem Die.updLoop_ctx (n : Nat) (f : Loop → Loop) : (d.updLoop n f).ctx = d.ctx := rfl
@[simp] theorem Die.updLoop_fab (n : Nat) (f : Loop → Loop) : (d.updLoop n f).fab = d.fab := rfl
@[simp] theorem Die.updLoop_sec (n : Nat) (f : Loop → Loop) : (d.updLoop n f).sec = d.sec := rfl
@[simp] theorem Die.updLoop_mgmt (n : Nat) (f : Loop → Loop) : (d.updLoop n f).mgmt = d.mgmt := rfl
@[simp] theorem Die.updLoop_pwr (n : Nat) (f : Loop → Loop) : (d.updLoop n f).pwr = d.pwr := rfl
@[simp] theorem Die.updLoop_boot (n : Nat) (f : Loop → Loop) : (d.updLoop n f).boot = d.boot := rfl
@[simp] theorem Die.updLoop_err (n : Nat) (f : Loop → Loop) : (d.updLoop n f).err = d.err := rfl
@[simp] theorem Die.updLoop_out (n : Nat) (f : Loop → Loop) : (d.updLoop n f).out = d.out := rfl
@[simp] theorem Die.updLoop_freeCtr (n : Nat) (f : Loop → Loop) : (d.updLoop n f).freeCtr = d.freeCtr := rfl
@[simp] theorem Die.updLoop_seen (n : Nat) (f : Loop → Loop) : (d.updLoop n f).seen = d.seen := rfl
@[simp] theorem Die.updLoop_slot (n : Nat) (f : Loop → Loop) (k : Nat) : (d.updLoop n f).slot k = d.slot k := rfl
@[simp] theorem Die.updLoop_prot (n : Nat) (f : Loop → Loop) (k : Nat) : (d.updLoop n f).prot k = d.prot k := rfl
@[simp] theorem Die.updLoop_thread (n : Nat) (f : Loop → Loop) (k : Nat) : (d.updLoop n f).thread k = d.thread k := rfl
@[simp] theorem Die.updLoop_tally (n : Nat) (f : Loop → Loop) (k : Nat) : (d.updLoop n f).tally k = d.tally k := rfl
@[simp] theorem Die.updLoop_stream (n : Nat) (f : Loop → Loop) (k : Nat) : (d.updLoop n f).stream k = d.stream k := rfl
theorem Die.updLoop_loop (n : Nat) (f : Loop → Loop) (k : Nat) (w : Tab.wf {} d.fld.loops = true) :
    (d.updLoop n f).loop k = if k = n then f (d.loop n) else d.loop k := Tab.read_upd n k f w
theorem Die.updLoop_loop_self (n : Nat) (f : Loop → Loop) (w : Tab.wf {} d.fld.loops = true) : (d.updLoop n f).loop n = f (d.loop n) :=
  Tab.read_upd_self n f w
theorem Die.updLoop_loop_ne {k : Nat} (n : Nat) (f : Loop → Loop) (w : Tab.wf {} d.fld.loops = true) (h : k ≠ n) :
    (d.updLoop n f).loop k = d.loop k := Tab.read_upd_ne f w h
theorem Die.updLoop_updLoop (n : Nat) (f : Loop → Loop) (g : Loop → Loop) (w : Tab.wf {} d.fld.loops = true) :
    (d.updLoop n f).updLoop n g = d.updLoop n (fun x => g (f x)) := by
  unfold Die.updLoop; simp only [Tab.upd_upd n f g w]
theorem Die.wf_updLoop (n : Nat) (f : Loop → Loop) (w : Tab.wf {} d.fld.loops = true) : Tab.wf {} (d.updLoop n f).fld.loops = true := Tab.wf_upd n f w
theorem Die.updLoop_congr (n : Nat) (f : Loop → Loop) (g : Loop → Loop) (h : f (d.loop n) = g (d.loop n)) : d.updLoop n f = d.updLoop n g := by
  unfold Die.updLoop; rw [Tab.upd_congr _ n h]
theorem Die.updLoop_id (n : Nat) (f : Loop → Loop) (w : Tab.wf {} d.fld.loops = true) (h : f (d.loop n) = d.loop n) : d.updLoop n f = d := by
  unfold Die.updLoop; rw [Tab.upd_const_read n f w h]
@[simp] theorem Die.updLoop_fport (n : Nat) (f : Loop → Loop) (k : Nat) : (d.updLoop n f).fport k = d.fport k := rfl
@[simp] theorem Die.updLoop_tport (n : Nat) (f : Loop → Loop) (k : Nat) : (d.updLoop n f).tport k = d.tport k := rfl
@[simp] theorem Die.updLoop_page (n : Nat) (f : Loop → Loop) (k : Nat) : (d.updLoop n f).page k = d.page k := rfl
@[simp] theorem Die.updLoop_seq (n : Nat) (f : Loop → Loop) (k : Nat) : (d.updLoop n f).seq k = d.seq k := rfl
@[simp] theorem Die.updLoop_kvCmd (n : Nat) (f : Loop → Loop) (k : Nat) : (d.updLoop n f).kvCmd k = d.kvCmd k := rfl

/-! ### updFport -/

@[simp] theorem Die.updFport_fuses (p : Nat) (f : FldPort → FldPort) : (d.updFport p f).fuses = d.fuses := rfl
@[simp] theorem Die.updFport_glb (p : Nat) (f : FldPort → FldPort) : (d.updFport p f).glb = d.glb := rfl
@[simp] theorem Die.updFport_time (p : Nat) (f : FldPort → FldPort) : (d.updFport p f).time = d.time := rfl
@[simp] theorem Die.updFport_latch (p : Nat) (f : FldPort → FldPort) : (d.updFport p f).latch = d.latch := rfl
@[simp] theorem Die.updFport_iss (p : Nat) (f : FldPort → FldPort) : (d.updFport p f).iss = d.iss := rfl
@[simp] theorem Die.updFport_st (p : Nat) (f : FldPort → FldPort) : (d.updFport p f).st = d.st := rfl
@[simp] theorem Die.updFport_te0 (p : Nat) (f : FldPort → FldPort) : (d.updFport p f).te0 = d.te0 := rfl
@[simp] theorem Die.updFport_te1 (p : Nat) (f : FldPort → FldPort) : (d.updFport p f).te1 = d.te1 := rfl
@[simp] theorem Die.updFport_vec (p : Nat) (f : FldPort → FldPort) : (d.updFport p f).vec = d.vec := rfl
@[simp] theorem Die.updFport_fln (p : Nat) (f : FldPort → FldPort) : (d.updFport p f).fln = d.fln := rfl
@[simp] theorem Die.updFport_mca (p : Nat) (f : FldPort → FldPort) : (d.updFport p f).mca = d.mca := rfl
@[simp] theorem Die.updFport_pst (p : Nat) (f : FldPort → FldPort) : (d.updFport p f).pst = d.pst := rfl
@[simp] theorem Die.updFport_xfr (p : Nat) (f : FldPort → FldPort) : (d.updFport p f).xfr = d.xfr := rfl
@[simp] theorem Die.updFport_hbm (p : Nat) (f : FldPort → FldPort) : (d.updFport p f).hbm = d.hbm := rfl
@[simp] theorem Die.updFport_ing (p : Nat) (f : FldPort → FldPort) : (d.updFport p f).ing = d.ing := rfl
@[simp] theorem Die.updFport_kvp (p : Nat) (f : FldPort → FldPort) : (d.updFport p f).kvp = d.kvp := rfl
@[simp] theorem Die.updFport_nwt (p : Nat) (f : FldPort → FldPort) : (d.updFport p f).nwt = d.nwt := rfl
@[simp] theorem Die.updFport_ctx (p : Nat) (f : FldPort → FldPort) : (d.updFport p f).ctx = d.ctx := rfl
@[simp] theorem Die.updFport_fab (p : Nat) (f : FldPort → FldPort) : (d.updFport p f).fab = d.fab := rfl
@[simp] theorem Die.updFport_sec (p : Nat) (f : FldPort → FldPort) : (d.updFport p f).sec = d.sec := rfl
@[simp] theorem Die.updFport_mgmt (p : Nat) (f : FldPort → FldPort) : (d.updFport p f).mgmt = d.mgmt := rfl
@[simp] theorem Die.updFport_pwr (p : Nat) (f : FldPort → FldPort) : (d.updFport p f).pwr = d.pwr := rfl
@[simp] theorem Die.updFport_boot (p : Nat) (f : FldPort → FldPort) : (d.updFport p f).boot = d.boot := rfl
@[simp] theorem Die.updFport_err (p : Nat) (f : FldPort → FldPort) : (d.updFport p f).err = d.err := rfl
@[simp] theorem Die.updFport_out (p : Nat) (f : FldPort → FldPort) : (d.updFport p f).out = d.out := rfl
@[simp] theorem Die.updFport_freeCtr (p : Nat) (f : FldPort → FldPort) : (d.updFport p f).freeCtr = d.freeCtr := rfl
@[simp] theorem Die.updFport_seen (p : Nat) (f : FldPort → FldPort) : (d.updFport p f).seen = d.seen := rfl
@[simp] theorem Die.updFport_slot (p : Nat) (f : FldPort → FldPort) (k : Nat) : (d.updFport p f).slot k = d.slot k := rfl
@[simp] theorem Die.updFport_prot (p : Nat) (f : FldPort → FldPort) (k : Nat) : (d.updFport p f).prot k = d.prot k := rfl
@[simp] theorem Die.updFport_thread (p : Nat) (f : FldPort → FldPort) (k : Nat) : (d.updFport p f).thread k = d.thread k := rfl
@[simp] theorem Die.updFport_tally (p : Nat) (f : FldPort → FldPort) (k : Nat) : (d.updFport p f).tally k = d.tally k := rfl
@[simp] theorem Die.updFport_stream (p : Nat) (f : FldPort → FldPort) (k : Nat) : (d.updFport p f).stream k = d.stream k := rfl
@[simp] theorem Die.updFport_loop (p : Nat) (f : FldPort → FldPort) (k : Nat) : (d.updFport p f).loop k = d.loop k := rfl
theorem Die.updFport_fport (p : Nat) (f : FldPort → FldPort) (k : Nat) (w : Tab.wf {} d.fld.ports = true) :
    (d.updFport p f).fport k = if k = p then f (d.fport p) else d.fport k := Tab.read_upd p k f w
theorem Die.updFport_fport_self (p : Nat) (f : FldPort → FldPort) (w : Tab.wf {} d.fld.ports = true) : (d.updFport p f).fport p = f (d.fport p) :=
  Tab.read_upd_self p f w
theorem Die.updFport_fport_ne {k : Nat} (p : Nat) (f : FldPort → FldPort) (w : Tab.wf {} d.fld.ports = true) (h : k ≠ p) :
    (d.updFport p f).fport k = d.fport k := Tab.read_upd_ne f w h
theorem Die.updFport_updFport (p : Nat) (f : FldPort → FldPort) (g : FldPort → FldPort) (w : Tab.wf {} d.fld.ports = true) :
    (d.updFport p f).updFport p g = d.updFport p (fun x => g (f x)) := by
  unfold Die.updFport; simp only [Tab.upd_upd p f g w]
theorem Die.wf_updFport (p : Nat) (f : FldPort → FldPort) (w : Tab.wf {} d.fld.ports = true) : Tab.wf {} (d.updFport p f).fld.ports = true := Tab.wf_upd p f w
theorem Die.updFport_congr (p : Nat) (f : FldPort → FldPort) (g : FldPort → FldPort) (h : f (d.fport p) = g (d.fport p)) : d.updFport p f = d.updFport p g := by
  unfold Die.updFport; rw [Tab.upd_congr _ p h]
theorem Die.updFport_id (p : Nat) (f : FldPort → FldPort) (w : Tab.wf {} d.fld.ports = true) (h : f (d.fport p) = d.fport p) : d.updFport p f = d := by
  unfold Die.updFport; rw [Tab.upd_const_read p f w h]
@[simp] theorem Die.updFport_tport (p : Nat) (f : FldPort → FldPort) (k : Nat) : (d.updFport p f).tport k = d.tport k := rfl
@[simp] theorem Die.updFport_page (p : Nat) (f : FldPort → FldPort) (k : Nat) : (d.updFport p f).page k = d.page k := rfl
@[simp] theorem Die.updFport_seq (p : Nat) (f : FldPort → FldPort) (k : Nat) : (d.updFport p f).seq k = d.seq k := rfl
@[simp] theorem Die.updFport_kvCmd (p : Nat) (f : FldPort → FldPort) (k : Nat) : (d.updFport p f).kvCmd k = d.kvCmd k := rfl

/-! ### updTport -/

@[simp] theorem Die.updTport_fuses (p : Nat) (f : FabPort → FabPort) : (d.updTport p f).fuses = d.fuses := rfl
@[simp] theorem Die.updTport_glb (p : Nat) (f : FabPort → FabPort) : (d.updTport p f).glb = d.glb := rfl
@[simp] theorem Die.updTport_time (p : Nat) (f : FabPort → FabPort) : (d.updTport p f).time = d.time := rfl
@[simp] theorem Die.updTport_latch (p : Nat) (f : FabPort → FabPort) : (d.updTport p f).latch = d.latch := rfl
@[simp] theorem Die.updTport_iss (p : Nat) (f : FabPort → FabPort) : (d.updTport p f).iss = d.iss := rfl
@[simp] theorem Die.updTport_st (p : Nat) (f : FabPort → FabPort) : (d.updTport p f).st = d.st := rfl
@[simp] theorem Die.updTport_te0 (p : Nat) (f : FabPort → FabPort) : (d.updTport p f).te0 = d.te0 := rfl
@[simp] theorem Die.updTport_te1 (p : Nat) (f : FabPort → FabPort) : (d.updTport p f).te1 = d.te1 := rfl
@[simp] theorem Die.updTport_vec (p : Nat) (f : FabPort → FabPort) : (d.updTport p f).vec = d.vec := rfl
@[simp] theorem Die.updTport_fln (p : Nat) (f : FabPort → FabPort) : (d.updTport p f).fln = d.fln := rfl
@[simp] theorem Die.updTport_mca (p : Nat) (f : FabPort → FabPort) : (d.updTport p f).mca = d.mca := rfl
@[simp] theorem Die.updTport_pst (p : Nat) (f : FabPort → FabPort) : (d.updTport p f).pst = d.pst := rfl
@[simp] theorem Die.updTport_xfr (p : Nat) (f : FabPort → FabPort) : (d.updTport p f).xfr = d.xfr := rfl
@[simp] theorem Die.updTport_hbm (p : Nat) (f : FabPort → FabPort) : (d.updTport p f).hbm = d.hbm := rfl
@[simp] theorem Die.updTport_ing (p : Nat) (f : FabPort → FabPort) : (d.updTport p f).ing = d.ing := rfl
@[simp] theorem Die.updTport_kvp (p : Nat) (f : FabPort → FabPort) : (d.updTport p f).kvp = d.kvp := rfl
@[simp] theorem Die.updTport_fld (p : Nat) (f : FabPort → FabPort) : (d.updTport p f).fld = d.fld := rfl
@[simp] theorem Die.updTport_nwt (p : Nat) (f : FabPort → FabPort) : (d.updTport p f).nwt = d.nwt := rfl
@[simp] theorem Die.updTport_ctx (p : Nat) (f : FabPort → FabPort) : (d.updTport p f).ctx = d.ctx := rfl
@[simp] theorem Die.updTport_sec (p : Nat) (f : FabPort → FabPort) : (d.updTport p f).sec = d.sec := rfl
@[simp] theorem Die.updTport_mgmt (p : Nat) (f : FabPort → FabPort) : (d.updTport p f).mgmt = d.mgmt := rfl
@[simp] theorem Die.updTport_pwr (p : Nat) (f : FabPort → FabPort) : (d.updTport p f).pwr = d.pwr := rfl
@[simp] theorem Die.updTport_boot (p : Nat) (f : FabPort → FabPort) : (d.updTport p f).boot = d.boot := rfl
@[simp] theorem Die.updTport_err (p : Nat) (f : FabPort → FabPort) : (d.updTport p f).err = d.err := rfl
@[simp] theorem Die.updTport_out (p : Nat) (f : FabPort → FabPort) : (d.updTport p f).out = d.out := rfl
@[simp] theorem Die.updTport_freeCtr (p : Nat) (f : FabPort → FabPort) : (d.updTport p f).freeCtr = d.freeCtr := rfl
@[simp] theorem Die.updTport_seen (p : Nat) (f : FabPort → FabPort) : (d.updTport p f).seen = d.seen := rfl
@[simp] theorem Die.updTport_slot (p : Nat) (f : FabPort → FabPort) (k : Nat) : (d.updTport p f).slot k = d.slot k := rfl
@[simp] theorem Die.updTport_prot (p : Nat) (f : FabPort → FabPort) (k : Nat) : (d.updTport p f).prot k = d.prot k := rfl
@[simp] theorem Die.updTport_thread (p : Nat) (f : FabPort → FabPort) (k : Nat) : (d.updTport p f).thread k = d.thread k := rfl
@[simp] theorem Die.updTport_tally (p : Nat) (f : FabPort → FabPort) (k : Nat) : (d.updTport p f).tally k = d.tally k := rfl
@[simp] theorem Die.updTport_stream (p : Nat) (f : FabPort → FabPort) (k : Nat) : (d.updTport p f).stream k = d.stream k := rfl
@[simp] theorem Die.updTport_loop (p : Nat) (f : FabPort → FabPort) (k : Nat) : (d.updTport p f).loop k = d.loop k := rfl
@[simp] theorem Die.updTport_fport (p : Nat) (f : FabPort → FabPort) (k : Nat) : (d.updTport p f).fport k = d.fport k := rfl
theorem Die.updTport_tport (p : Nat) (f : FabPort → FabPort) (k : Nat) (w : Tab.wf {} d.fab.ports = true) :
    (d.updTport p f).tport k = if k = p then f (d.tport p) else d.tport k := Tab.read_upd p k f w
theorem Die.updTport_tport_self (p : Nat) (f : FabPort → FabPort) (w : Tab.wf {} d.fab.ports = true) : (d.updTport p f).tport p = f (d.tport p) :=
  Tab.read_upd_self p f w
theorem Die.updTport_tport_ne {k : Nat} (p : Nat) (f : FabPort → FabPort) (w : Tab.wf {} d.fab.ports = true) (h : k ≠ p) :
    (d.updTport p f).tport k = d.tport k := Tab.read_upd_ne f w h
theorem Die.updTport_updTport (p : Nat) (f : FabPort → FabPort) (g : FabPort → FabPort) (w : Tab.wf {} d.fab.ports = true) :
    (d.updTport p f).updTport p g = d.updTport p (fun x => g (f x)) := by
  unfold Die.updTport; simp only [Tab.upd_upd p f g w]
theorem Die.wf_updTport (p : Nat) (f : FabPort → FabPort) (w : Tab.wf {} d.fab.ports = true) : Tab.wf {} (d.updTport p f).fab.ports = true := Tab.wf_upd p f w
theorem Die.updTport_congr (p : Nat) (f : FabPort → FabPort) (g : FabPort → FabPort) (h : f (d.tport p) = g (d.tport p)) : d.updTport p f = d.updTport p g := by
  unfold Die.updTport; rw [Tab.upd_congr _ p h]
theorem Die.updTport_id (p : Nat) (f : FabPort → FabPort) (w : Tab.wf {} d.fab.ports = true) (h : f (d.tport p) = d.tport p) : d.updTport p f = d := by
  unfold Die.updTport; rw [Tab.upd_const_read p f w h]
@[simp] theorem Die.updTport_page (p : Nat) (f : FabPort → FabPort) (k : Nat) : (d.updTport p f).page k = d.page k := rfl
@[simp] theorem Die.updTport_seq (p : Nat) (f : FabPort → FabPort) (k : Nat) : (d.updTport p f).seq k = d.seq k := rfl
@[simp] theorem Die.updTport_kvCmd (p : Nat) (f : FabPort → FabPort) (k : Nat) : (d.updTport p f).kvCmd k = d.kvCmd k := rfl

/-! ### updPage -/

@[simp] theorem Die.updPage_fuses (p : Nat) (f : Page → Page) : (d.updPage p f).fuses = d.fuses := rfl
@[simp] theorem Die.updPage_glb (p : Nat) (f : Page → Page) : (d.updPage p f).glb = d.glb := rfl
@[simp] theorem Die.updPage_time (p : Nat) (f : Page → Page) : (d.updPage p f).time = d.time := rfl
@[simp] theorem Die.updPage_latch (p : Nat) (f : Page → Page) : (d.updPage p f).latch = d.latch := rfl
@[simp] theorem Die.updPage_iss (p : Nat) (f : Page → Page) : (d.updPage p f).iss = d.iss := rfl
@[simp] theorem Die.updPage_st (p : Nat) (f : Page → Page) : (d.updPage p f).st = d.st := rfl
@[simp] theorem Die.updPage_te0 (p : Nat) (f : Page → Page) : (d.updPage p f).te0 = d.te0 := rfl
@[simp] theorem Die.updPage_te1 (p : Nat) (f : Page → Page) : (d.updPage p f).te1 = d.te1 := rfl
@[simp] theorem Die.updPage_vec (p : Nat) (f : Page → Page) : (d.updPage p f).vec = d.vec := rfl
@[simp] theorem Die.updPage_fln (p : Nat) (f : Page → Page) : (d.updPage p f).fln = d.fln := rfl
@[simp] theorem Die.updPage_mca (p : Nat) (f : Page → Page) : (d.updPage p f).mca = d.mca := rfl
@[simp] theorem Die.updPage_pst (p : Nat) (f : Page → Page) : (d.updPage p f).pst = d.pst := rfl
@[simp] theorem Die.updPage_xfr (p : Nat) (f : Page → Page) : (d.updPage p f).xfr = d.xfr := rfl
@[simp] theorem Die.updPage_hbm (p : Nat) (f : Page → Page) : (d.updPage p f).hbm = d.hbm := rfl
@[simp] theorem Die.updPage_ing (p : Nat) (f : Page → Page) : (d.updPage p f).ing = d.ing := rfl
@[simp] theorem Die.updPage_fld (p : Nat) (f : Page → Page) : (d.updPage p f).fld = d.fld := rfl
@[simp] theorem Die.updPage_nwt (p : Nat) (f : Page → Page) : (d.updPage p f).nwt = d.nwt := rfl
@[simp] theorem Die.updPage_ctx (p : Nat) (f : Page → Page) : (d.updPage p f).ctx = d.ctx := rfl
@[simp] theorem Die.updPage_fab (p : Nat) (f : Page → Page) : (d.updPage p f).fab = d.fab := rfl
@[simp] theorem Die.updPage_sec (p : Nat) (f : Page → Page) : (d.updPage p f).sec = d.sec := rfl
@[simp] theorem Die.updPage_mgmt (p : Nat) (f : Page → Page) : (d.updPage p f).mgmt = d.mgmt := rfl
@[simp] theorem Die.updPage_pwr (p : Nat) (f : Page → Page) : (d.updPage p f).pwr = d.pwr := rfl
@[simp] theorem Die.updPage_boot (p : Nat) (f : Page → Page) : (d.updPage p f).boot = d.boot := rfl
@[simp] theorem Die.updPage_err (p : Nat) (f : Page → Page) : (d.updPage p f).err = d.err := rfl
@[simp] theorem Die.updPage_out (p : Nat) (f : Page → Page) : (d.updPage p f).out = d.out := rfl
@[simp] theorem Die.updPage_freeCtr (p : Nat) (f : Page → Page) : (d.updPage p f).freeCtr = d.freeCtr := rfl
@[simp] theorem Die.updPage_seen (p : Nat) (f : Page → Page) : (d.updPage p f).seen = d.seen := rfl
@[simp] theorem Die.updPage_slot (p : Nat) (f : Page → Page) (k : Nat) : (d.updPage p f).slot k = d.slot k := rfl
@[simp] theorem Die.updPage_prot (p : Nat) (f : Page → Page) (k : Nat) : (d.updPage p f).prot k = d.prot k := rfl
@[simp] theorem Die.updPage_thread (p : Nat) (f : Page → Page) (k : Nat) : (d.updPage p f).thread k = d.thread k := rfl
@[simp] theorem Die.updPage_tally (p : Nat) (f : Page → Page) (k : Nat) : (d.updPage p f).tally k = d.tally k := rfl
@[simp] theorem Die.updPage_stream (p : Nat) (f : Page → Page) (k : Nat) : (d.updPage p f).stream k = d.stream k := rfl
@[simp] theorem Die.updPage_loop (p : Nat) (f : Page → Page) (k : Nat) : (d.updPage p f).loop k = d.loop k := rfl
@[simp] theorem Die.updPage_fport (p : Nat) (f : Page → Page) (k : Nat) : (d.updPage p f).fport k = d.fport k := rfl
@[simp] theorem Die.updPage_tport (p : Nat) (f : Page → Page) (k : Nat) : (d.updPage p f).tport k = d.tport k := rfl
theorem Die.updPage_page (p : Nat) (f : Page → Page) (k : Nat) (w : Tab.wf {} d.kvp.pages = true) :
    (d.updPage p f).page k = if k = p then f (d.page p) else d.page k := Tab.read_upd p k f w
theorem Die.updPage_page_self (p : Nat) (f : Page → Page) (w : Tab.wf {} d.kvp.pages = true) : (d.updPage p f).page p = f (d.page p) :=
  Tab.read_upd_self p f w
theorem Die.updPage_page_ne {k : Nat} (p : Nat) (f : Page → Page) (w : Tab.wf {} d.kvp.pages = true) (h : k ≠ p) :
    (d.updPage p f).page k = d.page k := Tab.read_upd_ne f w h
theorem Die.updPage_updPage (p : Nat) (f : Page → Page) (g : Page → Page) (w : Tab.wf {} d.kvp.pages = true) :
    (d.updPage p f).updPage p g = d.updPage p (fun x => g (f x)) := by
  unfold Die.updPage; simp only [Tab.upd_upd p f g w]
theorem Die.wf_updPage (p : Nat) (f : Page → Page) (w : Tab.wf {} d.kvp.pages = true) : Tab.wf {} (d.updPage p f).kvp.pages = true := Tab.wf_upd p f w
theorem Die.updPage_congr (p : Nat) (f : Page → Page) (g : Page → Page) (h : f (d.page p) = g (d.page p)) : d.updPage p f = d.updPage p g := by
  unfold Die.updPage; rw [Tab.upd_congr _ p h]
theorem Die.updPage_id (p : Nat) (f : Page → Page) (w : Tab.wf {} d.kvp.pages = true) (h : f (d.page p) = d.page p) : d.updPage p f = d := by
  unfold Die.updPage; rw [Tab.upd_const_read p f w h]
@[simp] theorem Die.updPage_seq (p : Nat) (f : Page → Page) (k : Nat) : (d.updPage p f).seq k = d.seq k := rfl
@[simp] theorem Die.updPage_kvCmd (p : Nat) (f : Page → Page) (k : Nat) : (d.updPage p f).kvCmd k = d.kvCmd k := rfl

/-! ### updSeq -/

@[simp] theorem Die.updSeq_fuses (q : Nat) (f : Seq → Seq) : (d.updSeq q f).fuses = d.fuses := rfl
@[simp] theorem Die.updSeq_glb (q : Nat) (f : Seq → Seq) : (d.updSeq q f).glb = d.glb := rfl
@[simp] theorem Die.updSeq_time (q : Nat) (f : Seq → Seq) : (d.updSeq q f).time = d.time := rfl
@[simp] theorem Die.updSeq_latch (q : Nat) (f : Seq → Seq) : (d.updSeq q f).latch = d.latch := rfl
@[simp] theorem Die.updSeq_iss (q : Nat) (f : Seq → Seq) : (d.updSeq q f).iss = d.iss := rfl
@[simp] theorem Die.updSeq_st (q : Nat) (f : Seq → Seq) : (d.updSeq q f).st = d.st := rfl
@[simp] theorem Die.updSeq_te0 (q : Nat) (f : Seq → Seq) : (d.updSeq q f).te0 = d.te0 := rfl
@[simp] theorem Die.updSeq_te1 (q : Nat) (f : Seq → Seq) : (d.updSeq q f).te1 = d.te1 := rfl
@[simp] theorem Die.updSeq_vec (q : Nat) (f : Seq → Seq) : (d.updSeq q f).vec = d.vec := rfl
@[simp] theorem Die.updSeq_fln (q : Nat) (f : Seq → Seq) : (d.updSeq q f).fln = d.fln := rfl
@[simp] theorem Die.updSeq_mca (q : Nat) (f : Seq → Seq) : (d.updSeq q f).mca = d.mca := rfl
@[simp] theorem Die.updSeq_pst (q : Nat) (f : Seq → Seq) : (d.updSeq q f).pst = d.pst := rfl
@[simp] theorem Die.updSeq_xfr (q : Nat) (f : Seq → Seq) : (d.updSeq q f).xfr = d.xfr := rfl
@[simp] theorem Die.updSeq_hbm (q : Nat) (f : Seq → Seq) : (d.updSeq q f).hbm = d.hbm := rfl
@[simp] theorem Die.updSeq_ing (q : Nat) (f : Seq → Seq) : (d.updSeq q f).ing = d.ing := rfl
@[simp] theorem Die.updSeq_fld (q : Nat) (f : Seq → Seq) : (d.updSeq q f).fld = d.fld := rfl
@[simp] theorem Die.updSeq_nwt (q : Nat) (f : Seq → Seq) : (d.updSeq q f).nwt = d.nwt := rfl
@[simp] theorem Die.updSeq_ctx (q : Nat) (f : Seq → Seq) : (d.updSeq q f).ctx = d.ctx := rfl
@[simp] theorem Die.updSeq_fab (q : Nat) (f : Seq → Seq) : (d.updSeq q f).fab = d.fab := rfl
@[simp] theorem Die.updSeq_sec (q : Nat) (f : Seq → Seq) : (d.updSeq q f).sec = d.sec := rfl
@[simp] theorem Die.updSeq_mgmt (q : Nat) (f : Seq → Seq) : (d.updSeq q f).mgmt = d.mgmt := rfl
@[simp] theorem Die.updSeq_pwr (q : Nat) (f : Seq → Seq) : (d.updSeq q f).pwr = d.pwr := rfl
@[simp] theorem Die.updSeq_boot (q : Nat) (f : Seq → Seq) : (d.updSeq q f).boot = d.boot := rfl
@[simp] theorem Die.updSeq_err (q : Nat) (f : Seq → Seq) : (d.updSeq q f).err = d.err := rfl
@[simp] theorem Die.updSeq_out (q : Nat) (f : Seq → Seq) : (d.updSeq q f).out = d.out := rfl
@[simp] theorem Die.updSeq_freeCtr (q : Nat) (f : Seq → Seq) : (d.updSeq q f).freeCtr = d.freeCtr := rfl
@[simp] theorem Die.updSeq_seen (q : Nat) (f : Seq → Seq) : (d.updSeq q f).seen = d.seen := rfl
@[simp] theorem Die.updSeq_slot (q : Nat) (f : Seq → Seq) (k : Nat) : (d.updSeq q f).slot k = d.slot k := rfl
@[simp] theorem Die.updSeq_prot (q : Nat) (f : Seq → Seq) (k : Nat) : (d.updSeq q f).prot k = d.prot k := rfl
@[simp] theorem Die.updSeq_thread (q : Nat) (f : Seq → Seq) (k : Nat) : (d.updSeq q f).thread k = d.thread k := rfl
@[simp] theorem Die.updSeq_tally (q : Nat) (f : Seq → Seq) (k : Nat) : (d.updSeq q f).tally k = d.tally k := rfl
@[simp] theorem Die.updSeq_stream (q : Nat) (f : Seq → Seq) (k : Nat) : (d.updSeq q f).stream k = d.stream k := rfl
@[simp] theorem Die.updSeq_loop (q : Nat) (f : Seq → Seq) (k : Nat) : (d.updSeq q f).loop k = d.loop k := rfl
@[simp] theorem Die.updSeq_fport (q : Nat) (f : Seq → Seq) (k : Nat) : (d.updSeq q f).fport k = d.fport k := rfl
@[simp] theorem Die.updSeq_tport (q : Nat) (f : Seq → Seq) (k : Nat) : (d.updSeq q f).tport k = d.tport k := rfl
@[simp] theorem Die.updSeq_page (q : Nat) (f : Seq → Seq) (k : Nat) : (d.updSeq q f).page k = d.page k := rfl
theorem Die.updSeq_seq (q : Nat) (f : Seq → Seq) (k : Nat) (w : Tab.wf {} d.kvp.seqs = true) :
    (d.updSeq q f).seq k = if k = q then f (d.seq q) else d.seq k := Tab.read_upd q k f w
theorem Die.updSeq_seq_self (q : Nat) (f : Seq → Seq) (w : Tab.wf {} d.kvp.seqs = true) : (d.updSeq q f).seq q = f (d.seq q) :=
  Tab.read_upd_self q f w
theorem Die.updSeq_seq_ne {k : Nat} (q : Nat) (f : Seq → Seq) (w : Tab.wf {} d.kvp.seqs = true) (h : k ≠ q) :
    (d.updSeq q f).seq k = d.seq k := Tab.read_upd_ne f w h
theorem Die.updSeq_updSeq (q : Nat) (f : Seq → Seq) (g : Seq → Seq) (w : Tab.wf {} d.kvp.seqs = true) :
    (d.updSeq q f).updSeq q g = d.updSeq q (fun x => g (f x)) := by
  unfold Die.updSeq; simp only [Tab.upd_upd q f g w]
theorem Die.wf_updSeq (q : Nat) (f : Seq → Seq) (w : Tab.wf {} d.kvp.seqs = true) : Tab.wf {} (d.updSeq q f).kvp.seqs = true := Tab.wf_upd q f w
theorem Die.updSeq_congr (q : Nat) (f : Seq → Seq) (g : Seq → Seq) (h : f (d.seq q) = g (d.seq q)) : d.updSeq q f = d.updSeq q g := by
  unfold Die.updSeq; rw [Tab.upd_congr _ q h]
theorem Die.updSeq_id (q : Nat) (f : Seq → Seq) (w : Tab.wf {} d.kvp.seqs = true) (h : f (d.seq q) = d.seq q) : d.updSeq q f = d := by
  unfold Die.updSeq; rw [Tab.upd_const_read q f w h]
@[simp] theorem Die.updSeq_kvCmd (q : Nat) (f : Seq → Seq) (k : Nat) : (d.updSeq q f).kvCmd k = d.kvCmd k := rfl

/-! ### updKvCmd -/

@[simp] theorem Die.updKvCmd_fuses (s : Nat) (f : KvCmd → KvCmd) : (d.updKvCmd s f).fuses = d.fuses := rfl
@[simp] theorem Die.updKvCmd_glb (s : Nat) (f : KvCmd → KvCmd) : (d.updKvCmd s f).glb = d.glb := rfl
@[simp] theorem Die.updKvCmd_time (s : Nat) (f : KvCmd → KvCmd) : (d.updKvCmd s f).time = d.time := rfl
@[simp] theorem Die.updKvCmd_latch (s : Nat) (f : KvCmd → KvCmd) : (d.updKvCmd s f).latch = d.latch := rfl
@[simp] theorem Die.updKvCmd_iss (s : Nat) (f : KvCmd → KvCmd) : (d.updKvCmd s f).iss = d.iss := rfl
@[simp] theorem Die.updKvCmd_st (s : Nat) (f : KvCmd → KvCmd) : (d.updKvCmd s f).st = d.st := rfl
@[simp] theorem Die.updKvCmd_te0 (s : Nat) (f : KvCmd → KvCmd) : (d.updKvCmd s f).te0 = d.te0 := rfl
@[simp] theorem Die.updKvCmd_te1 (s : Nat) (f : KvCmd → KvCmd) : (d.updKvCmd s f).te1 = d.te1 := rfl
@[simp] theorem Die.updKvCmd_vec (s : Nat) (f : KvCmd → KvCmd) : (d.updKvCmd s f).vec = d.vec := rfl
@[simp] theorem Die.updKvCmd_fln (s : Nat) (f : KvCmd → KvCmd) : (d.updKvCmd s f).fln = d.fln := rfl
@[simp] theorem Die.updKvCmd_mca (s : Nat) (f : KvCmd → KvCmd) : (d.updKvCmd s f).mca = d.mca := rfl
@[simp] theorem Die.updKvCmd_pst (s : Nat) (f : KvCmd → KvCmd) : (d.updKvCmd s f).pst = d.pst := rfl
@[simp] theorem Die.updKvCmd_xfr (s : Nat) (f : KvCmd → KvCmd) : (d.updKvCmd s f).xfr = d.xfr := rfl
@[simp] theorem Die.updKvCmd_hbm (s : Nat) (f : KvCmd → KvCmd) : (d.updKvCmd s f).hbm = d.hbm := rfl
@[simp] theorem Die.updKvCmd_ing (s : Nat) (f : KvCmd → KvCmd) : (d.updKvCmd s f).ing = d.ing := rfl
@[simp] theorem Die.updKvCmd_fld (s : Nat) (f : KvCmd → KvCmd) : (d.updKvCmd s f).fld = d.fld := rfl
@[simp] theorem Die.updKvCmd_nwt (s : Nat) (f : KvCmd → KvCmd) : (d.updKvCmd s f).nwt = d.nwt := rfl
@[simp] theorem Die.updKvCmd_ctx (s : Nat) (f : KvCmd → KvCmd) : (d.updKvCmd s f).ctx = d.ctx := rfl
@[simp] theorem Die.updKvCmd_fab (s : Nat) (f : KvCmd → KvCmd) : (d.updKvCmd s f).fab = d.fab := rfl
@[simp] theorem Die.updKvCmd_sec (s : Nat) (f : KvCmd → KvCmd) : (d.updKvCmd s f).sec = d.sec := rfl
@[simp] theorem Die.updKvCmd_mgmt (s : Nat) (f : KvCmd → KvCmd) : (d.updKvCmd s f).mgmt = d.mgmt := rfl
@[simp] theorem Die.updKvCmd_pwr (s : Nat) (f : KvCmd → KvCmd) : (d.updKvCmd s f).pwr = d.pwr := rfl
@[simp] theorem Die.updKvCmd_boot (s : Nat) (f : KvCmd → KvCmd) : (d.updKvCmd s f).boot = d.boot := rfl
@[simp] theorem Die.updKvCmd_err (s : Nat) (f : KvCmd → KvCmd) : (d.updKvCmd s f).err = d.err := rfl
@[simp] theorem Die.updKvCmd_out (s : Nat) (f : KvCmd → KvCmd) : (d.updKvCmd s f).out = d.out := rfl
@[simp] theorem Die.updKvCmd_freeCtr (s : Nat) (f : KvCmd → KvCmd) : (d.updKvCmd s f).freeCtr = d.freeCtr := rfl
@[simp] theorem Die.updKvCmd_seen (s : Nat) (f : KvCmd → KvCmd) : (d.updKvCmd s f).seen = d.seen := rfl
@[simp] theorem Die.updKvCmd_slot (s : Nat) (f : KvCmd → KvCmd) (k : Nat) : (d.updKvCmd s f).slot k = d.slot k := rfl
@[simp] theorem Die.updKvCmd_prot (s : Nat) (f : KvCmd → KvCmd) (k : Nat) : (d.updKvCmd s f).prot k = d.prot k := rfl
@[simp] theorem Die.updKvCmd_thread (s : Nat) (f : KvCmd → KvCmd) (k : Nat) : (d.updKvCmd s f).thread k = d.thread k := rfl
@[simp] theorem Die.updKvCmd_tally (s : Nat) (f : KvCmd → KvCmd) (k : Nat) : (d.updKvCmd s f).tally k = d.tally k := rfl
@[simp] theorem Die.updKvCmd_stream (s : Nat) (f : KvCmd → KvCmd) (k : Nat) : (d.updKvCmd s f).stream k = d.stream k := rfl
@[simp] theorem Die.updKvCmd_loop (s : Nat) (f : KvCmd → KvCmd) (k : Nat) : (d.updKvCmd s f).loop k = d.loop k := rfl
@[simp] theorem Die.updKvCmd_fport (s : Nat) (f : KvCmd → KvCmd) (k : Nat) : (d.updKvCmd s f).fport k = d.fport k := rfl
@[simp] theorem Die.updKvCmd_tport (s : Nat) (f : KvCmd → KvCmd) (k : Nat) : (d.updKvCmd s f).tport k = d.tport k := rfl
@[simp] theorem Die.updKvCmd_page (s : Nat) (f : KvCmd → KvCmd) (k : Nat) : (d.updKvCmd s f).page k = d.page k := rfl
@[simp] theorem Die.updKvCmd_seq (s : Nat) (f : KvCmd → KvCmd) (k : Nat) : (d.updKvCmd s f).seq k = d.seq k := rfl
theorem Die.updKvCmd_kvCmd (s : Nat) (f : KvCmd → KvCmd) (k : Nat) (w : Tab.wf {} d.kvp.pages_ = true) :
    (d.updKvCmd s f).kvCmd k = if k = s then f (d.kvCmd s) else d.kvCmd k := Tab.read_upd s k f w
theorem Die.updKvCmd_kvCmd_self (s : Nat) (f : KvCmd → KvCmd) (w : Tab.wf {} d.kvp.pages_ = true) : (d.updKvCmd s f).kvCmd s = f (d.kvCmd s) :=
  Tab.read_upd_self s f w
theorem Die.updKvCmd_kvCmd_ne {k : Nat} (s : Nat) (f : KvCmd → KvCmd) (w : Tab.wf {} d.kvp.pages_ = true) (h : k ≠ s) :
    (d.updKvCmd s f).kvCmd k = d.kvCmd k := Tab.read_upd_ne f w h
theorem Die.updKvCmd_updKvCmd (s : Nat) (f : KvCmd → KvCmd) (g : KvCmd → KvCmd) (w : Tab.wf {} d.kvp.pages_ = true) :
    (d.updKvCmd s f).updKvCmd s g = d.updKvCmd s (fun x => g (f x)) := by
  unfold Die.updKvCmd; simp only [Tab.upd_upd s f g w]
theorem Die.wf_updKvCmd (s : Nat) (f : KvCmd → KvCmd) (w : Tab.wf {} d.kvp.pages_ = true) : Tab.wf {} (d.updKvCmd s f).kvp.pages_ = true := Tab.wf_upd s f w
theorem Die.updKvCmd_congr (s : Nat) (f : KvCmd → KvCmd) (g : KvCmd → KvCmd) (h : f (d.kvCmd s) = g (d.kvCmd s)) : d.updKvCmd s f = d.updKvCmd s g := by
  unfold Die.updKvCmd; rw [Tab.upd_congr _ s h]
theorem Die.updKvCmd_id (s : Nat) (f : KvCmd → KvCmd) (w : Tab.wf {} d.kvp.pages_ = true) (h : f (d.kvCmd s) = d.kvCmd s) : d.updKvCmd s f = d := by
  unfold Die.updKvCmd; rw [Tab.upd_const_read s f w h]

/-! ### send -/

@[simp] theorem Die.send_fuses (o : Out) : (d.send o).fuses = d.fuses := rfl
@[simp] theorem Die.send_glb (o : Out) : (d.send o).glb = d.glb := rfl
@[simp] theorem Die.send_time (o : Out) : (d.send o).time = d.time := rfl
@[simp] theorem Die.send_latch (o : Out) : (d.send o).latch = d.latch := rfl
@[simp] theorem Die.send_iss (o : Out) : (d.send o).iss = d.iss := rfl
@[simp] theorem Die.send_st (o : Out) : (d.send o).st = d.st := rfl
@[simp] theorem Die.send_te0 (o : Out) : (d.send o).te0 = d.te0 := rfl
@[simp] theorem Die.send_te1 (o : Out) : (d.send o).te1 = d.te1 := rfl
@[simp] theorem Die.send_vec (o : Out) : (d.send o).vec = d.vec := rfl
@[simp] theorem Die.send_fln (o : Out) : (d.send o).fln = d.fln := rfl
@[simp] theorem Die.send_mca (o : Out) : (d.send o).mca = d.mca := rfl
@[simp] theorem Die.send_pst (o : Out) : (d.send o).pst = d.pst := rfl
@[simp] theorem Die.send_xfr (o : Out) : (d.send o).xfr = d.xfr := rfl
@[simp] theorem Die.send_hbm (o : Out) : (d.send o).hbm = d.hbm := rfl
@[simp] theorem Die.send_ing (o : Out) : (d.send o).ing = d.ing := rfl
@[simp] theorem Die.send_kvp (o : Out) : (d.send o).kvp = d.kvp := rfl
@[simp] theorem Die.send_fld (o : Out) : (d.send o).fld = d.fld := rfl
@[simp] theorem Die.send_nwt (o : Out) : (d.send o).nwt = d.nwt := rfl
@[simp] theorem Die.send_ctx (o : Out) : (d.send o).ctx = d.ctx := rfl
@[simp] theorem Die.send_fab (o : Out) : (d.send o).fab = d.fab := rfl
@[simp] theorem Die.send_sec (o : Out) : (d.send o).sec = d.sec := rfl
@[simp] theorem Die.send_mgmt (o : Out) : (d.send o).mgmt = d.mgmt := rfl
@[simp] theorem Die.send_pwr (o : Out) : (d.send o).pwr = d.pwr := rfl
@[simp] theorem Die.send_boot (o : Out) : (d.send o).boot = d.boot := rfl
@[simp] theorem Die.send_err (o : Out) : (d.send o).err = d.err := rfl
@[simp] theorem Die.send_freeCtr (o : Out) : (d.send o).freeCtr = d.freeCtr := rfl
@[simp] theorem Die.send_seen (o : Out) : (d.send o).seen = d.seen := rfl
@[simp] theorem Die.send_slot (o : Out) (k : Nat) : (d.send o).slot k = d.slot k := rfl
@[simp] theorem Die.send_prot (o : Out) (k : Nat) : (d.send o).prot k = d.prot k := rfl
@[simp] theorem Die.send_thread (o : Out) (k : Nat) : (d.send o).thread k = d.thread k := rfl
@[simp] theorem Die.send_tally (o : Out) (k : Nat) : (d.send o).tally k = d.tally k := rfl
@[simp] theorem Die.send_stream (o : Out) (k : Nat) : (d.send o).stream k = d.stream k := rfl
@[simp] theorem Die.send_loop (o : Out) (k : Nat) : (d.send o).loop k = d.loop k := rfl
@[simp] theorem Die.send_fport (o : Out) (k : Nat) : (d.send o).fport k = d.fport k := rfl
@[simp] theorem Die.send_tport (o : Out) (k : Nat) : (d.send o).tport k = d.tport k := rfl
@[simp] theorem Die.send_page (o : Out) (k : Nat) : (d.send o).page k = d.page k := rfl
@[simp] theorem Die.send_seq (o : Out) (k : Nat) : (d.send o).seq k = d.seq k := rfl
@[simp] theorem Die.send_kvCmd (o : Out) (k : Nat) : (d.send o).kvCmd k = d.kvCmd k := rfl

@[simp] theorem Die.send_out (o : Out) : (d.send o).out = o :: d.out := rfl

/-! ### A message of the host's class moves the round of module 0 -/

@[simp] theorem Die.sendHost_fuses (o : Out) : (d.sendHost o).fuses = d.fuses := rfl
@[simp] theorem Die.sendHost_glb (o : Out) : (d.sendHost o).glb = d.glb := rfl
@[simp] theorem Die.sendHost_time (o : Out) : (d.sendHost o).time = d.time := rfl
@[simp] theorem Die.sendHost_latch (o : Out) : (d.sendHost o).latch = d.latch := rfl
@[simp] theorem Die.sendHost_iss (o : Out) : (d.sendHost o).iss = d.iss := rfl
@[simp] theorem Die.sendHost_st (o : Out) : (d.sendHost o).st = d.st := rfl
@[simp] theorem Die.sendHost_te0 (o : Out) : (d.sendHost o).te0 = d.te0 := rfl
@[simp] theorem Die.sendHost_te1 (o : Out) : (d.sendHost o).te1 = d.te1 := rfl
@[simp] theorem Die.sendHost_vec (o : Out) : (d.sendHost o).vec = d.vec := rfl
@[simp] theorem Die.sendHost_fln (o : Out) : (d.sendHost o).fln = d.fln := rfl
@[simp] theorem Die.sendHost_mca (o : Out) : (d.sendHost o).mca = d.mca := rfl
@[simp] theorem Die.sendHost_pst (o : Out) : (d.sendHost o).pst = d.pst := rfl
@[simp] theorem Die.sendHost_xfr (o : Out) : (d.sendHost o).xfr = d.xfr := rfl
@[simp] theorem Die.sendHost_hbm (o : Out) : (d.sendHost o).hbm = d.hbm := rfl
@[simp] theorem Die.sendHost_ing (o : Out) : (d.sendHost o).ing = d.ing := rfl
@[simp] theorem Die.sendHost_kvp (o : Out) : (d.sendHost o).kvp = d.kvp := rfl
@[simp] theorem Die.sendHost_fld (o : Out) : (d.sendHost o).fld = d.fld := rfl
@[simp] theorem Die.sendHost_nwt (o : Out) : (d.sendHost o).nwt = d.nwt := rfl
@[simp] theorem Die.sendHost_ctx (o : Out) : (d.sendHost o).ctx = d.ctx := rfl
@[simp] theorem Die.sendHost_sec (o : Out) : (d.sendHost o).sec = d.sec := rfl
@[simp] theorem Die.sendHost_mgmt (o : Out) : (d.sendHost o).mgmt = d.mgmt := rfl
@[simp] theorem Die.sendHost_pwr (o : Out) : (d.sendHost o).pwr = d.pwr := rfl
@[simp] theorem Die.sendHost_boot (o : Out) : (d.sendHost o).boot = d.boot := rfl
@[simp] theorem Die.sendHost_err (o : Out) : (d.sendHost o).err = d.err := rfl
@[simp] theorem Die.sendHost_freeCtr (o : Out) : (d.sendHost o).freeCtr = d.freeCtr := rfl
@[simp] theorem Die.sendHost_seen (o : Out) : (d.sendHost o).seen = d.seen := rfl
@[simp] theorem Die.sendHost_slot (o : Out) (k : Nat) : (d.sendHost o).slot k = d.slot k := rfl
@[simp] theorem Die.sendHost_prot (o : Out) (k : Nat) : (d.sendHost o).prot k = d.prot k := rfl
@[simp] theorem Die.sendHost_thread (o : Out) (k : Nat) : (d.sendHost o).thread k = d.thread k := rfl
@[simp] theorem Die.sendHost_tally (o : Out) (k : Nat) : (d.sendHost o).tally k = d.tally k := rfl
@[simp] theorem Die.sendHost_stream (o : Out) (k : Nat) : (d.sendHost o).stream k = d.stream k := rfl
@[simp] theorem Die.sendHost_loop (o : Out) (k : Nat) : (d.sendHost o).loop k = d.loop k := rfl
@[simp] theorem Die.sendHost_fport (o : Out) (k : Nat) : (d.sendHost o).fport k = d.fport k := rfl
@[simp] theorem Die.sendHost_page (o : Out) (k : Nat) : (d.sendHost o).page k = d.page k := rfl
@[simp] theorem Die.sendHost_seq (o : Out) (k : Nat) : (d.sendHost o).seq k = d.seq k := rfl
@[simp] theorem Die.sendHost_kvCmd (o : Out) (k : Nat) : (d.sendHost o).kvCmd k = d.kvCmd k := rfl
@[simp] theorem Die.sendHost_tport (o : Out) (k : Nat) : (d.sendHost o).tport k = d.tport k := rfl
@[simp] theorem Die.sendHost_fab (o : Out) : (d.sendHost o).fab = { d.fab with modTurn := Tab.write 3 d.fab.modTurn 0 3 } := rfl
@[simp] theorem Die.sendHost_out (o : Out) : (d.sendHost o).out = o :: d.out := rfl

/-! ### intr is such a message, while the mainline is up -/

@[simp] theorem Die.intr_fuses (fn v : Nat) : (d.intr fn v).fuses = d.fuses := by unfold Die.intr; split <;> rfl
@[simp] theorem Die.intr_glb (fn v : Nat) : (d.intr fn v).glb = d.glb := by unfold Die.intr; split <;> rfl
@[simp] theorem Die.intr_time (fn v : Nat) : (d.intr fn v).time = d.time := by unfold Die.intr; split <;> rfl
@[simp] theorem Die.intr_latch (fn v : Nat) : (d.intr fn v).latch = d.latch := by unfold Die.intr; split <;> rfl
@[simp] theorem Die.intr_iss (fn v : Nat) : (d.intr fn v).iss = d.iss := by unfold Die.intr; split <;> rfl
@[simp] theorem Die.intr_st (fn v : Nat) : (d.intr fn v).st = d.st := by unfold Die.intr; split <;> rfl
@[simp] theorem Die.intr_te0 (fn v : Nat) : (d.intr fn v).te0 = d.te0 := by unfold Die.intr; split <;> rfl
@[simp] theorem Die.intr_te1 (fn v : Nat) : (d.intr fn v).te1 = d.te1 := by unfold Die.intr; split <;> rfl
@[simp] theorem Die.intr_vec (fn v : Nat) : (d.intr fn v).vec = d.vec := by unfold Die.intr; split <;> rfl
@[simp] theorem Die.intr_fln (fn v : Nat) : (d.intr fn v).fln = d.fln := by unfold Die.intr; split <;> rfl
@[simp] theorem Die.intr_mca (fn v : Nat) : (d.intr fn v).mca = d.mca := by unfold Die.intr; split <;> rfl
@[simp] theorem Die.intr_pst (fn v : Nat) : (d.intr fn v).pst = d.pst := by unfold Die.intr; split <;> rfl
@[simp] theorem Die.intr_xfr (fn v : Nat) : (d.intr fn v).xfr = d.xfr := by unfold Die.intr; split <;> rfl
@[simp] theorem Die.intr_hbm (fn v : Nat) : (d.intr fn v).hbm = d.hbm := by unfold Die.intr; split <;> rfl
@[simp] theorem Die.intr_ing (fn v : Nat) : (d.intr fn v).ing = d.ing := by unfold Die.intr; split <;> rfl
@[simp] theorem Die.intr_kvp (fn v : Nat) : (d.intr fn v).kvp = d.kvp := by unfold Die.intr; split <;> rfl
@[simp] theorem Die.intr_fld (fn v : Nat) : (d.intr fn v).fld = d.fld := by unfold Die.intr; split <;> rfl
@[simp] theorem Die.intr_nwt (fn v : Nat) : (d.intr fn v).nwt = d.nwt := by unfold Die.intr; split <;> rfl
@[simp] theorem Die.intr_ctx (fn v : Nat) : (d.intr fn v).ctx = d.ctx := by unfold Die.intr; split <;> rfl
@[simp] theorem Die.intr_sec (fn v : Nat) : (d.intr fn v).sec = d.sec := by unfold Die.intr; split <;> rfl
@[simp] theorem Die.intr_mgmt (fn v : Nat) : (d.intr fn v).mgmt = d.mgmt := by unfold Die.intr; split <;> rfl
@[simp] theorem Die.intr_pwr (fn v : Nat) : (d.intr fn v).pwr = d.pwr := by unfold Die.intr; split <;> rfl
@[simp] theorem Die.intr_boot (fn v : Nat) : (d.intr fn v).boot = d.boot := by unfold Die.intr; split <;> rfl
@[simp] theorem Die.intr_err (fn v : Nat) : (d.intr fn v).err = d.err := by unfold Die.intr; split <;> rfl
@[simp] theorem Die.intr_freeCtr (fn v : Nat) : (d.intr fn v).freeCtr = d.freeCtr := by unfold Die.intr; split <;> rfl
@[simp] theorem Die.intr_seen (fn v : Nat) : (d.intr fn v).seen = d.seen := by unfold Die.intr; split <;> rfl
@[simp] theorem Die.intr_slot (fn v : Nat) (k : Nat) : (d.intr fn v).slot k = d.slot k := by unfold Die.intr; split <;> rfl
@[simp] theorem Die.intr_prot (fn v : Nat) (k : Nat) : (d.intr fn v).prot k = d.prot k := by unfold Die.intr; split <;> rfl
@[simp] theorem Die.intr_thread (fn v : Nat) (k : Nat) : (d.intr fn v).thread k = d.thread k := by unfold Die.intr; split <;> rfl
@[simp] theorem Die.intr_tally (fn v : Nat) (k : Nat) : (d.intr fn v).tally k = d.tally k := by unfold Die.intr; split <;> rfl
@[simp] theorem Die.intr_stream (fn v : Nat) (k : Nat) : (d.intr fn v).stream k = d.stream k := by unfold Die.intr; split <;> rfl
@[simp] theorem Die.intr_loop (fn v : Nat) (k : Nat) : (d.intr fn v).loop k = d.loop k := by unfold Die.intr; split <;> rfl
@[simp] theorem Die.intr_fport (fn v : Nat) (k : Nat) : (d.intr fn v).fport k = d.fport k := by unfold Die.intr; split <;> rfl
@[simp] theorem Die.intr_page (fn v : Nat) (k : Nat) : (d.intr fn v).page k = d.page k := by unfold Die.intr; split <;> rfl
@[simp] theorem Die.intr_seq (fn v : Nat) (k : Nat) : (d.intr fn v).seq k = d.seq k := by unfold Die.intr; split <;> rfl
@[simp] theorem Die.intr_kvCmd (fn v : Nat) (k : Nat) : (d.intr fn v).kvCmd k = d.kvCmd k := by unfold Die.intr; split <;> rfl
@[simp] theorem Die.intr_tport (fn v : Nat) (k : Nat) : (d.intr fn v).tport k = d.tport k := by unfold Die.intr; split <;> rfl
@[simp] theorem Die.intr_fab_ports (fn v : Nat) : (d.intr fn v).fab.ports = d.fab.ports := by unfold Die.intr; split <;> rfl
@[simp] theorem Die.intr_fab_channels (fn v : Nat) : (d.intr fn v).fab.channels = d.fab.channels := by unfold Die.intr; split <;> rfl
@[simp] theorem Die.intr_fab_jobs (fn v : Nat) : (d.intr fn v).fab.jobs = d.fab.jobs := by unfold Die.intr; split <;> rfl
@[simp] theorem Die.intr_fab_routes (fn v : Nat) : (d.intr fn v).fab.routes = d.fab.routes := by unfold Die.intr; split <;> rfl
@[simp] theorem Die.intr_fab_addr (fn v : Nat) : (d.intr fn v).fab.addr = d.fab.addr := by unfold Die.intr; split <;> rfl
@[simp] theorem Die.intr_fab_timeout (fn v : Nat) : (d.intr fn v).fab.timeout = d.fab.timeout := by unfold Die.intr; split <;> rfl
@[simp] theorem Die.intr_fab_peerFails (fn v : Nat) : (d.intr fn v).fab.peerFails = d.fab.peerFails := by unfold Die.intr; split <;> rfl
theorem Die.intr_fab (fn v : Nat) :
    (d.intr fn v).fab = if d.mainline then { d.fab with modTurn := Tab.write 3 d.fab.modTurn 0 3 } else d.fab := by
  unfold Die.intr; split <;> rfl
theorem Die.intr_out (fn v : Nat) :
    (d.intr fn v).out = if d.mainline then .intr fn (BitVec.ofNat 8 v) :: d.out else d.out := by
  unfold Die.intr; split <;> rfl

/-! ### What every event brings with it -/

/-- GEN is all that `bump` may change. -/
theorem Die.bump_eq (old new : Die) : Die.bump old new = { new with mgmt := { new.mgmt with gen := (Die.bump old new).mgmt.gen } } := by
  unfold Die.bump; split <;> rfl

/-- The start of the holdoff is all that `holdoffFrom` may change. -/
theorem Die.holdoffFrom_eq : d.holdoffFrom = { d with pwr := { d.pwr with okSince := d.holdoffFrom.pwr.okSince } } := by
  unfold Die.holdoffFrom; split
  · split <;> rfl
  · split <;> rfl

/-- An event changes, beside its own effect, only GEN, the start of the holdoff, and what outstanding requests may have read. -/
theorem Die.afterEvent_eq (old new : Die) : Die.afterEvent old new = { new with
    mgmt := { new.mgmt with gen := (Die.afterEvent old new).mgmt.gen },
    pwr := { new.pwr with okSince := (Die.afterEvent old new).pwr.okSince },
    seen := Die.readable old new } := by
  unfold Die.afterEvent
  dsimp only
  rw [Die.holdoffFrom_eq, Die.bump_eq]

@[simp] theorem Die.afterEvent_seen (old new : Die) : (Die.afterEvent old new).seen = Die.readable old new := by rw [Die.afterEvent_eq]

@[simp] theorem Die.afterEvent_fuses (old new : Die) : (Die.afterEvent old new).fuses = new.fuses := by rw [Die.afterEvent_eq]
@[simp] theorem Die.afterEvent_glb (old new : Die) : (Die.afterEvent old new).glb = new.glb := by rw [Die.afterEvent_eq]
@[simp] theorem Die.afterEvent_time (old new : Die) : (Die.afterEvent old new).time = new.time := by rw [Die.afterEvent_eq]
@[simp] theorem Die.afterEvent_latch (old new : Die) : (Die.afterEvent old new).latch = new.latch := by rw [Die.afterEvent_eq]
@[simp] theorem Die.afterEvent_iss (old new : Die) : (Die.afterEvent old new).iss = new.iss := by rw [Die.afterEvent_eq]
@[simp] theorem Die.afterEvent_st (old new : Die) : (Die.afterEvent old new).st = new.st := by rw [Die.afterEvent_eq]
@[simp] theorem Die.afterEvent_te0 (old new : Die) : (Die.afterEvent old new).te0 = new.te0 := by rw [Die.afterEvent_eq]
@[simp] theorem Die.afterEvent_te1 (old new : Die) : (Die.afterEvent old new).te1 = new.te1 := by rw [Die.afterEvent_eq]
@[simp] theorem Die.afterEvent_vec (old new : Die) : (Die.afterEvent old new).vec = new.vec := by rw [Die.afterEvent_eq]
@[simp] theorem Die.afterEvent_fln (old new : Die) : (Die.afterEvent old new).fln = new.fln := by rw [Die.afterEvent_eq]
@[simp] theorem Die.afterEvent_mca (old new : Die) : (Die.afterEvent old new).mca = new.mca := by rw [Die.afterEvent_eq]
@[simp] theorem Die.afterEvent_pst (old new : Die) : (Die.afterEvent old new).pst = new.pst := by rw [Die.afterEvent_eq]
@[simp] theorem Die.afterEvent_xfr (old new : Die) : (Die.afterEvent old new).xfr = new.xfr := by rw [Die.afterEvent_eq]
@[simp] theorem Die.afterEvent_hbm (old new : Die) : (Die.afterEvent old new).hbm = new.hbm := by rw [Die.afterEvent_eq]
@[simp] theorem Die.afterEvent_ing (old new : Die) : (Die.afterEvent old new).ing = new.ing := by rw [Die.afterEvent_eq]
@[simp] theorem Die.afterEvent_kvp (old new : Die) : (Die.afterEvent old new).kvp = new.kvp := by rw [Die.afterEvent_eq]
@[simp] theorem Die.afterEvent_fld (old new : Die) : (Die.afterEvent old new).fld = new.fld := by rw [Die.afterEvent_eq]
@[simp] theorem Die.afterEvent_nwt (old new : Die) : (Die.afterEvent old new).nwt = new.nwt := by rw [Die.afterEvent_eq]
@[simp] theorem Die.afterEvent_ctx (old new : Die) : (Die.afterEvent old new).ctx = new.ctx := by rw [Die.afterEvent_eq]
@[simp] theorem Die.afterEvent_fab (old new : Die) : (Die.afterEvent old new).fab = new.fab := by rw [Die.afterEvent_eq]
@[simp] theorem Die.afterEvent_sec (old new : Die) : (Die.afterEvent old new).sec = new.sec := by rw [Die.afterEvent_eq]
@[simp] theorem Die.afterEvent_boot (old new : Die) : (Die.afterEvent old new).boot = new.boot := by rw [Die.afterEvent_eq]
@[simp] theorem Die.afterEvent_err (old new : Die) : (Die.afterEvent old new).err = new.err := by rw [Die.afterEvent_eq]
@[simp] theorem Die.afterEvent_out (old new : Die) : (Die.afterEvent old new).out = new.out := by rw [Die.afterEvent_eq]
@[simp] theorem Die.afterEvent_freeCtr (old new : Die) : (Die.afterEvent old new).freeCtr = new.freeCtr := by rw [Die.afterEvent_eq]

/-- A command's answer, and the queue. -/
theorem State.act_eq (s : State) (f : Die → Die) : s.act f = .next { s with die := Die.afterEvent s.die (f s.die) } := rfl

theorem State.act_inj {s t : State} {f : Die → Die} (h : s.act f = .next t) : t = { s with die := Die.afterEvent s.die (f s.die) } := by
  rw [State.act_eq] at h; exact (Host.Outcome.next.inj h).symm

/-! ### The memories and tables after reset -/

theorem State.reset_queue : State.reset.pending = [] := rfl
theorem State.reset_ws0 : Memory.wf State.reset.die.st.ws0 = true := rfl
theorem State.reset_hbm : Memory.wf State.reset.die.st.hbm = true := rfl
theorem State.reset_slots : Tab.wf {} State.reset.die.ctx.slots = true := rfl

end Sys2Proof.Machine
end

