-- ==== Sys2Proof/Laws/Ops.lean ====
section
/-! SUPPORT. What the shared operations leave alone, field by field: tallies, fault records, the end of a context, the check code,
departures. A proof about a command cites these and does not unfold the operation. -/

namespace Sys2Proof.Machine

variable (d : Die)


/-! ### record. An event of R597 touches its record, what is due for flash, the events of its cycle, and the interrupts. -/

@[simp] theorem Die.recordEvent_fuses (i : Nat) (r : Rec) : (d.recordEvent i r).fuses = d.fuses := by
  unfold Die.recordEvent
  dsimp only
  repeat (first | split | simp)
@[simp] theorem Die.recordEvent_glb (i : Nat) (r : Rec) : (d.recordEvent i r).glb = d.glb := by
  unfold Die.recordEvent
  dsimp only
  repeat (first | split | simp)
@[simp] theorem Die.recordEvent_time (i : Nat) (r : Rec) : (d.recordEvent i r).time = d.time := by
  unfold Die.recordEvent
  dsimp only
  repeat (first | split | simp)
@[simp] theorem Die.recordEvent_latch (i : Nat) (r : Rec) : (d.recordEvent i r).latch = d.latch := by
  unfold Die.recordEvent
  dsimp only
  repeat (first | split | simp)
@[simp] theorem Die.recordEvent_iss (i : Nat) (r : Rec) : (d.recordEvent i r).iss = d.iss := by
  unfold Die.recordEvent
  dsimp only
  repeat (first | split | simp)
@[simp] theorem Die.recordEvent_st (i : Nat) (r : Rec) : (d.recordEvent i r).st = d.st := by
  unfold Die.recordEvent
  dsimp only
  repeat (first | split | simp)
@[simp] theorem Die.recordEvent_te0 (i : Nat) (r : Rec) : (d.recordEvent i r).te0 = d.te0 := by
  unfold Die.recordEvent
  dsimp only
  repeat (first | split | simp)
@[simp] theorem Die.recordEvent_te1 (i : Nat) (r : Rec) : (d.recordEvent i r).te1 = d.te1 := by
  unfold Die.recordEvent
  dsimp only
  repeat (first | split | simp)
@[simp] theorem Die.recordEvent_vec (i : Nat) (r : Rec) : (d.recordEvent i r).vec = d.vec := by
  unfold Die.recordEvent
  dsimp only
  repeat (first | split | simp)
@[simp] theorem Die.recordEvent_fln (i : Nat) (r : Rec) : (d.recordEvent i r).fln = d.fln := by
  unfold Die.recordEvent
  dsimp only
  repeat (first | split | simp)
@[simp] theorem Die.recordEvent_mca (i : Nat) (r : Rec) : (d.recordEvent i r).mca = d.mca := by
  unfold Die.recordEvent
  dsimp only
  repeat (first | split | simp)
@[simp] theorem Die.recordEvent_pst (i : Nat) (r : Rec) : (d.recordEvent i r).pst = d.pst := by
  unfold Die.recordEvent
  dsimp only
  repeat (first | split | simp)
@[simp] theorem Die.recordEvent_xfr (i : Nat) (r : Rec) : (d.recordEvent i r).xfr = d.xfr := by
  unfold Die.recordEvent
  dsimp only
  repeat (first | split | simp)
@[simp] theorem Die.recordEvent_hbm (i : Nat) (r : Rec) : (d.recordEvent i r).hbm = d.hbm := by
  unfold Die.recordEvent
  dsimp only
  repeat (first | split | simp)
@[simp] theorem Die.recordEvent_ing (i : Nat) (r : Rec) : (d.recordEvent i r).ing = d.ing := by
  unfold Die.recordEvent
  dsimp only
  repeat (first | split | simp)
@[simp] theorem Die.recordEvent_kvp (i : Nat) (r : Rec) : (d.recordEvent i r).kvp = d.kvp := by
  unfold Die.recordEvent
  dsimp only
  repeat (first | split | simp)
@[simp] theorem Die.recordEvent_fld (i : Nat) (r : Rec) : (d.recordEvent i r).fld = d.fld := by
  unfold Die.recordEvent
  dsimp only
  repeat (first | split | simp)
@[simp] theorem Die.recordEvent_nwt (i : Nat) (r : Rec) : (d.recordEvent i r).nwt = d.nwt := by
  unfold Die.recordEvent
  dsimp only
  repeat (first | split | simp)
@[simp] theorem Die.recordEvent_ctx (i : Nat) (r : Rec) : (d.recordEvent i r).ctx = d.ctx := by
  unfold Die.recordEvent
  dsimp only
  repeat (first | split | simp)
@[simp] theorem Die.recordEvent_sec (i : Nat) (r : Rec) : (d.recordEvent i r).sec = d.sec := by
  unfold Die.recordEvent
  dsimp only
  repeat (first | split | simp)
@[simp] theorem Die.recordEvent_mgmt (i : Nat) (r : Rec) : (d.recordEvent i r).mgmt = d.mgmt := by
  unfold Die.recordEvent
  dsimp only
  repeat (first | split | simp)
@[simp] theorem Die.recordEvent_pwr (i : Nat) (r : Rec) : (d.recordEvent i r).pwr = d.pwr := by
  unfold Die.recordEvent
  dsimp only
  repeat (first | split | simp)
@[simp] theorem Die.recordEvent_boot (i : Nat) (r : Rec) : (d.recordEvent i r).boot = d.boot := by
  unfold Die.recordEvent
  dsimp only
  repeat (first | split | simp)
@[simp] theorem Die.recordEvent_seen (i : Nat) (r : Rec) : (d.recordEvent i r).seen = d.seen := by
  unfold Die.recordEvent
  dsimp only
  repeat (first | split | simp)
@[simp] theorem Die.recordEvent_freeCtr (i : Nat) (r : Rec) : (d.recordEvent i r).freeCtr = d.freeCtr := by
  unfold Die.recordEvent
  dsimp only
  repeat (first | split | simp)
@[simp] theorem Die.recordEvent_fab_ports (i : Nat) (r : Rec) : (d.recordEvent i r).fab.ports = d.fab.ports := by
  unfold Die.recordEvent
  dsimp only
  repeat (first | split | simp)
@[simp] theorem Die.recordEvent_fab_channels (i : Nat) (r : Rec) : (d.recordEvent i r).fab.channels = d.fab.channels := by
  unfold Die.recordEvent
  dsimp only
  repeat (first | split | simp)
@[simp] theorem Die.recordEvent_fab_jobs (i : Nat) (r : Rec) : (d.recordEvent i r).fab.jobs = d.fab.jobs := by
  unfold Die.recordEvent
  dsimp only
  repeat (first | split | simp)
@[simp] theorem Die.recordEvent_fab_routes (i : Nat) (r : Rec) : (d.recordEvent i r).fab.routes = d.fab.routes := by
  unfold Die.recordEvent
  dsimp only
  repeat (first | split | simp)
@[simp] theorem Die.recordEvent_fab_addr (i : Nat) (r : Rec) : (d.recordEvent i r).fab.addr = d.fab.addr := by
  unfold Die.recordEvent
  dsimp only
  repeat (first | split | simp)
@[simp] theorem Die.recordEvent_fab_timeout (i : Nat) (r : Rec) : (d.recordEvent i r).fab.timeout = d.fab.timeout := by
  unfold Die.recordEvent
  dsimp only
  repeat (first | split | simp)
@[simp] theorem Die.recordEvent_fab_peerFails (i : Nat) (r : Rec) : (d.recordEvent i r).fab.peerFails = d.fab.peerFails := by
  unfold Die.recordEvent
  dsimp only
  repeat (first | split | simp)

/-! ### keepFirst. Which event is the first capture touches records alone (R597). -/

@[simp] theorem Die.keepFirst_fuses (i : Nat) : (d.keepFirst i).fuses = d.fuses := by
  unfold Die.keepFirst
  dsimp only
  repeat (first | split | simp)
@[simp] theorem Die.keepFirst_glb (i : Nat) : (d.keepFirst i).glb = d.glb := by
  unfold Die.keepFirst
  dsimp only
  repeat (first | split | simp)
@[simp] theorem Die.keepFirst_time (i : Nat) : (d.keepFirst i).time = d.time := by
  unfold Die.keepFirst
  dsimp only
  repeat (first | split | simp)
@[simp] theorem Die.keepFirst_latch (i : Nat) : (d.keepFirst i).latch = d.latch := by
  unfold Die.keepFirst
  dsimp only
  repeat (first | split | simp)
@[simp] theorem Die.keepFirst_iss (i : Nat) : (d.keepFirst i).iss = d.iss := by
  unfold Die.keepFirst
  dsimp only
  repeat (first | split | simp)
@[simp] theorem Die.keepFirst_st (i : Nat) : (d.keepFirst i).st = d.st := by
  unfold Die.keepFirst
  dsimp only
  repeat (first | split | simp)
@[simp] theorem Die.keepFirst_te0 (i : Nat) : (d.keepFirst i).te0 = d.te0 := by
  unfold Die.keepFirst
  dsimp only
  repeat (first | split | simp)
@[simp] theorem Die.keepFirst_te1 (i : Nat) : (d.keepFirst i).te1 = d.te1 := by
  unfold Die.keepFirst
  dsimp only
  repeat (first | split | simp)
@[simp] theorem Die.keepFirst_vec (i : Nat) : (d.keepFirst i).vec = d.vec := by
  unfold Die.keepFirst
  dsimp only
  repeat (first | split | simp)
@[simp] theorem Die.keepFirst_fln (i : Nat) : (d.keepFirst i).fln = d.fln := by
  unfold Die.keepFirst
  dsimp only
  repeat (first | split | simp)
@[simp] theorem Die.keepFirst_mca (i : Nat) : (d.keepFirst i).mca = d.mca := by
  unfold Die.keepFirst
  dsimp only
  repeat (first | split | simp)
@[simp] theorem Die.keepFirst_pst (i : Nat) : (d.keepFirst i).pst = d.pst := by
  unfold Die.keepFirst
  dsimp only
  repeat (first | split | simp)
@[simp] theorem Die.keepFirst_xfr (i : Nat) : (d.keepFirst i).xfr = d.xfr := by
  unfold Die.keepFirst
  dsimp only
  repeat (first | split | simp)
@[simp] theorem Die.keepFirst_hbm (i : Nat) : (d.keepFirst i).hbm = d.hbm := by
  unfold Die.keepFirst
  dsimp only
  repeat (first | split | simp)
@[simp] theorem Die.keepFirst_ing (i : Nat) : (d.keepFirst i).ing = d.ing := by
  unfold Die.keepFirst
  dsimp only
  repeat (first | split | simp)
@[simp] theorem Die.keepFirst_kvp (i : Nat) : (d.keepFirst i).kvp = d.kvp := by
  unfold Die.keepFirst
  dsimp only
  repeat (first | split | simp)
@[simp] theorem Die.keepFirst_fld (i : Nat) : (d.keepFirst i).fld = d.fld := by
  unfold Die.keepFirst
  dsimp only
  repeat (first | split | simp)
@[simp] theorem Die.keepFirst_nwt (i : Nat) : (d.keepFirst i).nwt = d.nwt := by
  unfold Die.keepFirst
  dsimp only
  repeat (first | split | simp)
@[simp] theorem Die.keepFirst_ctx (i : Nat) : (d.keepFirst i).ctx = d.ctx := by
  unfold Die.keepFirst
  dsimp only
  repeat (first | split | simp)
@[simp] theorem Die.keepFirst_sec (i : Nat) : (d.keepFirst i).sec = d.sec := by
  unfold Die.keepFirst
  dsimp only
  repeat (first | split | simp)
@[simp] theorem Die.keepFirst_mgmt (i : Nat) : (d.keepFirst i).mgmt = d.mgmt := by
  unfold Die.keepFirst
  dsimp only
  repeat (first | split | simp)
@[simp] theorem Die.keepFirst_pwr (i : Nat) : (d.keepFirst i).pwr = d.pwr := by
  unfold Die.keepFirst
  dsimp only
  repeat (first | split | simp)
@[simp] theorem Die.keepFirst_boot (i : Nat) : (d.keepFirst i).boot = d.boot := by
  unfold Die.keepFirst
  dsimp only
  repeat (first | split | simp)
@[simp] theorem Die.keepFirst_seen (i : Nat) : (d.keepFirst i).seen = d.seen := by
  unfold Die.keepFirst
  dsimp only
  repeat (first | split | simp)
@[simp] theorem Die.keepFirst_freeCtr (i : Nat) : (d.keepFirst i).freeCtr = d.freeCtr := by
  unfold Die.keepFirst
  dsimp only
  repeat (first | split | simp)
@[simp] theorem Die.keepFirst_fab_ports (i : Nat) : (d.keepFirst i).fab.ports = d.fab.ports := by
  unfold Die.keepFirst
  dsimp only
  repeat (first | split | simp)
@[simp] theorem Die.keepFirst_fab_channels (i : Nat) : (d.keepFirst i).fab.channels = d.fab.channels := by
  unfold Die.keepFirst
  dsimp only
  repeat (first | split | simp)
@[simp] theorem Die.keepFirst_fab_jobs (i : Nat) : (d.keepFirst i).fab.jobs = d.fab.jobs := by
  unfold Die.keepFirst
  dsimp only
  repeat (first | split | simp)
@[simp] theorem Die.keepFirst_fab_routes (i : Nat) : (d.keepFirst i).fab.routes = d.fab.routes := by
  unfold Die.keepFirst
  dsimp only
  repeat (first | split | simp)
@[simp] theorem Die.keepFirst_fab_addr (i : Nat) : (d.keepFirst i).fab.addr = d.fab.addr := by
  unfold Die.keepFirst
  dsimp only
  repeat (first | split | simp)
@[simp] theorem Die.keepFirst_fab_timeout (i : Nat) : (d.keepFirst i).fab.timeout = d.fab.timeout := by
  unfold Die.keepFirst
  dsimp only
  repeat (first | split | simp)
@[simp] theorem Die.keepFirst_fab_peerFails (i : Nat) : (d.keepFirst i).fab.peerFails = d.fab.peerFails := by
  unfold Die.keepFirst
  dsimp only
  repeat (first | split | simp)
@[simp] theorem Die.keepFirst_fab (i : Nat) : (d.keepFirst i).fab = d.fab := by
  unfold Die.keepFirst
  dsimp only
  repeat (first | split | simp)
@[simp] theorem Die.keepFirst_out (i : Nat) : (d.keepFirst i).out = d.out := by
  unfold Die.keepFirst
  dsimp only
  repeat (first | split | simp)

@[simp] theorem Die.record_fuses (i c : Nat) (sl : Option Nat) (f0 f1 f2 f3 : Nat) : (d.record i c sl f0 f1 f2 f3).fuses = d.fuses := by
  unfold Die.record
  dsimp only
  repeat (first | split | simp)
@[simp] theorem Die.record_glb (i c : Nat) (sl : Option Nat) (f0 f1 f2 f3 : Nat) : (d.record i c sl f0 f1 f2 f3).glb = d.glb := by
  unfold Die.record
  dsimp only
  repeat (first | split | simp)
@[simp] theorem Die.record_time (i c : Nat) (sl : Option Nat) (f0 f1 f2 f3 : Nat) : (d.record i c sl f0 f1 f2 f3).time = d.time := by
  unfold Die.record
  dsimp only
  repeat (first | split | simp)
@[simp] theorem Die.record_latch (i c : Nat) (sl : Option Nat) (f0 f1 f2 f3 : Nat) : (d.record i c sl f0 f1 f2 f3).latch = d.latch := by
  unfold Die.record
  dsimp only
  repeat (first | split | simp)
@[simp] theorem Die.record_iss (i c : Nat) (sl : Option Nat) (f0 f1 f2 f3 : Nat) : (d.record i c sl f0 f1 f2 f3).iss = d.iss := by
  unfold Die.record
  dsimp only
  repeat (first | split | simp)
@[simp] theorem Die.record_st (i c : Nat) (sl : Option Nat) (f0 f1 f2 f3 : Nat) : (d.record i c sl f0 f1 f2 f3).st = d.st := by
  unfold Die.record
  dsimp only
  repeat (first | split | simp)
@[simp] theorem Die.record_te0 (i c : Nat) (sl : Option Nat) (f0 f1 f2 f3 : Nat) : (d.record i c sl f0 f1 f2 f3).te0 = d.te0 := by
  unfold Die.record
  dsimp only
  repeat (first | split | simp)
@[simp] theorem Die.record_te1 (i c : Nat) (sl : Option Nat) (f0 f1 f2 f3 : Nat) : (d.record i c sl f0 f1 f2 f3).te1 = d.te1 := by
  unfold Die.record
  dsimp only
  repeat (first | split | simp)
@[simp] theorem Die.record_vec (i c : Nat) (sl : Option Nat) (f0 f1 f2 f3 : Nat) : (d.record i c sl f0 f1 f2 f3).vec = d.vec := by
  unfold Die.record
  dsimp only
  repeat (first | split | simp)
@[simp] theorem Die.record_fln (i c : Nat) (sl : Option Nat) (f0 f1 f2 f3 : Nat) : (d.record i c sl f0 f1 f2 f3).fln = d.fln := by
  unfold Die.record
  dsimp only
  repeat (first | split | simp)
@[simp] theorem Die.record_mca (i c : Nat) (sl : Option Nat) (f0 f1 f2 f3 : Nat) : (d.record i c sl f0 f1 f2 f3).mca = d.mca := by
  unfold Die.record
  dsimp only
  repeat (first | split | simp)
@[simp] theorem Die.record_pst (i c : Nat) (sl : Option Nat) (f0 f1 f2 f3 : Nat) : (d.record i c sl f0 f1 f2 f3).pst = d.pst := by
  unfold Die.record
  dsimp only
  repeat (first | split | simp)
@[simp] theorem Die.record_xfr (i c : Nat) (sl : Option Nat) (f0 f1 f2 f3 : Nat) : (d.record i c sl f0 f1 f2 f3).xfr = d.xfr := by
  unfold Die.record
  dsimp only
  repeat (first | split | simp)
@[simp] theorem Die.record_hbm (i c : Nat) (sl : Option Nat) (f0 f1 f2 f3 : Nat) : (d.record i c sl f0 f1 f2 f3).hbm = d.hbm := by
  unfold Die.record
  dsimp only
  repeat (first | split | simp)
@[simp] theorem Die.record_ing (i c : Nat) (sl : Option Nat) (f0 f1 f2 f3 : Nat) : (d.record i c sl f0 f1 f2 f3).ing = d.ing := by
  unfold Die.record
  dsimp only
  repeat (first | split | simp)
@[simp] theorem Die.record_kvp (i c : Nat) (sl : Option Nat) (f0 f1 f2 f3 : Nat) : (d.record i c sl f0 f1 f2 f3).kvp = d.kvp := by
  unfold Die.record
  dsimp only
  repeat (first | split | simp)
@[simp] theorem Die.record_fld (i c : Nat) (sl : Option Nat) (f0 f1 f2 f3 : Nat) : (d.record i c sl f0 f1 f2 f3).fld = d.fld := by
  unfold Die.record
  dsimp only
  repeat (first | split | simp)
@[simp] theorem Die.record_nwt (i c : Nat) (sl : Option Nat) (f0 f1 f2 f3 : Nat) : (d.record i c sl f0 f1 f2 f3).nwt = d.nwt := by
  unfold Die.record
  dsimp only
  repeat (first | split | simp)
@[simp] theorem Die.record_ctx (i c : Nat) (sl : Option Nat) (f0 f1 f2 f3 : Nat) : (d.record i c sl f0 f1 f2 f3).ctx = d.ctx := by
  unfold Die.record
  dsimp only
  repeat (first | split | simp)
@[simp] theorem Die.record_sec (i c : Nat) (sl : Option Nat) (f0 f1 f2 f3 : Nat) : (d.record i c sl f0 f1 f2 f3).sec = d.sec := by
  unfold Die.record
  dsimp only
  repeat (first | split | simp)
@[simp] theorem Die.record_mgmt (i c : Nat) (sl : Option Nat) (f0 f1 f2 f3 : Nat) : (d.record i c sl f0 f1 f2 f3).mgmt = d.mgmt := by
  unfold Die.record
  dsimp only
  repeat (first | split | simp)
@[simp] theorem Die.record_pwr (i c : Nat) (sl : Option Nat) (f0 f1 f2 f3 : Nat) : (d.record i c sl f0 f1 f2 f3).pwr = d.pwr := by
  unfold Die.record
  dsimp only
  repeat (first | split | simp)
@[simp] theorem Die.record_boot (i c : Nat) (sl : Option Nat) (f0 f1 f2 f3 : Nat) : (d.record i c sl f0 f1 f2 f3).boot = d.boot := by
  unfold Die.record
  dsimp only
  repeat (first | split | simp)
@[simp] theorem Die.record_seen (i c : Nat) (sl : Option Nat) (f0 f1 f2 f3 : Nat) : (d.record i c sl f0 f1 f2 f3).seen = d.seen := by
  unfold Die.record
  dsimp only
  repeat (first | split | simp)
@[simp] theorem Die.record_freeCtr (i c : Nat) (sl : Option Nat) (f0 f1 f2 f3 : Nat) : (d.record i c sl f0 f1 f2 f3).freeCtr = d.freeCtr := by
  unfold Die.record
  dsimp only
  repeat (first | split | simp)
@[simp] theorem Die.record_fab_ports (i c : Nat) (sl : Option Nat) (f0 f1 f2 f3 : Nat) : (d.record i c sl f0 f1 f2 f3).fab.ports = d.fab.ports := by
  unfold Die.record
  dsimp only
  repeat (first | split | simp)
@[simp] theorem Die.record_fab_channels (i c : Nat) (sl : Option Nat) (f0 f1 f2 f3 : Nat) : (d.record i c sl f0 f1 f2 f3).fab.channels = d.fab.channels := by
  unfold Die.record
  dsimp only
  repeat (first | split | simp)
@[simp] theorem Die.record_fab_jobs (i c : Nat) (sl : Option Nat) (f0 f1 f2 f3 : Nat) : (d.record i c sl f0 f1 f2 f3).fab.jobs = d.fab.jobs := by
  unfold Die.record
  dsimp only
  repeat (first | split | simp)
@[simp] theorem Die.record_fab_routes (i c : Nat) (sl : Option Nat) (f0 f1 f2 f3 : Nat) : (d.record i c sl f0 f1 f2 f3).fab.routes = d.fab.routes := by
  unfold Die.record
  dsimp only
  repeat (first | split | simp)
@[simp] theorem Die.record_fab_addr (i c : Nat) (sl : Option Nat) (f0 f1 f2 f3 : Nat) : (d.record i c sl f0 f1 f2 f3).fab.addr = d.fab.addr := by
  unfold Die.record
  dsimp only
  repeat (first | split | simp)
@[simp] theorem Die.record_fab_timeout (i c : Nat) (sl : Option Nat) (f0 f1 f2 f3 : Nat) : (d.record i c sl f0 f1 f2 f3).fab.timeout = d.fab.timeout := by
  unfold Die.record
  dsimp only
  repeat (first | split | simp)
@[simp] theorem Die.record_fab_peerFails (i c : Nat) (sl : Option Nat) (f0 f1 f2 f3 : Nat) : (d.record i c sl f0 f1 f2 f3).fab.peerFails = d.fab.peerFails := by
  unfold Die.record
  dsimp only
  repeat (first | split | simp)

/-! ### tallyAdd. Tallies are all that an increment touches (R49). -/

@[simp] theorem Die.tallyAdd_fuses (p n : Nat) : (d.tallyAdd p n).fuses = d.fuses := by
  unfold Die.tallyAdd
  try dsimp only
  repeat (first | split | simp)
@[simp] theorem Die.tallyAdd_glb (p n : Nat) : (d.tallyAdd p n).glb = d.glb := by
  unfold Die.tallyAdd
  try dsimp only
  repeat (first | split | simp)
@[simp] theorem Die.tallyAdd_time (p n : Nat) : (d.tallyAdd p n).time = d.time := by
  unfold Die.tallyAdd
  try dsimp only
  repeat (first | split | simp)
@[simp] theorem Die.tallyAdd_latch (p n : Nat) : (d.tallyAdd p n).latch = d.latch := by
  unfold Die.tallyAdd
  try dsimp only
  repeat (first | split | simp)
@[simp] theorem Die.tallyAdd_st (p n : Nat) : (d.tallyAdd p n).st = d.st := by
  unfold Die.tallyAdd
  try dsimp only
  repeat (first | split | simp)
@[simp] theorem Die.tallyAdd_te0 (p n : Nat) : (d.tallyAdd p n).te0 = d.te0 := by
  unfold Die.tallyAdd
  try dsimp only
  repeat (first | split | simp)
@[simp] theorem Die.tallyAdd_te1 (p n : Nat) : (d.tallyAdd p n).te1 = d.te1 := by
  unfold Die.tallyAdd
  try dsimp only
  repeat (first | split | simp)
@[simp] theorem Die.tallyAdd_vec (p n : Nat) : (d.tallyAdd p n).vec = d.vec := by
  unfold Die.tallyAdd
  try dsimp only
  repeat (first | split | simp)
@[simp] theorem Die.tallyAdd_fln (p n : Nat) : (d.tallyAdd p n).fln = d.fln := by
  unfold Die.tallyAdd
  try dsimp only
  repeat (first | split | simp)
@[simp] theorem Die.tallyAdd_mca (p n : Nat) : (d.tallyAdd p n).mca = d.mca := by
  unfold Die.tallyAdd
  try dsimp only
  repeat (first | split | simp)
@[simp] theorem Die.tallyAdd_pst (p n : Nat) : (d.tallyAdd p n).pst = d.pst := by
  unfold Die.tallyAdd
  try dsimp only
  repeat (first | split | simp)
@[simp] theorem Die.tallyAdd_xfr (p n : Nat) : (d.tallyAdd p n).xfr = d.xfr := by
  unfold Die.tallyAdd
  try dsimp only
  repeat (first | split | simp)
@[simp] theorem Die.tallyAdd_hbm (p n : Nat) : (d.tallyAdd p n).hbm = d.hbm := by
  unfold Die.tallyAdd
  try dsimp only
  repeat (first | split | simp)
@[simp] theorem Die.tallyAdd_ing (p n : Nat) : (d.tallyAdd p n).ing = d.ing := by
  unfold Die.tallyAdd
  try dsimp only
  repeat (first | split | simp)
@[simp] theorem Die.tallyAdd_kvp (p n : Nat) : (d.tallyAdd p n).kvp = d.kvp := by
  unfold Die.tallyAdd
  try dsimp only
  repeat (first | split | simp)
@[simp] theorem Die.tallyAdd_fld (p n : Nat) : (d.tallyAdd p n).fld = d.fld := by
  unfold Die.tallyAdd
  try dsimp only
  repeat (first | split | simp)
@[simp] theorem Die.tallyAdd_nwt (p n : Nat) : (d.tallyAdd p n).nwt = d.nwt := by
  unfold Die.tallyAdd
  try dsimp only
  repeat (first | split | simp)
@[simp] theorem Die.tallyAdd_ctx (p n : Nat) : (d.tallyAdd p n).ctx = d.ctx := by
  unfold Die.tallyAdd
  try dsimp only
  repeat (first | split | simp)
@[simp] theorem Die.tallyAdd_fab (p n : Nat) : (d.tallyAdd p n).fab = d.fab := by
  unfold Die.tallyAdd
  try dsimp only
  repeat (first | split | simp)
@[simp] theorem Die.tallyAdd_sec (p n : Nat) : (d.tallyAdd p n).sec = d.sec := by
  unfold Die.tallyAdd
  try dsimp only
  repeat (first | split | simp)
@[simp] theorem Die.tallyAdd_mgmt (p n : Nat) : (d.tallyAdd p n).mgmt = d.mgmt := by
  unfold Die.tallyAdd
  try dsimp only
  repeat (first | split | simp)
@[simp] theorem Die.tallyAdd_pwr (p n : Nat) : (d.tallyAdd p n).pwr = d.pwr := by
  unfold Die.tallyAdd
  try dsimp only
  repeat (first | split | simp)
@[simp] theorem Die.tallyAdd_boot (p n : Nat) : (d.tallyAdd p n).boot = d.boot := by
  unfold Die.tallyAdd
  try dsimp only
  repeat (first | split | simp)
@[simp] theorem Die.tallyAdd_err (p n : Nat) : (d.tallyAdd p n).err = d.err := by
  unfold Die.tallyAdd
  try dsimp only
  repeat (first | split | simp)
@[simp] theorem Die.tallyAdd_out (p n : Nat) : (d.tallyAdd p n).out = d.out := by
  unfold Die.tallyAdd
  try dsimp only
  repeat (first | split | simp)
@[simp] theorem Die.tallyAdd_seen (p n : Nat) : (d.tallyAdd p n).seen = d.seen := by
  unfold Die.tallyAdd
  try dsimp only
  repeat (first | split | simp)
@[simp] theorem Die.tallyAdd_freeCtr (p n : Nat) : (d.tallyAdd p n).freeCtr = d.freeCtr := by
  unfold Die.tallyAdd
  try dsimp only
  repeat (first | split | simp)

/-! ### tallyErr. An error bit (R55). -/

@[simp] theorem Die.tallyErr_fuses (p c : Nat) : (d.tallyErr p c).fuses = d.fuses := by
  unfold Die.tallyErr
  try dsimp only
  repeat (first | split | simp)
@[simp] theorem Die.tallyErr_glb (p c : Nat) : (d.tallyErr p c).glb = d.glb := by
  unfold Die.tallyErr
  try dsimp only
  repeat (first | split | simp)
@[simp] theorem Die.tallyErr_time (p c : Nat) : (d.tallyErr p c).time = d.time := by
  unfold Die.tallyErr
  try dsimp only
  repeat (first | split | simp)
@[simp] theorem Die.tallyErr_latch (p c : Nat) : (d.tallyErr p c).latch = d.latch := by
  unfold Die.tallyErr
  try dsimp only
  repeat (first | split | simp)
@[simp] theorem Die.tallyErr_st (p c : Nat) : (d.tallyErr p c).st = d.st := by
  unfold Die.tallyErr
  try dsimp only
  repeat (first | split | simp)
@[simp] theorem Die.tallyErr_te0 (p c : Nat) : (d.tallyErr p c).te0 = d.te0 := by
  unfold Die.tallyErr
  try dsimp only
  repeat (first | split | simp)
@[simp] theorem Die.tallyErr_te1 (p c : Nat) : (d.tallyErr p c).te1 = d.te1 := by
  unfold Die.tallyErr
  try dsimp only
  repeat (first | split | simp)
@[simp] theorem Die.tallyErr_vec (p c : Nat) : (d.tallyErr p c).vec = d.vec := by
  unfold Die.tallyErr
  try dsimp only
  repeat (first | split | simp)
@[simp] theorem Die.tallyErr_fln (p c : Nat) : (d.tallyErr p c).fln = d.fln := by
  unfold Die.tallyErr
  try dsimp only
  repeat (first | split | simp)
@[simp] theorem Die.tallyErr_mca (p c : Nat) : (d.tallyErr p c).mca = d.mca := by
  unfold Die.tallyErr
  try dsimp only
  repeat (first | split | simp)
@[simp] theorem Die.tallyErr_pst (p c : Nat) : (d.tallyErr p c).pst = d.pst := by
  unfold Die.tallyErr
  try dsimp only
  repeat (first | split | simp)
@[simp] theorem Die.tallyErr_xfr (p c : Nat) : (d.tallyErr p c).xfr = d.xfr := by
  unfold Die.tallyErr
  try dsimp only
  repeat (first | split | simp)
@[simp] theorem Die.tallyErr_hbm (p c : Nat) : (d.tallyErr p c).hbm = d.hbm := by
  unfold Die.tallyErr
  try dsimp only
  repeat (first | split | simp)
@[simp] theorem Die.tallyErr_ing (p c : Nat) : (d.tallyErr p c).ing = d.ing := by
  unfold Die.tallyErr
  try dsimp only
  repeat (first | split | simp)
@[simp] theorem Die.tallyErr_kvp (p c : Nat) : (d.tallyErr p c).kvp = d.kvp := by
  unfold Die.tallyErr
  try dsimp only
  repeat (first | split | simp)
@[simp] theorem Die.tallyErr_fld (p c : Nat) : (d.tallyErr p c).fld = d.fld := by
  unfold Die.tallyErr
  try dsimp only
  repeat (first | split | simp)
@[simp] theorem Die.tallyErr_nwt (p c : Nat) : (d.tallyErr p c).nwt = d.nwt := by
  unfold Die.tallyErr
  try dsimp only
  repeat (first | split | simp)
@[simp] theorem Die.tallyErr_ctx (p c : Nat) : (d.tallyErr p c).ctx = d.ctx := by
  unfold Die.tallyErr
  try dsimp only
  repeat (first | split | simp)
@[simp] theorem Die.tallyErr_fab (p c : Nat) : (d.tallyErr p c).fab = d.fab := by
  unfold Die.tallyErr
  try dsimp only
  repeat (first | split | simp)
@[simp] theorem Die.tallyErr_sec (p c : Nat) : (d.tallyErr p c).sec = d.sec := by
  unfold Die.tallyErr
  try dsimp only
  repeat (first | split | simp)
@[simp] theorem Die.tallyErr_mgmt (p c : Nat) : (d.tallyErr p c).mgmt = d.mgmt := by
  unfold Die.tallyErr
  try dsimp only
  repeat (first | split | simp)
@[simp] theorem Die.tallyErr_pwr (p c : Nat) : (d.tallyErr p c).pwr = d.pwr := by
  unfold Die.tallyErr
  try dsimp only
  repeat (first | split | simp)
@[simp] theorem Die.tallyErr_boot (p c : Nat) : (d.tallyErr p c).boot = d.boot := by
  unfold Die.tallyErr
  try dsimp only
  repeat (first | split | simp)
@[simp] theorem Die.tallyErr_err (p c : Nat) : (d.tallyErr p c).err = d.err := by
  unfold Die.tallyErr
  try dsimp only
  repeat (first | split | simp)
@[simp] theorem Die.tallyErr_out (p c : Nat) : (d.tallyErr p c).out = d.out := by
  unfold Die.tallyErr
  try dsimp only
  repeat (first | split | simp)
@[simp] theorem Die.tallyErr_seen (p c : Nat) : (d.tallyErr p c).seen = d.seen := by
  unfold Die.tallyErr
  try dsimp only
  repeat (first | split | simp)
@[simp] theorem Die.tallyErr_freeCtr (p c : Nat) : (d.tallyErr p c).freeCtr = d.freeCtr := by
  unfold Die.tallyErr
  try dsimp only
  repeat (first | split | simp)

/-! ### logTallyAdd. An increment of a logical tally. -/

@[simp] theorem Die.logTallyAdd_fuses (s l n : Nat) : (d.logTallyAdd s l n).fuses = d.fuses := by
  unfold Die.logTallyAdd
  try dsimp only
  repeat (first | split | simp)
@[simp] theorem Die.logTallyAdd_glb (s l n : Nat) : (d.logTallyAdd s l n).glb = d.glb := by
  unfold Die.logTallyAdd
  try dsimp only
  repeat (first | split | simp)
@[simp] theorem Die.logTallyAdd_time (s l n : Nat) : (d.logTallyAdd s l n).time = d.time := by
  unfold Die.logTallyAdd
  try dsimp only
  repeat (first | split | simp)
@[simp] theorem Die.logTallyAdd_latch (s l n : Nat) : (d.logTallyAdd s l n).latch = d.latch := by
  unfold Die.logTallyAdd
  try dsimp only
  repeat (first | split | simp)
@[simp] theorem Die.logTallyAdd_st (s l n : Nat) : (d.logTallyAdd s l n).st = d.st := by
  unfold Die.logTallyAdd
  try dsimp only
  repeat (first | split | simp)
@[simp] theorem Die.logTallyAdd_te0 (s l n : Nat) : (d.logTallyAdd s l n).te0 = d.te0 := by
  unfold Die.logTallyAdd
  try dsimp only
  repeat (first | split | simp)
@[simp] theorem Die.logTallyAdd_te1 (s l n : Nat) : (d.logTallyAdd s l n).te1 = d.te1 := by
  unfold Die.logTallyAdd
  try dsimp only
  repeat (first | split | simp)
@[simp] theorem Die.logTallyAdd_vec (s l n : Nat) : (d.logTallyAdd s l n).vec = d.vec := by
  unfold Die.logTallyAdd
  try dsimp only
  repeat (first | split | simp)
@[simp] theorem Die.logTallyAdd_fln (s l n : Nat) : (d.logTallyAdd s l n).fln = d.fln := by
  unfold Die.logTallyAdd
  try dsimp only
  repeat (first | split | simp)
@[simp] theorem Die.logTallyAdd_mca (s l n : Nat) : (d.logTallyAdd s l n).mca = d.mca := by
  unfold Die.logTallyAdd
  try dsimp only
  repeat (first | split | simp)
@[simp] theorem Die.logTallyAdd_pst (s l n : Nat) : (d.logTallyAdd s l n).pst = d.pst := by
  unfold Die.logTallyAdd
  try dsimp only
  repeat (first | split | simp)
@[simp] theorem Die.logTallyAdd_xfr (s l n : Nat) : (d.logTallyAdd s l n).xfr = d.xfr := by
  unfold Die.logTallyAdd
  try dsimp only
  repeat (first | split | simp)
@[simp] theorem Die.logTallyAdd_hbm (s l n : Nat) : (d.logTallyAdd s l n).hbm = d.hbm := by
  unfold Die.logTallyAdd
  try dsimp only
  repeat (first | split | simp)
@[simp] theorem Die.logTallyAdd_ing (s l n : Nat) : (d.logTallyAdd s l n).ing = d.ing := by
  unfold Die.logTallyAdd
  try dsimp only
  repeat (first | split | simp)
@[simp] theorem Die.logTallyAdd_kvp (s l n : Nat) : (d.logTallyAdd s l n).kvp = d.kvp := by
  unfold Die.logTallyAdd
  try dsimp only
  repeat (first | split | simp)
@[simp] theorem Die.logTallyAdd_fld (s l n : Nat) : (d.logTallyAdd s l n).fld = d.fld := by
  unfold Die.logTallyAdd
  try dsimp only
  repeat (first | split | simp)
@[simp] theorem Die.logTallyAdd_nwt (s l n : Nat) : (d.logTallyAdd s l n).nwt = d.nwt := by
  unfold Die.logTallyAdd
  try dsimp only
  repeat (first | split | simp)
@[simp] theorem Die.logTallyAdd_ctx (s l n : Nat) : (d.logTallyAdd s l n).ctx = d.ctx := by
  unfold Die.logTallyAdd
  try dsimp only
  repeat (first | split | simp)
@[simp] theorem Die.logTallyAdd_fab (s l n : Nat) : (d.logTallyAdd s l n).fab = d.fab := by
  unfold Die.logTallyAdd
  try dsimp only
  repeat (first | split | simp)
@[simp] theorem Die.logTallyAdd_sec (s l n : Nat) : (d.logTallyAdd s l n).sec = d.sec := by
  unfold Die.logTallyAdd
  try dsimp only
  repeat (first | split | simp)
@[simp] theorem Die.logTallyAdd_mgmt (s l n : Nat) : (d.logTallyAdd s l n).mgmt = d.mgmt := by
  unfold Die.logTallyAdd
  try dsimp only
  repeat (first | split | simp)
@[simp] theorem Die.logTallyAdd_pwr (s l n : Nat) : (d.logTallyAdd s l n).pwr = d.pwr := by
  unfold Die.logTallyAdd
  try dsimp only
  repeat (first | split | simp)
@[simp] theorem Die.logTallyAdd_boot (s l n : Nat) : (d.logTallyAdd s l n).boot = d.boot := by
  unfold Die.logTallyAdd
  try dsimp only
  repeat (first | split | simp)
@[simp] theorem Die.logTallyAdd_err (s l n : Nat) : (d.logTallyAdd s l n).err = d.err := by
  unfold Die.logTallyAdd
  try dsimp only
  repeat (first | split | simp)
@[simp] theorem Die.logTallyAdd_out (s l n : Nat) : (d.logTallyAdd s l n).out = d.out := by
  unfold Die.logTallyAdd
  try dsimp only
  repeat (first | split | simp)
@[simp] theorem Die.logTallyAdd_seen (s l n : Nat) : (d.logTallyAdd s l n).seen = d.seen := by
  unfold Die.logTallyAdd
  try dsimp only
  repeat (first | split | simp)
@[simp] theorem Die.logTallyAdd_freeCtr (s l n : Nat) : (d.logTallyAdd s l n).freeCtr = d.freeCtr := by
  unfold Die.logTallyAdd
  try dsimp only
  repeat (first | split | simp)

/-! ### clearTallies. A window of tallies is cleared (R76). -/

@[simp] theorem Die.clearTallies_fuses (b n : Nat) : (d.clearTallies b n).fuses = d.fuses := rfl
@[simp] theorem Die.clearTallies_glb (b n : Nat) : (d.clearTallies b n).glb = d.glb := rfl
@[simp] theorem Die.clearTallies_time (b n : Nat) : (d.clearTallies b n).time = d.time := rfl
@[simp] theorem Die.clearTallies_latch (b n : Nat) : (d.clearTallies b n).latch = d.latch := rfl
@[simp] theorem Die.clearTallies_st (b n : Nat) : (d.clearTallies b n).st = d.st := rfl
@[simp] theorem Die.clearTallies_te0 (b n : Nat) : (d.clearTallies b n).te0 = d.te0 := rfl
@[simp] theorem Die.clearTallies_te1 (b n : Nat) : (d.clearTallies b n).te1 = d.te1 := rfl
@[simp] theorem Die.clearTallies_vec (b n : Nat) : (d.clearTallies b n).vec = d.vec := rfl
@[simp] theorem Die.clearTallies_fln (b n : Nat) : (d.clearTallies b n).fln = d.fln := rfl
@[simp] theorem Die.clearTallies_mca (b n : Nat) : (d.clearTallies b n).mca = d.mca := rfl
@[simp] theorem Die.clearTallies_pst (b n : Nat) : (d.clearTallies b n).pst = d.pst := rfl
@[simp] theorem Die.clearTallies_xfr (b n : Nat) : (d.clearTallies b n).xfr = d.xfr := rfl
@[simp] theorem Die.clearTallies_hbm (b n : Nat) : (d.clearTallies b n).hbm = d.hbm := rfl
@[simp] theorem Die.clearTallies_ing (b n : Nat) : (d.clearTallies b n).ing = d.ing := rfl
@[simp] theorem Die.clearTallies_kvp (b n : Nat) : (d.clearTallies b n).kvp = d.kvp := rfl
@[simp] theorem Die.clearTallies_fld (b n : Nat) : (d.clearTallies b n).fld = d.fld := rfl
@[simp] theorem Die.clearTallies_nwt (b n : Nat) : (d.clearTallies b n).nwt = d.nwt := rfl
@[simp] theorem Die.clearTallies_ctx (b n : Nat) : (d.clearTallies b n).ctx = d.ctx := rfl
@[simp] theorem Die.clearTallies_fab (b n : Nat) : (d.clearTallies b n).fab = d.fab := rfl
@[simp] theorem Die.clearTallies_sec (b n : Nat) : (d.clearTallies b n).sec = d.sec := rfl
@[simp] theorem Die.clearTallies_mgmt (b n : Nat) : (d.clearTallies b n).mgmt = d.mgmt := rfl
@[simp] theorem Die.clearTallies_pwr (b n : Nat) : (d.clearTallies b n).pwr = d.pwr := rfl
@[simp] theorem Die.clearTallies_boot (b n : Nat) : (d.clearTallies b n).boot = d.boot := rfl
@[simp] theorem Die.clearTallies_err (b n : Nat) : (d.clearTallies b n).err = d.err := rfl
@[simp] theorem Die.clearTallies_out (b n : Nat) : (d.clearTallies b n).out = d.out := rfl
@[simp] theorem Die.clearTallies_seen (b n : Nat) : (d.clearTallies b n).seen = d.seen := rfl
@[simp] theorem Die.clearTallies_freeCtr (b n : Nat) : (d.clearTallies b n).freeCtr = d.freeCtr := rfl

/-! ### clearWindow. A slot's window of tallies is cleared (R77). -/

@[simp] theorem Die.clearWindow_fuses (s : Nat) : (d.clearWindow s).fuses = d.fuses := by unfold Die.clearWindow; split <;> rfl
@[simp] theorem Die.clearWindow_glb (s : Nat) : (d.clearWindow s).glb = d.glb := by unfold Die.clearWindow; split <;> rfl
@[simp] theorem Die.clearWindow_time (s : Nat) : (d.clearWindow s).time = d.time := by unfold Die.clearWindow; split <;> rfl
@[simp] theorem Die.clearWindow_latch (s : Nat) : (d.clearWindow s).latch = d.latch := by unfold Die.clearWindow; split <;> rfl
@[simp] theorem Die.clearWindow_st (s : Nat) : (d.clearWindow s).st = d.st := by unfold Die.clearWindow; split <;> rfl
@[simp] theorem Die.clearWindow_te0 (s : Nat) : (d.clearWindow s).te0 = d.te0 := by unfold Die.clearWindow; split <;> rfl
@[simp] theorem Die.clearWindow_te1 (s : Nat) : (d.clearWindow s).te1 = d.te1 := by unfold Die.clearWindow; split <;> rfl
@[simp] theorem Die.clearWindow_vec (s : Nat) : (d.clearWindow s).vec = d.vec := by unfold Die.clearWindow; split <;> rfl
@[simp] theorem Die.clearWindow_fln (s : Nat) : (d.clearWindow s).fln = d.fln := by unfold Die.clearWindow; split <;> rfl
@[simp] theorem Die.clearWindow_mca (s : Nat) : (d.clearWindow s).mca = d.mca := by unfold Die.clearWindow; split <;> rfl
@[simp] theorem Die.clearWindow_pst (s : Nat) : (d.clearWindow s).pst = d.pst := by unfold Die.clearWindow; split <;> rfl
@[simp] theorem Die.clearWindow_xfr (s : Nat) : (d.clearWindow s).xfr = d.xfr := by unfold Die.clearWindow; split <;> rfl
@[simp] theorem Die.clearWindow_hbm (s : Nat) : (d.clearWindow s).hbm = d.hbm := by unfold Die.clearWindow; split <;> rfl
@[simp] theorem Die.clearWindow_ing (s : Nat) : (d.clearWindow s).ing = d.ing := by unfold Die.clearWindow; split <;> rfl
@[simp] theorem Die.clearWindow_kvp (s : Nat) : (d.clearWindow s).kvp = d.kvp := by unfold Die.clearWindow; split <;> rfl
@[simp] theorem Die.clearWindow_fld (s : Nat) : (d.clearWindow s).fld = d.fld := by unfold Die.clearWindow; split <;> rfl
@[simp] theorem Die.clearWindow_nwt (s : Nat) : (d.clearWindow s).nwt = d.nwt := by unfold Die.clearWindow; split <;> rfl
@[simp] theorem Die.clearWindow_ctx (s : Nat) : (d.clearWindow s).ctx = d.ctx := by unfold Die.clearWindow; split <;> rfl
@[simp] theorem Die.clearWindow_fab (s : Nat) : (d.clearWindow s).fab = d.fab := by unfold Die.clearWindow; split <;> rfl
@[simp] theorem Die.clearWindow_sec (s : Nat) : (d.clearWindow s).sec = d.sec := by unfold Die.clearWindow; split <;> rfl
@[simp] theorem Die.clearWindow_mgmt (s : Nat) : (d.clearWindow s).mgmt = d.mgmt := by unfold Die.clearWindow; split <;> rfl
@[simp] theorem Die.clearWindow_pwr (s : Nat) : (d.clearWindow s).pwr = d.pwr := by unfold Die.clearWindow; split <;> rfl
@[simp] theorem Die.clearWindow_boot (s : Nat) : (d.clearWindow s).boot = d.boot := by unfold Die.clearWindow; split <;> rfl
@[simp] theorem Die.clearWindow_err (s : Nat) : (d.clearWindow s).err = d.err := by unfold Die.clearWindow; split <;> rfl
@[simp] theorem Die.clearWindow_out (s : Nat) : (d.clearWindow s).out = d.out := by unfold Die.clearWindow; split <;> rfl
@[simp] theorem Die.clearWindow_seen (s : Nat) : (d.clearWindow s).seen = d.seen := by unfold Die.clearWindow; split <;> rfl
@[simp] theorem Die.clearWindow_freeCtr (s : Nat) : (d.clearWindow s).freeCtr = d.freeCtr := by unfold Die.clearWindow; split <;> rfl

/-! ### stopThreads. STOP of every thread of a slot (R100). -/

@[simp] theorem Die.stopThreads_fuses (s : Nat) : (d.stopThreads s).fuses = d.fuses := rfl
@[simp] theorem Die.stopThreads_glb (s : Nat) : (d.stopThreads s).glb = d.glb := rfl
@[simp] theorem Die.stopThreads_time (s : Nat) : (d.stopThreads s).time = d.time := rfl
@[simp] theorem Die.stopThreads_latch (s : Nat) : (d.stopThreads s).latch = d.latch := rfl
@[simp] theorem Die.stopThreads_iss (s : Nat) : (d.stopThreads s).iss = d.iss := rfl
@[simp] theorem Die.stopThreads_st (s : Nat) : (d.stopThreads s).st = d.st := rfl
@[simp] theorem Die.stopThreads_te0 (s : Nat) : (d.stopThreads s).te0 = d.te0 := rfl
@[simp] theorem Die.stopThreads_te1 (s : Nat) : (d.stopThreads s).te1 = d.te1 := rfl
@[simp] theorem Die.stopThreads_vec (s : Nat) : (d.stopThreads s).vec = d.vec := rfl
@[simp] theorem Die.stopThreads_fln (s : Nat) : (d.stopThreads s).fln = d.fln := rfl
@[simp] theorem Die.stopThreads_mca (s : Nat) : (d.stopThreads s).mca = d.mca := rfl
@[simp] theorem Die.stopThreads_pst (s : Nat) : (d.stopThreads s).pst = d.pst := rfl
@[simp] theorem Die.stopThreads_hbm (s : Nat) : (d.stopThreads s).hbm = d.hbm := rfl
@[simp] theorem Die.stopThreads_ing (s : Nat) : (d.stopThreads s).ing = d.ing := rfl
@[simp] theorem Die.stopThreads_kvp (s : Nat) : (d.stopThreads s).kvp = d.kvp := rfl
@[simp] theorem Die.stopThreads_fld (s : Nat) : (d.stopThreads s).fld = d.fld := rfl
@[simp] theorem Die.stopThreads_nwt (s : Nat) : (d.stopThreads s).nwt = d.nwt := rfl
@[simp] theorem Die.stopThreads_ctx (s : Nat) : (d.stopThreads s).ctx = d.ctx := rfl
@[simp] theorem Die.stopThreads_fab (s : Nat) : (d.stopThreads s).fab = d.fab := rfl
@[simp] theorem Die.stopThreads_sec (s : Nat) : (d.stopThreads s).sec = d.sec := rfl
@[simp] theorem Die.stopThreads_mgmt (s : Nat) : (d.stopThreads s).mgmt = d.mgmt := rfl
@[simp] theorem Die.stopThreads_pwr (s : Nat) : (d.stopThreads s).pwr = d.pwr := rfl
@[simp] theorem Die.stopThreads_boot (s : Nat) : (d.stopThreads s).boot = d.boot := rfl
@[simp] theorem Die.stopThreads_err (s : Nat) : (d.stopThreads s).err = d.err := rfl
@[simp] theorem Die.stopThreads_out (s : Nat) : (d.stopThreads s).out = d.out := rfl
@[simp] theorem Die.stopThreads_seen (s : Nat) : (d.stopThreads s).seen = d.seen := rfl
@[simp] theorem Die.stopThreads_freeCtr (s : Nat) : (d.stopThreads s).freeCtr = d.freeCtr := rfl

/-! ### discardInFlight. Results on their way are discarded (R60). -/

@[simp] theorem Die.discardInFlight_fuses (s : Nat) : (d.discardInFlight s).fuses = d.fuses := rfl
@[simp] theorem Die.discardInFlight_glb (s : Nat) : (d.discardInFlight s).glb = d.glb := rfl
@[simp] theorem Die.discardInFlight_time (s : Nat) : (d.discardInFlight s).time = d.time := rfl
@[simp] theorem Die.discardInFlight_latch (s : Nat) : (d.discardInFlight s).latch = d.latch := rfl
@[simp] theorem Die.discardInFlight_iss (s : Nat) : (d.discardInFlight s).iss = d.iss := rfl
@[simp] theorem Die.discardInFlight_st (s : Nat) : (d.discardInFlight s).st = d.st := rfl
@[simp] theorem Die.discardInFlight_xfr (s : Nat) : (d.discardInFlight s).xfr = d.xfr := rfl
@[simp] theorem Die.discardInFlight_hbm (s : Nat) : (d.discardInFlight s).hbm = d.hbm := rfl
@[simp] theorem Die.discardInFlight_ing (s : Nat) : (d.discardInFlight s).ing = d.ing := rfl
@[simp] theorem Die.discardInFlight_kvp (s : Nat) : (d.discardInFlight s).kvp = d.kvp := rfl
@[simp] theorem Die.discardInFlight_fld (s : Nat) : (d.discardInFlight s).fld = d.fld := rfl
@[simp] theorem Die.discardInFlight_nwt (s : Nat) : (d.discardInFlight s).nwt = d.nwt := rfl
@[simp] theorem Die.discardInFlight_ctx (s : Nat) : (d.discardInFlight s).ctx = d.ctx := rfl
@[simp] theorem Die.discardInFlight_fab (s : Nat) : (d.discardInFlight s).fab = d.fab := rfl
@[simp] theorem Die.discardInFlight_sec (s : Nat) : (d.discardInFlight s).sec = d.sec := rfl
@[simp] theorem Die.discardInFlight_mgmt (s : Nat) : (d.discardInFlight s).mgmt = d.mgmt := rfl
@[simp] theorem Die.discardInFlight_pwr (s : Nat) : (d.discardInFlight s).pwr = d.pwr := rfl
@[simp] theorem Die.discardInFlight_boot (s : Nat) : (d.discardInFlight s).boot = d.boot := rfl
@[simp] theorem Die.discardInFlight_err (s : Nat) : (d.discardInFlight s).err = d.err := rfl
@[simp] theorem Die.discardInFlight_out (s : Nat) : (d.discardInFlight s).out = d.out := rfl
@[simp] theorem Die.discardInFlight_seen (s : Nat) : (d.discardInFlight s).seen = d.seen := rfl
@[simp] theorem Die.discardInFlight_freeCtr (s : Nat) : (d.discardInFlight s).freeCtr = d.freeCtr := rfl

/-! ### nwtSync. A change of source touches Nightwatch alone (R412). -/

@[simp] theorem Die.nwtSync_fuses : d.nwtSync.fuses = d.fuses := by unfold Die.nwtSync; dsimp only; split <;> rfl
@[simp] theorem Die.nwtSync_glb : d.nwtSync.glb = d.glb := by unfold Die.nwtSync; dsimp only; split <;> rfl
@[simp] theorem Die.nwtSync_time : d.nwtSync.time = d.time := by unfold Die.nwtSync; dsimp only; split <;> rfl
@[simp] theorem Die.nwtSync_latch : d.nwtSync.latch = d.latch := by unfold Die.nwtSync; dsimp only; split <;> rfl
@[simp] theorem Die.nwtSync_iss : d.nwtSync.iss = d.iss := by unfold Die.nwtSync; dsimp only; split <;> rfl
@[simp] theorem Die.nwtSync_st : d.nwtSync.st = d.st := by unfold Die.nwtSync; dsimp only; split <;> rfl
@[simp] theorem Die.nwtSync_te0 : d.nwtSync.te0 = d.te0 := by unfold Die.nwtSync; dsimp only; split <;> rfl
@[simp] theorem Die.nwtSync_te1 : d.nwtSync.te1 = d.te1 := by unfold Die.nwtSync; dsimp only; split <;> rfl
@[simp] theorem Die.nwtSync_vec : d.nwtSync.vec = d.vec := by unfold Die.nwtSync; dsimp only; split <;> rfl
@[simp] theorem Die.nwtSync_fln : d.nwtSync.fln = d.fln := by unfold Die.nwtSync; dsimp only; split <;> rfl
@[simp] theorem Die.nwtSync_mca : d.nwtSync.mca = d.mca := by unfold Die.nwtSync; dsimp only; split <;> rfl
@[simp] theorem Die.nwtSync_pst : d.nwtSync.pst = d.pst := by unfold Die.nwtSync; dsimp only; split <;> rfl
@[simp] theorem Die.nwtSync_xfr : d.nwtSync.xfr = d.xfr := by unfold Die.nwtSync; dsimp only; split <;> rfl
@[simp] theorem Die.nwtSync_hbm : d.nwtSync.hbm = d.hbm := by unfold Die.nwtSync; dsimp only; split <;> rfl
@[simp] theorem Die.nwtSync_ing : d.nwtSync.ing = d.ing := by unfold Die.nwtSync; dsimp only; split <;> rfl
@[simp] theorem Die.nwtSync_kvp : d.nwtSync.kvp = d.kvp := by unfold Die.nwtSync; dsimp only; split <;> rfl
@[simp] theorem Die.nwtSync_fld : d.nwtSync.fld = d.fld := by unfold Die.nwtSync; dsimp only; split <;> rfl
@[simp] theorem Die.nwtSync_ctx : d.nwtSync.ctx = d.ctx := by unfold Die.nwtSync; dsimp only; split <;> rfl
@[simp] theorem Die.nwtSync_fab : d.nwtSync.fab = d.fab := by unfold Die.nwtSync; dsimp only; split <;> rfl
@[simp] theorem Die.nwtSync_sec : d.nwtSync.sec = d.sec := by unfold Die.nwtSync; dsimp only; split <;> rfl
@[simp] theorem Die.nwtSync_mgmt : d.nwtSync.mgmt = d.mgmt := by unfold Die.nwtSync; dsimp only; split <;> rfl
@[simp] theorem Die.nwtSync_pwr : d.nwtSync.pwr = d.pwr := by unfold Die.nwtSync; dsimp only; split <;> rfl
@[simp] theorem Die.nwtSync_boot : d.nwtSync.boot = d.boot := by unfold Die.nwtSync; dsimp only; split <;> rfl
@[simp] theorem Die.nwtSync_err : d.nwtSync.err = d.err := by unfold Die.nwtSync; dsimp only; split <;> rfl
@[simp] theorem Die.nwtSync_out : d.nwtSync.out = d.out := by unfold Die.nwtSync; dsimp only; split <;> rfl
@[simp] theorem Die.nwtSync_seen : d.nwtSync.seen = d.seen := by unfold Die.nwtSync; dsimp only; split <;> rfl
@[simp] theorem Die.nwtSync_freeCtr : d.nwtSync.freeCtr = d.freeCtr := by unfold Die.nwtSync; dsimp only; split <;> rfl
@[simp] theorem Die.nwtSync_slot (k : Nat) : d.nwtSync.slot k = d.slot k := by unfold Die.nwtSync; dsimp only; split <;> rfl
@[simp] theorem Die.nwtSync_prot (k : Nat) : d.nwtSync.prot k = d.prot k := by unfold Die.nwtSync; dsimp only; split <;> rfl
@[simp] theorem Die.nwtSync_thread (k : Nat) : d.nwtSync.thread k = d.thread k := by unfold Die.nwtSync; dsimp only; split <;> rfl
@[simp] theorem Die.nwtSync_tally (k : Nat) : d.nwtSync.tally k = d.tally k := by unfold Die.nwtSync; dsimp only; split <;> rfl
@[simp] theorem Die.nwtSync_stream (k : Nat) : d.nwtSync.stream k = d.stream k := by unfold Die.nwtSync; dsimp only; split <;> rfl
@[simp] theorem Die.nwtSync_loop (k : Nat) : d.nwtSync.loop k = d.loop k := by unfold Die.nwtSync; dsimp only; split <;> rfl
@[simp] theorem Die.nwtSync_fport (k : Nat) : d.nwtSync.fport k = d.fport k := by unfold Die.nwtSync; dsimp only; split <;> rfl
@[simp] theorem Die.nwtSync_tport (k : Nat) : d.nwtSync.tport k = d.tport k := by unfold Die.nwtSync; dsimp only; split <;> rfl
@[simp] theorem Die.nwtSync_page (k : Nat) : d.nwtSync.page k = d.page k := by unfold Die.nwtSync; dsimp only; split <;> rfl
@[simp] theorem Die.nwtSync_seq (k : Nat) : d.nwtSync.seq k = d.seq k := by unfold Die.nwtSync; dsimp only; split <;> rfl
@[simp] theorem Die.nwtSync_kvCmd (k : Nat) : d.nwtSync.kvCmd k = d.kvCmd k := by unfold Die.nwtSync; dsimp only; split <;> rfl

/-! ### abortIntr. The interrupt of an abort (R606). -/

@[simp] theorem Die.abortIntr_fuses (s c : Nat) : (d.abortIntr s c).fuses = d.fuses := by unfold Die.abortIntr; simp
@[simp] theorem Die.abortIntr_glb (s c : Nat) : (d.abortIntr s c).glb = d.glb := by unfold Die.abortIntr; simp
@[simp] theorem Die.abortIntr_time (s c : Nat) : (d.abortIntr s c).time = d.time := by unfold Die.abortIntr; simp
@[simp] theorem Die.abortIntr_latch (s c : Nat) : (d.abortIntr s c).latch = d.latch := by unfold Die.abortIntr; simp
@[simp] theorem Die.abortIntr_iss (s c : Nat) : (d.abortIntr s c).iss = d.iss := by unfold Die.abortIntr; simp
@[simp] theorem Die.abortIntr_st (s c : Nat) : (d.abortIntr s c).st = d.st := by unfold Die.abortIntr; simp
@[simp] theorem Die.abortIntr_te0 (s c : Nat) : (d.abortIntr s c).te0 = d.te0 := by unfold Die.abortIntr; simp
@[simp] theorem Die.abortIntr_te1 (s c : Nat) : (d.abortIntr s c).te1 = d.te1 := by unfold Die.abortIntr; simp
@[simp] theorem Die.abortIntr_vec (s c : Nat) : (d.abortIntr s c).vec = d.vec := by unfold Die.abortIntr; simp
@[simp] theorem Die.abortIntr_fln (s c : Nat) : (d.abortIntr s c).fln = d.fln := by unfold Die.abortIntr; simp
@[simp] theorem Die.abortIntr_mca (s c : Nat) : (d.abortIntr s c).mca = d.mca := by unfold Die.abortIntr; simp
@[simp] theorem Die.abortIntr_pst (s c : Nat) : (d.abortIntr s c).pst = d.pst := by unfold Die.abortIntr; simp
@[simp] theorem Die.abortIntr_xfr (s c : Nat) : (d.abortIntr s c).xfr = d.xfr := by unfold Die.abortIntr; simp
@[simp] theorem Die.abortIntr_hbm (s c : Nat) : (d.abortIntr s c).hbm = d.hbm := by unfold Die.abortIntr; simp
@[simp] theorem Die.abortIntr_ing (s c : Nat) : (d.abortIntr s c).ing = d.ing := by unfold Die.abortIntr; simp
@[simp] theorem Die.abortIntr_kvp (s c : Nat) : (d.abortIntr s c).kvp = d.kvp := by unfold Die.abortIntr; simp
@[simp] theorem Die.abortIntr_fld (s c : Nat) : (d.abortIntr s c).fld = d.fld := by unfold Die.abortIntr; simp
@[simp] theorem Die.abortIntr_nwt (s c : Nat) : (d.abortIntr s c).nwt = d.nwt := by unfold Die.abortIntr; simp
@[simp] theorem Die.abortIntr_ctx (s c : Nat) : (d.abortIntr s c).ctx = d.ctx := by unfold Die.abortIntr; simp
@[simp] theorem Die.abortIntr_sec (s c : Nat) : (d.abortIntr s c).sec = d.sec := by unfold Die.abortIntr; simp
@[simp] theorem Die.abortIntr_mgmt (s c : Nat) : (d.abortIntr s c).mgmt = d.mgmt := by unfold Die.abortIntr; simp
@[simp] theorem Die.abortIntr_pwr (s c : Nat) : (d.abortIntr s c).pwr = d.pwr := by unfold Die.abortIntr; simp
@[simp] theorem Die.abortIntr_boot (s c : Nat) : (d.abortIntr s c).boot = d.boot := by unfold Die.abortIntr; simp
@[simp] theorem Die.abortIntr_err (s c : Nat) : (d.abortIntr s c).err = d.err := by unfold Die.abortIntr; simp
@[simp] theorem Die.abortIntr_seen (s c : Nat) : (d.abortIntr s c).seen = d.seen := by unfold Die.abortIntr; simp
@[simp] theorem Die.abortIntr_freeCtr (s c : Nat) : (d.abortIntr s c).freeCtr = d.freeCtr := by unfold Die.abortIntr; simp
@[simp] theorem Die.abortIntr_fab_ports (s c : Nat) : (d.abortIntr s c).fab.ports = d.fab.ports := by unfold Die.abortIntr; simp
@[simp] theorem Die.abortIntr_fab_channels (s c : Nat) : (d.abortIntr s c).fab.channels = d.fab.channels := by unfold Die.abortIntr; simp
@[simp] theorem Die.abortIntr_fab_jobs (s c : Nat) : (d.abortIntr s c).fab.jobs = d.fab.jobs := by unfold Die.abortIntr; simp
@[simp] theorem Die.abortIntr_fab_routes (s c : Nat) : (d.abortIntr s c).fab.routes = d.fab.routes := by unfold Die.abortIntr; simp
@[simp] theorem Die.abortIntr_fab_addr (s c : Nat) : (d.abortIntr s c).fab.addr = d.fab.addr := by unfold Die.abortIntr; simp
@[simp] theorem Die.abortIntr_fab_timeout (s c : Nat) : (d.abortIntr s c).fab.timeout = d.fab.timeout := by unfold Die.abortIntr; simp
@[simp] theorem Die.abortIntr_fab_peerFails (s c : Nat) : (d.abortIntr s c).fab.peerFails = d.fab.peerFails := by unfold Die.abortIntr; simp

/-! ### abortTold, tellAborts. The vector of an abort goes out now or with the end of its issue cycle (R601, R606). -/

@[simp] theorem Die.abortTold_fuses (s c : Nat) : (d.abortTold s c).fuses = d.fuses := by unfold Die.abortTold; split <;> simp
@[simp] theorem Die.abortTold_glb (s c : Nat) : (d.abortTold s c).glb = d.glb := by unfold Die.abortTold; split <;> simp
@[simp] theorem Die.abortTold_time (s c : Nat) : (d.abortTold s c).time = d.time := by unfold Die.abortTold; split <;> simp
@[simp] theorem Die.abortTold_latch (s c : Nat) : (d.abortTold s c).latch = d.latch := by unfold Die.abortTold; split <;> simp
@[simp] theorem Die.abortTold_st (s c : Nat) : (d.abortTold s c).st = d.st := by unfold Die.abortTold; split <;> simp
@[simp] theorem Die.abortTold_te0 (s c : Nat) : (d.abortTold s c).te0 = d.te0 := by unfold Die.abortTold; split <;> simp
@[simp] theorem Die.abortTold_te1 (s c : Nat) : (d.abortTold s c).te1 = d.te1 := by unfold Die.abortTold; split <;> simp
@[simp] theorem Die.abortTold_vec (s c : Nat) : (d.abortTold s c).vec = d.vec := by unfold Die.abortTold; split <;> simp
@[simp] theorem Die.abortTold_fln (s c : Nat) : (d.abortTold s c).fln = d.fln := by unfold Die.abortTold; split <;> simp
@[simp] theorem Die.abortTold_mca (s c : Nat) : (d.abortTold s c).mca = d.mca := by unfold Die.abortTold; split <;> simp
@[simp] theorem Die.abortTold_pst (s c : Nat) : (d.abortTold s c).pst = d.pst := by unfold Die.abortTold; split <;> simp
@[simp] theorem Die.abortTold_xfr (s c : Nat) : (d.abortTold s c).xfr = d.xfr := by unfold Die.abortTold; split <;> simp
@[simp] theorem Die.abortTold_hbm (s c : Nat) : (d.abortTold s c).hbm = d.hbm := by unfold Die.abortTold; split <;> simp
@[simp] theorem Die.abortTold_ing (s c : Nat) : (d.abortTold s c).ing = d.ing := by unfold Die.abortTold; split <;> simp
@[simp] theorem Die.abortTold_kvp (s c : Nat) : (d.abortTold s c).kvp = d.kvp := by unfold Die.abortTold; split <;> simp
@[simp] theorem Die.abortTold_fld (s c : Nat) : (d.abortTold s c).fld = d.fld := by unfold Die.abortTold; split <;> simp
@[simp] theorem Die.abortTold_nwt (s c : Nat) : (d.abortTold s c).nwt = d.nwt := by unfold Die.abortTold; split <;> simp
@[simp] theorem Die.abortTold_ctx (s c : Nat) : (d.abortTold s c).ctx = d.ctx := by unfold Die.abortTold; split <;> simp
@[simp] theorem Die.abortTold_sec (s c : Nat) : (d.abortTold s c).sec = d.sec := by unfold Die.abortTold; split <;> simp
@[simp] theorem Die.abortTold_mgmt (s c : Nat) : (d.abortTold s c).mgmt = d.mgmt := by unfold Die.abortTold; split <;> simp
@[simp] theorem Die.abortTold_pwr (s c : Nat) : (d.abortTold s c).pwr = d.pwr := by unfold Die.abortTold; split <;> simp
@[simp] theorem Die.abortTold_boot (s c : Nat) : (d.abortTold s c).boot = d.boot := by unfold Die.abortTold; split <;> simp
@[simp] theorem Die.abortTold_err (s c : Nat) : (d.abortTold s c).err = d.err := by unfold Die.abortTold; split <;> simp
@[simp] theorem Die.abortTold_seen (s c : Nat) : (d.abortTold s c).seen = d.seen := by unfold Die.abortTold; split <;> simp
@[simp] theorem Die.abortTold_freeCtr (s c : Nat) : (d.abortTold s c).freeCtr = d.freeCtr := by unfold Die.abortTold; split <;> simp
@[simp] theorem Die.abortTold_fab_ports (s c : Nat) : (d.abortTold s c).fab.ports = d.fab.ports := by unfold Die.abortTold; split <;> simp
@[simp] theorem Die.abortTold_fab_channels (s c : Nat) : (d.abortTold s c).fab.channels = d.fab.channels := by unfold Die.abortTold; split <;> simp
@[simp] theorem Die.abortTold_fab_jobs (s c : Nat) : (d.abortTold s c).fab.jobs = d.fab.jobs := by unfold Die.abortTold; split <;> simp
@[simp] theorem Die.abortTold_fab_routes (s c : Nat) : (d.abortTold s c).fab.routes = d.fab.routes := by unfold Die.abortTold; split <;> simp
@[simp] theorem Die.abortTold_fab_addr (s c : Nat) : (d.abortTold s c).fab.addr = d.fab.addr := by unfold Die.abortTold; split <;> simp
@[simp] theorem Die.abortTold_fab_timeout (s c : Nat) : (d.abortTold s c).fab.timeout = d.fab.timeout := by unfold Die.abortTold; split <;> simp
@[simp] theorem Die.abortTold_fab_peerFails (s c : Nat) : (d.abortTold s c).fab.peerFails = d.fab.peerFails := by unfold Die.abortTold; split <;> simp

theorem Die.foldl_abortIntr {α : Type} (f : Die → α) (hf : ∀ (d : Die) (s c : Nat), f (d.abortIntr s c) = f d) (l : List (Nat × Nat)) :
    ∀ d : Die, f (l.foldl (fun (d : Die) a => d.abortIntr a.1 a.2) d) = f d := by
  induction l with
  | nil => intro d; rfl
  | cons a l ih => intro d; rw [List.foldl_cons, ih, hf]
@[simp] theorem Die.tellAborts_fuses : d.tellAborts.fuses = d.fuses := by
  unfold Die.tellAborts
  rw [Die.foldl_abortIntr (fun d => d.fuses) (fun d s c => by simp)]
@[simp] theorem Die.tellAborts_glb : d.tellAborts.glb = d.glb := by
  unfold Die.tellAborts
  rw [Die.foldl_abortIntr (fun d => d.glb) (fun d s c => by simp)]
@[simp] theorem Die.tellAborts_time : d.tellAborts.time = d.time := by
  unfold Die.tellAborts
  rw [Die.foldl_abortIntr (fun d => d.time) (fun d s c => by simp)]
@[simp] theorem Die.tellAborts_latch : d.tellAborts.latch = d.latch := by
  unfold Die.tellAborts
  rw [Die.foldl_abortIntr (fun d => d.latch) (fun d s c => by simp)]
@[simp] theorem Die.tellAborts_st : d.tellAborts.st = d.st := by
  unfold Die.tellAborts
  rw [Die.foldl_abortIntr (fun d => d.st) (fun d s c => by simp)]
@[simp] theorem Die.tellAborts_te0 : d.tellAborts.te0 = d.te0 := by
  unfold Die.tellAborts
  rw [Die.foldl_abortIntr (fun d => d.te0) (fun d s c => by simp)]
@[simp] theorem Die.tellAborts_te1 : d.tellAborts.te1 = d.te1 := by
  unfold Die.tellAborts
  rw [Die.foldl_abortIntr (fun d => d.te1) (fun d s c => by simp)]
@[simp] theorem Die.tellAborts_vec : d.tellAborts.vec = d.vec := by
  unfold Die.tellAborts
  rw [Die.foldl_abortIntr (fun d => d.vec) (fun d s c => by simp)]
@[simp] theorem Die.tellAborts_fln : d.tellAborts.fln = d.fln := by
  unfold Die.tellAborts
  rw [Die.foldl_abortIntr (fun d => d.fln) (fun d s c => by simp)]
@[simp] theorem Die.tellAborts_mca : d.tellAborts.mca = d.mca := by
  unfold Die.tellAborts
  rw [Die.foldl_abortIntr (fun d => d.mca) (fun d s c => by simp)]
@[simp] theorem Die.tellAborts_pst : d.tellAborts.pst = d.pst := by
  unfold Die.tellAborts
  rw [Die.foldl_abortIntr (fun d => d.pst) (fun d s c => by simp)]
@[simp] theorem Die.tellAborts_xfr : d.tellAborts.xfr = d.xfr := by
  unfold Die.tellAborts
  rw [Die.foldl_abortIntr (fun d => d.xfr) (fun d s c => by simp)]
@[simp] theorem Die.tellAborts_hbm : d.tellAborts.hbm = d.hbm := by
  unfold Die.tellAborts
  rw [Die.foldl_abortIntr (fun d => d.hbm) (fun d s c => by simp)]
@[simp] theorem Die.tellAborts_ing : d.tellAborts.ing = d.ing := by
  unfold Die.tellAborts
  rw [Die.foldl_abortIntr (fun d => d.ing) (fun d s c => by simp)]
@[simp] theorem Die.tellAborts_kvp : d.tellAborts.kvp = d.kvp := by
  unfold Die.tellAborts
  rw [Die.foldl_abortIntr (fun d => d.kvp) (fun d s c => by simp)]
@[simp] theorem Die.tellAborts_fld : d.tellAborts.fld = d.fld := by
  unfold Die.tellAborts
  rw [Die.foldl_abortIntr (fun d => d.fld) (fun d s c => by simp)]
@[simp] theorem Die.tellAborts_nwt : d.tellAborts.nwt = d.nwt := by
  unfold Die.tellAborts
  rw [Die.foldl_abortIntr (fun d => d.nwt) (fun d s c => by simp)]
@[simp] theorem Die.tellAborts_ctx : d.tellAborts.ctx = d.ctx := by
  unfold Die.tellAborts
  rw [Die.foldl_abortIntr (fun d => d.ctx) (fun d s c => by simp)]
@[simp] theorem Die.tellAborts_sec : d.tellAborts.sec = d.sec := by
  unfold Die.tellAborts
  rw [Die.foldl_abortIntr (fun d => d.sec) (fun d s c => by simp)]
@[simp] theorem Die.tellAborts_mgmt : d.tellAborts.mgmt = d.mgmt := by
  unfold Die.tellAborts
  rw [Die.foldl_abortIntr (fun d => d.mgmt) (fun d s c => by simp)]
@[simp] theorem Die.tellAborts_pwr : d.tellAborts.pwr = d.pwr := by
  unfold Die.tellAborts
  rw [Die.foldl_abortIntr (fun d => d.pwr) (fun d s c => by simp)]
@[simp] theorem Die.tellAborts_boot : d.tellAborts.boot = d.boot := by
  unfold Die.tellAborts
  rw [Die.foldl_abortIntr (fun d => d.boot) (fun d s c => by simp)]
@[simp] theorem Die.tellAborts_err : d.tellAborts.err = d.err := by
  unfold Die.tellAborts
  rw [Die.foldl_abortIntr (fun d => d.err) (fun d s c => by simp)]
@[simp] theorem Die.tellAborts_seen : d.tellAborts.seen = d.seen := by
  unfold Die.tellAborts
  rw [Die.foldl_abortIntr (fun d => d.seen) (fun d s c => by simp)]
@[simp] theorem Die.tellAborts_freeCtr : d.tellAborts.freeCtr = d.freeCtr := by
  unfold Die.tellAborts
  rw [Die.foldl_abortIntr (fun d => d.freeCtr) (fun d s c => by simp)]
@[simp] theorem Die.tellAborts_fab_ports : d.tellAborts.fab.ports = d.fab.ports := by
  unfold Die.tellAborts
  rw [Die.foldl_abortIntr (fun d => d.fab.ports) (fun d s c => by simp)]
@[simp] theorem Die.tellAborts_fab_channels : d.tellAborts.fab.channels = d.fab.channels := by
  unfold Die.tellAborts
  rw [Die.foldl_abortIntr (fun d => d.fab.channels) (fun d s c => by simp)]
@[simp] theorem Die.tellAborts_fab_jobs : d.tellAborts.fab.jobs = d.fab.jobs := by
  unfold Die.tellAborts
  rw [Die.foldl_abortIntr (fun d => d.fab.jobs) (fun d s c => by simp)]
@[simp] theorem Die.tellAborts_fab_routes : d.tellAborts.fab.routes = d.fab.routes := by
  unfold Die.tellAborts
  rw [Die.foldl_abortIntr (fun d => d.fab.routes) (fun d s c => by simp)]
@[simp] theorem Die.tellAborts_fab_addr : d.tellAborts.fab.addr = d.fab.addr := by
  unfold Die.tellAborts
  rw [Die.foldl_abortIntr (fun d => d.fab.addr) (fun d s c => by simp)]
@[simp] theorem Die.tellAborts_fab_timeout : d.tellAborts.fab.timeout = d.fab.timeout := by
  unfold Die.tellAborts
  rw [Die.foldl_abortIntr (fun d => d.fab.timeout) (fun d s c => by simp)]
@[simp] theorem Die.tellAborts_fab_peerFails : d.tellAborts.fab.peerFails = d.fab.peerFails := by
  unfold Die.tellAborts
  rw [Die.foldl_abortIntr (fun d => d.fab.peerFails) (fun d s c => by simp)]
@[simp] theorem Die.tellAborts_iss : d.tellAborts.iss = { d.iss with aborts := [] } := by
  unfold Die.tellAborts
  rw [Die.foldl_abortIntr (fun d => d.iss) (fun d s c => by simp)]

/-! ### abortSlot. The end of a context (R78): no memory, grant, table of the fabric or of the KV manager is touched. -/

@[simp] theorem Die.abortSlot_fuses (s c : Nat) : (d.abortSlot s c).fuses = d.fuses := by
  unfold Die.abortSlot
  try dsimp only
  repeat (first | split | simp)
@[simp] theorem Die.abortSlot_glb (s c : Nat) : (d.abortSlot s c).glb = d.glb := by
  unfold Die.abortSlot
  try dsimp only
  repeat (first | split | simp)
@[simp] theorem Die.abortSlot_time (s c : Nat) : (d.abortSlot s c).time = d.time := by
  unfold Die.abortSlot
  try dsimp only
  repeat (first | split | simp)
@[simp] theorem Die.abortSlot_latch (s c : Nat) : (d.abortSlot s c).latch = d.latch := by
  unfold Die.abortSlot
  try dsimp only
  repeat (first | split | simp)
@[simp] theorem Die.abortSlot_st (s c : Nat) : (d.abortSlot s c).st = d.st := by
  unfold Die.abortSlot
  try dsimp only
  repeat (first | split | simp)
@[simp] theorem Die.abortSlot_hbm (s c : Nat) : (d.abortSlot s c).hbm = d.hbm := by
  unfold Die.abortSlot
  try dsimp only
  repeat (first | split | simp)
@[simp] theorem Die.abortSlot_kvp (s c : Nat) : (d.abortSlot s c).kvp = d.kvp := by
  unfold Die.abortSlot
  try dsimp only
  repeat (first | split | simp)
@[simp] theorem Die.abortSlot_fab_ports (s c : Nat) : (d.abortSlot s c).fab.ports = d.fab.ports := by
  unfold Die.abortSlot
  try dsimp only
  repeat (first | split | simp)
@[simp] theorem Die.abortSlot_fab_channels (s c : Nat) : (d.abortSlot s c).fab.channels = d.fab.channels := by
  unfold Die.abortSlot
  try dsimp only
  repeat (first | split | simp)
@[simp] theorem Die.abortSlot_fab_jobs (s c : Nat) : (d.abortSlot s c).fab.jobs = d.fab.jobs := by
  unfold Die.abortSlot
  try dsimp only
  repeat (first | split | simp)
@[simp] theorem Die.abortSlot_fab_routes (s c : Nat) : (d.abortSlot s c).fab.routes = d.fab.routes := by
  unfold Die.abortSlot
  try dsimp only
  repeat (first | split | simp)
@[simp] theorem Die.abortSlot_fab_addr (s c : Nat) : (d.abortSlot s c).fab.addr = d.fab.addr := by
  unfold Die.abortSlot
  try dsimp only
  repeat (first | split | simp)
@[simp] theorem Die.abortSlot_fab_timeout (s c : Nat) : (d.abortSlot s c).fab.timeout = d.fab.timeout := by
  unfold Die.abortSlot
  try dsimp only
  repeat (first | split | simp)
@[simp] theorem Die.abortSlot_fab_peerFails (s c : Nat) : (d.abortSlot s c).fab.peerFails = d.fab.peerFails := by
  unfold Die.abortSlot
  try dsimp only
  repeat (first | split | simp)
@[simp] theorem Die.abortSlot_sec (s c : Nat) : (d.abortSlot s c).sec = d.sec := by
  unfold Die.abortSlot
  try dsimp only
  repeat (first | split | simp)
@[simp] theorem Die.abortSlot_mgmt (s c : Nat) : (d.abortSlot s c).mgmt = d.mgmt := by
  unfold Die.abortSlot
  try dsimp only
  repeat (first | split | simp)
@[simp] theorem Die.abortSlot_pwr (s c : Nat) : (d.abortSlot s c).pwr = d.pwr := by
  unfold Die.abortSlot
  try dsimp only
  repeat (first | split | simp)
@[simp] theorem Die.abortSlot_boot (s c : Nat) : (d.abortSlot s c).boot = d.boot := by
  unfold Die.abortSlot
  try dsimp only
  repeat (first | split | simp)
@[simp] theorem Die.abortSlot_err (s c : Nat) : (d.abortSlot s c).err = d.err := by
  unfold Die.abortSlot
  try dsimp only
  repeat (first | split | simp)
@[simp] theorem Die.abortSlot_seen (s c : Nat) : (d.abortSlot s c).seen = d.seen := by
  unfold Die.abortSlot
  try dsimp only
  repeat (first | split | simp)
@[simp] theorem Die.abortSlot_freeCtr (s c : Nat) : (d.abortSlot s c).freeCtr = d.freeCtr := by
  unfold Die.abortSlot
  try dsimp only
  repeat (first | split | simp)

/-! ### grantViol. A refused access is counted (R58). -/

@[simp] theorem Die.grantViol_fuses (s : Nat) : (d.grantViol s).fuses = d.fuses := by
  unfold Die.grantViol
  try dsimp only
  repeat (first | split | simp)
@[simp] theorem Die.grantViol_glb (s : Nat) : (d.grantViol s).glb = d.glb := by
  unfold Die.grantViol
  try dsimp only
  repeat (first | split | simp)
@[simp] theorem Die.grantViol_time (s : Nat) : (d.grantViol s).time = d.time := by
  unfold Die.grantViol
  try dsimp only
  repeat (first | split | simp)
@[simp] theorem Die.grantViol_latch (s : Nat) : (d.grantViol s).latch = d.latch := by
  unfold Die.grantViol
  try dsimp only
  repeat (first | split | simp)
@[simp] theorem Die.grantViol_iss (s : Nat) : (d.grantViol s).iss = d.iss := by
  unfold Die.grantViol
  try dsimp only
  repeat (first | split | simp)
@[simp] theorem Die.grantViol_st (s : Nat) : (d.grantViol s).st = d.st := by
  unfold Die.grantViol
  try dsimp only
  repeat (first | split | simp)
@[simp] theorem Die.grantViol_te0 (s : Nat) : (d.grantViol s).te0 = d.te0 := by
  unfold Die.grantViol
  try dsimp only
  repeat (first | split | simp)
@[simp] theorem Die.grantViol_te1 (s : Nat) : (d.grantViol s).te1 = d.te1 := by
  unfold Die.grantViol
  try dsimp only
  repeat (first | split | simp)
@[simp] theorem Die.grantViol_vec (s : Nat) : (d.grantViol s).vec = d.vec := by
  unfold Die.grantViol
  try dsimp only
  repeat (first | split | simp)
@[simp] theorem Die.grantViol_fln (s : Nat) : (d.grantViol s).fln = d.fln := by
  unfold Die.grantViol
  try dsimp only
  repeat (first | split | simp)
@[simp] theorem Die.grantViol_mca (s : Nat) : (d.grantViol s).mca = d.mca := by
  unfold Die.grantViol
  try dsimp only
  repeat (first | split | simp)
@[simp] theorem Die.grantViol_pst (s : Nat) : (d.grantViol s).pst = d.pst := by
  unfold Die.grantViol
  try dsimp only
  repeat (first | split | simp)
@[simp] theorem Die.grantViol_hbm (s : Nat) : (d.grantViol s).hbm = d.hbm := by
  unfold Die.grantViol
  try dsimp only
  repeat (first | split | simp)
@[simp] theorem Die.grantViol_ing (s : Nat) : (d.grantViol s).ing = d.ing := by
  unfold Die.grantViol
  try dsimp only
  repeat (first | split | simp)
@[simp] theorem Die.grantViol_kvp (s : Nat) : (d.grantViol s).kvp = d.kvp := by
  unfold Die.grantViol
  try dsimp only
  repeat (first | split | simp)
@[simp] theorem Die.grantViol_fld (s : Nat) : (d.grantViol s).fld = d.fld := by
  unfold Die.grantViol
  try dsimp only
  repeat (first | split | simp)
@[simp] theorem Die.grantViol_nwt (s : Nat) : (d.grantViol s).nwt = d.nwt := by
  unfold Die.grantViol
  try dsimp only
  repeat (first | split | simp)
@[simp] theorem Die.grantViol_ctx (s : Nat) : (d.grantViol s).ctx = d.ctx := by
  unfold Die.grantViol
  try dsimp only
  repeat (first | split | simp)
@[simp] theorem Die.grantViol_fab (s : Nat) : (d.grantViol s).fab = d.fab := by
  unfold Die.grantViol
  try dsimp only
  repeat (first | split | simp)
@[simp] theorem Die.grantViol_sec (s : Nat) : (d.grantViol s).sec = d.sec := by
  unfold Die.grantViol
  try dsimp only
  repeat (first | split | simp)
@[simp] theorem Die.grantViol_mgmt (s : Nat) : (d.grantViol s).mgmt = d.mgmt := by
  unfold Die.grantViol
  try dsimp only
  repeat (first | split | simp)
@[simp] theorem Die.grantViol_pwr (s : Nat) : (d.grantViol s).pwr = d.pwr := by
  unfold Die.grantViol
  try dsimp only
  repeat (first | split | simp)
@[simp] theorem Die.grantViol_boot (s : Nat) : (d.grantViol s).boot = d.boot := by
  unfold Die.grantViol
  try dsimp only
  repeat (first | split | simp)
@[simp] theorem Die.grantViol_err (s : Nat) : (d.grantViol s).err = d.err := by
  unfold Die.grantViol
  try dsimp only
  repeat (first | split | simp)
@[simp] theorem Die.grantViol_out (s : Nat) : (d.grantViol s).out = d.out := by
  unfold Die.grantViol
  try dsimp only
  repeat (first | split | simp)
@[simp] theorem Die.grantViol_seen (s : Nat) : (d.grantViol s).seen = d.seen := by
  unfold Die.grantViol
  try dsimp only
  repeat (first | split | simp)
@[simp] theorem Die.grantViol_freeCtr (s : Nat) : (d.grantViol s).freeCtr = d.freeCtr := by
  unfold Die.grantViol
  try dsimp only
  repeat (first | split | simp)

/-! ### drawFree. A free value is drawn. -/

@[simp] theorem Die.drawFree_fuses  : (d.drawFree).fuses = d.fuses := rfl
@[simp] theorem Die.drawFree_glb  : (d.drawFree).glb = d.glb := rfl
@[simp] theorem Die.drawFree_time  : (d.drawFree).time = d.time := rfl
@[simp] theorem Die.drawFree_latch  : (d.drawFree).latch = d.latch := rfl
@[simp] theorem Die.drawFree_iss  : (d.drawFree).iss = d.iss := rfl
@[simp] theorem Die.drawFree_st  : (d.drawFree).st = d.st := rfl
@[simp] theorem Die.drawFree_te0  : (d.drawFree).te0 = d.te0 := rfl
@[simp] theorem Die.drawFree_te1  : (d.drawFree).te1 = d.te1 := rfl
@[simp] theorem Die.drawFree_vec  : (d.drawFree).vec = d.vec := rfl
@[simp] theorem Die.drawFree_fln  : (d.drawFree).fln = d.fln := rfl
@[simp] theorem Die.drawFree_mca  : (d.drawFree).mca = d.mca := rfl
@[simp] theorem Die.drawFree_pst  : (d.drawFree).pst = d.pst := rfl
@[simp] theorem Die.drawFree_xfr  : (d.drawFree).xfr = d.xfr := rfl
@[simp] theorem Die.drawFree_hbm  : (d.drawFree).hbm = d.hbm := rfl
@[simp] theorem Die.drawFree_ing  : (d.drawFree).ing = d.ing := rfl
@[simp] theorem Die.drawFree_kvp  : (d.drawFree).kvp = d.kvp := rfl
@[simp] theorem Die.drawFree_fld  : (d.drawFree).fld = d.fld := rfl
@[simp] theorem Die.drawFree_nwt  : (d.drawFree).nwt = d.nwt := rfl
@[simp] theorem Die.drawFree_ctx  : (d.drawFree).ctx = d.ctx := rfl
@[simp] theorem Die.drawFree_fab  : (d.drawFree).fab = d.fab := rfl
@[simp] theorem Die.drawFree_sec  : (d.drawFree).sec = d.sec := rfl
@[simp] theorem Die.drawFree_mgmt  : (d.drawFree).mgmt = d.mgmt := rfl
@[simp] theorem Die.drawFree_pwr  : (d.drawFree).pwr = d.pwr := rfl
@[simp] theorem Die.drawFree_boot  : (d.drawFree).boot = d.boot := rfl
@[simp] theorem Die.drawFree_err  : (d.drawFree).err = d.err := rfl
@[simp] theorem Die.drawFree_out  : (d.drawFree).out = d.out := rfl

/-! ### eccCapture. A record of the check code (R596). -/

@[simp] theorem Die.eccCapture_fuses (b c st o : Nat) (sl : Option Nat) (r : Reader) : (d.eccCapture b c st o sl r).fuses = d.fuses := by simp [Die.eccCapture]
@[simp] theorem Die.eccCapture_glb (b c st o : Nat) (sl : Option Nat) (r : Reader) : (d.eccCapture b c st o sl r).glb = d.glb := by simp [Die.eccCapture]
@[simp] theorem Die.eccCapture_time (b c st o : Nat) (sl : Option Nat) (r : Reader) : (d.eccCapture b c st o sl r).time = d.time := by simp [Die.eccCapture]
@[simp] theorem Die.eccCapture_latch (b c st o : Nat) (sl : Option Nat) (r : Reader) : (d.eccCapture b c st o sl r).latch = d.latch := by simp [Die.eccCapture]
@[simp] theorem Die.eccCapture_iss (b c st o : Nat) (sl : Option Nat) (r : Reader) : (d.eccCapture b c st o sl r).iss = d.iss := by simp [Die.eccCapture]
@[simp] theorem Die.eccCapture_st (b c st o : Nat) (sl : Option Nat) (r : Reader) : (d.eccCapture b c st o sl r).st = d.st := by simp [Die.eccCapture]
@[simp] theorem Die.eccCapture_te0 (b c st o : Nat) (sl : Option Nat) (r : Reader) : (d.eccCapture b c st o sl r).te0 = d.te0 := by simp [Die.eccCapture]
@[simp] theorem Die.eccCapture_te1 (b c st o : Nat) (sl : Option Nat) (r : Reader) : (d.eccCapture b c st o sl r).te1 = d.te1 := by simp [Die.eccCapture]
@[simp] theorem Die.eccCapture_vec (b c st o : Nat) (sl : Option Nat) (r : Reader) : (d.eccCapture b c st o sl r).vec = d.vec := by simp [Die.eccCapture]
@[simp] theorem Die.eccCapture_fln (b c st o : Nat) (sl : Option Nat) (r : Reader) : (d.eccCapture b c st o sl r).fln = d.fln := by simp [Die.eccCapture]
@[simp] theorem Die.eccCapture_mca (b c st o : Nat) (sl : Option Nat) (r : Reader) : (d.eccCapture b c st o sl r).mca = d.mca := by simp [Die.eccCapture]
@[simp] theorem Die.eccCapture_pst (b c st o : Nat) (sl : Option Nat) (r : Reader) : (d.eccCapture b c st o sl r).pst = d.pst := by simp [Die.eccCapture]
@[simp] theorem Die.eccCapture_xfr (b c st o : Nat) (sl : Option Nat) (r : Reader) : (d.eccCapture b c st o sl r).xfr = d.xfr := by simp [Die.eccCapture]
@[simp] theorem Die.eccCapture_hbm (b c st o : Nat) (sl : Option Nat) (r : Reader) : (d.eccCapture b c st o sl r).hbm = d.hbm := by simp [Die.eccCapture]
@[simp] theorem Die.eccCapture_ing (b c st o : Nat) (sl : Option Nat) (r : Reader) : (d.eccCapture b c st o sl r).ing = d.ing := by simp [Die.eccCapture]
@[simp] theorem Die.eccCapture_kvp (b c st o : Nat) (sl : Option Nat) (r : Reader) : (d.eccCapture b c st o sl r).kvp = d.kvp := by simp [Die.eccCapture]
@[simp] theorem Die.eccCapture_fld (b c st o : Nat) (sl : Option Nat) (r : Reader) : (d.eccCapture b c st o sl r).fld = d.fld := by simp [Die.eccCapture]
@[simp] theorem Die.eccCapture_nwt (b c st o : Nat) (sl : Option Nat) (r : Reader) : (d.eccCapture b c st o sl r).nwt = d.nwt := by simp [Die.eccCapture]
@[simp] theorem Die.eccCapture_ctx (b c st o : Nat) (sl : Option Nat) (r : Reader) : (d.eccCapture b c st o sl r).ctx = d.ctx := by simp [Die.eccCapture]
@[simp] theorem Die.eccCapture_fab_ports (b c st o : Nat) (sl : Option Nat) (r : Reader) : (d.eccCapture b c st o sl r).fab.ports = d.fab.ports := by simp [Die.eccCapture]
@[simp] theorem Die.eccCapture_fab_channels (b c st o : Nat) (sl : Option Nat) (r : Reader) : (d.eccCapture b c st o sl r).fab.channels = d.fab.channels := by simp [Die.eccCapture]
@[simp] theorem Die.eccCapture_fab_jobs (b c st o : Nat) (sl : Option Nat) (r : Reader) : (d.eccCapture b c st o sl r).fab.jobs = d.fab.jobs := by simp [Die.eccCapture]
@[simp] theorem Die.eccCapture_fab_routes (b c st o : Nat) (sl : Option Nat) (r : Reader) : (d.eccCapture b c st o sl r).fab.routes = d.fab.routes := by simp [Die.eccCapture]
@[simp] theorem Die.eccCapture_fab_addr (b c st o : Nat) (sl : Option Nat) (r : Reader) : (d.eccCapture b c st o sl r).fab.addr = d.fab.addr := by simp [Die.eccCapture]
@[simp] theorem Die.eccCapture_fab_timeout (b c st o : Nat) (sl : Option Nat) (r : Reader) : (d.eccCapture b c st o sl r).fab.timeout = d.fab.timeout := by simp [Die.eccCapture]
@[simp] theorem Die.eccCapture_fab_peerFails (b c st o : Nat) (sl : Option Nat) (r : Reader) : (d.eccCapture b c st o sl r).fab.peerFails = d.fab.peerFails := by simp [Die.eccCapture]
@[simp] theorem Die.eccCapture_sec (b c st o : Nat) (sl : Option Nat) (r : Reader) : (d.eccCapture b c st o sl r).sec = d.sec := by simp [Die.eccCapture]
@[simp] theorem Die.eccCapture_mgmt (b c st o : Nat) (sl : Option Nat) (r : Reader) : (d.eccCapture b c st o sl r).mgmt = d.mgmt := by simp [Die.eccCapture]
@[simp] theorem Die.eccCapture_pwr (b c st o : Nat) (sl : Option Nat) (r : Reader) : (d.eccCapture b c st o sl r).pwr = d.pwr := by simp [Die.eccCapture]
@[simp] theorem Die.eccCapture_boot (b c st o : Nat) (sl : Option Nat) (r : Reader) : (d.eccCapture b c st o sl r).boot = d.boot := by simp [Die.eccCapture]

/-! ### eccCorr. A corrected word (R230). -/

@[simp] theorem Die.eccCorr_fuses (st o : Nat) (sl : Option Nat) (r : Reader) : (d.eccCorr st o sl r).fuses = d.fuses := by
  unfold Die.eccCorr
  try dsimp only
  repeat (first | split | simp)
@[simp] theorem Die.eccCorr_glb (st o : Nat) (sl : Option Nat) (r : Reader) : (d.eccCorr st o sl r).glb = d.glb := by
  unfold Die.eccCorr
  try dsimp only
  repeat (first | split | simp)
@[simp] theorem Die.eccCorr_time (st o : Nat) (sl : Option Nat) (r : Reader) : (d.eccCorr st o sl r).time = d.time := by
  unfold Die.eccCorr
  try dsimp only
  repeat (first | split | simp)
@[simp] theorem Die.eccCorr_latch (st o : Nat) (sl : Option Nat) (r : Reader) : (d.eccCorr st o sl r).latch = d.latch := by
  unfold Die.eccCorr
  try dsimp only
  repeat (first | split | simp)
@[simp] theorem Die.eccCorr_iss (st o : Nat) (sl : Option Nat) (r : Reader) : (d.eccCorr st o sl r).iss = d.iss := by
  unfold Die.eccCorr
  try dsimp only
  repeat (first | split | simp)
@[simp] theorem Die.eccCorr_st (st o : Nat) (sl : Option Nat) (r : Reader) : (d.eccCorr st o sl r).st = d.st := by
  unfold Die.eccCorr
  try dsimp only
  repeat (first | split | simp)
@[simp] theorem Die.eccCorr_te0 (st o : Nat) (sl : Option Nat) (r : Reader) : (d.eccCorr st o sl r).te0 = d.te0 := by
  unfold Die.eccCorr
  try dsimp only
  repeat (first | split | simp)
@[simp] theorem Die.eccCorr_te1 (st o : Nat) (sl : Option Nat) (r : Reader) : (d.eccCorr st o sl r).te1 = d.te1 := by
  unfold Die.eccCorr
  try dsimp only
  repeat (first | split | simp)
@[simp] theorem Die.eccCorr_vec (st o : Nat) (sl : Option Nat) (r : Reader) : (d.eccCorr st o sl r).vec = d.vec := by
  unfold Die.eccCorr
  try dsimp only
  repeat (first | split | simp)
@[simp] theorem Die.eccCorr_fln (st o : Nat) (sl : Option Nat) (r : Reader) : (d.eccCorr st o sl r).fln = d.fln := by
  unfold Die.eccCorr
  try dsimp only
  repeat (first | split | simp)
@[simp] theorem Die.eccCorr_mca (st o : Nat) (sl : Option Nat) (r : Reader) : (d.eccCorr st o sl r).mca = d.mca := by
  unfold Die.eccCorr
  try dsimp only
  repeat (first | split | simp)
@[simp] theorem Die.eccCorr_pst (st o : Nat) (sl : Option Nat) (r : Reader) : (d.eccCorr st o sl r).pst = d.pst := by
  unfold Die.eccCorr
  try dsimp only
  repeat (first | split | simp)
@[simp] theorem Die.eccCorr_ing (st o : Nat) (sl : Option Nat) (r : Reader) : (d.eccCorr st o sl r).ing = d.ing := by
  unfold Die.eccCorr
  try dsimp only
  repeat (first | split | simp)
@[simp] theorem Die.eccCorr_kvp (st o : Nat) (sl : Option Nat) (r : Reader) : (d.eccCorr st o sl r).kvp = d.kvp := by
  unfold Die.eccCorr
  try dsimp only
  repeat (first | split | simp)
@[simp] theorem Die.eccCorr_fld (st o : Nat) (sl : Option Nat) (r : Reader) : (d.eccCorr st o sl r).fld = d.fld := by
  unfold Die.eccCorr
  try dsimp only
  repeat (first | split | simp)
@[simp] theorem Die.eccCorr_nwt (st o : Nat) (sl : Option Nat) (r : Reader) : (d.eccCorr st o sl r).nwt = d.nwt := by
  unfold Die.eccCorr
  try dsimp only
  repeat (first | split | simp)
@[simp] theorem Die.eccCorr_ctx (st o : Nat) (sl : Option Nat) (r : Reader) : (d.eccCorr st o sl r).ctx = d.ctx := by
  unfold Die.eccCorr
  try dsimp only
  repeat (first | split | simp)
@[simp] theorem Die.eccCorr_fab_ports (st o : Nat) (sl : Option Nat) (r : Reader) : (d.eccCorr st o sl r).fab.ports = d.fab.ports := by
  unfold Die.eccCorr
  try dsimp only
  repeat (first | split | simp)
@[simp] theorem Die.eccCorr_fab_channels (st o : Nat) (sl : Option Nat) (r : Reader) : (d.eccCorr st o sl r).fab.channels = d.fab.channels := by
  unfold Die.eccCorr
  try dsimp only
  repeat (first | split | simp)
@[simp] theorem Die.eccCorr_fab_jobs (st o : Nat) (sl : Option Nat) (r : Reader) : (d.eccCorr st o sl r).fab.jobs = d.fab.jobs := by
  unfold Die.eccCorr
  try dsimp only
  repeat (first | split | simp)
@[simp] theorem Die.eccCorr_fab_routes (st o : Nat) (sl : Option Nat) (r : Reader) : (d.eccCorr st o sl r).fab.routes = d.fab.routes := by
  unfold Die.eccCorr
  try dsimp only
  repeat (first | split | simp)
@[simp] theorem Die.eccCorr_fab_addr (st o : Nat) (sl : Option Nat) (r : Reader) : (d.eccCorr st o sl r).fab.addr = d.fab.addr := by
  unfold Die.eccCorr
  try dsimp only
  repeat (first | split | simp)
@[simp] theorem Die.eccCorr_fab_timeout (st o : Nat) (sl : Option Nat) (r : Reader) : (d.eccCorr st o sl r).fab.timeout = d.fab.timeout := by
  unfold Die.eccCorr
  try dsimp only
  repeat (first | split | simp)
@[simp] theorem Die.eccCorr_fab_peerFails (st o : Nat) (sl : Option Nat) (r : Reader) : (d.eccCorr st o sl r).fab.peerFails = d.fab.peerFails := by
  unfold Die.eccCorr
  try dsimp only
  repeat (first | split | simp)
@[simp] theorem Die.eccCorr_sec (st o : Nat) (sl : Option Nat) (r : Reader) : (d.eccCorr st o sl r).sec = d.sec := by
  unfold Die.eccCorr
  try dsimp only
  repeat (first | split | simp)
@[simp] theorem Die.eccCorr_mgmt (st o : Nat) (sl : Option Nat) (r : Reader) : (d.eccCorr st o sl r).mgmt = d.mgmt := by
  unfold Die.eccCorr
  try dsimp only
  repeat (first | split | simp)
@[simp] theorem Die.eccCorr_pwr (st o : Nat) (sl : Option Nat) (r : Reader) : (d.eccCorr st o sl r).pwr = d.pwr := by
  unfold Die.eccCorr
  try dsimp only
  repeat (first | split | simp)
@[simp] theorem Die.eccCorr_boot (st o : Nat) (sl : Option Nat) (r : Reader) : (d.eccCorr st o sl r).boot = d.boot := by
  unfold Die.eccCorr
  try dsimp only
  repeat (first | split | simp)

/-! ### Every context ends -/

theorem Die.abortAll_ind {P : Die → Prop} (h : ∀ d s c, P d → P (Die.abortSlot d s c)) (c : Nat) (h0 : P d) : P (d.abortAll c) := by
  unfold Die.abortAll forUpto
  generalize List.range 64 = l
  induction l generalizing d with
  | nil => exact h0
  | cons s l ih => exact ih _ (h d s c h0)

@[simp] theorem Die.abortAll_fuses (c : Nat) : (d.abortAll c).fuses = d.fuses :=
  d.abortAll_ind (P := fun e => e.fuses = d.fuses) (fun e s c h => by rw [Die.abortSlot_fuses]; exact h) c rfl
@[simp] theorem Die.abortAll_glb (c : Nat) : (d.abortAll c).glb = d.glb :=
  d.abortAll_ind (P := fun e => e.glb = d.glb) (fun e s c h => by rw [Die.abortSlot_glb]; exact h) c rfl
@[simp] theorem Die.abortAll_time (c : Nat) : (d.abortAll c).time = d.time :=
  d.abortAll_ind (P := fun e => e.time = d.time) (fun e s c h => by rw [Die.abortSlot_time]; exact h) c rfl
@[simp] theorem Die.abortAll_latch (c : Nat) : (d.abortAll c).latch = d.latch :=
  d.abortAll_ind (P := fun e => e.latch = d.latch) (fun e s c h => by rw [Die.abortSlot_latch]; exact h) c rfl
@[simp] theorem Die.abortAll_st (c : Nat) : (d.abortAll c).st = d.st :=
  d.abortAll_ind (P := fun e => e.st = d.st) (fun e s c h => by rw [Die.abortSlot_st]; exact h) c rfl
@[simp] theorem Die.abortAll_hbm (c : Nat) : (d.abortAll c).hbm = d.hbm :=
  d.abortAll_ind (P := fun e => e.hbm = d.hbm) (fun e s c h => by rw [Die.abortSlot_hbm]; exact h) c rfl
@[simp] theorem Die.abortAll_kvp (c : Nat) : (d.abortAll c).kvp = d.kvp :=
  d.abortAll_ind (P := fun e => e.kvp = d.kvp) (fun e s c h => by rw [Die.abortSlot_kvp]; exact h) c rfl
@[simp] theorem Die.abortAll_fab_ports (c : Nat) : (d.abortAll c).fab.ports = d.fab.ports :=
  d.abortAll_ind (P := fun e => e.fab.ports = d.fab.ports) (fun e s c h => by rw [Die.abortSlot_fab_ports]; exact h) c rfl
@[simp] theorem Die.abortAll_fab_channels (c : Nat) : (d.abortAll c).fab.channels = d.fab.channels :=
  d.abortAll_ind (P := fun e => e.fab.channels = d.fab.channels) (fun e s c h => by rw [Die.abortSlot_fab_channels]; exact h) c rfl
@[simp] theorem Die.abortAll_fab_jobs (c : Nat) : (d.abortAll c).fab.jobs = d.fab.jobs :=
  d.abortAll_ind (P := fun e => e.fab.jobs = d.fab.jobs) (fun e s c h => by rw [Die.abortSlot_fab_jobs]; exact h) c rfl
@[simp] theorem Die.abortAll_fab_routes (c : Nat) : (d.abortAll c).fab.routes = d.fab.routes :=
  d.abortAll_ind (P := fun e => e.fab.routes = d.fab.routes) (fun e s c h => by rw [Die.abortSlot_fab_routes]; exact h) c rfl
@[simp] theorem Die.abortAll_fab_addr (c : Nat) : (d.abortAll c).fab.addr = d.fab.addr :=
  d.abortAll_ind (P := fun e => e.fab.addr = d.fab.addr) (fun e s c h => by rw [Die.abortSlot_fab_addr]; exact h) c rfl
@[simp] theorem Die.abortAll_fab_timeout (c : Nat) : (d.abortAll c).fab.timeout = d.fab.timeout :=
  d.abortAll_ind (P := fun e => e.fab.timeout = d.fab.timeout) (fun e s c h => by rw [Die.abortSlot_fab_timeout]; exact h) c rfl
@[simp] theorem Die.abortAll_fab_peerFails (c : Nat) : (d.abortAll c).fab.peerFails = d.fab.peerFails :=
  d.abortAll_ind (P := fun e => e.fab.peerFails = d.fab.peerFails) (fun e s c h => by rw [Die.abortSlot_fab_peerFails]; exact h) c rfl
@[simp] theorem Die.abortAll_sec (c : Nat) : (d.abortAll c).sec = d.sec :=
  d.abortAll_ind (P := fun e => e.sec = d.sec) (fun e s c h => by rw [Die.abortSlot_sec]; exact h) c rfl
@[simp] theorem Die.abortAll_mgmt (c : Nat) : (d.abortAll c).mgmt = d.mgmt :=
  d.abortAll_ind (P := fun e => e.mgmt = d.mgmt) (fun e s c h => by rw [Die.abortSlot_mgmt]; exact h) c rfl
@[simp] theorem Die.abortAll_pwr (c : Nat) : (d.abortAll c).pwr = d.pwr :=
  d.abortAll_ind (P := fun e => e.pwr = d.pwr) (fun e s c h => by rw [Die.abortSlot_pwr]; exact h) c rfl
@[simp] theorem Die.abortAll_boot (c : Nat) : (d.abortAll c).boot = d.boot :=
  d.abortAll_ind (P := fun e => e.boot = d.boot) (fun e s c h => by rw [Die.abortSlot_boot]; exact h) c rfl
@[simp] theorem Die.abortAll_err (c : Nat) : (d.abortAll c).err = d.err :=
  d.abortAll_ind (P := fun e => e.err = d.err) (fun e s c h => by rw [Die.abortSlot_err]; exact h) c rfl
@[simp] theorem Die.abortAll_seen (c : Nat) : (d.abortAll c).seen = d.seen :=
  d.abortAll_ind (P := fun e => e.seen = d.seen) (fun e s c h => by rw [Die.abortSlot_seen]; exact h) c rfl
@[simp] theorem Die.abortAll_freeCtr (c : Nat) : (d.abortAll c).freeCtr = d.freeCtr :=
  d.abortAll_ind (P := fun e => e.freeCtr = d.freeCtr) (fun e s c h => by rw [Die.abortSlot_freeCtr]; exact h) c rfl

/-! ### channelFail. A channel fails (R236). -/

@[simp] theorem Die.channelFail_fuses (ch c : Nat) : (d.channelFail ch c).fuses = d.fuses := by
  unfold Die.channelFail
  try dsimp only
  repeat (first | split | simp)
@[simp] theorem Die.channelFail_time (ch c : Nat) : (d.channelFail ch c).time = d.time := by
  unfold Die.channelFail
  try dsimp only
  repeat (first | split | simp)
@[simp] theorem Die.channelFail_latch (ch c : Nat) : (d.channelFail ch c).latch = d.latch := by
  unfold Die.channelFail
  try dsimp only
  repeat (first | split | simp)
@[simp] theorem Die.channelFail_st (ch c : Nat) : (d.channelFail ch c).st = d.st := by
  unfold Die.channelFail
  try dsimp only
  repeat (first | split | simp)
@[simp] theorem Die.channelFail_kvp (ch c : Nat) : (d.channelFail ch c).kvp = d.kvp := by
  unfold Die.channelFail
  try dsimp only
  repeat (first | split | simp)
@[simp] theorem Die.channelFail_fab_ports (ch c : Nat) : (d.channelFail ch c).fab.ports = d.fab.ports := by
  unfold Die.channelFail
  try dsimp only
  repeat (first | split | simp)
@[simp] theorem Die.channelFail_fab_channels (ch c : Nat) : (d.channelFail ch c).fab.channels = d.fab.channels := by
  unfold Die.channelFail
  try dsimp only
  repeat (first | split | simp)
@[simp] theorem Die.channelFail_fab_jobs (ch c : Nat) : (d.channelFail ch c).fab.jobs = d.fab.jobs := by
  unfold Die.channelFail
  try dsimp only
  repeat (first | split | simp)
@[simp] theorem Die.channelFail_fab_routes (ch c : Nat) : (d.channelFail ch c).fab.routes = d.fab.routes := by
  unfold Die.channelFail
  try dsimp only
  repeat (first | split | simp)
@[simp] theorem Die.channelFail_fab_addr (ch c : Nat) : (d.channelFail ch c).fab.addr = d.fab.addr := by
  unfold Die.channelFail
  try dsimp only
  repeat (first | split | simp)
@[simp] theorem Die.channelFail_fab_timeout (ch c : Nat) : (d.channelFail ch c).fab.timeout = d.fab.timeout := by
  unfold Die.channelFail
  try dsimp only
  repeat (first | split | simp)
@[simp] theorem Die.channelFail_fab_peerFails (ch c : Nat) : (d.channelFail ch c).fab.peerFails = d.fab.peerFails := by
  unfold Die.channelFail
  try dsimp only
  repeat (first | split | simp)
@[simp] theorem Die.channelFail_mgmt (ch c : Nat) : (d.channelFail ch c).mgmt = d.mgmt := by
  unfold Die.channelFail
  try dsimp only
  repeat (first | split | simp)
@[simp] theorem Die.channelFail_pwr (ch c : Nat) : (d.channelFail ch c).pwr = d.pwr := by
  unfold Die.channelFail
  try dsimp only
  repeat (first | split | simp)
@[simp] theorem Die.channelFail_boot (ch c : Nat) : (d.channelFail ch c).boot = d.boot := by
  unfold Die.channelFail
  try dsimp only
  repeat (first | split | simp)
@[simp] theorem Die.channelFail_seen (ch c : Nat) : (d.channelFail ch c).seen = d.seen := by
  unfold Die.channelFail
  try dsimp only
  repeat (first | split | simp)
@[simp] theorem Die.channelFail_freeCtr (ch c : Nat) : (d.channelFail ch c).freeCtr = d.freeCtr := by
  unfold Die.channelFail
  try dsimp only
  repeat (first | split | simp)

/-! ### uncorrBurst. The burst that fails a channel (R236). -/

@[simp] theorem Die.uncorrBurst_fuses (ch : Nat) : (d.uncorrBurst ch).fuses = d.fuses := by
  unfold Die.uncorrBurst
  try dsimp only
  repeat (first | split | simp)
@[simp] theorem Die.uncorrBurst_time (ch : Nat) : (d.uncorrBurst ch).time = d.time := by
  unfold Die.uncorrBurst
  try dsimp only
  repeat (first | split | simp)
@[simp] theorem Die.uncorrBurst_latch (ch : Nat) : (d.uncorrBurst ch).latch = d.latch := by
  unfold Die.uncorrBurst
  try dsimp only
  repeat (first | split | simp)
@[simp] theorem Die.uncorrBurst_st (ch : Nat) : (d.uncorrBurst ch).st = d.st := by
  unfold Die.uncorrBurst
  try dsimp only
  repeat (first | split | simp)
@[simp] theorem Die.uncorrBurst_kvp (ch : Nat) : (d.uncorrBurst ch).kvp = d.kvp := by
  unfold Die.uncorrBurst
  try dsimp only
  repeat (first | split | simp)
@[simp] theorem Die.uncorrBurst_fab_ports (ch : Nat) : (d.uncorrBurst ch).fab.ports = d.fab.ports := by
  unfold Die.uncorrBurst
  try dsimp only
  repeat (first | split | simp)
@[simp] theorem Die.uncorrBurst_fab_channels (ch : Nat) : (d.uncorrBurst ch).fab.channels = d.fab.channels := by
  unfold Die.uncorrBurst
  try dsimp only
  repeat (first | split | simp)
@[simp] theorem Die.uncorrBurst_fab_jobs (ch : Nat) : (d.uncorrBurst ch).fab.jobs = d.fab.jobs := by
  unfold Die.uncorrBurst
  try dsimp only
  repeat (first | split | simp)
@[simp] theorem Die.uncorrBurst_fab_routes (ch : Nat) : (d.uncorrBurst ch).fab.routes = d.fab.routes := by
  unfold Die.uncorrBurst
  try dsimp only
  repeat (first | split | simp)
@[simp] theorem Die.uncorrBurst_fab_addr (ch : Nat) : (d.uncorrBurst ch).fab.addr = d.fab.addr := by
  unfold Die.uncorrBurst
  try dsimp only
  repeat (first | split | simp)
@[simp] theorem Die.uncorrBurst_fab_timeout (ch : Nat) : (d.uncorrBurst ch).fab.timeout = d.fab.timeout := by
  unfold Die.uncorrBurst
  try dsimp only
  repeat (first | split | simp)
@[simp] theorem Die.uncorrBurst_fab_peerFails (ch : Nat) : (d.uncorrBurst ch).fab.peerFails = d.fab.peerFails := by
  unfold Die.uncorrBurst
  try dsimp only
  repeat (first | split | simp)
@[simp] theorem Die.uncorrBurst_mgmt (ch : Nat) : (d.uncorrBurst ch).mgmt = d.mgmt := by
  unfold Die.uncorrBurst
  try dsimp only
  repeat (first | split | simp)
@[simp] theorem Die.uncorrBurst_pwr (ch : Nat) : (d.uncorrBurst ch).pwr = d.pwr := by
  unfold Die.uncorrBurst
  try dsimp only
  repeat (first | split | simp)
@[simp] theorem Die.uncorrBurst_boot (ch : Nat) : (d.uncorrBurst ch).boot = d.boot := by
  unfold Die.uncorrBurst
  try dsimp only
  repeat (first | split | simp)
@[simp] theorem Die.uncorrBurst_seen (ch : Nat) : (d.uncorrBurst ch).seen = d.seen := by
  unfold Die.uncorrBurst
  try dsimp only
  repeat (first | split | simp)
@[simp] theorem Die.uncorrBurst_freeCtr (ch : Nat) : (d.uncorrBurst ch).freeCtr = d.freeCtr := by
  unfold Die.uncorrBurst
  try dsimp only
  repeat (first | split | simp)

/-! ### eccUncorr. An uncorrectable word (R230). -/

@[simp] theorem Die.eccUncorr_fuses (st o : Nat) (sl : Option Nat) (r : Reader) : (d.eccUncorr st o sl r).fuses = d.fuses := by
  unfold Die.eccUncorr
  try dsimp only
  repeat (first | split | simp)
@[simp] theorem Die.eccUncorr_time (st o : Nat) (sl : Option Nat) (r : Reader) : (d.eccUncorr st o sl r).time = d.time := by
  unfold Die.eccUncorr
  try dsimp only
  repeat (first | split | simp)
@[simp] theorem Die.eccUncorr_latch (st o : Nat) (sl : Option Nat) (r : Reader) : (d.eccUncorr st o sl r).latch = d.latch := by
  unfold Die.eccUncorr
  try dsimp only
  repeat (first | split | simp)
@[simp] theorem Die.eccUncorr_st (st o : Nat) (sl : Option Nat) (r : Reader) : (d.eccUncorr st o sl r).st = d.st := by
  unfold Die.eccUncorr
  try dsimp only
  repeat (first | split | simp)
@[simp] theorem Die.eccUncorr_kvp (st o : Nat) (sl : Option Nat) (r : Reader) : (d.eccUncorr st o sl r).kvp = d.kvp := by
  unfold Die.eccUncorr
  try dsimp only
  repeat (first | split | simp)
@[simp] theorem Die.eccUncorr_fab_ports (st o : Nat) (sl : Option Nat) (r : Reader) : (d.eccUncorr st o sl r).fab.ports = d.fab.ports := by
  unfold Die.eccUncorr
  try dsimp only
  repeat (first | split | simp)
@[simp] theorem Die.eccUncorr_fab_channels (st o : Nat) (sl : Option Nat) (r : Reader) : (d.eccUncorr st o sl r).fab.channels = d.fab.channels := by
  unfold Die.eccUncorr
  try dsimp only
  repeat (first | split | simp)
@[simp] theorem Die.eccUncorr_fab_jobs (st o : Nat) (sl : Option Nat) (r : Reader) : (d.eccUncorr st o sl r).fab.jobs = d.fab.jobs := by
  unfold Die.eccUncorr
  try dsimp only
  repeat (first | split | simp)
@[simp] theorem Die.eccUncorr_fab_routes (st o : Nat) (sl : Option Nat) (r : Reader) : (d.eccUncorr st o sl r).fab.routes = d.fab.routes := by
  unfold Die.eccUncorr
  try dsimp only
  repeat (first | split | simp)
@[simp] theorem Die.eccUncorr_fab_addr (st o : Nat) (sl : Option Nat) (r : Reader) : (d.eccUncorr st o sl r).fab.addr = d.fab.addr := by
  unfold Die.eccUncorr
  try dsimp only
  repeat (first | split | simp)
@[simp] theorem Die.eccUncorr_fab_timeout (st o : Nat) (sl : Option Nat) (r : Reader) : (d.eccUncorr st o sl r).fab.timeout = d.fab.timeout := by
  unfold Die.eccUncorr
  try dsimp only
  repeat (first | split | simp)
@[simp] theorem Die.eccUncorr_fab_peerFails (st o : Nat) (sl : Option Nat) (r : Reader) : (d.eccUncorr st o sl r).fab.peerFails = d.fab.peerFails := by
  unfold Die.eccUncorr
  try dsimp only
  repeat (first | split | simp)
@[simp] theorem Die.eccUncorr_mgmt (st o : Nat) (sl : Option Nat) (r : Reader) : (d.eccUncorr st o sl r).mgmt = d.mgmt := by
  unfold Die.eccUncorr
  try dsimp only
  repeat (first | split | simp)
@[simp] theorem Die.eccUncorr_pwr (st o : Nat) (sl : Option Nat) (r : Reader) : (d.eccUncorr st o sl r).pwr = d.pwr := by
  unfold Die.eccUncorr
  try dsimp only
  repeat (first | split | simp)
@[simp] theorem Die.eccUncorr_boot (st o : Nat) (sl : Option Nat) (r : Reader) : (d.eccUncorr st o sl r).boot = d.boot := by
  unfold Die.eccUncorr
  try dsimp only
  repeat (first | split | simp)

/-! ### ecc. What the check code found: no byte of memory changes. -/

/-- One word in error. -/
theorem Die.ecc_cons (w : EccWord) (e : Ecc) (sl : Option Nat) (r : Reader) :
    d.ecc (w :: e) sl r =
      (if w.uncorr then d.eccUncorr w.store w.off (d.eccContext w.store w.off sl) r
       else d.eccCorr w.store w.off (d.eccContext w.store w.off sl) r).ecc e sl r := rfl

@[simp] theorem Die.ecc_nil (sl : Option Nat) (r : Reader) : d.ecc [] sl r = d := rfl

@[simp] theorem Die.ecc_fuses (e : Ecc) (sl : Option Nat) (r : Reader) : (d.ecc e sl r).fuses = d.fuses := by
  induction e generalizing d with
  | nil => rfl
  | cons w e ih => rw [Die.ecc_cons, ih]; split <;> simp
@[simp] theorem Die.ecc_time (e : Ecc) (sl : Option Nat) (r : Reader) : (d.ecc e sl r).time = d.time := by
  induction e generalizing d with
  | nil => rfl
  | cons w e ih => rw [Die.ecc_cons, ih]; split <;> simp
@[simp] theorem Die.ecc_latch (e : Ecc) (sl : Option Nat) (r : Reader) : (d.ecc e sl r).latch = d.latch := by
  induction e generalizing d with
  | nil => rfl
  | cons w e ih => rw [Die.ecc_cons, ih]; split <;> simp
@[simp] theorem Die.ecc_st (e : Ecc) (sl : Option Nat) (r : Reader) : (d.ecc e sl r).st = d.st := by
  induction e generalizing d with
  | nil => rfl
  | cons w e ih => rw [Die.ecc_cons, ih]; split <;> simp
@[simp] theorem Die.ecc_kvp (e : Ecc) (sl : Option Nat) (r : Reader) : (d.ecc e sl r).kvp = d.kvp := by
  induction e generalizing d with
  | nil => rfl
  | cons w e ih => rw [Die.ecc_cons, ih]; split <;> simp
@[simp] theorem Die.ecc_fab_ports (e : Ecc) (sl : Option Nat) (r : Reader) : (d.ecc e sl r).fab.ports = d.fab.ports := by
  induction e generalizing d with
  | nil => rfl
  | cons w e ih => rw [Die.ecc_cons, ih]; split <;> simp
@[simp] theorem Die.ecc_fab_channels (e : Ecc) (sl : Option Nat) (r : Reader) : (d.ecc e sl r).fab.channels = d.fab.channels := by
  induction e generalizing d with
  | nil => rfl
  | cons w e ih => rw [Die.ecc_cons, ih]; split <;> simp
@[simp] theorem Die.ecc_fab_jobs (e : Ecc) (sl : Option Nat) (r : Reader) : (d.ecc e sl r).fab.jobs = d.fab.jobs := by
  induction e generalizing d with
  | nil => rfl
  | cons w e ih => rw [Die.ecc_cons, ih]; split <;> simp
@[simp] theorem Die.ecc_fab_routes (e : Ecc) (sl : Option Nat) (r : Reader) : (d.ecc e sl r).fab.routes = d.fab.routes := by
  induction e generalizing d with
  | nil => rfl
  | cons w e ih => rw [Die.ecc_cons, ih]; split <;> simp
@[simp] theorem Die.ecc_fab_addr (e : Ecc) (sl : Option Nat) (r : Reader) : (d.ecc e sl r).fab.addr = d.fab.addr := by
  induction e generalizing d with
  | nil => rfl
  | cons w e ih => rw [Die.ecc_cons, ih]; split <;> simp
@[simp] theorem Die.ecc_fab_timeout (e : Ecc) (sl : Option Nat) (r : Reader) : (d.ecc e sl r).fab.timeout = d.fab.timeout := by
  induction e generalizing d with
  | nil => rfl
  | cons w e ih => rw [Die.ecc_cons, ih]; split <;> simp
@[simp] theorem Die.ecc_fab_peerFails (e : Ecc) (sl : Option Nat) (r : Reader) : (d.ecc e sl r).fab.peerFails = d.fab.peerFails := by
  induction e generalizing d with
  | nil => rfl
  | cons w e ih => rw [Die.ecc_cons, ih]; split <;> simp
@[simp] theorem Die.ecc_mgmt (e : Ecc) (sl : Option Nat) (r : Reader) : (d.ecc e sl r).mgmt = d.mgmt := by
  induction e generalizing d with
  | nil => rfl
  | cons w e ih => rw [Die.ecc_cons, ih]; split <;> simp
@[simp] theorem Die.ecc_pwr (e : Ecc) (sl : Option Nat) (r : Reader) : (d.ecc e sl r).pwr = d.pwr := by
  induction e generalizing d with
  | nil => rfl
  | cons w e ih => rw [Die.ecc_cons, ih]; split <;> simp
@[simp] theorem Die.ecc_boot (e : Ecc) (sl : Option Nat) (r : Reader) : (d.ecc e sl r).boot = d.boot := by
  induction e generalizing d with
  | nil => rfl
  | cons w e ih => rw [Die.ecc_cons, ih]; split <;> simp

/-! ### stopUnits. Steps 1 and 2 of R440. -/

@[simp] theorem Die.stopUnits_fuses (s : Nat) : (d.stopUnits s).fuses = d.fuses := rfl
@[simp] theorem Die.stopUnits_glb (s : Nat) : (d.stopUnits s).glb = d.glb := rfl
@[simp] theorem Die.stopUnits_time (s : Nat) : (d.stopUnits s).time = d.time := rfl
@[simp] theorem Die.stopUnits_latch (s : Nat) : (d.stopUnits s).latch = d.latch := rfl
@[simp] theorem Die.stopUnits_iss (s : Nat) : (d.stopUnits s).iss = d.iss := rfl
@[simp] theorem Die.stopUnits_st (s : Nat) : (d.stopUnits s).st = d.st := rfl
@[simp] theorem Die.stopUnits_te0 (s : Nat) : (d.stopUnits s).te0 = d.te0 := rfl
@[simp] theorem Die.stopUnits_te1 (s : Nat) : (d.stopUnits s).te1 = d.te1 := rfl
@[simp] theorem Die.stopUnits_vec (s : Nat) : (d.stopUnits s).vec = d.vec := rfl
@[simp] theorem Die.stopUnits_fln (s : Nat) : (d.stopUnits s).fln = d.fln := rfl
@[simp] theorem Die.stopUnits_mca (s : Nat) : (d.stopUnits s).mca = d.mca := rfl
@[simp] theorem Die.stopUnits_pst (s : Nat) : (d.stopUnits s).pst = d.pst := rfl
@[simp] theorem Die.stopUnits_hbm (s : Nat) : (d.stopUnits s).hbm = d.hbm := rfl
@[simp] theorem Die.stopUnits_kvp (s : Nat) : (d.stopUnits s).kvp = d.kvp := rfl
@[simp] theorem Die.stopUnits_nwt (s : Nat) : (d.stopUnits s).nwt = d.nwt := rfl
@[simp] theorem Die.stopUnits_ctx (s : Nat) : (d.stopUnits s).ctx = d.ctx := rfl
@[simp] theorem Die.stopUnits_fab (s : Nat) : (d.stopUnits s).fab = d.fab := rfl
@[simp] theorem Die.stopUnits_sec (s : Nat) : (d.stopUnits s).sec = d.sec := rfl
@[simp] theorem Die.stopUnits_mgmt (s : Nat) : (d.stopUnits s).mgmt = d.mgmt := rfl
@[simp] theorem Die.stopUnits_pwr (s : Nat) : (d.stopUnits s).pwr = d.pwr := rfl
@[simp] theorem Die.stopUnits_boot (s : Nat) : (d.stopUnits s).boot = d.boot := rfl
@[simp] theorem Die.stopUnits_err (s : Nat) : (d.stopUnits s).err = d.err := rfl
@[simp] theorem Die.stopUnits_out (s : Nat) : (d.stopUnits s).out = d.out := rfl
@[simp] theorem Die.stopUnits_seen (s : Nat) : (d.stopUnits s).seen = d.seen := rfl
@[simp] theorem Die.stopUnits_freeCtr (s : Nat) : (d.stopUnits s).freeCtr = d.freeCtr := rfl

/-! ### departStart. A departure begins (R486). -/

@[simp] theorem Die.departStart_fuses (s : Nat) (rel : Bool) : (d.departStart s rel).fuses = d.fuses := by
  unfold Die.departStart
  try dsimp only
  repeat (first | split | simp)
@[simp] theorem Die.departStart_glb (s : Nat) (rel : Bool) : (d.departStart s rel).glb = d.glb := by
  unfold Die.departStart
  try dsimp only
  repeat (first | split | simp)
@[simp] theorem Die.departStart_time (s : Nat) (rel : Bool) : (d.departStart s rel).time = d.time := by
  unfold Die.departStart
  try dsimp only
  repeat (first | split | simp)
@[simp] theorem Die.departStart_latch (s : Nat) (rel : Bool) : (d.departStart s rel).latch = d.latch := by
  unfold Die.departStart
  try dsimp only
  repeat (first | split | simp)
@[simp] theorem Die.departStart_st (s : Nat) (rel : Bool) : (d.departStart s rel).st = d.st := by
  unfold Die.departStart
  try dsimp only
  repeat (first | split | simp)
@[simp] theorem Die.departStart_hbm (s : Nat) (rel : Bool) : (d.departStart s rel).hbm = d.hbm := by
  unfold Die.departStart
  try dsimp only
  repeat (first | split | simp)
@[simp] theorem Die.departStart_kvp (s : Nat) (rel : Bool) : (d.departStart s rel).kvp = d.kvp := by
  unfold Die.departStart
  try dsimp only
  repeat (first | split | simp)
@[simp] theorem Die.departStart_fab_ports (s : Nat) (rel : Bool) : (d.departStart s rel).fab.ports = d.fab.ports := by
  unfold Die.departStart
  try dsimp only
  repeat (first | split | simp)
@[simp] theorem Die.departStart_fab_channels (s : Nat) (rel : Bool) : (d.departStart s rel).fab.channels = d.fab.channels := by
  unfold Die.departStart
  try dsimp only
  repeat (first | split | simp)
@[simp] theorem Die.departStart_fab_jobs (s : Nat) (rel : Bool) : (d.departStart s rel).fab.jobs = d.fab.jobs := by
  unfold Die.departStart
  try dsimp only
  repeat (first | split | simp)
@[simp] theorem Die.departStart_fab_routes (s : Nat) (rel : Bool) : (d.departStart s rel).fab.routes = d.fab.routes := by
  unfold Die.departStart
  try dsimp only
  repeat (first | split | simp)
@[simp] theorem Die.departStart_fab_addr (s : Nat) (rel : Bool) : (d.departStart s rel).fab.addr = d.fab.addr := by
  unfold Die.departStart
  try dsimp only
  repeat (first | split | simp)
@[simp] theorem Die.departStart_fab_timeout (s : Nat) (rel : Bool) : (d.departStart s rel).fab.timeout = d.fab.timeout := by
  unfold Die.departStart
  try dsimp only
  repeat (first | split | simp)
@[simp] theorem Die.departStart_fab_peerFails (s : Nat) (rel : Bool) : (d.departStart s rel).fab.peerFails = d.fab.peerFails := by
  unfold Die.departStart
  try dsimp only
  repeat (first | split | simp)
@[simp] theorem Die.departStart_mgmt (s : Nat) (rel : Bool) : (d.departStart s rel).mgmt = d.mgmt := by
  unfold Die.departStart
  try dsimp only
  repeat (first | split | simp)
@[simp] theorem Die.departStart_pwr (s : Nat) (rel : Bool) : (d.departStart s rel).pwr = d.pwr := by
  unfold Die.departStart
  try dsimp only
  repeat (first | split | simp)
@[simp] theorem Die.departStart_boot (s : Nat) (rel : Bool) : (d.departStart s rel).boot = d.boot := by
  unfold Die.departStart
  try dsimp only
  repeat (first | split | simp)
@[simp] theorem Die.departStart_err (s : Nat) (rel : Bool) : (d.departStart s rel).err = d.err := by
  unfold Die.departStart
  try dsimp only
  repeat (first | split | simp)
@[simp] theorem Die.departStart_seen (s : Nat) (rel : Bool) : (d.departStart s rel).seen = d.seen := by
  unfold Die.departStart
  try dsimp only
  repeat (first | split | simp)
@[simp] theorem Die.departStart_freeCtr (s : Nat) (rel : Bool) : (d.departStart s rel).freeCtr = d.freeCtr := by
  unfold Die.departStart
  try dsimp only
  repeat (first | split | simp)

/-! ### tdiError. An error event of a TDI (R485). -/

@[simp] theorem Die.tdiError_fuses (s : Nat) (rel : Bool) : (d.tdiError s rel).fuses = d.fuses := by
  unfold Die.tdiError
  try dsimp only
  repeat (first | split | simp)
@[simp] theorem Die.tdiError_glb (s : Nat) (rel : Bool) : (d.tdiError s rel).glb = d.glb := by
  unfold Die.tdiError
  try dsimp only
  repeat (first | split | simp)
@[simp] theorem Die.tdiError_time (s : Nat) (rel : Bool) : (d.tdiError s rel).time = d.time := by
  unfold Die.tdiError
  try dsimp only
  repeat (first | split | simp)
@[simp] theorem Die.tdiError_latch (s : Nat) (rel : Bool) : (d.tdiError s rel).latch = d.latch := by
  unfold Die.tdiError
  try dsimp only
  repeat (first | split | simp)
@[simp] theorem Die.tdiError_st (s : Nat) (rel : Bool) : (d.tdiError s rel).st = d.st := by
  unfold Die.tdiError
  try dsimp only
  repeat (first | split | simp)
@[simp] theorem Die.tdiError_hbm (s : Nat) (rel : Bool) : (d.tdiError s rel).hbm = d.hbm := by
  unfold Die.tdiError
  try dsimp only
  repeat (first | split | simp)
@[simp] theorem Die.tdiError_kvp (s : Nat) (rel : Bool) : (d.tdiError s rel).kvp = d.kvp := by
  unfold Die.tdiError
  try dsimp only
  repeat (first | split | simp)
@[simp] theorem Die.tdiError_fab_ports (s : Nat) (rel : Bool) : (d.tdiError s rel).fab.ports = d.fab.ports := by
  unfold Die.tdiError
  try dsimp only
  repeat (first | split | simp)
@[simp] theorem Die.tdiError_fab_channels (s : Nat) (rel : Bool) : (d.tdiError s rel).fab.channels = d.fab.channels := by
  unfold Die.tdiError
  try dsimp only
  repeat (first | split | simp)
@[simp] theorem Die.tdiError_fab_jobs (s : Nat) (rel : Bool) : (d.tdiError s rel).fab.jobs = d.fab.jobs := by
  unfold Die.tdiError
  try dsimp only
  repeat (first | split | simp)
@[simp] theorem Die.tdiError_fab_routes (s : Nat) (rel : Bool) : (d.tdiError s rel).fab.routes = d.fab.routes := by
  unfold Die.tdiError
  try dsimp only
  repeat (first | split | simp)
@[simp] theorem Die.tdiError_fab_addr (s : Nat) (rel : Bool) : (d.tdiError s rel).fab.addr = d.fab.addr := by
  unfold Die.tdiError
  try dsimp only
  repeat (first | split | simp)
@[simp] theorem Die.tdiError_fab_timeout (s : Nat) (rel : Bool) : (d.tdiError s rel).fab.timeout = d.fab.timeout := by
  unfold Die.tdiError
  try dsimp only
  repeat (first | split | simp)
@[simp] theorem Die.tdiError_fab_peerFails (s : Nat) (rel : Bool) : (d.tdiError s rel).fab.peerFails = d.fab.peerFails := by
  unfold Die.tdiError
  try dsimp only
  repeat (first | split | simp)
@[simp] theorem Die.tdiError_mgmt (s : Nat) (rel : Bool) : (d.tdiError s rel).mgmt = d.mgmt := by
  unfold Die.tdiError
  try dsimp only
  repeat (first | split | simp)
@[simp] theorem Die.tdiError_pwr (s : Nat) (rel : Bool) : (d.tdiError s rel).pwr = d.pwr := by
  unfold Die.tdiError
  try dsimp only
  repeat (first | split | simp)
@[simp] theorem Die.tdiError_boot (s : Nat) (rel : Bool) : (d.tdiError s rel).boot = d.boot := by
  unfold Die.tdiError
  try dsimp only
  repeat (first | split | simp)
@[simp] theorem Die.tdiError_err (s : Nat) (rel : Bool) : (d.tdiError s rel).err = d.err := by
  unfold Die.tdiError
  try dsimp only
  repeat (first | split | simp)
@[simp] theorem Die.tdiError_seen (s : Nat) (rel : Bool) : (d.tdiError s rel).seen = d.seen := by
  unfold Die.tdiError
  try dsimp only
  repeat (first | split | simp)
@[simp] theorem Die.tdiError_freeCtr (s : Nat) (rel : Bool) : (d.tdiError s rel).freeCtr = d.freeCtr := by
  unfold Die.tdiError
  try dsimp only
  repeat (first | split | simp)

/-! ### integrityFail. INTEGRITY_FAIL (R496). -/

@[simp] theorem Die.integrityFail_fuses (b : Nat) (o : Option Nat) (r : Reader) : (d.integrityFail b o r).fuses = d.fuses := by
  unfold Die.integrityFail
  try dsimp only
  repeat (first | split | simp)
@[simp] theorem Die.integrityFail_glb (b : Nat) (o : Option Nat) (r : Reader) : (d.integrityFail b o r).glb = d.glb := by
  unfold Die.integrityFail
  try dsimp only
  repeat (first | split | simp)
@[simp] theorem Die.integrityFail_time (b : Nat) (o : Option Nat) (r : Reader) : (d.integrityFail b o r).time = d.time := by
  unfold Die.integrityFail
  try dsimp only
  repeat (first | split | simp)
@[simp] theorem Die.integrityFail_latch (b : Nat) (o : Option Nat) (r : Reader) : (d.integrityFail b o r).latch = d.latch := by
  unfold Die.integrityFail
  try dsimp only
  repeat (first | split | simp)
@[simp] theorem Die.integrityFail_st (b : Nat) (o : Option Nat) (r : Reader) : (d.integrityFail b o r).st = d.st := by
  unfold Die.integrityFail
  try dsimp only
  repeat (first | split | simp)
@[simp] theorem Die.integrityFail_hbm (b : Nat) (o : Option Nat) (r : Reader) : (d.integrityFail b o r).hbm = d.hbm := by
  unfold Die.integrityFail
  try dsimp only
  repeat (first | split | simp)
@[simp] theorem Die.integrityFail_kvp (b : Nat) (o : Option Nat) (r : Reader) : (d.integrityFail b o r).kvp = d.kvp := by
  unfold Die.integrityFail
  try dsimp only
  repeat (first | split | simp)
@[simp] theorem Die.integrityFail_fab_ports (b : Nat) (o : Option Nat) (r : Reader) : (d.integrityFail b o r).fab.ports = d.fab.ports := by
  unfold Die.integrityFail
  try dsimp only
  repeat (first | split | simp)
@[simp] theorem Die.integrityFail_fab_channels (b : Nat) (o : Option Nat) (r : Reader) : (d.integrityFail b o r).fab.channels = d.fab.channels := by
  unfold Die.integrityFail
  try dsimp only
  repeat (first | split | simp)
@[simp] theorem Die.integrityFail_fab_jobs (b : Nat) (o : Option Nat) (r : Reader) : (d.integrityFail b o r).fab.jobs = d.fab.jobs := by
  unfold Die.integrityFail
  try dsimp only
  repeat (first | split | simp)
@[simp] theorem Die.integrityFail_fab_routes (b : Nat) (o : Option Nat) (r : Reader) : (d.integrityFail b o r).fab.routes = d.fab.routes := by
  unfold Die.integrityFail
  try dsimp only
  repeat (first | split | simp)
@[simp] theorem Die.integrityFail_fab_addr (b : Nat) (o : Option Nat) (r : Reader) : (d.integrityFail b o r).fab.addr = d.fab.addr := by
  unfold Die.integrityFail
  try dsimp only
  repeat (first | split | simp)
@[simp] theorem Die.integrityFail_fab_timeout (b : Nat) (o : Option Nat) (r : Reader) : (d.integrityFail b o r).fab.timeout = d.fab.timeout := by
  unfold Die.integrityFail
  try dsimp only
  repeat (first | split | simp)
@[simp] theorem Die.integrityFail_fab_peerFails (b : Nat) (o : Option Nat) (r : Reader) : (d.integrityFail b o r).fab.peerFails = d.fab.peerFails := by
  unfold Die.integrityFail
  try dsimp only
  repeat (first | split | simp)
@[simp] theorem Die.integrityFail_mgmt (b : Nat) (o : Option Nat) (r : Reader) : (d.integrityFail b o r).mgmt = d.mgmt := by
  unfold Die.integrityFail
  try dsimp only
  repeat (first | split | simp)
@[simp] theorem Die.integrityFail_pwr (b : Nat) (o : Option Nat) (r : Reader) : (d.integrityFail b o r).pwr = d.pwr := by
  unfold Die.integrityFail
  try dsimp only
  repeat (first | split | simp)
@[simp] theorem Die.integrityFail_boot (b : Nat) (o : Option Nat) (r : Reader) : (d.integrityFail b o r).boot = d.boot := by
  unfold Die.integrityFail
  try dsimp only
  repeat (first | split | simp)
@[simp] theorem Die.integrityFail_seen (b : Nat) (o : Option Nat) (r : Reader) : (d.integrityFail b o r).seen = d.seen := by
  unfold Die.integrityFail
  try dsimp only
  repeat (first | split | simp)
@[simp] theorem Die.integrityFail_freeCtr (b : Nat) (o : Option Nat) (r : Reader) : (d.integrityFail b o r).freeCtr = d.freeCtr := by
  unfold Die.integrityFail
  try dsimp only
  repeat (first | split | simp)

/-! ### newKey. A key is drawn (R498). -/

/-- Of the die, only the security block's own state. -/
theorem Die.newKey_die {x : Die × Nat} (h : d.newKey = some x) : x.1 = { d with sec := x.1.sec } := by
  unfold Die.newKey at h
  split at h
  · obtain rfl := Option.some.inj h; rfl
  · cases h

/-- Its identity is one that no key had before. -/
theorem Die.newKey_fresh {x : Die × Nat} (h : d.newKey = some x) : x.2 = d.sec.keyGen + 1 ∧ x.1.sec.keyGen = x.2 := by
  unfold Die.newKey at h
  split at h
  · obtain rfl := Option.some.inj h; exact ⟨rfl, rfl⟩
  · cases h

/-- None after a failed health test of the entropy source (R516). -/
theorem Die.newKey_none (h : d.sec.entropyOk = false) : d.newKey = none := by
  unfold Die.newKey; simp [h]

end Sys2Proof.Machine
end

