-- ==== Sys2Proof/Laws/Answers.lean ====
section
/-! SUPPORT. How a command answers: a meaning is `State.act` of a function on the die, so its answer is what that function gives; a
message of a prompt function takes effect at once; and the nine memories through their operations. -/

namespace Sys2Proof.Machine

/-! ### Answers -/

/-- The command whose meaning is `State.act f` answers the die that `f` gives. -/
theorem answers_of_act {c : Instr} {s : State} {f : Die → Die} {d : Die} (h : exec c s = s.act f) (e : f s.die = d) : Answers c s d := by
  unfold Answers; rw [h, State.act_eq, e]

/-- Two dies that a command answers from one state are the same up to what the event brings with it. -/
theorem Answers.next {c : Instr} {s : State} {d : Die} (h : Answers c s d) : ∃ t, exec c s = .next t ∧ t.pending = s.pending ∧
    t.die = Die.afterEvent s.die d := ⟨_, h, rfl, rfl⟩

theorem Answers.goes {c : Instr} {s : State} {d : Die} (h : Answers c s d) : Goes (exec c s) := ⟨_, h⟩

/-! ### What has become readable -/

theorem foldl_pred {α β : Type} {P : β → Prop} {f : β → α → β} {l : List α} :
    ∀ {b : β}, P b → (∀ b x, x ∈ l → P b → P (f b x)) → P (l.foldl f b) := by
  induction l with
  | nil => exact fun hb _ => hb
  | cons x l ih => exact fun hb hf => ih (hf _ x (by simp) hb) fun b y hy => hf b y (by simp [hy])

theorem forUpto_fixed {α : Type} {f : Nat → α → α} {a : α} (h : ∀ k, f k a = a) (n : Nat) : forUpto n f a = a :=
  foldl_pred (P := fun b => b = a) rfl fun b x _ e => by rw [e, h]

/-- Where nothing is readable that has not landed, nothing lands. -/
theorem Die.landReadable_landed {d : Die} (h : Landed d) : d.landReadable = d := by
  have first : d.landFirst = d := by
    have key : ∀ o : Option Nat, (∀ m, o = some m → d.iss.cyc ≤ m) → (match o with
        | none => d
        | some m =>
          if m < d.iss.cyc then
            let u := (firstBelow 6 fun k => decide (nth none d.nextWrites k = some m)).getD 0
            if u ≤ 1 then d.rowComplete u .ok else if u = 2 then d.flintComplete .ok else if u = 3 then d.vectorLand .ok
            else if u = 4 then d.micaLand .ok else d.postLand .ok
          else d) = d := by
      intro o ho
      cases o with
      | none => rfl
      | some m => exact if_neg (Nat.not_lt.mpr (ho m rfl))
    unfold Die.landFirst
    apply key
    apply foldl_pred (P := fun o : Option Nat => ∀ m, o = some m → d.iss.cyc ≤ m)
    · intro m e; cases e
    · intro o x hx ho m e
      have hx' := h.1 x hx
      cases o <;> cases x <;> simp at e
      · exact hx' m (by rw [e])
      · exact ho m (by rw [e])
      · have h1 := ho _ rfl
        have h2 := hx' _ rfl
        omega
  have none : d.iss.incs.filter (fun x => decide (x.1 < d.iss.cyc)) = [] := by
    rw [List.filter_eq_nil_iff]; intro x hx; simpa using h.2 x hx
  have all : d.iss.incs.filter (fun x => decide (d.iss.cyc ≤ x.1)) = d.iss.incs := by
    rw [List.filter_eq_self]; intro x hx; simpa using h.2 x hx
  unfold Die.landReadable
  rw [forUpto_fixed fun _ => first]
  unfold Die.tallyReadable
  rw [none, all]
  rfl

/-! ### Messages -/

/-- A message whose function has nothing waiting, at a die that is awake, takes effect at once. -/
theorem Die.hostMsg_prompt {s : State} {fn : Nat} (p : Prompt s fn) {m : HostMsg} (hm : m.fn = fn) (f : Die → Die) :
    s.die.hostMsg m f = f s.die := by
  unfold Die.hostMsg Die.inOrder
  rw [if_pos p.1, hm]
  simp [p.2]

theorem Die.hostWr_prompt {s : State} {fn : Nat} (p : Prompt s fn) (h : s.die.hostOpen = true) (off : Nat) (v : W32) (f : Die → Die) :
    s.die.hostWr fn off v f = f s.die := by
  unfold Die.hostWr
  rw [Die.hostMsg_prompt p rfl, if_pos h]

theorem Die.pfWr_prompt {s : State} (p : Prompt s 0) (h : s.die.hostOpen = true) (off : Nat) (v : W32) (f : Die → Die) :
    s.die.pfWr 0 off v f = f s.die := by
  unfold Die.pfWr
  rw [Die.hostWr_prompt p h, if_pos rfl]

/-- A write of a physical-function register by another function changes nothing. -/
theorem Die.pfWr_other {s : State} {fn : Nat} (p : Prompt s fn) (h : fn ≠ 0) (off : Nat) (v : W32) (f : Die → Die) :
    s.die.pfWr fn off v f = s.die := by
  unfold Die.pfWr Die.hostWr
  rw [Die.hostMsg_prompt p rfl]
  simp [h]

/-- A message is carried out, held in order, held as a wake, or lost: no other effect is possible. -/
theorem Die.hostMsg_cases (d : Die) (m : HostMsg) (f : Die → Die) :
    d.hostMsg m f = f d ∨ d.hostMsg m f = { d with ctx := { d.ctx with held := d.ctx.held ++ [m] } } ∨
    d.hostMsg m f = { d with pwr := { d.pwr with held := d.pwr.held ++ [m] } } ∨ d.hostMsg m f = d := by
  unfold Die.hostMsg Die.inOrder
  split
  · split
    · exact .inr (.inl rfl)
    · exact .inl rfl
  · split
    · exact .inr (.inr (.inl rfl))
    · exact .inr (.inr (.inr rfl))

/-- What holds of the die, of what the message's effect gives, and does not look at what waits, holds after the message. -/
theorem Die.hostMsg_ind {P : Stores → Prop} {d : Die} {m : HostMsg} {f : Die → Die} (h : P d.st) (hf : P (f d).st) : P (d.hostMsg m f).st := by
  rcases d.hostMsg_cases m f with e | e | e | e <;> rw [e]
  · exact hf
  · exact h
  · exact h
  · exact h

/-! ### The nine memories -/

/-- All nine memories of a die are in their canonical form. -/
def StoresForm (st : Stores) : Prop :=
  Memory.wf st.ws0 = true ∧ Memory.wf st.ws1 = true ∧ Memory.wf st.lb = true ∧ Memory.wf st.hbm = true ∧ Memory.wf st.instr = true ∧
    Memory.wf st.xprog = true ∧ Memory.wf st.ag = true ∧ Memory.wf st.desc = true ∧ Memory.wf st.tmpl = true

theorem memoryForm_iff (s : State) : MemoryForm s ↔ StoresForm s.die.st := Iff.rfl

theorem StoresForm.empty : StoresForm {} := ⟨rfl, rfl, rfl, rfl, rfl, rfl, rfl, rfl, rfl⟩

theorem StoresForm.write {st : Stores} (h : StoresForm st) (space a : Nat) (bs : List Byte) : StoresForm (st.write space a bs) := by
  obtain ⟨h0, h1, h2, h3, h4, h5, h6, h7, h8⟩ := h
  unfold Stores.write
  split
  · exact ⟨Mem.wf_write bs a h0, h1, h2, h3, h4, h5, h6, h7, h8⟩
  · split
    · exact ⟨h0, Mem.wf_write bs a h1, h2, h3, h4, h5, h6, h7, h8⟩
    · split
      · exact ⟨h0, h1, Mem.wf_write bs a h2, h3, h4, h5, h6, h7, h8⟩
      · exact ⟨h0, h1, h2, h3, h4, h5, h6, h7, h8⟩

theorem StoresForm.hbm {st : Stores} (h : StoresForm st) {m : Tab Byte} (w : Memory.wf m = true) : StoresForm { st with hbm := m } :=
  ⟨h.1, h.2.1, h.2.2.1, w, h.2.2.2.2.1, h.2.2.2.2.2.1, h.2.2.2.2.2.2.1, h.2.2.2.2.2.2.2.1, h.2.2.2.2.2.2.2.2⟩

theorem StoresForm.lb {st : Stores} (h : StoresForm st) {m : Tab Byte} (w : Memory.wf m = true) : StoresForm { st with lb := m } :=
  ⟨h.1, h.2.1, w, h.2.2.2.1, h.2.2.2.2.1, h.2.2.2.2.2.1, h.2.2.2.2.2.2.1, h.2.2.2.2.2.2.2.1, h.2.2.2.2.2.2.2.2⟩

/-- A meaning that keeps the memories' form on the die keeps it on the state. -/
theorem memoryForm_act {s t : State} {f : Die → Die} (h : s.act f = .next t) (hf : StoresForm (f s.die).st) : MemoryForm t := by
  rw [State.act_inj h, memoryForm_iff]
  show StoresForm (Die.afterEvent s.die (f s.die)).st
  rw [Die.afterEvent_st]
  exact hf

end Sys2Proof.Machine
end

