-- ==== Sys2Proof/Laws/Exec.lean ====
section
/-! SUPPORT. One equation per command: what `exec` runs. A proof rewrites with these; unfolding `exec` itself is slow. -/

namespace Sys2Proof.Machine

theorem exec_bundleIssue (fetch : Ecc) (s : State) : exec (.bundleIssue fetch) s = execBundleIssue fetch s := rfl
theorem exec_loopBegin (s : State) : exec .loopBegin s = execLoopBegin s := rfl
theorem exec_loopEnd (s : State) : exec .loopEnd s = execLoopEnd s := rfl
theorem exec_exit (s : State) : exec .exit s = execExit s := rfl
theorem exec_tallyWaitRelease (s : State) : exec .tallyWaitRelease s = execTallyWaitRelease s := rfl
theorem exec_tallyTimeout (s : State) : exec .tallyTimeout s = execTallyTimeout s := rfl
theorem exec_enop (te : Fin 2) (s : State) : exec (.enop te) s = execEnop te s := rfl
theorem exec_wload (te : Fin 2) (ecc : Ecc) (s : State) : exec (.wload te ecc) s = execWload te ecc s := rfl
theorem exec_stream (te : Fin 2) (ecc : Ecc) (s : State) : exec (.stream te ecc) s = execStream te ecc s := rfl
theorem exec_streamRowComplete (te : Fin 2) (ecc : Ecc) (s : State) : exec (.streamRowComplete te ecc) s = execStreamRowComplete te ecc s := rfl
theorem exec_vnop (s : State) : exec .vnop s = execVnop s := rfl
theorem exec_vadd (ecc : Ecc) (s : State) : exec (.vadd ecc) s = execVadd ecc s := rfl
theorem exec_vmul (ecc : Ecc) (s : State) : exec (.vmul ecc) s = execVmul ecc s := rfl
theorem exec_vfma (ecc : Ecc) (s : State) : exec (.vfma ecc) s = execVfma ecc s := rfl
theorem exec_vmax (ecc : Ecc) (s : State) : exec (.vmax ecc) s = execVmax ecc s := rfl
theorem exec_vmin (ecc : Ecc) (s : State) : exec (.vmin ecc) s = execVmin ecc s := rfl
theorem exec_vcmpgt (ecc : Ecc) (s : State) : exec (.vcmpgt ecc) s = execVcmpgt ecc s := rfl
theorem exec_vexp (ecc : Ecc) (s : State) : exec (.vexp ecc) s = execVexp ecc s := rfl
theorem exec_vrecip (ecc : Ecc) (s : State) : exec (.vrecip ecc) s = execVrecip ecc s := rfl
theorem exec_vrsqrt (ecc : Ecc) (s : State) : exec (.vrsqrt ecc) s = execVrsqrt ecc s := rfl
theorem exec_vcvt (ecc : Ecc) (s : State) : exec (.vcvt ecc) s = execVcvt ecc s := rfl
theorem exec_vrmax (ecc : Ecc) (s : State) : exec (.vrmax ecc) s = execVrmax ecc s := rfl
theorem exec_vrsum (ecc : Ecc) (s : State) : exec (.vrsum ecc) s = execVrsum ecc s := rfl
theorem exec_vamax (ecc : Ecc) (s : State) : exec (.vamax ecc) s = execVamax ecc s := rfl
theorem exec_vmerge (ecc : Ecc) (s : State) : exec (.vmerge ecc) s = execVmerge ecc s := rfl
theorem exec_vhad (ecc : Ecc) (s : State) : exec (.vhad ecc) s = execVhad ecc s := rfl
theorem exec_vectorResult (ecc : Ecc) (s : State) : exec (.vectorResult ecc) s = execVectorResult s ecc := rfl
theorem exec_launch (s : State) : exec .launch s = execLaunch s := rfl
theorem exec_stop (s : State) : exec .stop s = execStop s := rfl
theorem exec_threadLaunchArrive (s : State) : exec .threadLaunchArrive s = execThreadLaunchArrive s := rfl
theorem exec_threadStopArrive (s : State) : exec .threadStopArrive s = execThreadStopArrive s := rfl
theorem exec_fwload (ecc : Ecc) (s : State) : exec (.fwload ecc) s = execFwload ecc s := rfl
theorem exec_fstream (ecc : Ecc) (s : State) : exec (.fstream ecc) s = execFstream ecc s := rfl
theorem exec_flintRowComplete (ecc : Ecc) (s : State) : exec (.flintRowComplete ecc) s = execFlintRowComplete ecc s := rfl
theorem exec_fft (ecc : Ecc) (s : State) : exec (.fft ecc) s = execFft ecc s := rfl
theorem exec_ifft (ecc : Ecc) (s : State) : exec (.ifft ecc) s = execIfft ecc s := rfl
theorem exec_cmul (ecc : Ecc) (s : State) : exec (.cmul ecc) s = execCmul ecc s := rfl
theorem exec_wht (ecc : Ecc) (s : State) : exec (.wht ecc) s = execWht ecc s := rfl
theorem exec_micaResult (ecc : Ecc) (s : State) : exec (.micaResult ecc) s = execMicaResult s ecc := rfl
theorem exec_pnop (s : State) : exec .pnop s = execPnop s := rfl
theorem exec_maxpool (ecc : Ecc) (s : State) : exec (.maxpool ecc) s = execMaxpool ecc s := rfl
theorem exec_avgpoolInc (ecc : Ecc) (s : State) : exec (.avgpoolInc ecc) s = execAvgpoolInc ecc s := rfl
theorem exec_avgpoolExc (ecc : Ecc) (s : State) : exec (.avgpoolExc ecc) s = execAvgpoolExc ecc s := rfl
theorem exec_cropBilinear (ecc : Ecc) (s : State) : exec (.cropBilinear ecc) s = execCropBilinear ecc s := rfl
theorem exec_cropNearest (ecc : Ecc) (s : State) : exec (.cropNearest ecc) s = execCropNearest ecc s := rfl
theorem exec_argmax (ecc : Ecc) (s : State) : exec (.argmax ecc) s = execArgmax ecc s := rfl
theorem exec_postResult (ecc : Ecc) (s : State) : exec (.postResult ecc) s = execPostResult s ecc := rfl
theorem exec_snop (s : State) : exec .snop s = execSnop s := rfl
theorem exec_tinc (s : State) : exec .tinc s = execTinc s := rfl
theorem exec_cmd (ecc : Ecc) (s : State) : exec (.cmd ecc) s = execCmd ecc s := rfl
theorem exec_sense (ecc : Ecc) (s : State) : exec (.sense ecc) s = execSense s ecc := rfl
theorem exec_mark (s : State) : exec .mark s = execMark s := rfl
theorem exec_requestIssue (t : Fin 4096) (room readNow : Bool) (walk : Access) (s : State) : exec (.requestIssue t room readNow walk) s = execRequestIssue t room readNow s walk := rfl
theorem exec_requestComplete (t : Fin 4096) (which portWait : Nat) (res : Access) (picks : List Nat) (s : State) : exec (.requestComplete t which portWait res picks) s = execRequestComplete t which portWait res s picks := rfl
theorem exec_hbmPhyLockLoss (channel : Fin 128) (s : State) : exec (.hbmPhyLockLoss channel) s = execHbmPhyLockLoss channel s := rfl
theorem exec_patrolRead (found : Ecc) (s : State) : exec (.patrolRead found) s = execPatrolRead found s := rfl
theorem exec_hbmRefresh (site : Fin 4) (s : State) : exec (.hbmRefresh site) s = execHbmRefresh site s := rfl
theorem exec_move (t : Fin 4096) (ecc : Ecc) (s : State) : exec (.move t ecc) s = execMove t ecc s := rfl
theorem exec_stride (t : Fin 4096) (ecc : Ecc) (s : State) : exec (.stride t ecc) s = execStride t ecc s := rfl
theorem exec_gather (t : Fin 4096) (ecc : Ecc) (walk : Access) (s : State) : exec (.gather t ecc walk) s = execGather t ecc s walk := rfl
theorem exec_scatter (t : Fin 4096) (ecc : Ecc) (walk : Access) (s : State) : exec (.scatter t ecc walk) s = execScatter t ecc s walk := rfl
theorem exec_signal (t : Fin 4096) (ecc : Ecc) (s : State) : exec (.signal t ecc) s = execSignal t ecc s := rfl
theorem exec_wait (t : Fin 4096) (ecc : Ecc) (s : State) : exec (.wait t ecc) s = execWait t ecc s := rfl
theorem exec_threadWaitRelease (t : Fin 4096) (s : State) : exec (.threadWaitRelease t) s = execThreadWaitRelease t s := rfl
theorem exec_loop (t : Fin 4096) (ecc : Ecc) (s : State) : exec (.loop t ecc) s = execLoop t ecc s := rfl
theorem exec_endStep (t : Fin 4096) (ecc : Ecc) (s : State) : exec (.endStep t ecc) s = execEndStep t ecc s := rfl
theorem exec_threadFail (t : Fin 4096) (s : State) : exec (.threadFail t) s = execThreadFail t s := rfl
theorem exec_passClose (t : Fin 4096) (s : State) : exec (.passClose t) s = execPassClose t s := rfl
theorem exec_reservedClassMessage (cls : BitVec 4) (s : State) : exec (.reservedClassMessage cls) s = execReservedClassMessage cls s := rfl
theorem exec_sof (m : Fin 16) (frame : W32) (sensorTs : W64) (width height : BitVec 16) (fmt : Byte) (fifoFull : Bool) (s : State) : exec (.sof m frame sensorTs width height fmt fifoFull) s = execSof m frame sensorTs width height fmt fifoFull s := rfl
theorem exec_line (m : Fin 16) (row offset : Nat) (payload : List Byte) (fifoFull : Bool) (s : State) : exec (.line m row offset payload fifoFull) s = execLine m row offset payload fifoFull s := rfl
theorem exec_eof (m : Fin 16) (fifoFull : Bool) (s : State) : exec (.eof m fifoFull) s = execEof m fifoFull s := rfl
theorem exec_timesync (timeNs : W64) (s : State) : exec (.timesync timeNs) s = execTimesync timeNs s := rfl
theorem exec_slewEnd (s : State) : exec .slewEnd s = execSlewEnd s := rfl
theorem exec_voidStripeHandover (m : Fin 16) (s : State) : exec (.voidStripeHandover m) s = execVoidStripeHandover m s := rfl
theorem exec_stripeFree (m : Fin 16) (s : State) : exec (.stripeFree m) s = execStripeFree m s := rfl
theorem exec_ingStreamEnable (fn : Fin 64) (m : Fin 16) (val : W32) (s : State) : exec (.ingStreamEnable fn m val) s = execIngStreamEnable fn m val s := rfl
theorem exec_ingStreamDisable (fn : Fin 64) (m : Fin 16) (val : W32) (s : State) : exec (.ingStreamDisable fn m val) s = execIngStreamDisable fn m val s := rfl
theorem exec_allocate (fn sl : Fin 64) (s : State) : exec (.allocate fn sl) s = execAllocate fn sl s := rfl
theorem exec_share (fn sl : Fin 64) (s : State) : exec (.share fn sl) s = execShare fn sl s := rfl
theorem exec_cow (fn sl : Fin 64) (s : State) : exec (.cow fn sl) s = execCow fn sl s := rfl
theorem exec_free (fn sl : Fin 64) (s : State) : exec (.free fn sl) s = execFree fn sl s := rfl
theorem exec_publish (fn sl : Fin 64) (len : BitVec 17) (s : State) : exec (.publish fn sl len) s = execPublish fn sl len s := rfl
theorem exec_query (fn sl : Fin 64) (s : State) : exec (.query fn sl) s = execQuery fn sl s := rfl
theorem exec_kvpQueueHead (acc : Access) (s : State) : exec (.kvpQueueHead acc) s = execKvpQueueHead acc s := rfl
theorem exec_retire (acc : Access) (s : State) : exec (.retire acc) s = execRetire acc s := rfl
theorem exec_sensor (p : Fin 4) (frame : List Byte) (s : State) : exec (.sensor p frame) s = execSensor p frame s := rfl
theorem exec_status (p : Fin 4) (frame : List Byte) (s : State) : exec (.status p frame) s = execStatus p frame s := rfl
theorem exec_loopMessage (mch : Byte) (frame : List Byte) (s : State) : exec (.loopMessage mch frame) s = execLoopMessage mch frame s := rfl
theorem exec_frameAbort (p : Fin 4) (s : State) : exec (.frameAbort p) s = execFrameAbort p s := rfl
theorem exec_alignGain (p : Fin 4) (s : State) : exec (.alignGain p) s = execAlignGain p s := rfl
theorem exec_alignLoss (p : Fin 4) (inFrame : Bool) (s : State) : exec (.alignLoss p inFrame) s = execAlignLoss p inFrame s := rfl
theorem exec_fldPortEnable (fn : Fin 64) (p : Fin 4) (val : W32) (s : State) : exec (.fldPortEnable fn p val) s = execFldPortEnable fn p val s := rfl
theorem exec_fldPortDisable (fn : Fin 64) (p : Fin 4) (val : W32) (s : State) : exec (.fldPortDisable fn p val) s = execFldPortDisable fn p val s := rfl
theorem exec_loopEnable (fn : Fin 64) (n : Fin 8) (val : W32) (s : State) : exec (.loopEnable fn n val) s = execLoopEnable fn n val s := rfl
theorem exec_loopDisable (fn : Fin 64) (n : Fin 8) (val : W32) (s : State) : exec (.loopDisable fn n val) s = execLoopDisable fn n val s := rfl
theorem exec_commandArrival (n : Fin 8) (s : State) : exec (.commandArrival n) s = execCommandArrival n s := rfl
theorem exec_periodStart (n : Fin 8) (s : State) : exec (.periodStart n) s = execPeriodStart n s := rfl
theorem exec_deadline (n : Fin 8) (s : State) : exec (.deadline n) s = execDeadline n s := rfl
theorem exec_txFrameStart (p : TxPort) (credits : Nat) (s : State) : exec (.txFrameStart p credits) s = execTxFrameStart p s credits := rfl
theorem exec_heartbeatDue (p : Fin 4) (s : State) : exec (.heartbeatDue p) s = execHeartbeatDue p s := rfl
theorem exec_hbPeriodWrite (fn : Fin 64) (val : W32) (s : State) : exec (.hbPeriodWrite fn val) s = execHbPeriodWrite fn val s := rfl
theorem exec_rxstat0Read (fn : Fin 64) (tag : BitVec 16) (n : Fin 8) (s : State) : exec (.rxstat0Read fn tag n) s = execRxstat0Read fn tag n s := rfl
theorem exec_watchSof (number : W32) (s : State) : exec (.watchSof number) s = execWatchSof number s := rfl
theorem exec_watchData (info : BitVec 16) (data : W64) (s : State) : exec (.watchData info data) s = execWatchData info data s := rfl
theorem exec_watchEof (s : State) : exec .watchEof s = execWatchEof s := rfl
theorem exec_nwtEnable (fn : Fin 64) (val : W32) (s : State) : exec (.nwtEnable fn val) s = execNwtEnable fn val s := rfl
theorem exec_nwtFrameResult (ecc : Ecc) (s : State) : exec (.nwtFrameResult ecc) s = execNwtFrameResult ecc s := rfl
theorem exec_regRd (fn : Fin 64) (tag : BitVec 16) (off : BitVec 24) (bytes : Nat) (s : State) : exec (.regRd fn tag off bytes) s = execRegRd fn tag off bytes s := rfl
theorem exec_regWr (fn : Fin 64) (off : BitVec 24) (bytes : Nat) (val : W32) (s : State) : exec (.regWr fn off bytes val) s = execRegWr fn off bytes val s := rfl
theorem exec_memRd (fn : Fin 64) (tag : BitVec 16) (addr : BitVec 40) (len : BitVec 8) (res : Access) (s : State) : exec (.memRd fn tag addr len res) s = execMemRd fn tag addr len res s := rfl
theorem exec_memWr (fn : Fin 64) (addr : BitVec 40) (data : List Byte) (res : Access) (s : State) : exec (.memWr fn addr data res) s = execMemWr fn addr data res s := rfl
theorem exec_reservedHostKind (kind : BitVec 4) (s : State) : exec (.reservedHostKind kind) s = execReservedHostKind kind s := rfl
theorem exec_grant (fn sl : Fin 64) (s : State) : exec (.grant fn sl) s = execGrant fn sl s := rfl
theorem exec_load (fn sl : Fin 64) (s : State) : exec (.load fn sl) s = execLoad fn sl s := rfl
theorem exec_loadComplete (sl : Fin 64) (acc : Access) (s : State) : exec (.loadComplete sl acc) s = execLoadComplete sl acc s := rfl
theorem exec_arm (fn sl : Fin 64) (runs : W32) (s : State) : exec (.arm fn sl runs) s = execArm fn sl runs s := rfl
theorem exec_disarm (fn sl : Fin 64) (s : State) : exec (.disarm fn sl) s = execDisarm fn sl s := rfl
theorem exec_abort (fn sl : Fin 64) (s : State) : exec (.abort fn sl) s = execAbort fn sl s := rfl
theorem exec_unload (fn sl : Fin 64) (s : State) : exec (.unload fn sl) s = execUnload fn sl s := rfl
theorem exec_release (fn sl : Fin 64) (s : State) : exec (.release fn sl) s = execRelease fn sl s := rfl
theorem exec_unloadReleaseDone (sl : Fin 64) (s : State) : exec (.unloadReleaseDone sl) s = execUnloadReleaseDone sl s := rfl
theorem exec_calEntryDue (s : State) : exec .calEntryDue s = execCalEntryDue s := rfl
theorem exec_dispatchStart (s : State) : exec .dispatchStart s = execDispatchStart s := rfl
theorem exec_runEnd (s : State) : exec .runEnd s = execRunEnd s := rfl
theorem exec_calSwap (fn : Fin 64) (val : W32) (s : State) : exec (.calSwap fn val) s = execCalSwap fn val s := rfl
theorem exec_calSwapEffect (s : State) : exec .calSwapEffect s = execCalSwapEffect s := rfl
theorem exec_calEnable (fn : Fin 64) (val : W32) (s : State) : exec (.calEnable fn val) s = execCalEnable fn val s := rfl
theorem exec_calDisable (fn : Fin 64) (val : W32) (s : State) : exec (.calDisable fn val) s = execCalDisable fn val s := rfl
theorem exec_dataCell (p : Fin 8) (cell : List Byte) (s : State) : exec (.dataCell p cell) s = execDataCell p cell s := rfl
theorem exec_cellForward (p : Fin 8) (s : State) : exec (.cellForward p) s = execCellForward p s := rfl
theorem exec_linkCell (p : Fin 8) (cell : List Byte) (s : State) : exec (.linkCell p cell) s = execLinkCell p cell s := rfl
theorem exec_helloCell (p : Fin 8) (cell : List Byte) (s : State) : exec (.helloCell p cell) s = execHelloCell p cell s := rfl
theorem exec_topoCell (p : Fin 8) (cell : List Byte) (s : State) : exec (.topoCell p cell) s = execTopoCell p cell s := rfl
theorem exec_helloSend (p : Fin 8) (nonce : W64) (s : State) : exec (.helloSend p nonce) s = execHelloSend p nonce s := rfl
theorem exec_linkAck (p : Fin 8) (s : State) : exec (.linkAck p) s = execLinkAck p s := rfl
theorem exec_replayTimer (p : Fin 8) (s : State) : exec (.replayTimer p) s = execReplayTimer p s := rfl
theorem exec_fabTimeout (cause : BitVec 4) (p : Fin 8) (chan : Fin 4096) (t : Fin 4096) (s : State) : exec (.fabTimeout cause p chan t) s = execFabTimeout cause p chan t s := rfl
theorem exec_portSleep (p : Fin 8) (s : State) : exec (.portSleep p) s = execPortSleep p s := rfl
theorem exec_fabWake (p : Fin 8) (s : State) : exec (.fabWake p) s = execFabWake p s := rfl
theorem exec_wakeResend (p : Fin 8) (s : State) : exec (.wakeResend p) s = execWakeResend p s := rfl
theorem exec_lockInterfaceRequest (sl : Fin 64) (path : Path) (s : State) : exec (.lockInterfaceRequest sl path) s = execLockInterfaceRequest sl s path := rfl
theorem exec_lockInitDone (sl : Fin 64) (s : State) : exec (.lockInitDone sl) s = execLockInitDone sl s := rfl
theorem exec_startInterfaceRequest (sl : Fin 64) (path : Path) (s : State) : exec (.startInterfaceRequest sl path) s = execStartInterfaceRequest sl s path := rfl
theorem exec_stopInterfaceRequest (sl : Fin 64) (path : Path) (s : State) : exec (.stopInterfaceRequest sl path) s = execStopInterfaceRequest sl s path := rfl
theorem exec_ideStreamInsecure (sl : Fin 64) (s : State) : exec (.ideStreamInsecure sl) s = execIdeStreamInsecure sl s := rfl
theorem exec_scrubDone (sl : Fin 64) (s : State) : exec (.scrubDone sl) s = execScrubDone sl s := rfl
theorem exec_prologuePiece (acc : Access) (s : State) : exec (.prologuePiece acc) s = execProloguePiece s acc := rfl
theorem exec_rotate (fn sl : Fin 64) (s : State) : exec (.rotate fn sl) s = execRotate fn sl s := rfl
theorem exec_sweepComplete (sl : Fin 64) (s : State) : exec (.sweepComplete sl) s = execSweepComplete sl s := rfl
theorem exec_nfpOpen (fn sl : Fin 64) (s : State) : exec (.nfpOpen fn sl) s = execNfpOpen fn sl s := rfl
theorem exec_nfpOpenDone (sl : Fin 64) (acc : Access) (s : State) : exec (.nfpOpenDone sl acc) s = execNfpOpenDone sl acc s := rfl
theorem exec_setEndpointId (path : Path) (eid : Byte) (s : State) : exec (.setEndpointId path eid) s = execSetEndpointId path eid s := rfl
theorem exec_getEndpointId (path : Path) (s : State) : exec (.getEndpointId path) s = execGetEndpointId path s := rfl
theorem exec_getMctpVersionSupport (path : Path) (mtype : Byte) (s : State) : exec (.getMctpVersionSupport path mtype) s = execGetMctpVersionSupport path mtype s := rfl
theorem exec_getMessageTypeSupport (path : Path) (s : State) : exec (.getMessageTypeSupport path) s = execGetMessageTypeSupport path s := rfl
theorem exec_getVendorDefinedMessageSupport (path : Path) (sel : Byte) (s : State) : exec (.getVendorDefinedMessageSupport path sel) s = execGetVendorDefinedMessageSupport path sel s := rfl
theorem exec_unsupportedMctpCommand (path : Path) (code : Byte) (s : State) : exec (.unsupportedMctpCommand path code) s = execUnsupportedMctpCommand path code s := rfl
theorem exec_icmpv6Message (kind : Frame520) (s : State) : exec (.icmpv6Message kind) s = execIcmpv6Message kind s := rfl
theorem exec_getVersion (path : Path) (s : State) : exec (.getVersion path) s = execGetVersion path s := rfl
theorem exec_getCapabilities (path : Path) (flags : W32) (transferSize : Nat) (s : State) : exec (.getCapabilities path flags transferSize) s = execGetCapabilities path flags s transferSize := rfl
theorem exec_negotiateAlgorithms (path : Path) (offersAll : Bool) (s : State) : exec (.negotiateAlgorithms path offersAll) s = execNegotiateAlgorithms path offersAll s := rfl
theorem exec_getDigests (path : Path) (s : State) : exec (.getDigests path) s = execGetDigests path s := rfl
theorem exec_getCertificate (path : Path) (slot : Byte) (off len : Nat) (s : State) : exec (.getCertificate path slot off len) s = execGetCertificate path slot off len s := rfl
theorem exec_challenge (path : Path) (slot : Byte) (nonce : BitVec 256) (s : State) : exec (.challenge path slot nonce) s = execChallenge path slot nonce s := rfl
theorem exec_getMeasurements (path : Path) (index : Byte) (nonce : Option (BitVec 256)) (s : State) : exec (.getMeasurements path index nonce) s = execGetMeasurements path index nonce s := rfl
theorem exec_keyExchange (path : Path) (slot : Byte) (pub : BitVec 768) (s : State) : exec (.keyExchange path slot pub) s = execKeyExchange path slot pub s := rfl
theorem exec_finish (path : Path) (sid : Nat) (macOk : Bool) (s : State) : exec (.finish path sid macOk) s = execFinish path sid macOk s := rfl
theorem exec_getEncapsulatedRequest (path : Path) (sid : Nat) (s : State) : exec (.getEncapsulatedRequest path sid) s = execGetEncapsulatedRequest path sid s := rfl
theorem exec_deliverEncapsulatedResponse (path : Path) (sid : Nat) (chain : List (BitVec 384)) (sigOk validNow : Bool) (selfSigned : Bool) (s : State) : exec (.deliverEncapsulatedResponse path sid chain sigOk validNow selfSigned) s = execDeliverEncapsulatedResponse path sid chain sigOk validNow s selfSigned := rfl
theorem exec_heartbeat (path : Path) (sid : Nat) (s : State) : exec (.heartbeat path sid) s = execHeartbeat path sid s := rfl
theorem exec_keyUpdate (path : Path) (sid : Nat) (s : State) : exec (.keyUpdate path sid) s = execKeyUpdate path sid s := rfl
theorem exec_endSession (path : Path) (sid : Nat) (s : State) : exec (.endSession path sid) s = execEndSession path sid s := rfl
theorem exec_chunkSend (path : Path) (handle : Byte) (seqno : BitVec 16) (last : Option LargeReq) (data : List Byte) (s : State) : exec (.chunkSend path handle seqno last data) s = execChunkSend path handle seqno last data s := rfl
theorem exec_chunkGet (path : Path) (handle : Byte) (seqno : BitVec 16) (s : State) : exec (.chunkGet path handle seqno) s = execChunkGet path handle seqno s := rfl
theorem exec_hybridSig (path : Path) (s : State) : exec (.hybridSig path) s = execHybridSig path s := rfl
theorem exec_kemMix (path : Path) (sid : Nat) (ct : BitVec 12544) (s : State) : exec (.kemMix path sid ct) s = execKemMix path sid ct s := rfl
theorem exec_unsupportedSpdmRequest (path : Path) (code : Byte) (s : State) : exec (.unsupportedSpdmRequest path code) s = execUnsupportedSpdmRequest path code s := rfl
theorem exec_setFabAddr (sid : Nat) (addr : W32) (s : State) : exec (.setFabAddr sid addr) s = execSetFabAddr sid addr s := rfl
theorem exec_setRoute (sid : Nat) (index : Nat) (pfx ctl : W32) (s : State) : exec (.setRoute sid index pfx ctl) s = execSetRoute sid index pfx ctl s := rfl
theorem exec_setChannel (sid : Nat) (index : Nat) (words : List W32) (s : State) : exec (.setChannel sid index words) s = execSetChannel sid index words s := rfl
theorem exec_setJobKey (sid : Nat) (job : W32) (epoch : Bool) (op : JobKeyOp) (s : State) : exec (.setJobKey sid job epoch op) s = execSetJobKey sid job epoch op s := rfl
theorem exec_setPort (sid : Nat) (p : Nat) (enable : Bool) (timeout : W32) (s : State) : exec (.setPort sid p enable timeout) s = execSetPort sid p enable timeout s := rfl
theorem exec_rotateSlot (sid : Nat) (sl : Fin 64) (s : State) : exec (.rotateSlot sid sl) s = execRotateSlot sid sl s := rfl
theorem exec_stageFirmware (sid : Nat) (img : Manifest) (s : State) : exec (.stageFirmware sid img) s = execStageFirmware sid img s := rfl
theorem exec_setNwtPackage (sid : Nat) (bytes : List Byte) (sigOk : Bool) (flashOk : Bool) (s : State) : exec (.setNwtPackage sid bytes sigOk flashOk) s = execSetNwtPackage sid bytes sigOk s flashOk := rfl
theorem exec_setBoardConfig (sid : Nat) (conf : BoardConf) (flashOk : Bool) (s : State) : exec (.setBoardConfig sid conf flashOk) s = execSetBoardConfig sid conf flashOk s := rfl
theorem exec_readFaults (sid : Nat) (s : State) : exec (.readFaults sid) s = execReadFaults sid s := rfl
theorem exec_burnFuse (sid : Nat) (lifecycleRow : Bool) (row : Nat) (value : BitVec 384) (s : State) : exec (.burnFuse sid lifecycleRow row value) s = execBurnFuse sid lifecycleRow row value s := rfl
theorem exec_unlockDebug (sid : Nat) (s : State) : exec (.unlockDebug sid) s = execUnlockDebug sid s := rfl
theorem exec_rollbackFirmware (sid : Nat) (flashOk : Bool) (s : State) : exec (.rollbackFirmware sid flashOk) s = execRollbackFirmware sid s flashOk := rfl
theorem exec_eraseKeys (sid : Nat) (s : State) : exec (.eraseKeys sid) s = execEraseKeys sid s := rfl
theorem exec_presenceAssert (s : State) : exec .presenceAssert s = execPresenceAssert s := rfl
theorem exec_presenceRelease (s : State) : exec .presenceRelease s = execPresenceRelease s := rfl
theorem exec_sealSample (sealIn : Bool) (s : State) : exec (.sealSample sealIn) s = execSealSample sealIn s := rfl
theorem exec_plevelWrite (fn : Fin 64) (val : W32) (s : State) : exec (.plevelWrite fn val) s = execPlevelWrite fn val s := rfl
theorem exec_thermalSample (temps : List Int) (s : State) : exec (.thermalSample temps) s = execThermalSample temps s := rfl
theorem exec_voteSet (fn : Fin 64) (val : W32) (s : State) : exec (.voteSet fn val) s = execVoteSet fn val s := rfl
theorem exec_voteClr (fn : Fin 64) (val : W32) (s : State) : exec (.voteClr fn val) s = execVoteClr fn val s := rfl
theorem exec_sleepEntryStart (s : State) : exec .sleepEntryStart s = execSleepEntryStart s := rfl
theorem exec_entryWindowClose (s : State) : exec .entryWindowClose s = execEntryWindowClose s := rfl
theorem exec_sleepStateReached (s : State) : exec .sleepStateReached s = execSleepStateReached s := rfl
theorem exec_hostWake (s : State) : exec .hostWake s = execHostWake s := rfl
theorem exec_wakeNAssert (s : State) : exec .wakeNAssert s = execWakeNAssert s := rfl
theorem exec_pwrTimerMatch (s : State) : exec .pwrTimerMatch s = execPwrTimerMatch s := rfl
theorem exec_sleepExitStart (s : State) : exec .sleepExitStart s = execSleepExitStart s := rfl
theorem exec_sleepExitDone (s : State) : exec .sleepExitDone s = execSleepExitDone s := rfl
theorem exec_pwrgoodRise (straps : BitVec 3) (s : State) : exec (.pwrgoodRise straps) s = execPwrgoodRise straps s := rfl
theorem exec_pwrgoodFall (s : State) : exec .pwrgoodFall s = execPwrgoodFall s := rfl
theorem exec_resetNFall (s : State) : exec .resetNFall s = execResetNFall s := rfl
theorem exec_resetNRise (straps : BitVec 3) (certs : Verdict) (certsPq : Verdict) (s : State) : exec (.resetNRise straps certs certsPq) s = execResetNRise straps certs s certsPq := rfl
theorem exec_dawnServiceStart (board nwt : Verdict) (s : State) : exec (.dawnServiceStart board nwt) s = execDawnServiceStart board nwt s := rfl
theorem exec_hbmTrainingDone (at80 at64 : BitVec 4) (s : State) : exec (.hbmTrainingDone at80 at64) s = execHbmTrainingDone at80 at64 s := rfl
theorem exec_fullService (s : State) : exec .fullService s = execFullService s := rfl
theorem exec_warmReset (fn : Fin 64) (val : W32) (s : State) : exec (.warmReset fn val) s = execWarmReset fn val s := rfl
theorem exec_warmResetMsg (s : State) : exec .warmResetMsg s = execWarmResetMsg s := rfl
theorem exec_warmResetDone (at80 at64 : BitVec 4) (s : State) : exec (.warmResetDone at80 at64) s = execWarmResetDone at80 at64 s := rfl
theorem exec_engineReset (fn : Fin 64) (val : W32) (s : State) : exec (.engineReset fn val) s = execEngineReset fn val s := rfl
theorem exec_engineResetDone (n : Fin 2) (s : State) : exec (.engineResetDone n) s = execEngineResetDone n s := rfl
theorem exec_fwConfirm (fn : Fin 64) (val : W32) (s : State) : exec (.fwConfirm fn val) s = execFwConfirm fn val s := rfl
theorem exec_errRecordClear (fn : Fin 64) (i : Fin 73) (s : State) : exec (.errRecordClear fn i) s = execErrRecordClear fn i s := rfl
theorem exec_errHdrRead (fn : Fin 64) (tag : BitVec 16) (i : Fin 73) (s : State) : exec (.errHdrRead fn tag i) s = execErrHdrRead fn tag i s := rfl
theorem exec_fatalFlashWrite (i : Fin 73) (flashOk : Bool) (s : State) : exec (.fatalFlashWrite i flashOk) s = execFatalFlashWrite i flashOk s := rfl
theorem exec_peerFailWindowEnd (job peer : W32) (s : State) : exec (.peerFailWindowEnd job peer) s = execPeerFailWindowEnd job peer s := rfl
theorem exec_reg64LoRead (fn : Fin 64) (tag : BitVec 16) (off : BitVec 24) (s : State) : exec (.reg64LoRead fn tag off) s = execReg64LoRead fn tag off s := rfl
theorem exec_regionLockSet (fn : Fin 64) (off : BitVec 24) (val : W32) (s : State) : exec (.regionLockSet fn off val) s = execRegionLockSet fn off val s := rfl
theorem exec_registerWrite (fn : Fin 64) (off : BitVec 24) (val : W32) (s : State) : exec (.registerWrite fn off val) s = execRegisterWrite fn off val s := rfl
theorem exec_fieldFrameDiscard (p : Fin 4) (frame : List Byte) (s : State) : exec (.fieldFrameDiscard p frame) s = execFieldFrameDiscard p frame s := rfl
theorem exec_sweepBlockRewrite (sl : Fin 64) (acc : Access) (s : State) : exec (.sweepBlockRewrite sl acc) s = execSweepBlockRewrite sl acc s := rfl
theorem exec_levelTransitionComplete (s : State) : exec .levelTransitionComplete s = execLevelTransitionComplete s := rfl
theorem exec_wakeNRise (s : State) : exec .wakeNRise s = execWakeNRise s := rfl
theorem exec_referenceClockStop (s : State) : exec .referenceClockStop s = execReferenceClockStop s := rfl
theorem exec_powerLoss (s : State) : exec .powerLoss s = execPowerLoss s := rfl
theorem exec_mainStageChecked (v : Verdict) (s : State) : exec (.mainStageChecked v) s = execMainStageChecked v s := rfl
theorem exec_dawnWeightsChecked (v : Verdict) (s : State) : exec (.dawnWeightsChecked v) s = execDawnWeightsChecked v s := rfl
theorem exec_updateStaged (ok : Bool) (s : State) : exec (.updateStaged ok) s = execUpdateStaged ok s := rfl
theorem exec_fuseRowCommit (ok : Bool) (s : State) : exec (.fuseRowCommit ok) s = execFuseRowCommit ok s := rfl
theorem exec_ideKm (path : Path) (sid : Nat) (s : State) : exec (.ideKm path sid) s = execIdeKm path sid s := rfl
theorem exec_mctpOtherMessageType (path : Path) (mtype : Byte) (s : State) : exec (.mctpOtherMessageType path mtype) s = execMctpOtherMessageType path mtype s := rfl
theorem exec_debugPortInstruction (i : DebugInstr) (s : State) : exec (.debugPortInstruction i) s = execDebugPortInstruction i s := rfl
theorem exec_managementPortLink (up : Bool) (s : State) : exec (.managementPortLink up) s = execManagementPortLink up s := rfl
theorem exec_dynamicAddressAssign (addr : BitVec 7) (s : State) : exec (.dynamicAddressAssign addr) s = execDynamicAddressAssign addr s := rfl
theorem exec_entropyHealthTestFail (s : State) : exec .entropyHealthTestFail s = execEntropyHealthTestFail s := rfl

end Sys2Proof.Machine
end

