-- ==== Sys2Proof/Laws/Flash.lean ====
section
/-! SUPPORT. The boot-control record (R570): a written copy reads back, and a write puts it in force. -/

namespace Sys2Proof.Machine

theorem BootCtl.length_body (c : BootCtl) : c.body.length = 60 := by
  simp [BootCtl.body, length_leBytes]

/-- A written boot-control record reads back as it is (R570). -/
theorem bootCtlOf_bytes (c : BootCtl) : bootCtlOf c.bytes = some c := by
  have hb := c.length_body
  have hl : c.bytes.length = 64 := by simp [BootCtl.bytes, hb, length_leBytes]
  have ht : c.bytes.take 60 = c.body := by simp [BootCtl.bytes, ← hb]
  have hd : c.bytes.drop 60 = leBytes 4 (crc32c c.body) := by simp [BootCtl.bytes, ← hb]
  have hs : c.bytes.take 4 = leBytes 4 c.seq.toNat := rfl
  have hp : nth 0 c.bytes 4 = BitVec.ofNat 8 (b2n c.preferred) := rfl
  have ha : nth 0 c.bytes 5 = BitVec.ofNat 8 c.stateA.toNat := rfl
  have hb' : nth 0 c.bytes 6 = BitVec.ofNat 8 c.stateB.toNat := rfl
  have hr : nth 0 c.bytes 7 = BitVec.ofNat 8 c.tries.toNat := rfl
  have ho : nth 0 c.bytes 8 = BitVec.ofNat 8 (b2n c.rollback) := rfl
  have bool (b : Bool) : (BitVec.ofNat 8 (b2n b)).getLsbD 0 = b := by cases b <;> rfl
  rw [bootCtlOf, if_pos ⟨hl, by rw [hd, ht, leNat_leBytes]; rfl⟩, hs, leNat_leBytes, hp, ha, hb', hr, ho, bool, bool]
  have hq : BitVec.ofNat 32 (c.seq.toNat % 256 ^ 4) = c.seq := by
    rw [show 256 ^ 4 = 2 ^ 32 from rfl, Nat.mod_eq_of_lt c.seq.isLt, BitVec.ofNat_toNat, BitVec.setWidth_eq]
  rw [w32, hq]; simp

/-- A write of the record puts it in force, with SEQ + 1, and leaves the copy that was in force as it is (R570). -/
theorem Flash.ctl_writeCtl (f : Flash) (c : BootCtl) (h : f.ctl.seq.toNat + 1 < 2 ^ 32) :
    (f.writeCtl c).ctl = { c with seq := f.ctl.seq + 1 } := by
  have lt (x : W32) (hx : x.toNat + 1 < 2 ^ 32) : x < x + 1#32 := by bv_omega
  cases h0 : bootCtlOf f.ctl0 with
  | none =>
    have hw : f.writeCtl c = { f with ctl0 := BootCtl.bytes { c with seq := f.ctl.seq + 1 } } := by simp [Flash.writeCtl, h0]
    rw [hw]
    cases h1 : bootCtlOf f.ctl1 with
    | none => simp [Flash.ctl, Flash.inSecond, bootCtlOf_bytes, h1]
    | some b =>
      have hc : f.ctl = b := by simp [Flash.ctl, Flash.inSecond, h0, h1]
      have hn : ¬ b.seq + 1#32 < b.seq := by have := hc ▸ h; bv_omega
      rw [hc]; simp [Flash.ctl, Flash.inSecond, bootCtlOf_bytes, h1, hn]
  | some a =>
    cases h1 : bootCtlOf f.ctl1 with
    | none =>
      have hc : f.ctl = a := by simp [Flash.ctl, Flash.inSecond, h0, h1]
      have := lt a.seq (hc ▸ h)
      simp [Flash.writeCtl, h0, h1, Flash.inSecond, Flash.ctl, bootCtlOf_bytes, this]
    | some b =>
      by_cases hab : a.seq < b.seq
      · have hc : f.ctl = b := by simp [Flash.ctl, Flash.inSecond, h0, h1, hab]
        have hn : ¬ b.seq + 1#32 < b.seq := by have := hc ▸ h; bv_omega
        have hw : f.writeCtl c = { f with ctl0 := BootCtl.bytes { c with seq := b.seq + 1 } } := by
          simp [Flash.writeCtl, hc, Flash.inSecond, h0, h1, hab]
        rw [hw, hc]; simp [Flash.ctl, Flash.inSecond, bootCtlOf_bytes, h1, hn]
      · have hc : f.ctl = a := by simp [Flash.ctl, Flash.inSecond, h0, h1, hab]
        have hn := lt a.seq (hc ▸ h)
        have hw : f.writeCtl c = { f with ctl1 := BootCtl.bytes { c with seq := a.seq + 1 } } := by
          simp [Flash.writeCtl, hc, Flash.inSecond, h0, h1, hab]
        rw [hw, hc]; simp [Flash.ctl, Flash.inSecond, bootCtlOf_bytes, h0, hn]
end Sys2Proof.Machine
end

