-- ==== Sys2Proof/Machine/Wire.lean ====
section
/-! DEFINITION. Messages as bytes: the classes of UCIe messages (R268), ingress packets (R269), loop messages (R393),
class-0x2 messages (R429), and the management core's carriage (R520). A command of `Instr` names a message's fields; these
functions say where the bytes hold them. -/

namespace Sys2Proof.Machine

/-- Little-endian field of `n` bytes at byte `i` (R14). -/
def leAt (m : List Byte) (i n : Nat) : Nat := leNat ((m.drop i).take n)

/-- CLASS of a message (R268). -/
def msgClass (m : List Byte) : Nat := (byteOf m 0).toNat % 16

/-- KIND, of the classes that have one. -/
def msgKind (m : List Byte) : Nat := (byteOf m 0).toNat / 16

/-- What follows a 16-byte header. -/
def msgPayload (m : List Byte) : List Byte := m.drop 16

/-! ### Class 0x1: ingress packets (R269) -/

/-- A header: KIND, STREAM, LINE, OFFSET, LENGTH, FRAME. -/
structure PacketHeader where
  kind   : BitVec 4
  stream : Fin 16
  line   : BitVec 16 := 0
  offset : BitVec 16 := 0
  length : BitVec 16 := 0
  frame  : W32 := 0
deriving DecidableEq, Repr

def PacketHeader.bytes (h : PacketHeader) : List Byte :=
  leBytes 1 (1 + 16 * h.kind.toNat) ++ leBytes 1 h.stream.val ++ leBytes 2 h.line.toNat ++ leBytes 2 h.offset.toNat ++
    leBytes 2 h.length.toNat ++ leBytes 4 h.frame.toNat ++ leBytes 4 0

def packetHeader (m : List Byte) : PacketHeader :=
  { kind := BitVec.ofNat 4 (msgKind m), stream := Fin.ofNat 16 (byteOf m 1).toNat, line := BitVec.ofNat 16 (leAt m 2 2),
    offset := BitVec.ofNat 16 (leAt m 4 2), length := BitVec.ofNat 16 (leAt m 6 2), frame := BitVec.ofNat 32 (leAt m 8 4) }

/-- The command of a packet; `fifoFull` is what it finds at the stream's input FIFO (R278). The spec gives no meaning to the
reserved kinds. -/
def packetCommand (m : List Byte) (fifoFull : Bool) : Option Instr :=
  let h := packetHeader m
  let p := (msgPayload m).take h.length.toNat
  match h.kind.toNat with
  | 0 => some (.sof h.stream h.frame (BitVec.ofNat 64 (leAt p 0 8)) (BitVec.ofNat 16 (leAt p 8 2)) (BitVec.ofNat 16 (leAt p 10 2))
      (byteOf p 12) fifoFull)
  | 1 => some (.line h.stream h.line.toNat h.offset.toNat p fifoFull)
  | 2 => some (.eof h.stream fifoFull)
  | 3 => some (.timesync (BitVec.ofNat 64 (leAt p 0 8)))
  | _ => none

/-! ### Class 0x2: host messages (R429) -/

/-- A header: KIND, FUNCTION, TAG, LENGTH, ERR, ADDRESS. -/
structure HostHeader where
  kind    : BitVec 4
  fn      : Fin 64
  tag     : BitVec 16 := 0
  length  : BitVec 16 := 0
  err     : Bool := false
  address : W64 := 0
deriving DecidableEq, Repr

def HostHeader.bytes (h : HostHeader) : List Byte :=
  leBytes 1 (2 + 16 * h.kind.toNat) ++ leBytes 1 h.fn.val ++ leBytes 2 h.tag.toNat ++ leBytes 2 h.length.toNat ++
    leBytes 1 (b2n h.err) ++ leBytes 1 0 ++ leBytes 8 h.address.toNat

def hostHeader (m : List Byte) : HostHeader :=
  { kind := BitVec.ofNat 4 (msgKind m), fn := Fin.ofNat 64 (byteOf m 1).toNat, tag := BitVec.ofNat 16 (leAt m 2 2),
    length := BitVec.ofNat 16 (leAt m 4 2), err := (byteOf m 6).getLsbD 0, address := BitVec.ofNat 64 (leAt m 8 8) }

/-- The command of a message to the die; `acc` is what the memory access of a MEM_RD or MEM_WR meets. The kinds 0x2, 0x5 and
0x6 go from the die. -/
def hostCommand (m : List Byte) (acc : Access) : Option Instr :=
  let h := hostHeader m
  let p := (msgPayload m).take h.length.toNat
  let off : BitVec 24 := h.address.setWidth 24
  let addr : BitVec 40 := h.address.setWidth 40
  match h.kind.toNat with
  | 0 => some (.regRd h.fn h.tag off 4)
  | 1 => some (.regWr h.fn off p.length (BitVec.ofNat 32 (leAt p 0 4)))
  | 3 => some (.memRd h.fn h.tag addr (h.address.extractLsb' 48 8) acc)
  | 4 => some (.memWr h.fn addr p acc)
  | k => if 7 ≤ k then some (.reservedHostKind h.kind) else none

/-- A message of class 0x2 from the die. -/
def hostMessage (o : Out) : Option (List Byte) :=
  match o with
  | .regCpl fn tag off v =>
    some (HostHeader.bytes { kind := 2, fn := Fin.ofNat 64 fn, tag := tag, length := 4, address := off.setWidth 64 } ++ leBytes 4 v.toNat)
  | .memCpl fn tag addr err data =>
    some (HostHeader.bytes
      { kind := 5, fn := Fin.ofNat 64 fn, tag := tag, length := BitVec.ofNat 16 data.length, err := err,
        address := addr.setWidth 64 } ++ data)
  | .intr fn v => some (HostHeader.bytes { kind := 6, fn := Fin.ofNat 64 fn, address := v.setWidth 64 })
  | _ => none

/-! ### Class 0x3: loop messages (R393) -/

def loopHeader (mch : Byte) : List Byte := [0x03, mch] ++ List.replicate 14 0

def loopCommand (m : List Byte) : Instr := .loopMessage (byteOf m 1) (msgPayload m)

/-! ### All classes -/

/-- The command of a message that arrives at a module, of class 0x1, 0x2, 0x3 or a reserved one; a fabric cell's is by its
KIND (R457), at the port that brings it. -/
def messageCommand (m : List Byte) (port : Fin 8) (fifoFull : Bool) (acc : Access) : Option Instr :=
  let c := msgClass m
  if c = 1 then packetCommand m fifoFull
  else if c = 2 then hostCommand m acc
  else if c = 3 then some (loopCommand m)
  else if c = 4 then
    (match msgKind m with
      | 0 => some (.dataCell port m)
      | 1 => some (.linkCell port m)
      | 2 => some (.helloCell port m)
      | 3 => some (.topoCell port m)
      | _ => none)
  else some (.reservedClassMessage (BitVec.ofNat 4 c))

/-- What the die sends on a module, as bytes. -/
def outBytes (o : Out) : Option (List Byte) :=
  match o with
  | .loopMsg mch frame => some (loopHeader mch ++ frame)
  | .cell _ c => some c
  | _ => hostMessage o

/-! ### The management core's carriage (R520) -/

/-- A UCIe sideband vendor-defined message with data. -/
structure Vdm where
  code : Byte
  info : BitVec 16
  data : W64
deriving DecidableEq, Repr

/-- DIE_STATE (R558): the state in [1:0] of its data, ENTERING in [2]. -/
def dieStateMessage (s : Sleep) (entering : Bool) : Vdm :=
  { code := 0x12, info := 0, data := BitVec.ofNat 64 (s.code + 4 * b2n entering) }

/-- What the die sends on a sideband by itself, as a message. -/
def outVdm (o : Out) : Option Vdm :=
  match o with
  | .dieState s entering _ => some (dieStateMessage s entering)
  | _ => none

/-- Bytes of a DOE object at most. -/
def doeLimit : Nat := 0x10000

/-- A DOE object as sideband messages: one of MsgCode 0x20 for each pair of dwords, by index, then MsgCode 0x21. -/
def doeMessages (obj : List Byte) : List Vdm :=
  ((List.range ((obj.length + 7) / 8)).map fun i =>
    ({ code := 0x20, info := BitVec.ofNat 16 i, data := BitVec.ofNat 64 (leAt obj (8 * i) 8) } : Vdm)) ++
  [{ code := 0x21, info := 0, data := 0 }]

/-- A message on the object being gathered: none when it does not follow on or passes the limit. -/
def doeTake (obj : Option (List Byte)) (v : Vdm) : Option (List Byte) :=
  match obj with
  | none => none
  | some o =>
    if v.code = 0x20 ∧ o.length = 8 * v.info.toNat ∧ o.length + 8 ≤ doeLimit then some (o ++ leBytes 8 v.data.toNat) else none

/-- The object that a run of messages carries, when the last ends it. -/
def doeObject (vs : List Vdm) : Option (List Byte) :=
  match vs.reverse with
  | [] => none
  | e :: r => if e.code = 0x21 then r.reverse.foldl doeTake (some []) else none

/-- Payload bytes of an MCTP packet in one UDP datagram of the management port at most. -/
def datagramLimit : Nat := 1024

/-- A message as the payloads of the MCTP packets that carry it on the management port. -/
def mctpPackets (msg : List Byte) : List (List Byte) :=
  (List.range ((msg.length + datagramLimit - 1) / datagramLimit)).map fun i => (msg.drop (datagramLimit * i)).take datagramLimit

end Sys2Proof.Machine
end

