-- ==== Sys2Proof/Tests/Slice0.lean ====
section
/-! SUPPORT. Tests. `witness_<Statement>` shows states and operands that meet the hypotheses of the statement of that name, clause by
clause; each `test_` theorem is about single steps on small dies, with results worked out by hand from the rules named above
it. The clause of NafinPackagesOpenInOrder about an opened package has no witness: whether a package verifies is a free value. -/

namespace Sys2Proof.Tests

open Sys2Proof.Machine

set_option Elab.async false

/-! ### Small dies -/

/-- A die in full service with firmware's work done, every slot free. -/
def up : Die := {
  glb := { service := 2, hbmPop := 15 }, boot := { resetN := true, full := true, linked := true },
  hbm := { trained := 15, groups := 0xFFFF, rate := 0x50 }, nwt := { sideband := true } }

def on (d : Die) : State := { die := d }

/-- What the die is after a command. -/
def after (c : Instr) (d : Die) : Die :=
  match exec c (on d) with
  | .next t => t.die
  | _ => {}

/-- The command answers this die. -/
def gives (c : Instr) (d e : Die) : Bool :=
  match exec c (on d) with
  | .next t => decide (t = on (Die.afterEvent d e))
  | _ => false

/-- A slot as GRANT takes it: 64 MiB at 256 MiB, 64 KiB of each store, sixteen pages, four sequences. -/
def free1 : Slot := {
  memBase := 256, memSize := 64, ws0 := 0x00010001, ws1 := 0x00010001, lb := 0x00010001, seq := 0x00040010, pageBase := 16, pageCnt := 16 }

def seg1 : Segment := {
  base := 8, bundles := 4, tallyBase := 16, tallies := 8, thrBase := 32, threads := 4, xBase := 0, xUnits := 4,
  agBase := [16, 16, 16, 16, 16, 16], agCount := [4, 4, 4, 4, 4, 4], tmplBase := 4, tmplCount := 2, descBase := 64, hasDesc := true }

def granted1 : Slot := { free1 with state := .granted }
def loaded1 : Slot := { free1 with state := .loaded, seg := some seg1 }
def armed1 : Slot := { loaded1 with state := .armed, runsLeft := 2 }

/-- Slot 1 as given, on the die in full service. -/
def with1 (x : Slot) : Die := { up with
  ctx := { slots := [(1, x)], memLimit := 100000 }, kvp := { poolBase := 100000, poolPages := 64, ptBase := 120000 } }
/-- A bundle: header fields, EXT and the seven slot words. -/
def bundleOf (header ext : Nat) (ws : List Nat) : BitVec 512 :=
  BitVec.ofNat 512 (header + 2 ^ 480 * ext + ((List.range 7).map fun k => nth 0 ws k * 2 ^ (32 + 64 * k)).sum)

/-- A MATRIX program of `n` contiguous rows of `rowb` bytes. -/
def matrix (space efmt rowb base n : Nat) : List Nat :=
  [1 + 16 * space + 256 * efmt + 2 ^ 20 * rowb + 2 ^ 32 * base, n - 1, rowb, 0, 0, 0, 0, 256 * 2 ^ 32]

/-- Programs of units at the slot's indices 0, 1, ... -/
def agOf (l : List (Nat × Nat × List Nat)) : Tab Byte :=
  l.foldl (fun (m : Tab Byte) x => Mem.write m (524288 * x.1 + 64 * (16 + x.2.1)) (x.2.2.flatMap fun w => leBytes 8 w)) []

/-- Slot 1 armed and running, its bundle in an issue cycle with these slots still to act. -/
def issuing (b : BitVec 512) (left : Nat) (todo : List Nat) (st : Stores) : Die := { with1 armed1 with
  st := st, iss := { run := some { slot := 1, bundle := b, phase := .issuing left todo } } }

def theRun (d : Die) : Run := d.iss.run.getD { slot := 0 }

/-- The step from one state answers the other. -/
def stepsTo (s t : State) : Bool :=
  match step s with
  | .next u => decide (u = t)
  | _ => false

/-- The die after `n` ACLK cycles of issue from a die that has counted none. -/
def clocked (n : Nat) (d : Die) : Die := { d with iss := { d.iss with cyc := n, owed := -n }, glb := { d.glb with aclkCycles := BitVec.ofNat 64 n } }

/-! ### Bundle issue (R40 to R56, R537, R552) -/

def due (b : BitVec 512) : Die := { with1 armed1 with
  st := { instr := Mem.write [] 512 (leBytes 64 b.toNat) }, iss := { run := some { slot := 1 } } }

theorem test_issue_Step :
    ((let s : State := { on up with pending := [.voteSet 0 5, .hostWake] }
  stepsTo s { s with pending := [.hostWake], die := { up with pwr := { up.pwr with hostVotes := 5 } } } &&
      (let d : Die := { up with sec := { debugOpen := true } }
   stepsTo { s with pending := [.debugPortInstruction (.creholt (.readStore 0 9))], die := d } (on { d with mgmt := { d.mgmt with jtagIr := .creholt (.readStore 0 9) }, out := [.tdo [0]] }))) : Bool) = true := by decide +kernel

theorem test_issue_Event :
    ((let a : Die := { up with boot := { up.boot with fwRuns := true } }
  decide ((Die.afterEvent a { a with sec := { debugOpen := true } }).mgmt.gen = 1 ∧
      (Die.afterEvent up { up with sec := { debugOpen := true } }).mgmt.gen = 0 ∧
   (Die.afterEvent up { up with pwr := { up.pwr with maxState := 1 } }).pwr.okSince = some 0)) : Bool) = true := by decide +kernel

theorem test_issue_Bundle_issue :
    ((bundleWait (bundleOf 5 7 [0, 0, 0, 2 ^ 58 * 1]) = false ∧ firstSlots (bundleOf 5 7 [0, 0, 0, 2 ^ 58 * 1]) = [3] ∧
      (due 0).absentSlot 1 (bundleOf 5 7 [0, 0, 0, 2 ^ 58 * 1]) = none) : Prop) ∧ ((let b := bundleOf 5 7 [0, 0, 0, 2 ^ 58 * 1]
  let d := due b
  let c := due 3
  gives (.bundleIssue .ok) d { d with iss := { run := some { slot := 1, bundle := b, phase := .issuing 6 [3], started := true } } } &&
  gives (.bundleIssue .ok) c (clocked 4 { c with iss := { run := some { slot := 1, bundle := 3, pc := 1, phase := .due, started := true, cycles := 4, held := 4 } } })) : Bool) = true := by decide +kernel

theorem test_issue_Wait :
    ((let b := bundleOf (2 ^ 17 + 2 ^ 18 + 2 ^ 19 * 3) 5 [0, 0, 0, 2 ^ 58 * 1]
  let d : Die := { due b with iss := { run := some { slot := 1, bundle := b } } }
  let st (n lim : Nat) (v : BitVec 24) (er : Bool) : Die := { d with iss := { d.iss with tallies := [(19, { value := v, err := er, cause := 9 })], run := some { slot := 1, bundle := b, phase := .stalled n lim } } }
  let lo := st 3 1024 4 false
  gives (.bundleIssue .ok) d (clocked 1 { d with iss := { d.iss with stallCycles := 1, run := some { slot := 1, bundle := b, held := 1, phase := .stalled 1 4400000 } } }) &&
  gives .tallyWaitRelease lo (clocked 1 { lo with iss := { lo.iss with stallCycles := 1, run := some { slot := 1, bundle := b, held := 1, phase := .stalled 4 1024 } } }) &&
  decide ((after .tallyWaitRelease (st 3 1024 7 true)).slot 1 = { armed1 with state := .aborted, cause := 9, runsLeft := 0 }) &&
  (let e := after .tallyWaitRelease (st 3 1024 7 false); decide ((e.tally 19).value = 2 ∧ (theRun e).phase = .issuing 1 [3])) &&
  (let e := after .tallyTimeout (st 1024 1024 4 false); decide ((e.slot 1).cause = 3 ∧ (e.errRec 22).f0 = 0 ∧
      (e.errRec 22).f1 = 19 ∧ (e.errRec 22).f2 = 5 ∧ (e.errRec 22).f3 = 4)) &&
      (let e := after .tallyTimeout (st 1024 1024 5 false); decide ((e.tally 19).value = 0 ∧
      (theRun e).phase = .issuing 1 [3])) &&
      (let e := after .tallyTimeout (st 1023 1024 4 false); decide (e = st 1023 1024 4 false))) : Bool) = true := by decide +kernel

theorem test_issue_Loop :
    ((let d (r : Run) : Die := { due 0 with iss := { run := some r } }
  let r : Run := { slot := 1, pc := 9, phase := .control, bundle := bundleOf (1 * 2 ^ 12) 0 [] }
  let e : Run := { r with bundle := bundleOf (2 * 2 ^ 12) 0 [], loops := [{ start := 4, remaining := 3 }, { start := 2, remaining := 7 }] }
  let e1 : Run := { e with loops := [{ start := 4, remaining := 1 }, { start := 2, remaining := 7 }] }
  let e2 : Run := { e1 with bundle := bundleOf (2 * 2 ^ 12 + 2 ^ 14) 0 [] }
  let x : Run := { r with bundle := bundleOf (3 * 2 ^ 12) 0 [] }
  gives .loopBegin (d r) (d { r with loops := [{ start := 10, remaining := 16777216 }], pc := 10, phase := .due }) &&
  gives .loopEnd (d e) (d { e with loops := [{ start := 4, remaining := 2 }, { start := 2, remaining := 7 }], pc := 4, phase := .due }) &&
  gives .loopEnd (d e1) (d { e1 with loops := [{ start := 2, remaining := 7 }], pc := 10, phase := .due }) &&
  gives .loopEnd (d e2) (d { e2 with loops := [{ start := 2, remaining := 6 }], pc := 2, phase := .due }) &&
      gives .exit (d x) (d { x with phase := .drain })) : Bool) = true := by decide +kernel

theorem test_issue_Cycle :
    ((let b := bundleOf 3 0 [2 ^ 58, 0, 0, 2 ^ 58]
  let d := issuing b 4 [0, 3] {}
  let r := theRun d
  let o (n : Nat) (q : Run) : Die := clocked n { d with iss := { d.iss with run := some q } }
  decide (d.slotDone 0 = o 0 { r with phase := .issuing 4 [3] } ∧
      (o 0 { r with phase := .issuing 4 [3] }).slotDone 3 = o 1 { r with phase := .issuing 3 [0], firstCycle := false, cycles := 1, held := 1 } ∧
   (o 0 { r with phase := .issuing 1 [0], refused := true }).slotDone 0 = { o 1 { r with phase := .due, pc := 1, cycles := 1, held := 1 } with xfr := { d.xfr with grantViol := 1 } } ∧
   (o 0 { r with bundle := bundleOf 3 0 [0, 0, 0, 2 ^ 58], phase := .issuing 4 [3] }).slotDone 3 = o 4 { r with bundle := bundleOf 3 0 [0, 0, 0, 2 ^ 58], phase := .due, pc := 1, cycles := 4, held := 4 })) : Bool) = true := by decide +kernel

theorem test_issue_Nop :
    ((slotOp 2 0 = 0) : Prop) ∧ ((gives (.enop 1) up up && gives .vnop up up && gives .pnop up up && gives .snop up up &&
      !slotListed 2 0) : Bool) = true := by decide +kernel

/-! ### Engines and lane groups (R85 to R150) -/

def mat4 (space efmt rowb base n ncol : Nat) : List Nat :=
  [1 + 16 * space + 256 * efmt + 2 ^ 20 * rowb + 2 ^ 32 * base, n - 1, rowb, 0, 0, 0, 0, ncol * 2 ^ 32]

/-- WLOAD of INT8 into plane 1 from program 1. -/
def wlWord : Nat := 2 ^ 58 + 2 ^ 55 * 4 + 2 ^ 54 + 2 ^ 43 * 1
def wlDie : Die := issuing (bundleOf 0 0 [wlWord]) 1 [0] { ag := agOf [(0, 1, mat4 1 4 4 0x10100 3 0)], ws0 := Mem.write [] 0x10100 [1, 2, 3, 4] }

/-- STREAM of INT8 with plane 1 from program 1 to program 2, which takes four columns. -/
def stWord : Nat := 2 ^ 58 * 2 + 2 ^ 55 * 4 + 2 ^ 54 + 2 ^ 37 * 1 + 2 ^ 26 * 2
def stDie : Die := { issuing (bundleOf 0 0 [stWord]) 1 [0] {
    ag := agOf [(0, 1, mat4 1 4 4 0x10100 3 0), (0, 2, mat4 1 9 16 0x10400 3 4)], ws0 := Mem.write [] 0x10100 [1, 2, 3, 4] } with
  te0 := { plane1 := { fmt := 4, loaded := true, rows := [(0, [3, 4, 5, 6]), (2, [5, 6, 7, 8])], next := 3 } } }

def stRow : RowFlight := {
  entry := 0, slot := 1, conf := false, word := BitVec.ofNat 64 stWord, bundle := 0, force := false, act := [1, 2, 3, 4], actScale := [], blocked := false,
  plane := { fmt := 4, loaded := true, rows := [(0, [3, 4, 5, 6]), (2, [5, 6, 7, 0xF8])], next := 3 }, dstSpace := 1, dstAddr := 0x10400, dstFmt := 9, col0 := 0, ncol := 4,
  sideAddr := none, dstOk := true, recScale := none, ctally := none }

/-- VADD of INT32 on group 0 from programs 0 and 1 to program 2. -/
def vaWord : Nat := 2 ^ 58 + 2 ^ 42 + 2 ^ 39 * 2 + 2 ^ 27 * 0 + 2 ^ 16 * 1 + 2 ^ 5 * 2
def vaDie : Die := issuing (bundleOf 0 0 [0, 0, vaWord]) 1 [2] {
  ag := agOf [(5, 0, mat4 1 9 8 0x10000 1 0), (5, 1, mat4 1 9 8 0x11000 1 0), (5, 2, mat4 1 9 8 0x12000 1 0)],
  ws0 := Mem.write (Mem.write [] 0x10000 (leBytes 4 5)) 0x11000 (leBytes 4 7) }

theorem test_engine_Wload :
    ((Acting (on wlDie) 0 (theRun wlDie) 1 [0] ∧ slotOp 0 wlWord = 1 ∧ wlFmt wlWord = some .int8 ∧ (wlDie.prog 1 0 1).rows = 3 ∧
      (wlDie.prog 1 0 1).swalk = false) : Prop) ∧ ((let e := after (.wload 0 .ok) wlDie
  decide ((nth [] (e.te0.plane1.rows.map Prod.snd) 0).take 5 = [1, 2, 3, 4, 0] ∧ e.te0.plane1.next = 1 ∧ e.te0.wrows = 1 ∧
      e.cursor 0 17 = 1 ∧ (theRun e).pc = 1)) : Bool) = true := by decide +kernel

theorem test_engine_Stream :
    ((Acting (on stDie) 0 (theRun stDie) 1 [0] ∧ slotOp 0 stWord = 2 ∧ wlFmt stWord = some .int8 ∧ stGate stWord ≠ 3 ∧
      (stDie.prog 1 0 1).rows ≠ 0 ∧ (stDie.prog 1 0 1).swalk = false) : Prop) ∧ ((let e := after (.stream 0 .ok) stDie
  decide (e.te0.flight.map (fun x => (x.entry, x.slot, x.dstSpace, x.dstAddr, x.dstOk, x.ncol)) = [(0, 1, 1, 0x10400, true, 4)] ∧ e.te0.rows = 1)) : Bool) = true := by decide +kernel

theorem test_engine_Complete :
    ((stRow.sideAddr = none ∧ stRow.ctally = none) : Prop) ∧
      ((let d : Die := { stDie with te0 := { flight := [stRow] }, iss := { cyc := 517 } }
  let e : Die := { d with iss := { cyc := 516 } }
  gives (.streamRowComplete 0 .ok) e e && (let f := after (.streamRowComplete 0 .ok) d; decide (f.te0.flight = [] ∧
      Mem.le f.st.ws0 0x10400 4 = 1 * 3 + 3 * 5 ∧ Mem.le f.st.ws0 0x10404 4 = 1 * 4 + 3 * 6 ∧
      Mem.le f.st.ws0 0x1040C 4 = 2 ^ 32 + 6 - 24))) : Bool) = true := by decide +kernel

theorem test_engine_Sum :
    ((stRow.blocked = false ∧ Tab.wf [] stRow.plane.rows = true) : Prop) ∧
      ((decide (stRow.sum .int8 0 1 = (FVal.ofInt (1 * 4 + 3 * 6), false) ∧
      stRow.sum .int8 0 3 = (FVal.ofInt (1 * 6 + 3 * -8), false) ∧ stRow.sum .int8 0 9 = (FVal.zero, false))) : Bool) = true := by decide +kernel

theorem test_engine_Margin :
    (((stRow.plane.rows.map fun k => (sext 8 (byteAt k.2 3) / 16).natAbs).sum ≤ 1 ∧
      ∀ k ∈ stRow.plane.rows, byteAt k.2 3 % 16 ≤ 8) : Prop) ∧
      ((let q : ColRec := { bias := 0, scale := 0, sbh := 1, mbl := 8, clo := 0, chi := 0, limit := 0, ctrl := 0 }
  let z : Int := (stRow.plane.rows.map fun k => sext 8 (byteAt stRow.act k.1) * sext 8 (byteAt k.2 3)).sum
  let b := marginBound .int8 (stRow.rowBound .int8) q (boundK .int8 stRow.plane.rows)
  decide ((z - (stRow.estimate .int8 3).toInt).natAbs ≤ b.toInt.toNat)) : Bool) = true := by decide +kernel

theorem test_engine_Vadd :
    ((Acting (on vaDie) 2 (theRun vaDie) 1 [2] ∧ slotOp 2 vaWord = 1 ∧ vFmt vaWord = some .int32 ∧ vSelected vaWord = [0] ∧
      (vaDie.prog 1 5 0).rows = 1 ∧ (vaDie.prog 1 5 1).rows = 1 ∧ (vaDie.prog 1 5 2).rows = 1) : Prop) ∧
      ((let e := after (.vadd .ok) vaDie
  decide (e.vec.landings = [{ ready := 3, entry := 0, slot := 1, space := 1, addr := 0x12000, data := [12, 0, 0, 0, 0, 0, 0, 0] }])) : Bool) = true := by decide +kernel

theorem test_engine_Land :
    ((let x : Landing := { ready := 3, entry := 0, slot := 1, space := 1, addr := 0x12000, data := [12, 0, 0, 0] }
  let d : Die := { with1 armed1 with vec := { landings := [x, { x with ready := 9 }] }, iss := { cyc := 3 } }
  gives (.vectorResult .ok) d { d with st := { ws0 := [(0x12000, 12)] }, vec := { landings := [{ x with ready := 9 }] } } &&
      gives (.vectorResult .ok) { d with iss := { cyc := 2 } } { d with iss := { cyc := 2 } } &&
      gives (.micaResult .ok) up up && gives (.postResult .ok) up up) : Bool) = true := by decide +kernel

/-! ### Special cases of the lane operations (R97, R139) -/

theorem test_lane_Lanes :
    ((let vs : List FVal := [.nan, .inf false, .inf true, .fin false 0 0, .fin true 0 0, .fin false 3 0, .fin true 5 1]
  let r := [Fmt.fp32, Fmt.bf16].all fun f => vs.all fun a => vs.all fun b => decide ((a.isNan = true → laneMax a b = b ∧
      laneMin a b = b) ∧ (b.isNan = true → a.isNan = false → laneMax a b = a ∧ laneMin a b = a) ∧
      (a.isZero = true → b.isZero = true → a.sign ≠ b.sign → laneMax a b = .zero ∧ laneMin a b = .fin true 0 0) ∧
      (FVal.lt a b = true → laneMax a b = b ∧ laneMin a b = a) ∧ (FVal.lt b a = true → laneMax a b = a ∧ laneMin a b = b) ∧
      (lane2 6 f a b .zero = (if FVal.lt b a = true then oneCode f else 0, false)) ∧
      (laneExp f 0 .nan = f.nanCode ∧ laneRecip f 0 .nan = f.nanCode ∧ laneRsqrt f 0 .nan = f.nanCode) ∧
      (laneExp f 0 (.inf false) = (narrow f (.inf false)).code ∧ laneExp f 0 (.inf true) = 0) ∧ 
      (laneRecip f 0 (.fin true 0 5) = (narrow f (.inf true)).code ∧
      laneRecip f 0 (.inf true) = (narrow f (.fin true 0 0)).code) ∧
      (laneRsqrt f 0 (.fin true 0 4) = (narrow f (.inf true)).code) ∧ laneRsqrt f 0 (.fin true 7 2) = f.nanCode ∧
      laneRsqrt f 0 (.inf false) = 0)
  r) : Bool) = true := by decide +kernel

/-! ### Launches, Flint, Mica, post, synchronisation, threads, HBM4 -/

def xprogOf (l : List Nat) : Tab Byte := Mem.write [] 0 (l.flatMap fun w => leBytes 8 w)
def thr (t : Thread) (st : Stores) : Die := { with1 armed1 with st := st, xfr := { threads := [(33, t)] } }
def run0 : Thread := { slot := 1, state := .running, idx := 1 }

theorem test_units_Launch :
    ((let w : Nat := 2 ^ 58 + 2 ^ 46 * 3 + 2 ^ 34 * 1 + 2 ^ 18 * 2 + 2 ^ 17
  let d := issuing (bundleOf 0 9 [0, 0, 0, w]) 1 [3] {}
  let f : Die := { d with iss := { d.iss with fifo := List.replicate 64 { stop := false, slot := 1, first := 0, count := 1, entry := 0, arg := 0 } } }
  let e := after .launch f
  decide ((after .launch d).iss.fifo = [{ stop := false, slot := 1, first := 3, count := 2, entry := 2, arg := 9 }] ∧
      e.iss.fifo = f.iss.fifo ∧ e.iss.launchDrop = 2 ∧ (theRun e).pc = 1) &&
  (let g := issuing (bundleOf 0 9 [0, 0, 0, w + 2 ^ 58]) 1 [3] {}; decide ((after .stop g).iss.fifo.map (fun x => x.stop) = [true])) && gives .stop d d) : Bool) = true := by decide +kernel

theorem test_units_Arrive :
    ((let x : LaunchEntry := { stop := false, slot := 1, first := 0, count := 6, entry := 2, arg := 9 }
  let d : Die := { with1 armed1 with iss := { fifo := [x] }, xfr := { threads := [(33, run0)] } }
  let e := after .threadLaunchArrive d
  let y : LaunchEntry := { x with stop := true }
  let g := after .threadStopArrive { d with iss := { d.iss with fifo := [y] } }
  decide (e.iss.fifo = [] ∧ e.thread 33 = run0 ∧
      e.thread 32 = { slot := 1, state := .running, pc := 2, entry := 2, idx := 0, arg := 9 } ∧
      e.thread 35 = { slot := 1, state := .running, pc := 2, entry := 2, idx := 3, arg := 9 } ∧ e.thread 36 = {} ∧
      e.iss.launchDrop = 3) && gives .threadStopArrive d d && decide (g.thread 33 = run0.stop ∧
      g.thread 34 = ({} : Thread).stop ∧ g.iss.fifo = []) &&
      (let z : Die := { d with iss := { fifo := [{ x with dead := true }] } }; gives .threadLaunchArrive z { d with iss := {} })) : Bool) = true := by decide +kernel

theorem test_units_Flint :
    ((let w : Nat := 2 ^ 57 + 2 ^ 44
  let st : Stores := { ag := agOf [(2, 1, matrix 1 4 64 0x10100 3), (2, 2, matrix 1 9 256 0x10400 3)], ws0 := Mem.write [] 0x10100 [1, 2, 3] }
  let d := issuing (bundleOf 0 0 [0, 0, 0, 0, w]) 1 [4] st
  let e := after (.fwload .ok) d
  let w2 : Nat := 2 ^ 57 * 2 + 2 ^ 42 + 2 ^ 31 * 2
  let d2 := issuing (bundleOf 0 0 [0, 0, 0, 0, w2]) 1 [4] st
  let d2 : Die := { d2 with fln := { d2.fln with rows := [(1, [5, 6])], next := 2 } }
  let e2 := after (.fstream .ok) d2
  let e3 := after (.flintRowComplete .ok) { e2 with iss := { e2.iss with cyc := 133 } }
  decide (e.fln.rows = [(0, [1, 2, 3] ++ List.replicate 61 0)] ∧ e.fln.next = 1 ∧ e.fln.wrows = 1 ∧ e.cursor 2 17 = 1 ∧
      e2.fln.flight.length = 1 ∧ e2.fln.rowsCnt = 1) &&
      gives (.flintRowComplete .ok) { e2 with iss := { e2.iss with cyc := 132 } } { e2 with iss := { e2.iss with cyc := 132 } } &&
  decide (e3.fln.flight = [] ∧ Mem.le e3.st.ws0 0x10400 4 = 10 ∧ Mem.le e3.st.ws0 0x10404 4 = 12)) : Bool) = true := by decide +kernel

theorem test_units_Mica :
    ((let w : Nat := 2 ^ 63 + 2 ^ 57 * 4 + 2 ^ 53 * 4 + 2 ^ 41 * 1 + 2 ^ 19 * 2
  let st : Stores := { ag := agOf [(3, 1, matrix 1 8 64 0x10100 3), (3, 2, matrix 1 8 64 0x10400 3)], ws0 := Mem.write [] 0x10100 (leBytes 4 0x3F800000) }
  let d := issuing (bundleOf 0 0 [0, 0, 0, 0, w]) 1 [4] st
  let e := after (.wht .ok) d
  let f := after (.micaResult .ok) { e with iss := { e.iss with cyc := 100 } }
  let c : Nat := 2 ^ 63 + 2 ^ 57 * 3 + 2 ^ 53 * 4 + 2 ^ 41 * 1 + 2 ^ 30 * 1 + 2 ^ 19 * 2
  let g := after (.cmul .ok) (issuing (bundleOf 0 0 [0, 0, 0, 0, c]) 1 [4] st)
  let b : Nat := 2 ^ 63 + 2 ^ 57 * 4 + 2 ^ 53 * 11 + 2 ^ 41 * 1 + 2 ^ 19 * 2
  let h := after (.wht .ok) (issuing (bundleOf 0 0 [0, 0, 0, 0, b]) 1 [4] st)
  let z : Nat := 2 ^ 63 + 2 ^ 57 * 4 + 2 ^ 53 * 4 + 2 ^ 41 * 3 + 2 ^ 19 * 2
  let i := after (.wht .ok) (issuing (bundleOf 0 0 [0, 0, 0, 0, z]) 1 [4] st)
  decide (e.mca.jobs.length = 1 ∧ e.mca.input = [] ∧ e.mca.inputCnt = 1 ∧ e.mca.jobs.map (fun j => j.ready) = [1 + 8 + 6 - 1] ∧
      Mem.le f.st.ws0 0x10400 4 = 0x3F800000 ∧ Mem.le f.st.ws0 0x10400 60 % 2 ^ 64 = 0x3F8000003F800000 ∧ f.mca.jobs = [] ∧
      g.mca.jobs.map (fun j => j.ready) = [5] ∧ h.mca = {} ∧ i.iss.agEmpty = 0x20)) : Bool) = true := by decide +kernel

theorem test_units_Pool :
    ((let v (n : Int) : FVal × Bool := (FVal.ofInt n, true)
  decide (poolChannel 1 0 .int32 [v 3, v (-5), v 4] = narrow .int32 (FVal.ofInt 4) ∧
      poolChannel 2 0 .fp32 [v 3, v 5] = narrow .fp32 (FVal.ofInt 4) ∧
      poolChannel 3 0 .fp32 [v 3, v 5, (FVal.zero, false)] = narrow .fp32 (FVal.ofInt 4) ∧
      poolChannel 3 0 .fp32 [(FVal.zero, false)] = { code := 0 } ∧
   argmaxRecord .int8 [3, 9, 0xFF, 9] = (leBytes 2 1 ++ [2, 0] ++ leBytes 4 9, false) ∧
      argmaxRecord .fp32 [0x7FC00000] = ([0xFF, 0xFF, 1, 0] ++ leBytes 4 0x7FC00000, true) ∧
      argmaxRecord .int8 [0xF0, 0xFE] = (leBytes 2 1 ++ [0, 0] ++ leBytes 4 0xFFFFFFFE, false))) : Bool) = true := by decide +kernel

theorem test_units_Sync :
    ((let i (w : Nat) : Die := issuing (bundleOf 0 0 [0, 0, 0, 0, 0, 0, w]) 1 [6] { ws0 := Mem.write [] 0x10040 [7, 8] }
  let t := after .tinc (i (2 ^ 58 + 2 ^ 50 * 3 + 2 ^ 34 * 9))
  let c := after (.cmd .ok) (i (2 ^ 58 * 2 + 2 ^ 55 * 2 + 2 ^ 34 * 0x401))
  let r := after (.cmd .ok) (i (2 ^ 58 * 2 + 2 ^ 55 * 2 + 2 ^ 34 * 1))
  let s0 := i (2 ^ 58 * 3 + 2 ^ 50 * 4 + 2 ^ 29 * 0x402)
  let s1 := after (.sense .ok) { s0 with fld := { s0.fld with loops := [(2, { enable := true, slot := 1, haveSens := true, sensor := 9 :: List.replicate 63 0 })] } }
  let m := after .mark (i (2 ^ 58 * 4 + 2 ^ 50 * 6))
  decide ((t.tally 19).value = 10 ∧ (theRun t).pc = 1 ∧ (c.loop 2).fifo = [(1, [7, 8] ++ List.replicate 62 0)] ∧
      (r.loop 2).fifo = [] ∧ r.xfr.grantViol = 1 ∧ Mem.read s1.st.ws0 0x10080 2 = [9, 0] ∧
      (m.slot 1).marks = [(0, 6)])) : Bool) = true := by decide +kernel

theorem test_units_Threads :
    ((let n (l : List Nat) (t : Thread) : Die := thr t { xprog := xprogOf l }
  let sg := n [5 + 2 ^ 8 * 3 + 2 ^ 16 * 9, 0, 0, 0] run0
  let wt := n [6 + 2 ^ 8 * 3 + 2 ^ 16 + 2 ^ 40 * 5, 0, 0, 0] run0
  let w1 : Die := { n [6 + 2 ^ 8 * 3 + 2 ^ 16 + 2 ^ 40 * 5, 0, 0, 0] { run0 with state := .waiting } with iss := { tallies := [(19, { value := 8 })] } }
  let w0 : Die := { w1 with iss := { tallies := [(19, { value := 4 })] } }
  let lp := n [0, 0, 7 + 2 ^ 24 * 3 + 2 ^ 16, 16 + 2 ^ 32 * 32] { run0 with pc := 1 }
  let l2 := n [0, 0, 7 + 2 ^ 24 * 3 + 2 ^ 16, 16 + 2 ^ 32 * 32] { run0 with pc := 1, ctr := [2, 0, 0, 0], xs := 32, xd := 64 }
  let en := n [0] run0
  gives (.wait 33 .ok) wt (thr { run0 with state := .waiting } wt.st) && gives (.threadWaitRelease 33) w0 w0 &&
  decide (((after (.signal 33 .ok) sg).tally 19).value = 10 ∧ ((after (.signal 33 .ok) sg).thread 33).pc = 1 ∧
   ((after (.threadWaitRelease 33) w1).tally 19).value = 3 ∧ ((after (.threadWaitRelease 33) w1).thread 33).state = .running ∧
      ((after (.threadWaitRelease 33) w1).thread 33).pc = 1 ∧
   ((after (.loop 33 .ok) lp).thread 33).pc = 0 ∧ ((after (.loop 33 .ok) lp).thread 33).ctr = [1, 0, 0, 0] ∧
      ((after (.loop 33 .ok) lp).thread 33).xs = 16 ∧ ((after (.loop 33 .ok) lp).thread 33).xd = 32 ∧
   ((after (.loop 33 .ok) l2).thread 33).pc = 2 ∧ ((after (.loop 33 .ok) l2).thread 33).ctr = [0, 0, 0, 0] ∧
      ((after (.loop 33 .ok) l2).thread 33).xs = 0 ∧
   ((after (.endStep 33 .ok) en).thread 33).state = .stopped)) : Bool) = true := by decide +kernel

theorem test_units_Hbm :
    ((let d := with1 armed1
  let e := after (.hbmPhyLockLoss 5) d
  gives (.hbmRefresh 2) up { up with hbm := { up.hbm with refreshes := 1 } } &&
      gives (.patrolRead .ok) up { up with hbm := { up.hbm with patrolPos := 1 } } && gives (.hbmPhyLockLoss 5) e e &&
  decide (e.hbm.failed = true ∧ e.hbm.deadChans = [5] ∧ e.glb.service = 3 ∧ e.hbm.failCause = 3 ∧ e.hbm.failChan = 5 ∧
      (e.slot 1).state = .aborted)) : Bool) = true := by decide +kernel

/-! ### Requests of a MOVE (R240, R245, R258) -/

def runZ : Thread := { slot := 1, state := .running, idx := 0 }
def thr2 (t : Thread) : Die := { with1 armed1 with xfr := { threads := [(33, t)] }, st := { xprog := Mem.write [] 0 ([1 + 2 ^ 16 * 300, 2 ^ 61 + 0x100F0, 0x40, 0, 5 + 2 ^ 8 * 3, 0].flatMap fun w => leBytes 8 w), ws0 := Mem.write [] 0x100F0 (List.replicate 20 7) } }

theorem test_requests_Req :
    ((let d := thr2 runZ
  let d1 := after (.move 33 .ok) d
  let d2 := after (.requestIssue 33 true false .ok) d1
  let d3 := after (.requestIssue 33 true false .ok) d2
  let d4 := after (.requestIssue 33 true false .ok) d3
  let d5 := after (.requestIssue 33 true false .ok) d4
  let q := (d4.thread 33).out
  let e := after (.requestComplete 33 0 0 .ok) d4
  let f := after (.threadFail 33) { d with xfr := { threads := [(33, { runZ with failDue := some 6 })] } }
  gives (.move 33 .ok) d (thr2 { runZ with inStep := true }) &&
      decide (q.map (fun x => (x.srcAddr, x.dstAddr, x.len)) = [(0x100F0, 0x10000040, 16), (0x10100, 0x10000050, 256), (0x10200, 0x10000150, 28)] ∧ d5 = d4 ∧ (d4.thread 33).pc = 2 ∧ (d4.thread 33).inStep = false ∧ d4.xfr.issued = 3 ∧ d4.st = d.st) &&
  decide ((e.thread 33).out.map (fun x => x.len) = [256, 28] ∧ Mem.read e.st.hbm 0x10000040 17 = List.replicate 16 7 ++ [0] ∧
      e.xfr.wrBytes = 0x10 ∧ e.st.ws0 = d.st.ws0) && gives (.signal 33 .ok) d4 d4 && gives (.threadFail 33) d d &&
  decide ((f.thread 33).failed = true ∧ (f.slot 1).state = .aborted ∧ (f.slot 1).cause = 6) &&
      gives (.passClose 33) d d) : Bool) = true := by decide +kernel

/-! ### Camera frames, die time, KV commands -/

def str1 : Stream := { ctrl := 1, geom := 0x00020004, ring := 0x00040001, base := 0x2000, pitch := 512, bind := 0x00010100 }
def ing (x : Stream) : Die := { with1 armed1 with ing := { streams := [(3, x)] } }
def kv1 (seqs : Tab Seq) (q : List KvOp) : Die := { with1 granted1 with kvp := { poolBase := 100000, poolPages := 64, ptBase := 120000, seqs := seqs, queue := q, chains := [(1, [16, 17])] } }

theorem test_frames_Frames :
    (((ing str1).ingRuns = true ∧ str1.width = 4 ∧ str1.height = 2 ∧ str1.fmt = 0) : Prop) ∧ ((let d := ing str1
  let a := after (.sof 3 7 8 4 2 0 false) d
  let b := after (.line 3 0 0 [1, 2] false) a
  let c := after (.line 3 0 2 [3, 4] false) b
  let e := after (.line 3 1 0 [5, 6, 7, 8] false) c
  let f := after (.eof 3 false) e
  let g := after (.eof 3 false) c
  decide ((a.stream 3).open_ = true ∧ (a.stream 3).frame = 7 ∧ (a.stream 3).sensorTs = 8 ∧ (b.stream 3).rowPos = 2 ∧
      (c.stream 3).row = 1 ∧ (c.stream 3).rowPos = 0 ∧ Mem.read c.st.lb (0x2000 + 4096) 5 = [1, 2, 3, 4, 0] ∧
      Mem.read e.st.lb (0x2000 + 4096 + 512) 4 = [5, 6, 7, 8] ∧
   (f.stream 3).open_ = false ∧ (f.stream 3).frames = 1 ∧ f.ing.pixels = 8 ∧ (g.stream 3).open_ = false ∧
      (g.stream 3).lastCause = 3 ∧ (g.stream 3).drops = 1) &&
  gives (.reservedClassMessage 5) up { up with ing := { up.ing with unclaimed := 1 } } &&
      gives (.reservedClassMessage 2) up up) : Bool) = true := by decide +kernel

theorem test_frames_Stripes :
    ((let x : Stream := { str1 with held := [(3, 0, false), (3, 1, true)] }
  let d : Die := { ing x with iss := { tallies := [(17, { value := 2 })] } }
  let e := after (.stripeFree 3) d
  let v : VoidFrame := { frame := 5, frameNo := 9, sensorTs := 0, sofTime := 0, from_ := 0, timeStep := false }
  let w := after (.voidStripeHandover 3) (ing { str1 with voidQ := [v] })
  let n := ing { str1 with ctrl := 0, frames := 4, drops := 2 }
  let m := after (.ingStreamEnable 0 3 1) n
  let o := after (.ingStreamEnable 0 3 0x51) n
  decide ((e.tally 17).value = 1 ∧ (e.stream 3).held = [(3, 1, true)] ∧ (e.stream 3).freed = [(3, 1)]) &&
      gives (.stripeFree 3) (ing x) (ing x) &&
  decide ((w.tally 16).value = 1 ∧ (w.stream 3).held = [(9, 0, false)] ∧ (w.stream 3).voidQ.map (fun v => v.from_) = [1] ∧
      w.st.lb ≠ [] ∧ (m.stream 3).enabled = true ∧ (m.stream 3).cfgErr = 0 ∧ (o.stream 3).enabled = false ∧
      (o.stream 3).cfgErr ≠ 0 ∧ (after (.ingStreamDisable 0 3 0) m).stream 3 = { (m.stream 3) with ctrl := 0 })) : Bool) = true := by decide +kernel

theorem test_frames_Timesync :
    ((let d : Die := { up with time := { up.time with valid := true, everSet := true, tq := 1000 * 1048576 } }
  let e := after (.timesync 3000) d
  gives (.timesync 1500) d { d with time := { d.time with slew := 500, slewLeft := 1048576 }, ing := { d.ing with offset := 500 } } && decide (e.time.tq = 3000 * 1048576 ∧ e.ing.steps = 1 ∧ e.ing.offset = 2000 ∧ e.time.valid = true) && gives .slewEnd d d) : Bool) = true := by decide +kernel

theorem test_frames_KvIn :
    ((let d := kv1 [] []
  let e : Die := { d with kvp := { d.kvp with pages_ := [(1, { pending := true, arg0 := 5 })] } }
  gives (.publish 1 1 9) d { d with kvp := { d.kvp with pages_ := [(1, { pending := true })], queue := [.command 1 5 0 0 9 1] } } && gives (.cow 0 1) e { e with kvp := { e.kvp with pages_ := [(1, { pending := true, arg0 := 5, overrun := true })] } } && gives (.query 2 1) d d) : Bool) = true := by decide +kernel

theorem test_frames_KvRun :
    ((let d := kv1 [(17, { gen := 4 })] [.command 1 1 0x00010005 7 0 1, .retire 17]
  let e := after (.kvpQueueHead .ok) d
  let f := after (.kvpQueueHead .ok) (kv1 [(17, { gen := 4 })] [.command 1 1 0x00010009 7 0 1])
  let g := after (.kvpQueueHead .ok) (kv1 [] [.command 1 0 0 0 0 1])
  let r := after (.retire .ok) (kv1 [(17, { gen := 4, shadow := .copying })] [.retire 17])
  decide ((e.kvCmd 1).status = 0 ∧ (e.kvCmd 1).done = true ∧ (e.kvCmd 1).res1 = 16 ∧ Tab.read [] e.kvp.chains 1 = [17] ∧
      Tab.read 0 e.kvp.tables (17 * 8192 + 4096 + 7) = 0x80000010 ∧ (f.kvCmd 1).status = 2 ∧ (g.kvCmd 1).status = 6 ∧
      e.kvp.queue = [.retire 17] ∧ (r.seq 17).shadow = .ready ∧ r.kvp.queue = [])) : Bool) = true := by decide +kernel

/-! ### Field ports and loops, Nightwatch, host messages -/

def sealFrame (l : List Byte) : List Byte := let b := (l ++ List.replicate 60 0).take 60; b ++ leBytes 4 (crc32c b)
def fl (p : FldPort) (l : Loop) : Die := { with1 armed1 with fld := { ports := [(1, p)], loops := [(2, l)] } }
def lp1 : Loop := { enable := true, port := 1, slot := 1, chan := 0, tally := 0x103, period := 1000, deadline := 500, guard := 1 }
def pt1 : FldPort := { enable := true, align := true }

theorem test_field_Frames :
    ((let d := fl pt1 lp1
  let f := sealFrame [0x51, 0]
  let g := sealFrame [0x53, 0]
  let e := after (.sensor 1 f) d
  let h := after (.status 1 g) d
  decide ((e.loop 2).sensor = f ∧ (e.loop 2).haveSens = true ∧ (e.fport 1).rxFrames = 1 ∧ (e.tally 19).value = 1 ∧
      (h.loop 2).rxstat = g ∧ (h.loop 2).rxNew = true) &&
  gives (.fieldFrameDiscard 1 (f.take 63)) d (fl { pt1 with rxErr := 1 } lp1) &&
      gives (.frameAbort 1) d (fl { pt1 with rxErr := 1 } lp1) &&
      gives (.alignGain 1) (fl { pt1 with align := false } lp1) d &&
      gives (.alignLoss 1 true) d (fl { pt1 with align := false, rxErr := 1 } lp1) &&
      gives (.alignLoss 1 false) d (fl { pt1 with align := false } lp1) &&
  (let m := fl pt1 { lp1 with msg := true, mch := 9 }; decide (((after (.loopMessage 9 f) m).loop 2).haveSens = true ∧
      ((after (.loopMessage 9 g) m).loop 2).rxNew = true) &&
      gives (.loopMessage 8 f) m { m with fld := { m.fld with msgRxErr := 1 } })) : Bool) = true := by decide +kernel

theorem test_field_Enable :
    ((let d := fl {} { lp1 with enable := false }
  let e := after (.fldPortEnable 0 1 0x21) d
  let b : W32 := 0x80000000
  let n := after (.loopEnable 0 2 b) d
  let z := after (.hbPeriodWrite 0 0) (fl { pt1 with hbNext := some 5 } lp1)
  let x := after (.loopDisable 0 2 0x3F) (fl pt1 lp1)
  decide ((e.fport 1).enable = true ∧ (e.fport 1).align = false ∧ (e.fport 1).rate = 2 ∧
      (n.loop 2).enable = decide ((n.loop 2).cfgErr = 0) ∧ (z.fport 1).hbNext = none ∧ z.fld.hbPeriod = 0 ∧
      (x.loop 2).enable = false) && gives (.fldPortDisable 0 1 0) (fl { pt1 with rxErr := 3 } { lp1 with enable := false }) (fl { rxErr := 3 } { lp1 with enable := false })) : Bool) = true := by decide +kernel

theorem test_field_Periods :
    ((let blk : List Byte := (List.range 64).map fun i => BitVec.ofNat 8 i
  let d := fl pt1 { lp1 with haveSens := true, k := 1, fifo := [(1, blk), (3, blk)] }
  let t (d : Die) (n : Nat) : Die := { d with time := { d.time with timebase := BitVec.ofNat 64 n } }
  let a := after (.periodStart 2) (t d 1001)
  let b := after (.commandArrival 2) a
  let c := after (.commandArrival 2) b
  let s := after (.deadline 2) (t b 1500)
  decide ((a.loop 2).inPeriod = true ∧ (b.loop 2).ready = true ∧ (b.loop 2).taken = true ∧
      (b.fport 1).cmds = [{ loop := 2, type := 0xC1, payload := (blk.drop 12).take 48 }] ∧ c.fld.foreign = 1 ∧
      (c.loop 2).fifo = [] ∧ (s.loop 2).served = true) && gives (.periodStart 2) (t d 999) (t d 999) &&
      gives (.deadline 2) (t b 1400) (t b 1400) && gives (.commandArrival 2) c c && gives (.txFrameStart 0 0) d d &&
  (let h := fl { pt1 with hbNext := some 5 } lp1; gives (.heartbeatDue 1) h h)) : Bool) = true := by decide +kernel

theorem test_field_Nwt :
    ((let d : Die := { up with nwt := { enable := true, pkg := 1, sideband := true, warmup := 2 } }
  let a := after (.watchSof 4) d
  let b := after (.watchData 0 0x0807060504030201) a
  let c := after (.watchData 2 5) b
  let full : Die := { a with nwt := { a.nwt with sbBytes := List.replicate 19200 1 } }
  let f := after .watchEof full
  gives (.watchSof 4) up up && gives .watchEof up up && (d.nwtSideband == d.nwt.sideband) && decide (a.nwt.sbOpen = true ∧
      b.nwt.sbBytes = [1, 2, 3, 4, 5, 6, 7, 8] ∧ c.nwt.sbErr = 1 ∧ c.nwt.sbOpen = false ∧ f.nwt.frames = 1 ∧
      f.nwt.work.isSome = true)) : Bool) = true := by decide +kernel

theorem test_field_Regs :
    ((Prompt (on up) 3 ∧ Prompt (on up) 64) : Prop) ∧ ((gives (.regRd 3 7 0x14 2) up (up.sendHost (.regCpl 3 7 0x14 0)) &&
      gives (.regRd 0 7 0x0 4) up (up.sendHost (.regCpl 0 7 0 0x4E320100)) && gives (.regWr 0 0x15 4 5) up up &&
      gives (.registerWrite 0 0x14 5) up { up with glb := { up.glb with scratch := 5 } } &&
      gives (.regWr 0 0x10 4 6) up { up with glb := { up.glb with boardId := 6 } } &&
      gives (.regionLockSet 0 0xC 1) up { up with glb := { up.glb with lock := true } } &&
      gives (.reservedHostKind 7) up { up with ing := { up.ing with unclaimed := 1 } } &&
      gives (.reservedHostKind 3) up up) : Bool) = true := by decide +kernel

theorem test_field_Mem :
    (((with1 granted1).memPhys 1 0x40 4 = some 0x10000040) : Prop) ∧
      ((let d : Die := { with1 granted1 with st := { hbm := [(0x10000041, 9)] } }
  gives (.memRd 1 5 0x40 3 .ok) d (d.sendHost (.memCpl 1 5 0x40 false [0, 9, 0, 0])) &&
      gives (.memRd 1 5 0x4000000 3 .ok) d ({ d with ctx := { d.ctx with hostViol := 1 } }.sendHost (.memCpl 1 5 0x4000000 true [0, 0, 0, 0])) && gives (.memWr 1 0x41 [0, 5] .ok) d { d with st := { hbm := [(0x10000042, 5)] } } && gives (.memWr 2 0x41 [0, 5] .ok) d { d with ctx := { d.ctx with hostViol := 1 } }) : Bool) = true := by decide +kernel

/-! ### Slots and the calendar (R433 to R450) -/

theorem test_slots_SlotChecked_other :
    (((1 : Fin 64) ≠ 0 ∧ (2 : Fin 64) ≠ 1) : Prop) ∧ ((gives (.grant 2 1) (with1 free1) (with1 free1) &&
      gives (.arm 2 1 3) (with1 loaded1) (with1 loaded1)) : Bool) = true := by decide +kernel

theorem test_slots_SlotChecked_busy :
    ((gives (.release 0 1) (with1 { free1 with busy := .grant }) ((with1 { free1 with busy := .grant }).updSlot 1 fun x => { x with overrun := true }) && gives (.arm 1 1 3) (with1 { free1 with busy := .load }) (with1 { free1 with busy := .load, overrun := true })) : Bool) = true := by decide +kernel

theorem test_slots_SlotChecked_denied :
    ((gives (.grant 1 1) (with1 free1) (with1 { free1 with status := 2 }) &&
      gives (.load 0 1) (with1 free1) (with1 { free1 with status := 2 }) &&
      gives (.arm 0 1 1) (with1 loaded1) (with1 { loaded1 with status := 2 })) : Bool) = true := by decide +kernel

theorem test_slots_SlotChecked_state :
    ((gives (.grant 0 1) (with1 granted1) (with1 { granted1 with status := 1 }) &&
      gives (.load 1 1) (with1 { free1 with overrun := true }) (with1 { free1 with status := 1 }) &&
      gives (.abort 0 1) (with1 loaded1) (with1 { loaded1 with status := 1 })) : Bool) = true := by decide +kernel

theorem test_slots_Take_grantRange :
    (((with1 { free1 with memSize := 0 }).grantRange 1 = true ∧ (with1 free1).grantRange 1 = false ∧
      (with1 free1).grantOverlap 1 = false) : Prop) ∧
      ((gives (.grant 0 1) (with1 { free1 with memSize := 0 }) (with1 { free1 with memSize := 0, status := 4 })) : Bool) = true := by decide +kernel

theorem test_slots_Take_grant :
    (((with1 free1).grantRange 1 = false ∧ (with1 free1).grantOverlap 1 = false ∧ free1.prologueCycles ≠ 0) : Prop) ∧
      ((let e := after (.grant 0 1) (with1 free1)
  decide ((e.slot 1).state = .granted ∧ (e.slot 1).busy = .grant ∧
      e.sec.prologues = [{ slot := 1, left := free1.prologueCycles, lock := false }] ∧
    Tab.read [] e.kvp.chains 1 = (List.range 16).map (fun n => 16 + n) ∧ e.boot.clean = false)) : Bool) = true := by decide +kernel

theorem test_slots_Take_grantNoPro :
    ((({ free1 with ws0 := 0, ws1 := 0, lb := 0 } : Slot).prologueCycles = 0) : Prop) ∧
      ((let e := after (.grant 0 1) (with1 { free1 with ws0 := 0, ws1 := 0, lb := 0 })
  decide ((e.slot 1).state = .granted ∧ (e.slot 1).busy = .idle ∧ (e.slot 1).status = 0)) : Bool) = true := by decide +kernel

theorem test_slots_Take_load :
    (((granted1.phys granted1.imageAddr granted1.imageLen.toNat).isSome = true) : Prop) ∧
      ((gives (.load 1 1) (with1 granted1) (with1 { granted1 with state := .loading, busy := .load })) : Bool) = true := by decide +kernel

theorem test_slots_Take_disarm :
    ((gives (.disarm 0 1) (with1 armed1) (with1 { armed1 with state := .loaded, runsLeft := 0 })) : Bool) = true := by decide +kernel

theorem test_slots_Take_abort :
    ((let e := after (.abort 1 1) (with1 armed1)
  decide (e.slot 1 = { armed1 with state := .aborted, runsLeft := 0 } ∧ e.out = [.intr 1 0x40])) : Bool) = true := by decide +kernel

theorem test_slots_Take_unload :
    ((gives (.unload 1 1) (with1 loaded1) (((with1 loaded1).updSlot 1 fun x => { x with overrun := false, busy := .unload false }).stopUnits 1) && gives (.release 0 1) (with1 loaded1) (((with1 loaded1).updSlot 1 fun x => { x with overrun := false, busy := .unload true }).stopUnits 1)) : Bool) = true := by decide +kernel

theorem test_slots_Done_loadReject :
    ((let d := with1 { granted1 with state := .loading, busy := .load, imageLen := 256 }
  (d.checkImage 1 (Mem.read d.st.hbm (256 * 0x100000) 256)).2.isNone) : Prop) ∧
      ((let d := with1 { granted1 with state := .loading, busy := .load, imageLen := 256 }
  gives (.loadComplete 1 .ok) d (with1 { granted1 with imageLen := 256, status := 7, loadStat := 1 })) : Bool) = true := by decide +kernel

theorem test_slots_Done_arm :
    ((let e := after (.arm 1 1 0x10003) (with1 loaded1)
  decide (e.slot 1 = { loaded1 with state := .armed, runsLeft := 3, armTick := 1 })) : Bool) = true := by decide +kernel

theorem test_slots_Done_armBusy :
    ((({ with1 { loaded1 with state := .aborted } with xfr := { threads := [(33, { slot := 1, state := .running })] } } : Die).slotRunning 1) : Prop) ∧ ((let d : Die := { with1 { loaded1 with state := .aborted } with xfr := { threads := [(33, { slot := 1, state := .running })] } }
  gives (.arm 1 1 1) d (d.updSlot 1 fun x => { x with overrun := false, busy := .idle, status := 6 })) : Bool) = true := by decide +kernel

theorem test_slots_Done_unload :
    (((with1 { loaded1 with busy := .unload false }).slotQuiet 1) : Prop) ∧
      ((let e := after (.unloadReleaseDone 1) (with1 { loaded1 with busy := .unload false })
  let f := after (.unloadReleaseDone 1) (with1 { loaded1 with busy := .unload true })
  decide (e.slot 1 = granted1 ∧ f.slot 1 = free1 ∧ f.sec.scrubs = [loaded1.scrub 1 0 false false] ∧
      Tab.read [] f.kvp.chains 1 = [])) : Bool) = true := by decide +kernel

theorem test_slots_Cal_swapBad :
    ((({ count1 := 600 } : Cal).bankErr true = 1) : Prop) ∧ ((let d : Die := { up with ctx := { cal := { count1 := 600 } } }
  gives (.calSwap 0 1) d { up with ctx := { cal := { count1 := 600, swapErr := 1 } } }) : Bool) = true := by decide +kernel

theorem test_slots_Cal_swapGood :
    ((let d : Die := { up with ctx := { cal := { enable := true } }, time := { timebase := 1000 } }
  let k : Int := 1
  decide ((1000 : Int) < d.ctx.cal.start k ∧ d.ctx.cal.start (k - 1) ≤ 1000) &&
      gives (.calSwap 0 1) d { d with ctx := { cal := { enable := true, swapErr := 0, swapPend := true, swapAt := k } } }) : Bool) = true := by decide +kernel

theorem test_slots_Cal_swapEffect :
    ((({ enable := true, swapPend := true, swapAt := 1 } : Cal).swapDue 250000 = true) : Prop) ∧
      ((let d : Die := { up with ctx := { cal := { enable := true, swapPend := true, swapAt := 1 } }, time := { timebase := 250000 } }
  gives .calSwapEffect d { d with ctx := { cal := { enable := true, active := true, swapPend := false, swapAt := 1, quantumK := 1 } } }) : Bool) = true := by decide +kernel

theorem test_slots_Cal_enable :
    ((let d : Die := { up with time := { timebase := 250001 } }
  gives (.calEnable 0 0x80000000) d { d with ctx := { cal := { enable := true, quantumK := 2, lastDue := some 499999 } } } &&
    gives (.calEnable 0 0xA0000000) d { d with ctx := { cal := { ptp := true, cfgErr := 2 } } } &&
    gives (.calEnable 0 0x80000000) { d with ctx := { cal := { quantum := 9999 } } } { d with ctx := { cal := { quantum := 9999, cfgErr := 1 } } } &&
    gives (.calEnable 0 0x80000000) { d with ctx := { cal := { count0 := 600 } } } { d with ctx := { cal := { count0 := 600, cfgErr := 3 } } }) : Bool) = true := by decide +kernel

theorem test_slots_Cal_disable :
    ((let d : Die := { up with ctx := { cal := { enable := true, pending := some 1, next := 3 } } }
  gives (.calDisable 0 0) d { up with ctx := { cal := {} } } && gives (.calDisable 1 0) d d) : Bool) = true := by decide +kernel

theorem test_slots_Run_due :
    ((let c : Cal := { enable := true, count0 := 1, bank0 := [(0, 0x01000000)] }
  c.nextEntry = some (0, 0) ∧ wbits (c.entry c.active 0) 29 24 = 1) : Prop) ∧
      ((let c : Cal := { enable := true, count0 := 1, bank0 := [(0, 0x01000000)] }
  let d : Die := { with1 { armed1 with armTick := 7 } with ctx := { (with1 { armed1 with armTick := 7 }).ctx with cal := { c with pending := some 1 } } }
  gives .calEntryDue d { d with ctx := { d.ctx with slots := [(1, { armed1 with armTick := 7, missed := 1 })], cal := { c with quantumK := 0, next := 1, lastDue := some 0, pending := some 1 } } }) : Bool) = true := by decide +kernel

theorem test_slots_Run_dueTick :
    ((let c : Cal := { enable := true, count0 := 1, bank0 := [(0, 0x01000000)] }
  let d : Die := { with1 { armed1 with armTick := 1 } with ctx := { (with1 { armed1 with armTick := 1 }).ctx with cal := { c with pending := none } } }
  gives .calEntryDue d { d with ctx := { d.ctx with cal := { c with quantumK := 0, next := 1, lastDue := some 0 } } }) : Bool) = true := by decide +kernel

theorem test_slots_Run_start :
    ((let d : Die := { with1 armed1 with ctx := { (with1 armed1).ctx with cal := { pending := some 1 } } }
  let e := after .dispatchStart d
  decide (e.iss.run = some { slot := 1 } ∧ e.slot 1 = { armed1 with runNum := 1 } ∧ e.ctx.cal = {})) : Bool) = true := by decide +kernel

theorem test_slots_Run_end :
    ((let d : Die := { with1 { armed1 with runsLeft := 1, runCtrl := 2, conf := true } with iss := { run := some { slot := 1, phase := .drain, held := 77 } } }
  let e := after .runEnd d
  decide (e.slot 1 = { armed1 with runCtrl := 2, runsDone := 1, lastCyc := 77, runsLeft := 0, state := .loaded } ∧
      e.out = [.intr 1 0] ∧ e.iss = {})) : Bool) = true := by decide +kernel

/-! ### The Tirca fabric (R457 to R479) -/

def cellOf (kind lseq ttl : Nat) (dst src job : Nat) (rch : Nat) (flags len : Nat) (off : Nat) (pay : List Byte) : List Byte :=
  let h := leBytes 1 (4 + 16 * kind) ++ leBytes 1 0 ++ leBytes 2 lseq ++ leBytes 2 0 ++ leBytes 1 0 ++ leBytes 1 ttl ++
    leBytes 4 dst ++ leBytes 4 src ++ leBytes 4 job ++ leBytes 2 rch ++ leBytes 1 flags ++ leBytes 1 (len - 1) ++ leBytes 5 off ++
    List.replicate 3 0 ++ leBytes 8 0 ++ padTo 256 pay ++ List.replicate 16 0
  h ++ leBytes 4 (crc32c h)
def recv1 : Channel := { w := [0xA0010000, 0x22, 0, 0x20000300, 0x100, 0x10, 1, 0] }
def fabUp : Die := { with1 armed1 with
  fab := { addr := 0x11, channels := [(5, recv1)], ports := [(0, { state := .up, enable := true, credits := 5, credits1 := 3 }), (1, { state := .up, enable := true, credits := 5, credits1 := 3 })],
           routes := [(0, { pfx := 0x33, ctl := 0x80002001 })] } }
def turn0 (d : Die) : Die := { d with fab := { d.fab with modTurn := [(0, 0)] } }
def cell1 : List Byte := cellOf 0 0 3 0x11 0x22 0 5 0 64 64 (List.replicate 64 7)

set_option maxRecDepth 20000 in
theorem test_fabric_Links_badcrc :
    ((cellClass (cell1.set 100 9) = 4 ∧ cellKind (cell1.set 100 9) = 0 ∧ cellCrcGood (cell1.set 100 9) = false) : Prop) ∧
      ((let d := fabUp
  let d1 := d.updTport 0 fun x => { x with crcErrs := satInc32 x.crcErrs 1 }
  let link (d : Die) (nak sleep : Bool) : Out := let h := d.linkHeader 0 1 0 0 nak sleep; .cell 0 (h ++ leBytes 4 (crc32c h))
  gives (.dataCell 0 (cell1.set 100 9)) d (turn0 ((d1.updTport 0 FabPort.headerSent).send (link d1 true false)))) : Bool) = true := by decide +kernel

set_option maxRecDepth 20000 in
theorem test_fabric_Links_lseq :
    ((cellCrcGood (cellOf 0 3 3 0x11 0x22 0 5 0 64 64 []) = true) : Prop) ∧ ((let d := fabUp
  let link (d : Die) (nak sleep : Bool) : Out := let h := d.linkHeader 0 1 0 0 nak sleep; .cell 0 (h ++ leBytes 4 (crc32c h))
  gives (.dataCell 0 (cellOf 0 3 3 0x11 0x22 0 5 0 64 64 [])) d (turn0 ((d.updTport 0 FabPort.headerSent).send (link d true false)))) : Bool) = true := by decide +kernel

set_option maxRecDepth 20000 in
theorem test_fabric_Links_link :
    ((let h := leBytes 1 0x14 ++ leBytes 3 0 ++ leBytes 2 9 ++ leBytes 2 0x82
  let c := h ++ leBytes 4 (crc32c h)
  linkCrcGood c = true ∧ cellKind c = 1 ∧ cellClass c = 4 ∧ cellSleep c = true ∧ cellAck c = 9 ∧ cellCrd c = 2) : Prop) ∧
      ((let h := leBytes 1 0x14 ++ leBytes 3 0 ++ leBytes 2 9 ++ leBytes 2 0x82
  let c := h ++ leBytes 4 (crc32c h)
  let k (n : Nat) : List Byte := cellOf 0 n 3 0 0 0 0 0 1 0 []
  let d : Die := fabUp.updTport 0 fun x => { x with replayBuf := [k 8, k 9, k 10] }
  let e := after (.linkCell 0 c) d
  decide ((e.tport 0).state = .asleep ∧ (e.tport 0).credits = 7 ∧ (e.tport 0).replayBuf = [k 10])) : Bool) = true := by decide +kernel

set_option maxRecDepth 20000 in
theorem test_fabric_Links_ackSleep :
    ((let link (d : Die) (nak sleep : Bool) : Out := let h := d.linkHeader 0 1 0 0 nak sleep; .cell 0 (h ++ leBytes 4 (crc32c h))
  let d := fabUp.updTport 0 fun x => { x with ret0 := 70, unackedRx := 3 }
  gives (.linkAck 0) d (turn0 ((d.updTport 0 FabPort.headerSent).send (link d false false))) &&
      gives (.portSleep 0) d (turn0 ((d.updTport 0 fun x => { x.headerSent with state := .asleep }).send (link d false true)))) : Bool) = true := by decide +kernel

set_option maxRecDepth 20000 in
theorem test_fabric_Links_replay :
    ((let k (n : Nat) : List Byte := cellOf 0 n 3 0 0 0 0 0 1 0 []
  let d : Die := fabUp.updTport 0 fun x => { x with replayBuf := [k 8, k 9, k 10] }
  let e := after (.replayTimer 0) d
  decide ((e.tport 0).replays = 1 ∧ (e.tport 0).replayCnt = 1 ∧ (e.tport 0).replayBuf = [k 8, k 9, k 10] ∧
      e.out.length = 3)) : Bool) = true := by decide +kernel

set_option maxRecDepth 20000 in
theorem test_fabric_Links_wake :
    ((let d : Die := fabUp.updTport 0 fun x => { x with state := .asleep, waking := true }
  gives (.fabWake 0) d (d.updTport 0 fun x => { x with wakeHeld := true, woken := true, state := .training }) &&
      gives (.wakeResend 0) d (d.send (.wakeSet 0))) : Bool) = true := by decide +kernel

set_option maxRecDepth 20000 in
theorem test_fabric_Data_land :
    ((let d := fabUp
  let ch := d.channel 5
  (ch.isRecv ∧ cellCrcGood cell1 ∧ cellRch cell1 = 5 ∧ ch.inWindow cell1 ∧ ch.space ≠ 0 ∧
      d.granted 1 ch.space (ch.winBase + cellOffset cell1 : Nat) 64 ∧ (cellPayload cell1).length = 256 ∧ ch.slotOf = 1 ∧
      (d.slot 1).state = .armed)) : Prop) ∧ ((let d := fabUp
  let ch := d.channel 5
  let e := after (.dataCell 0 cell1) d
  let got : Die := d.updTport 0 fun x => { ({ x with rxSeq := cellLseq cell1, unackedRx := x.unackedRx + 1 } : FabPort).takeAck cell1 with rxCells := inc64 x.rxCells 1, ret0 := x.ret0 + 1 }
  decide (e.st = d.st.write ch.space (ch.winBase + 64) (List.replicate 64 7) ∧ e.channel 5 = { ch with w := setNth ch.w 7 1 } ∧
      e.fab = { got.fab with channels := e.fab.channels } ∧ e.iss = (d.logTallyAdd 1 3 1).iss ∧ e.iss ≠ d.iss ∧
      e = { d with st := e.st, fab := e.fab, iss := e.iss })) : Bool) = true := by decide +kernel

set_option maxRecDepth 20000 in
theorem test_fabric_Data_discards :
    ((let got (c : List Byte) (d : Die) : Die := d.updTport 0 fun x => { ({ x with rxSeq := cellLseq c, unackedRx := x.unackedRx + 1 } : FabPort).takeAck c with rxCells := inc64 x.rxCells 1, ret0 := x.ret0 + 1 }
  let dis (c : List Byte) (d : Die) (n : BitVec 4) : Die := let g := got c d; { g with fab := { g.fab with discards := 1, lastDisc := n } }
  let c1 := cellOf 0 0 3 0x11 0x22 0 6 0 64 64 []
  let c3 := cellOf 0 0 3 0x11 0x23 0 5 0 64 64 []
  let c4 := cellOf 0 0 3 0x11 0x22 9 5 0 64 64 []
  let c6 := cellOf 0 0 3 0x11 0x22 0 5 0 64 5000 []
  let d := fabUp
  let d2 := d.updSlot 1 fun x => { x with state := .loaded }
  gives (.dataCell 0 c1) d (dis c1 d 1) && gives (.dataCell 0 cell1) d2 (dis cell1 d2 2) &&
      gives (.dataCell 0 c3) d (dis c3 d 3) && gives (.dataCell 0 c4) d (dis c4 d 4) &&
      gives (.dataCell 0 c6) d (dis c6 d 6)) : Bool) = true := by decide +kernel

set_option maxRecDepth 20000 in
theorem test_fabric_Transit :
    (((fabUp.egress 0x33 = some 1) ∧ (fabUp.egress 0x34 = none)) : Prop) ∧ ((let d := fabUp
  let c := cellOf 0 0 3 0x33 0x22 0 5 0 64 64 []
  let ct := cellOf 0 0 1 0x33 0x22 0 5 0 64 64 []
  let cn := cellOf 0 0 3 0x34 0x22 0 5 0 64 64 []
  let got (cell : List Byte) (x : FabPort) : FabPort := { ({ x with rxSeq := cellLseq cell, unackedRx := x.unackedRx + 1 } : FabPort).takeAck cell with rxCells := inc64 x.rxCells 1 }
  let missed (cell : List Byte) (code : Nat) (f : Fab → Fab) : Die :=
    let d1 := d.updTport 0 fun x => { got cell x with ret0 := x.ret0 + 1 }
    Die.record { d1 with fab := f d1.fab } 44 0x0A none code (cellDst cell).toNat 0 (cellSrc cell).toNat
  gives (.dataCell 0 c) d (d.updTport 0 fun x => { got c x with inbuf := x.inbuf ++ [(1, setNth c 7 2)] }) &&
   gives (.dataCell 0 ct) d (missed ct 4 fun f => { f with ttlDrops := 1 }) &&
      gives (.dataCell 0 cn) d (missed cn 2 fun f => { f with misses := 1 })) : Bool) = true := by decide +kernel

set_option maxRecDepth 20000 in
theorem test_fabric_Topo :
    ((let pl : List Byte := [0, 2, 0, 1, 4]
  let c := cellOf 3 0 3 0xFFFFFFFF 0x22 0 0 0 256 0 pl
  (cellKind c = 3 ∧ cellClass c = 4 ∧ (fabUp.tport 1).room true)) : Prop) ∧ ((let pl : List Byte := [0, 2, 0, 1, 4]
  let c := cellOf 3 0 3 0xFFFFFFFF 0x22 0 0 0 256 0 pl
  let e := after (.topoCell 0 c) fabUp
  match e.out with
  | [.cell q k] => decide (q = 1 ∧ cellBody k = padTo 304 (passOn c (setNth (setNth (cellPayload c) 2 1) 3 0)) ∧
      cellTtl k = cellTtl c ∧ e = { fabUp with fab := { fabUp.fab with ports := e.fab.ports, modTurn := [(0, 1)] }, out := e.out })
  | _ => false) : Bool) = true := by decide +kernel

set_option maxRecDepth 20000 in
theorem test_fabric_Forward :
    ((let d := fabUp.updTport 0 fun x => { x with inbuf := [(2, []), (1, cell1)] }
  d.nextForward 1 = some (0, cell1) ∧ (d.tport 1).room false) : Prop) ∧
      ((let d := fabUp.updTport 0 fun x => { x with inbuf := [(2, []), (1, cell1)] }
  let e := after (.cellForward 1) d
  match e.out with
  | [.cell q k] => decide (q = 1 ∧ cellBody k = padTo 304 (cellBody cell1) ∧ cellTtl k = cellTtl cell1 ∧
      (e.tport 0).inbuf = [(2, [])] ∧ e.fab.fwdCells = 1 ∧
      e = { d with fab := { d.fab with ports := e.fab.ports, fwdCells := 1, modTurn := [(0, 1)] }, out := e.out })
  | _ => false) : Bool) = true := by decide +kernel

set_option maxRecDepth 20000 in
theorem test_fabric_Hello :
    ((let d := fabUp.updTport 0 fun x => { x with state := .training, nonce := some 77 }
  let c := cellOf 2 0 0 0xFFFFFFFF 0x22 0 0 0 256 0 (leBytes 4 0x22 ++ [3] ++ List.replicate 3 0 ++ leBytes 4 0 ++ leBytes 8 5 ++ leBytes 8 77 ++ leBytes 4 0)
  let e := after (.helloCell 0 c) d
  decide ((e.tport 0).state = .up ∧ (e.tport 0).credits = 512 ∧ (e.tport 0).peer = 0x22 ∧ (e.tport 0).peerPort = 3 ∧
      (e.tport 0).rxSeq = 4095 ∧ e.tport 1 = d.tport 1) &&
  (let f := after (.helloSend 0 0x123456789) d
   match f.out with
   | [.cell q k] => decide (q = 0 ∧ cellField k 52 8 = 0x123456789 ∧ (f.tport 0).nonce = some 0x123456789 ∧ (f.tport 0).txSeq = 1)
   | _ => false)) : Bool) = true := by decide +kernel

set_option maxRecDepth 20000 in
theorem test_fabric_Timeout :
    ((let d : Die := { (fabUp.updTport 0 fun x => { x with replayCnt := 8, replayBuf := [[]], inbuf := [(1, [])] }) with xfr := { threads := [(33, { slot := 1, state := .running, out := [{ srcSpace := 1, srcAddr := 0, dstSpace := 4, dstAddr := 0, len := 8, srcOk := true, dstOk := true, port := 0 }] })] } }
  let e := after (.fabTimeout 3 0 0 0) d
  decide ((e.tport 0).state = .failed ∧ (e.tport 0).lastCause = 3 ∧ (e.tport 0).credits = 0 ∧ (e.tport 0).inbuf = [] ∧
      e.fab.channels = d.fab.channels ∧ (e.thread 33).out = [] ∧ (e.thread 33).failed) && gives (.fabTimeout 3 1 0 0) d d &&
      gives (.fabTimeout 6 0 0 0) d d) : Bool) = true := by decide +kernel

set_option maxRecDepth 20000 in
theorem test_fabric_PeerWindow :
    ((let p : PeerFail := { job := 1, peer := 2, cause := 1, count := 2, time := 0, opened := 0 }
  let d : Die := { fabUp with fab := { fabUp.fab with peerFails := [p] }, mgmt := { sessions := [{ id := 4, path := .mgmtPort, open_ := true, mutualAuth := true, rootDigest := 5, kemMixed := true }] }, fuses := { rows := digestRows 8 5 }, boot := { fabUp.boot with sinceRst := 1000000 } }
  let e := after (.peerFailWindowEnd 1 2) d
  decide (e.fab.peerFails = [] ∧ e.out.length = 1) && gives (.peerFailWindowEnd 1 3) d d &&
      (let s : Die := { d with boot := { d.boot with sinceRst := 999999 } }; gives (.peerFailWindowEnd 1 2) s s)) : Bool) = true := by decide +kernel

/-! ### Confidential slots (R484 to R516) -/

def mem1 (d : Die) : Die := { d with st := { d.st with hbm := [(5, 1), (0x10000000, 2), (0x13FFFFFF, 3), (0x14000000, 4)] } }
def fwOn (d : Die) : Die := { d with boot := { d.boot with fwRuns := true } }
def prot1 (q : Prot) : Die := { with1 granted1 with sec := { prots := [(1, q)] } }

theorem test_secure_Lock :
    (((fwOn (with1 granted1)).lockAccepted 1 = true ∧ (fwOn (with1 free1)).lockAccepted 1 = false ∧
      (fwOn up).firmwareAnswers = true ∧ up.firmwareAnswers = false) : Prop) ∧ ((let d := fwOn (with1 granted1)
  let x := granted1
  gives (.lockInterfaceRequest 1 .mgmtPort) d { d with
        boot := { d.boot with clean := false },
        sec := { d.sec with
          keyGen := d.sec.keyGen + 1, drbgUsed := d.sec.drbgUsed + 3,
          prots := Tab.upd {} d.sec.prots 1 fun q =>
            { q with tdi := .locked, init := true, key0 := d.sec.keyGen + 1, key1 := 0, cur := false, epochs := [], rotations := 0, lockPath := .mgmtPort,
                     sweeping := false, sweepStuck := false, pointer := 0, swept := 0 },
          scrubs := d.sec.scrubs ++ [x.scrub 1 (d.sec.keyGen + 1) false false],
          prologues := if x.prologueCycles = 0 then d.sec.prologues
            else d.sec.prologues ++ [{ slot := 1, left := x.prologueCycles, lock := true }] } } &&
      gives (.lockInterfaceRequest 1 .mgmtPort) (fwOn (with1 free1)) ((fwOn (with1 free1)).send (.tdisp .mgmtPort 1 false)) &&
      gives (.lockInterfaceRequest 1 .mgmtPort) (with1 granted1) (with1 granted1)) : Bool) = true := by decide +kernel

theorem test_secure_LockDone :
    ((let c : Scrub := granted1.scrub 1 3 false false
  let d : Die := { mem1 (with1 granted1) with sec := { prots := [(1, { tdi := .locked, init := true, key0 := 3, lockPath := .mgmtPort })], scrubs := [c] } }
  let e := after (.lockInitDone 1) d
  decide ((e.prot 1).tdi = .locked ∧ (e.prot 1).init = false ∧ (e.prot 1).protected_ = true ∧ (e.prot 1).key0 = 3 ∧
      e.out = [.tdisp .mgmtPort 1 true] ∧ e.st.hbm = [(5, 1), (0x14000000, 4)] ∧ e.sec.scrubs = []) &&
      c.covers d.poolBase 0x10000000 1 && !c.covers d.poolBase 0x14000000 1) : Bool) = true := by decide +kernel

theorem test_secure_StartStop :
    ((let n : Die := fwOn { with1 granted1 with sec := { prots := [] } }
  gives (.startInterfaceRequest 1 .mgmtPort) (fwOn (prot1 { tdi := .locked })) ((fwOn (prot1 { tdi := .run })).send (.tdisp .mgmtPort 1 true)) && gives (.startInterfaceRequest 1 .mgmtPort) n (n.send (.tdisp .mgmtPort 1 false)) && gives (.stopInterfaceRequest 1 .mgmtPort) (fwOn (prot1 { tdi := .error })) (n.send (.tdisp .mgmtPort 1 true)) && gives (.ideStreamInsecure 1) n n) : Bool) = true := by decide +kernel

theorem test_secure_Depart :
    (((prot1 { tdi := .run, protected_ := true, sweeping := true }).abortable 1 = false) : Prop) ∧
      ((let d := fwOn (prot1 { tdi := .run, protected_ := true, sweeping := true })
  let e := after (.stopInterfaceRequest 1 .mgmtPort) d
  let f := after (.ideStreamInsecure 1) d
  let da := d.updSlot 1 fun _ => armed1
  let g := after (.ideStreamInsecure 1) da
  decide (e.prot 1 = { tdi := .unlocked, departing := true, stopWaits := true, stopPath := .mgmtPort } ∧
      f.prot 1 = { tdi := .error, departing := true } ∧ e.slot 1 = granted1 ∧ e.out = [] ∧ (g.slot 1).state = .aborted ∧
      (g.slot 1).cause = 0 ∧ g.err = {})) : Bool) = true := by decide +kernel

theorem test_secure_Scrub :
    ((let c : Scrub := granted1.scrub 1 0 true false
  let d : Die := { mem1 (with1 granted1) with sec := { prots := [(1, { departing := true, stopWaits := true, stopPath := .mgmtPort, key0 := 3 })], scrubs := [c] } }
  let d2 : Die := { d with sec := { prots := [(1, { departing := true, depRelease := true, key0 := 3 })], scrubs := [c] } }
  let e := after (.scrubDone 1) d
  let f := after (.scrubDone 1) d2
  decide (e.prot 1 = { stopPath := .mgmtPort } ∧ e.out = [.tdisp .mgmtPort 1 true] ∧ e.st.hbm = [(5, 1), (0x14000000, 4)] ∧
      e.sec.scrubs = [] ∧ f.out = [] ∧ (f.slot 1).state = .free ∧ f.boot.clean = true ∧ e.boot.clean = false) &&
  (let r : Scrub := granted1.scrub 1 0 false true
   let g : Die := { mem1 (with1 { granted1 with busy := .unload true }) with sec := { scrubs := [r] } }
   let h := after (.scrubDone 1) g
   decide ((h.slot 1) = free1 ∧ h.sec.scrubs = [] ∧ h.boot.clean = true))) : Bool) = true := by decide +kernel

theorem test_secure_Prologue :
    ((let d : Die := { with1 granted1 with sec := { prologues := [{ slot := 1, left := 1030, lock := false }] } }
  let d2 : Die := { with1 { granted1 with busy := .grant } with sec := { prologues := [{ slot := 1, left := 8, lock := false }] }, st := { ws0 := [(65535, 1), (65536, 2), (131071, 3), (131072, 4)] } }
  let e := after (.prologuePiece .ok) d2
  gives (.prologuePiece .ok) d (clocked 1024 { d with
    sec := { prologues := [{ slot := 1, left := 6, lock := false, place := some 0 }] }, te0 := { vecCycles := 8 }, te1 := { vecCycles := 8 },
    xfr := { rdBytes := 8192 } }) &&
  decide (e.iss.cyc = 8 ∧ e.st.ws0 = [(65535, 1), (131072, 4)] ∧ e.slot 1 = granted1)) : Bool) = true := by decide +kernel

theorem test_secure_Rotate :
    ((let d := prot1 { tdi := .run, protected_ := true, key0 := 1, swept := 9 }
  gives (.rotate 1 1) d { d with sec := { keyGen := 1, drbgUsed := 3, prots := [(1, { tdi := .run, protected_ := true, key0 := 1, key1 := 1, cur := true, sweeping := true, rotateAt := some 0, done := true })] } } &&
  (let k := prot1 { tdi := .run, sweeping := true, swept := 2 }
   gives (.rotate 1 1) k ((k.record 69 0x0D (some 1) 0 2 0 0).updProt 1 fun q => { q with done := true, status := 2 })) &&
  gives (.rotate 1 1) (prot1 {}) (prot1 { done := true, status := 1 }) && gives (.rotate 0 1) d d &&
      gives (.rotate 1 1) (prot1 { pending := true }) (prot1 { pending := true, overrun := true })) : Bool) = true := by decide +kernel

theorem test_secure_Sweep :
    ((let d := prot1 { tdi := .run, sweeping := true, cur := true, pointer := 4095, swept := 2 }
  gives (.sweepBlockRewrite 1 .ok) d (prot1 { tdi := .run, sweeping := true, cur := true, pointer := 0, swept := 3, epochs := [(2, true)] }) &&
  (let e := after (.sweepBlockRewrite 1 (.ecc (.uncorr 7 0))) d
   decide ((e.prot 1).tdi = .error ∧ (e.prot 1).departing = true ∧ (e.prot 1).sweeping = false)) &&
  (let k := prot1 { sweeping := true, cur := true, key0 := 1, key1 := 2, swept := granted1.regions }
   gives (.sweepComplete 1) k (prot1 { rotations := 1, cur := true, key1 := 2, swept := granted1.regions }))) : Bool) = true := by decide +kernel

theorem test_secure_ErasedKey :
    ((let d := prot1 { tdi := .run, protected_ := true, sweeping := true }
  decide (((after (.sweepBlockRewrite 1 .ok) d).prot 1).tdi = .error ∧ d.lost [] [(0x10000000, 256)] = none ∧
    d.lost [] [(0x10000000, 4)] = some 0x10000000 ∧
      (prot1 { protected_ := true, key0 := 1 }).lost [(0x10000000, 4)] [] = none)) : Bool) = true := by decide +kernel

theorem test_secure_Nfp :
    ((let d := prot1 { tdi := .run }
  gives (.nfpOpen 1 1) d (prot1 { tdi := .run, pending := true, nfpBusy := true }) &&
      gives (.nfpOpen 1 1) (prot1 { tdi := .locked }) (prot1 { tdi := .locked, done := true, status := 1 }) &&
  (let k := prot1 { nfpBusy := true, pending := true, srcHi := 1 , len := 4}
   gives (.nfpOpenDone 1 .ok) k (prot1 { srcHi := 1, len := 4, done := true, status := 3 })) &&
  (let k := prot1 { nfpBusy := true, pending := true, len := 4851, dstLo := 0x100000 }
   gives (.nfpOpenDone 1 .ok) k (prot1 { len := 4851, dstLo := 0x100000, done := true, status := 4 }))) : Bool) = true := by decide +kernel

/-! ### Management (R517 to R541) -/

def fw : Die := { up with boot := { up.boot with fwRuns := true } }
def fwv : Die := { fw with mgmt := { vca := [(0, 3), (2, 3)] } }
def sess : Session := { id := 7, path := .mgmtPort, open_ := true, mutualAuth := true, rootDigest := 5, kemMixed := true }
def rows5 : Tab FuseRow := (2, { data := 2, commit := true }) :: digestRows 8 5
def mg : Die := { fw with fuses := { rows := rows5 }, mgmt := { sessions := [sess], presence := true, sealRun := 32 } }

theorem test_manage_Mctp :
    ((fw.answersOn .i3c = true ∧ up.answersOn .i3c = false) : Prop) ∧
      ((gives (.setEndpointId .i3c 9) fw (Die.send { fw with mgmt := { eid := [(1, 9)] } } (.mctp .i3c 0 [9])) &&
      gives (.getEndpointId .i3c) fw (fw.send (.mctp .i3c 0 [0])) &&
  gives (.getMctpVersionSupport .i3c 5) fw (fw.send (.mctp .i3c 0 [5])) &&
      gives (.getMessageTypeSupport .i3c) fw (fw.send (.mctp .i3c 0 [3,0,5,6])) &&
      gives (.getVendorDefinedMessageSupport .i3c 1) fw (fw.send (.mctp .i3c 0 [1])) &&
      gives (.unsupportedMctpCommand .i3c 1) fw (fw.send (.mctp .i3c 5 [1])) && gives (.getEndpointId .host) fw fw &&
      gives (.mctpOtherMessageType .i3c 1) fw fw && gives (.icmpv6Message .echo) fw (fw.send (.icmp .echo))) : Bool) = true := by decide +kernel

theorem test_manage_Presence :
    ((let d : Die := { mg with fuses := { mg.fuses with burning := some (1, 2, 3) }, mgmt := { mg.mgmt with cmdSid := some 7 } }
  gives .presenceAssert fw { fw with mgmt := { presence := true } } &&
      gives .presenceRelease d (Die.send { d with fuses := { d.fuses with burning := none }, mgmt := { d.mgmt with presence := false, cmdSid := none } } (.mgmtStatus 7 2 []))) : Bool) = true := by decide +kernel

theorem test_manage_Jtag :
    ((gives (.debugPortInstruction .samplePreload) fw fw &&
      (let d : Die := { fw with sec := { debugOpen := true } }; gives (.debugPortInstruction (.extest 5)) d { d with mgmt := { jtagIr := .extest 5, jtagPins := some 5 } }) && (let d : Die := { fw with sec := { debugOpen := true }, st := { ws0 := [(5, 7)] } }
   let ir (c : DebugOp) : Die := { d with mgmt := { jtagIr := .creholt c } }
   gives (.debugPortInstruction (.creholt (.readStore 0 5))) d ((ir (.readStore 0 5)).send (.tdo [7])) &&
      gives (.debugPortInstruction (.creholt (.readReg 0xC00000))) d (ir (.readReg 0xC00000)) &&
      decide ((after (.debugPortInstruction (.creholt (.writeStore 1 4 3))) d).st.ws1 = [(4, 3)]) &&
      gives (.debugPortInstruction (.creholt (.readStore 0 5))) fw fw && decide ((after .pwrgoodFall d).pin .tdo = .highZ)) &&
      gives (.debugPortInstruction .idcode) fw { fw with mgmt := { jtagIr := .idcode } } &&
      gives (.managementPortLink true) fw { fw with mgmt := { link := true } } &&
      gives (.dynamicAddressAssign 3) fw { fw with mgmt := { i3cAddr := 3 } }) : Bool) = true := by decide +kernel

theorem test_manage_Spdm_vca :
    ((gives (.getVersion .mgmtPort) fw (Die.send { fw with mgmt := { vca := [(0, 1)] } } (.spdm .mgmtPort 0x84 [0x12, 0x13])) &&
      gives (.getCapabilities .mgmtPort 0 64) fw (fw.send (.spdmError .mgmtPort 4)) &&
      (let v : Die := { fw with mgmt := { vca := [(0, 1)] } }; gives (.getCapabilities .mgmtPort 0 64) v (Die.send { v with mgmt := { vca := [(0, 2)], xferSize := [(0, 64)] } } (.spdm .mgmtPort 0xE1 (leBytes 4 0x263F6)))) && gives (.negotiateAlgorithms .mgmtPort true) fwv (fwv.send (.spdm .mgmtPort 0xE3 [])) && gives (.negotiateAlgorithms .mgmtPort false) fwv (fwv.send (.spdmError .mgmtPort 1)) && gives (.getDigests .mgmtPort) fw (fw.send (.spdmError .mgmtPort 4)) && gives (.keyExchange .i3c 0 0) { fw with mgmt := { vca := [(1, 3)] } } (Die.send { fw with mgmt := { vca := [(1, 3)] } } (.spdmError .i3c 7)) && gives (.unsupportedSpdmRequest .host 1) fw (fw.send (.spdmError .host 7))) : Bool) = true := by decide +kernel

theorem test_manage_Spdm_later :
    ((let d := fwv
  let tells (d : Die) (code : Byte) (b : List Byte) : Die := d.send (.spdm .mgmtPort code b)
  let signed : Die := { d with mgmt := { d.mgmt with transcripts := 1, lastSigned := [(0, 1)] } }
  let lg : Die := { d with mgmt := { d.mgmt with xferSize := [(0, 20)], largeId := [(0, 2)], large := [(0, [1, 2, 3, 4, 5, 6, 7])] } }
  let noc : Die := { d with mgmt := { d.mgmt with certsOk := false, certsPqOk := false } }
  let e := after (.keyExchange .mgmtPort 0 0) d
  gives (.getDigests .mgmtPort) noc (tells noc 0x81 [0]) &&
      gives (.getCertificate .mgmtPort 1 0 4) noc (noc.send (.spdmError .mgmtPort 1)) &&
      (let c := after (.challenge .mgmtPort 0 6) d; decide (c.mgmt.transcripts = 1 ∧ c.mgmt.lastSigned = [(0, 1)] ∧
      (Tab.read [] c.mgmt.nonces 0).length = 64 ∧ (Tab.read [] c.mgmt.nonces 0).take 2 = [6, 0] ∧ c.out.length = 1)) &&
  gives (.chunkSend .mgmtPort 2 1 none [9]) d (tells { d with mgmt := { d.mgmt with chunks := [(2, [9])] } } 0x05 ([2] ++ leBytes 2 1)) && gives (.chunkGet .mgmtPort 2 1) lg (tells lg 0x06 ([2] ++ leBytes 2 1 ++ [5, 6, 7])) && gives (.chunkGet .mgmtPort 3 1) lg (lg.send (.spdmError .mgmtPort 1)) && gives (.hybridSig .mgmtPort) signed (tells signed 0xFE []) && gives (.ideKm .host 3) d (d.send (.ideKm 3)) && gives (.ideKm .mgmtPort 3) d (d.send (.ideKm 3)) &&
  decide (e.mgmt.sessions.map (fun x => (x.id, x.open_, x.master.length, x.keys.length)) = [(1, false, 48, 88)] ∧
      e.mgmt.nextSid = 2 ∧ e.mgmt.lastSigned = [(0, 1)] ∧ e.sec.keyGen = 1)) : Bool) = true := by decide +kernel

theorem test_manage_Spdm_session :
    ((let d : Die := { fwv with mgmt := { fwv.mgmt with sessions := [{ id := 7, path := .mgmtPort }, { id := 8, path := .mgmtPort, open_ := true }] } }
  let tells (d : Die) (code : Byte) (b : List Byte) : Die := d.send (.spdm .mgmtPort code b)
  let err (d : Die) (code : Byte) : Die := d.send (.spdmError .mgmtPort code)
  let se (l : List Session) : Die := { d with mgmt := { d.mgmt with sessions := l } }
  gives (.finish .mgmtPort 7 true) d (tells (se [{ id := 7, path := .mgmtPort, open_ := true }, { id := 8, path := .mgmtPort, open_ := true }]) 0xE5 []) &&
  gives (.finish .mgmtPort 7 false) d (err (se [{ id := 8, path := .mgmtPort, open_ := true }]) 6) &&
      gives (.heartbeat .mgmtPort 8) d (tells d 0xE8 []) &&
  decide ((after (.keyUpdate .mgmtPort 8) d).mgmt.sessions.map (fun x => (x.id, x.keyEpoch, x.keys.length)) = [(7, 0, 0), (8, 1, 88)]) &&
  gives (.kemMix .mgmtPort 8 0) d (err d 7) &&
  gives (.endSession .mgmtPort 8) d (tells (se [{ id := 7, path := .mgmtPort }]) 0xEC []) &&
      gives (.heartbeat .mgmtPort 9) d (err d 1) && gives (.getEncapsulatedRequest .mgmtPort 8) d (tells d 0xEA []) &&
  gives (.deliverEncapsulatedResponse .mgmtPort 8 [1, 2] true true false) d (tells (se [{ id := 7, path := .mgmtPort }, { id := 8, path := .mgmtPort, open_ := true, mutualAuth := true, rootDigest := 2 }]) 0xEB [])) : Bool) = true := by decide +kernel

theorem test_manage_Mgmt_refuse :
    ((let reply (d : Die) (st : Byte) (b : List Byte) : Die := d.send (.mgmtStatus 7 st b)
  let np : Die := { mg with mgmt := { mg.mgmt with presence := false } }
  let l1 : Die := { mg with fuses := { rows := (1, { data := 1, commit := true }) :: digestRows 8 5 } }
  let bz : Die := { mg with mgmt := { mg.mgmt with cmdSid := some 3 } }
  gives (.setFabAddr 8 1) mg (mg.send (.mgmtStatus 8 1 [])) && gives (.eraseKeys 7) np (reply np 2 []) &&
      gives (.eraseKeys 7) l1 (reply l1 3 []) &&
      gives (.setFabAddr 7 1) bz { bz with mgmt := { bz.mgmt with waiting := [(7, 0, .setFabAddr 1)] } }) : Bool) = true := by decide +kernel

theorem test_manage_Mgmt_do :
    ((let d := mg
  let reply (d : Die) (st : Byte) (b : List Byte) : Die := d.send (.mgmtStatus 7 st b)
  let held (d : Die) : Die := { d with mgmt := { d.mgmt with cmdSid := some 7 } }
  gives (.setFabAddr 7 1) d (reply { d with fab := { d.fab with addr := 1 } } 0 []) &&
      gives (.setRoute 7 4 5 0x8000200E) d (reply { d with fab := { d.fab with routes := [(4, { pfx := 5, ctl := 0x8000200E })] } } 0 []) && gives (.setChannel 7 4 []) d (reply d 0 []) &&
  gives (.setJobKey 7 3 true .clear) d (reply d 0 []) &&
      gives (.setJobKey 7 3 true (.install 9)) d (reply { d with fab := { d.fab with jobs := [(3, { key1 := some 9, cur := true })] } } 0 []) && (let k : Die := { d with fab := { d.fab with jobs := [(3, { key0 := some 1, key1 := some 9, cseq0 := 4 })] } }
   gives (.setJobKey 7 3 true .useSlot) k (reply { k with fab := { k.fab with jobs := [(3, { key0 := some 1, key1 := some 9, cseq0 := 4, cur := true })] } } 0 [])) && gives (.setJobKey 7 3 true .useSlot) d (reply d 3 []) && gives (.setPort 7 2 true 100) d (reply (Die.updTport { d with fab := { d.fab with timeout := 100 } } 2 fun x => { x with enable := true, state := .training, lastCause := 0 }) 0 []) && gives (.readFaults 7) d (reply d 0 d.faults) && gives (.burnFuse 7 false 2 9) d (held { d with fuses := { rows := rows5 ++ [(16, { data := 9 })], burning := some (1, 2, 9) } }) && gives (.eraseKeys 7) d (held { d with fuses := { rows := rows5.take 1 ++ [(3, { data := 3 })] ++ rows5.drop 1, burning := some (3, 0, 0) } }) &&
  gives (.rotateSlot 7 1) { d with sec := { prots := [(1, { protected_ := true })] } } (reply { d with sec := { keyGen := 1, drbgUsed := 3, prots := [(1, { protected_ := true, key1 := 1, cur := true, sweeping := true })] } } 0 [])) : Bool) = true := by decide +kernel

theorem test_manage_Mgmt_more :
    ((let d := mg
  let m : Manifest := { factoryImage with magic := 0, ecdsa := 1, mldsa := 2, dawnDigest := 1, mainDigest := 2, signer := 3 }
  let c : BoardConf := { seq := 1, sigOk := true, root := 5, safe := [], loops := [], ports := [], weights := [], nwtCtrl := 0, mgmtAddr := 0, poolPages := 0, exclOnFail := false, exclGroups := 0, digest := 0 }
  let e := after (.unlockDebug 7) { d with sec := { prots := [(1, { tdi := .run })] } }
  let st : Die := { d with boot := { d.boot with staging := some m }, mgmt := { d.mgmt with cmdSid := some 5 } }
  let f := after (.updateStaged true) st
  let b : Die := { d with fuses := { rows := rows5 ++ [(16, { data := 9 })], burning := some (1, 2, 9) }, mgmt := { d.mgmt with cmdSid := some 5 } }
  gives (.stageFirmware 7 m) d { d with mgmt := { d.mgmt with cmdSid := some 7 }, boot := { d.boot with staging := some m, flash := { d.boot.flash with slotB := none } } } &&
  gives (.setBoardConfig 7 c true) d (Die.send { d with boot := { d.boot with flash := { d.boot.flash with conf0 := some c } } } (.mgmtStatus 7 0 [])) &&
  decide (e.sec.debugOpen = true ∧ e.mgmt.unlocks = 1 ∧ (e.prot 1).tdi = .error) && decide (f.mgmt.cmdSid = none ∧
      f.out = [.mgmtStatus 5 6 []] ∧ f.boot.flash.slotB = some m ∧ f.boot.staging = none) &&
      gives (.setBoardConfig 7 { c with root := 6 } true) d (d.send (.mgmtStatus 7 4 [])) &&
  gives (.updateStaged false) st (Die.send { st with boot := { st.boot with staging := none }, mgmt := { st.mgmt with cmdSid := none } } (.mgmtStatus 5 6 [])) &&
  gives (.fuseRowCommit true) b (Die.send { b with fuses := { rows := rows5 ++ digestRows 16 9 }, mgmt := { b.mgmt with cmdSid := none, presCmds := 1 } } (.mgmtStatus 5 0 [])) &&
  gives (.fuseRowCommit true) { b with fuses := { b.fuses with rows := rows5 } } (Die.send { b with fuses := { rows := rows5 }, mgmt := { b.mgmt with cmdSid := none } } (.mgmtStatus 5 6 [])) &&
  (let r := after (.rollbackFirmware 7 true) d; decide (r.mgmt.presCmds = 1 ∧
      r.boot.flash.ctl = { bootCtlDefault with seq := 1, rollback := true } ∧ (r.boot.flash.ctl0).length = 64))) : Bool) = true := by decide +kernel

/-! ### Power, resets, records (R402, R544 to R619) -/

def fwd : Die := { up with boot := { up.boot with fwRuns := true } }

theorem test_power_Tally :
    ((Tab.wf {} ({ up with iss := { up.iss with tallies := [(5, { value := 0xFFFFFE })] } } : Die).iss.tallies = true) : Prop) ∧
      ((let d : Die := { up with iss := { up.iss with tallies := [(5, { value := 0xFFFFFE })] } }
  decide (d.tallyAdd 5 1 = { up with iss := { up.iss with tallies := [(5, { value := 0xFFFFFF })] } } ∧
      d.tallyAdd 5 2 = { up with iss := { up.iss with tallies := [(5, { value := 0xFFFFFF })], sat := 32 } } )) : Bool) = true := by decide +kernel

theorem test_power_Votes :
    ((Prompt (on up) 0 ∧ up.hostOpen = true ∧ up.boot.full = true ∧ up.boot.resetN = true ∧ up.pwr.tripped = false ∧
      up.pwr.changing = none) : Prop) ∧ ((let p (x : Pwr) : Die := { up with pwr := x }
  gives (.voteSet 3 9) up up && gives (.voteSet 0 0x105) up (p { hostVotes := 5 }) &&
      gives (.voteClr 0 4) (p { hostVotes := 5 }) (p { hostVotes := 1 }) &&
  gives (.plevelWrite 0 8) up up && gives (.plevelWrite 0 3) up (p { req := 3, changing := some 3 }) &&
      gives (.plevelWrite 0 7) up (p { req := 7, changing := some 5 }) &&
  gives (.plevelWrite 0 1) (p { cur := 4 }) ((p { cur := 4, req := 1, changing := some 1, vid := some 1 }).send (.vid 1)) &&
  gives (.plevelWrite 0 1) (p { floor := 2, cur := 2 }) (p { floor := 2, cur := 2, req := 1 }) &&
  gives .levelTransitionComplete (p { req := 3, changing := some 3, chgTicks := 99 }) (p { req := 3, changing := some 3, chgTicks := 99 }) &&
  gives .levelTransitionComplete (p { req := 3, changing := some 3, chgTicks := 100 }) (Die.send (p { req := 3, cur := 3, chgTicks := 100, vid := some 3 }) (.vid 3)) &&
  gives .levelTransitionComplete (p { cur := 4, req := 3, changing := some 3, chgTicks := 1100 }) (p { req := 3, cur := 3, chgTicks := 1100 }) &&
  gives .levelTransitionComplete (p { cur := 4, req := 3, changing := some 3, chgTicks := 1099 }) (p { cur := 4, req := 3, changing := some 3, chgTicks := 1099 }) && gives (.plevelWrite 2 3) up up && gives (.thermalSample []) up up) : Bool) = true := by decide +kernel

theorem test_power_Thermal :
    ((let e := after (.thermalSample [30, 111, 90, 111]) { up with kvp := { up.kvp with queue := [.retire 3] } }
  let f := after (.thermalSample [-3, -2]) up
  decide (e.pwr.tripped = true ∧ e.pwr.temp = 111 ∧ e.pwr.sensor = 1 ∧ e.glb.service = 3 ∧ e.hbm.selfRef = true ∧
      e.kvp.queue = [] ∧ (e.tport 3).state = .disabled ∧ f.pwr.temp = -2 ∧ f.pwr.sensor = 1 ∧ f.pwr.tripped = false ∧
      f.glb = up.glb) &&
  (let at_ (n : Nat) (p : Pwr) (t : Int) : Pwr := (after (.thermalSample [t]) { up with time := { aon := BitVec.ofNat 64 n }, pwr := p }).pwr
   let k (p : Pwr) : Nat × Nat × Option Nat × Option Nat := (p.floor.toNat, p.throttles.toNat, p.hotSince, p.coolSince)
   decide ([k (at_ 7 {} 100),
     k (at_ 38406 { floor := 1, hotSince := some 7 } 101),
     k (at_ 38407 { floor := 1, hotSince := some 7 } 101),
     k (at_ 38407 { floor := 5, hotSince := some 7 } 101),
     k (at_ 9 { floor := 2, hotSince := some 7, coolSince := some 1 } 95),
     k (at_ 9 { floor := 2, hotSince := some 7 } 94),
     k (at_ 384008 { floor := 2, coolSince := some 9 } 94),
     k (at_ 384009 { floor := 2, coolSince := some 9 } 94),
     k (at_ 384009 { coolSince := some 9 } 94)] =
    [(1, 1, some 7, none), (1, 0, some 7, none), (2, 1, some 38407, none), (5, 0, some 38407, none), (2, 0, none, none), (2, 0, none, some 9), (2, 0, none, some 9), (1, 1, none, some 384009), (0, 0, none, some 384009)]))) : Bool) = true := by decide +kernel

theorem test_power_Entry :
    ((({ up with time := { up.time with aon := 0x400 }, pwr := { up.pwr with maxState := 2, okSince := some 0 } } : Die).entryDueNow = true) : Prop) ∧ ((let d : Die := { up with time := { up.time with aon := 0x400 }, pwr := { up.pwr with maxState := 2, okSince := some 0 } }
  gives .sleepEntryStart d (Die.send { d with pwr := { d.pwr with entry := some (.night, false), window := 0x400, seqStart := 0x400 } } (.dieState .night true true)) && gives .sleepEntryStart up up) : Bool) = true := by decide +kernel

theorem test_power_EntryNow :
    ((let d : Die := { up with time := { up.time with aon := 500 }, pwr := { up.pwr with entry := some (.night, false) }, st := { ws0 := [(0, 7), (0x10000, 9)], lb := [(3, 1)], hbm := [(1, 1)] } }
  let d1 : Die := { d with pwr := { d.pwr with entry := some (.night, true) } }
  let e := after .sleepStateReached d1
  let w : Die := { d with pwr := { d.pwr with entry := some (.dusk, true) } }
  gives .entryWindowClose d d1 && decide (e.pwr.state = .night ∧ e.pwr.entry = none ∧ e.st = { hbm := [(1, 1)] } ∧
      e.ctx = d.ctx ∧ e.kvp = d.kvp ∧ e.fab = d.fab ∧ e.fld = d.fld ∧ e.sec = d.sec ∧ e.time = d.time ∧
      e.hbm.selfRef = true) && (let z := after .sleepStateReached { d1 with pwr := { d1.pwr with seqDone := 160 } }; decide (z.st = d.st ∧ z.hbm = d.hbm ∧ z.pwr.state = .night)) &&
  gives .sleepStateReached w (Die.send { w with pwr := { w.pwr with state := .dusk, entry := none, seqDone := 500, entDusk := 1 } } (.dieState .dusk false true)) && gives .sleepStateReached { w with time := { w.time with aon := 15 } } { w with time := { w.time with aon := 15 } }) : Bool) = true := by decide +kernel

theorem test_power_Wake :
    ((let d : Die := { up with pwr := { up.pwr with state := .dusk } }
  let e : Die := { d with pwr := { d.pwr with pinEdge := true } }
  gives .hostWake d { d with pwr := { d.pwr with hostWake := true } } &&
      gives .wakeNAssert e { e with pwr := { e.pwr with wakeN := false, latched := 0x10 } } &&
      gives .wakeNAssert d { d with pwr := { d.pwr with wakeN := false } } &&
      gives .wakeNRise { d with pwr := { d.pwr with wakeN := false } } d &&
      gives .pwrTimerMatch d { d with pwr := { d.pwr with latched := 0x20 } } &&
      gives .referenceClockStop up { up with time := { up.time with refRunning := false, valid := false } }) : Bool) = true := by decide +kernel

theorem test_power_Exit :
    ((({ up with pwr := { up.pwr with state := .dusk, hostWake := true } } : Die).exitDue = true) : Prop) ∧
      ((let d : Die := { up with pwr := { up.pwr with state := .dusk, hostWake := true } }
  let e := after .sleepExitStart d
  let f := after .sleepExitDone { e with time := { e.time with aon := 100000 }, fab := { ports := [(2, { enable := true, state := .asleep, wakeHeld := true })] } }
  decide (e = { d with pwr := { d.pwr with exiting := true, seqStart := 0, lastExit := e.pwr.lastExit } } ∧
      f.pwr.state = .active ∧ f.pwr.exiting = false ∧ f.pwr.hostWake = false ∧ (f.tport 2).state = .training ∧ f.hbm = d.hbm) &&
  (let x (p : Pwr) : Die := { with1 granted1 with hbm := { up.hbm with selfRef := true }, time := { aon := 100000, refRunning := false }, pwr := { p with exiting := true } }
   let n := after .sleepExitDone (x { state := .midnight })
   let h := after .sleepExitDone (x { state := .dusk, held := [.memWr 1 0x40 [9] .ok, .memWr 1 0x41 [8] .ok] })
   let w := after .sleepExitDone (x { state := .dusk, heldWarm := true })
   decide (n.pwr.state = .active ∧ n.hbm.selfRef = false ∧ n.time.refRunning = true ∧
      h.st.hbm = [(0x10000040, 9), (0x10000041, 8)] ∧ h.pwr.held = [] ∧ w.boot.warm = true ∧ w.pwr.heldWarm = false ∧
      w.glb.service = 0))) : Bool) = true := by decide +kernel

theorem test_power_Resets :
    ((let d : Die := { with1 armed1 with st := { hbm := [(1, 2)], ws0 := [(3, 4)] }, boot := { up.boot with clean := true } }
  let off (g r : Bool) (st : BitVec 3) (n : Nat) : Die := {
        fuses := { d.fuses with burning := none }, hbm := { populated := d.hbm.populated, capacity := d.hbm.capacity },
        sec := { keyGen := d.sec.keyGen, drbgUsed := 0, reseeds := n }, pwr := { wakeN := d.pwr.wakeN },
        boot := { flash := d.boot.flash, straps := st, pwrgood := g, resetN := r }, out := d.out, freeCtr := d.freeCtr }
  gives .pwrgoodFall d (off false false 0 1) && gives .powerLoss d (off false false 0 1) &&
      gives (.pwrgoodRise 3) (off false false 0 1) (off true false 3 2) && gives (.pwrgoodRise 3) d d) : Bool) = true := by decide +kernel

theorem test_power_Cold :
    ((let d : Die := { with1 armed1 with st := { hbm := [(1, 2)], ws0 := [(3, 4)] }, boot := { up.boot with clean := true } }
  let e := after .resetNFall d
  decide (e.ctx = {} ∧ e.iss = {} ∧ e.st = {} ∧
        e.fab = {} ∧ e.kvp = {} ∧ e.ing = {} ∧ e.fld = {} ∧ e.nwt = {} ∧ e.glb = {} ∧ e.boot.clean = d.boot.clean ∧
      e.boot.flash = d.boot.flash ∧
        e.fuses = { d.fuses with burning := none } ∧ e.mgmt.sealBroken = d.mgmt.sealBroken ∧ e.mgmt.presCmds = d.mgmt.presCmds ∧
        e.time.aon = d.time.aon ∧ e.pwr.res = d.pwr.res ∧ e.pwr.resP = d.pwr.resP ∧ e.pwr.throttles = d.pwr.throttles ∧
      e.err.recs = [] ∧ e.err.written = d.err.written)) : Bool) = true := by decide +kernel

theorem test_power_Rise :
    ((let e : Die := { boot := { resetN := true, fwRuns := true }, pwr := { cur := 4, vid := some 4, vcoreEn := some true } }
  let f := after (.dawnServiceStart .good .good) e
  let g : Die := { f with boot := { f.boot with mainRun := true } }
  let c : BoardConf := { seq := 2, sigOk := true, root := 5, safe := [], loops := [], ports := [], weights := [7], nwtCtrl := 0, mgmtAddr := 0, poolPages := 0, exclOnFail := false, exclGroups := 0, digest := 6 }
  let e2 : Die := { e with fuses := { rows := (2, { data := 2, commit := true }) :: digestRows 8 5 }, boot := { e.boot with flash := { conf0 := some { c with seq := 3, root := 6 }, conf1 := some c } } }
  let f2 := after (.dawnServiceStart .good .good) e2
  let w2 := after (.dawnWeightsChecked .good) f2
  let h := after (.hbmTrainingDone 15 0) g
  let i := after .fullService { h with st := { h.st with hbm := [(1, 1)] } }
  decide (f2.boot.conf = some c ∧ f2.boot.confDig = 6 ∧ f2.glb.service = 1 ∧ (f2.errRec 71).f1 = 2 ∧ w2.st.ws0 = [(0, 7)] ∧
      w2.boot.weightsRead = true ∧ f2.weightsPast = false ∧ f.weightsPast = true) && gives (.mainStageChecked .good) f2 f2 &&
      gives (.dawnWeightsChecked .good) w2 w2 && decide (f.glb = { e.glb with service := 1 } ∧ f.boot.dawnMs = 0 ∧ f.err = {} ∧
      f.fld = e.fld ∧ f.boot.linked = true) &&
  decide (h.hbm.trained = 15 ∧ h.hbm.rate = 0x50 ∧ h.hbm.groups = 0xFFFF ∧ h.hbm.exclude = 0 ∧ h.hbm.failed = false ∧
      h.glb.hbmPop = 15 ∧ h.sec.carveBase = 142848 ∧ h.sec.carveSize = 4608 ∧ h.kvp.ptBase = 142720 ∧ h.ctx.memLimit = 142719) &&
  decide (i.glb = { h.glb with service := 2 } ∧ i.st = {} ∧ i.boot.clean = true ∧ i.boot.full = true ∧ i.boot.scrubbed = true ∧
      i.fld.dawn = false ∧ i.ctx = h.ctx)) : Bool) = true := by decide +kernel

theorem test_power_Warm :
    ((Prompt (on up) 0) : Prop) ∧ ((let d : Die := { with1 armed1 with st := { hbm := [(1, 2)], ws0 := [(3, 4)] }, boot := { up.boot with clean := true }, fld := { up.fld with loops := [(2, { enable := true, slot := 1 })] } }
  let warm (e : Die) : Bool := decide ((e.slot 1).state = .free ∧ e.ctx.slots = [] ∧ e.st = { hbm := d.st.hbm } ∧
      e.glb = { d.glb with service := 0 } ∧ e.boot.warm = true ∧
        e.boot.lastReset = 2 ∧ e.iss.run = none ∧ e.fuses = d.fuses ∧ e.err = d.err ∧ e.fab = { d.fab with channels := [] } ∧
      (e.loop 2).slot = 0x3F)
  let w := after .warmResetMsg d
  let x := after (.warmResetDone 0 0) w
  warm w && warm (after (.warmReset 0 0x5E5E0004) d) && gives (.warmReset 1 0x5E5E0004) d d &&
      gives (.engineReset 0 0x5E5F0001) d d && decide (x.glb = { w.glb with service := 2 } ∧ x.boot.warm = false ∧
      x.hbm = { w.hbm with selfRef := false } ∧ x.st = w.st) &&
      (let t : Die := { w with pwr := { w.pwr with tripped := true } }; gives (.warmResetDone 0 0) t t)) : Bool) = true := by decide +kernel

theorem test_power_EngineReset :
    ((let d := with1 armed1
  let e := after (.engineReset 0 0x5E5E0001) d
  decide (e.te0.inReset = true ∧ e.te0.plane0 = {} ∧ e.te0.flight = [] ∧ e.te1.inReset = false ∧
      (e.slot 1).state = (if d.slotUses 1 0 then .aborted else .armed) ∧ e.err = d.err) &&
      gives (.engineResetDone 0) e { e with te0 := { e.te0 with inReset := false } }) : Bool) = true := by decide +kernel

theorem test_power_Confirm :
    ((let d : Die := { up with boot := { up.boot with unconfirmed := true, flash := { up.boot.flash with ctl0 := BootCtl.bytes { seq := 1, preferred := false, stateA := 1, stateB := 0, tries := 2, rollback := false } } } }
  let e := after (.fwConfirm 0 0x434F4E46) d
  decide (e.boot.unconfirmed = false ∧ e.boot.flash.ctl.state false = fsConfirmed ∧ e.boot.flash.ctl.seq = 2) &&
      gives (.fwConfirm 1 0x434F4E46) d d && gives (.fwConfirm 0 5) d d) : Bool) = true := by decide +kernel

theorem test_power_Record :
    ((up.recPresent 22 = true) : Prop) ∧ ((let d : Die := { up with err := { irqEn := 0xFFFFFFFF } }
  let e := d.record 22 3 (some 1) 5 6 7 8
  let f := e.record 22 4 none 9 9 9 9
  let g := d.record 22 0x0E none 1 2 3 4
  decide ((e.errRec 22).valid = true ∧ (e.errRec 22).cause = 3 ∧ (e.errRec 22).count = 1 ∧ (e.errRec 22).f0 = 5 ∧
      (e.errRec 22).slot = 1 ∧ e.out = [.intr 0 1] ∧ f.errRec 22 = { e.errRec 22 with count := 2 } ∧ f.out = e.out ∧
      g.out = [.intr 0 2, .intr 0 1] ∧ g.err.toFlash = [22] ∧ (g.errRec 22).fatal = true ∧
      (g.errRec 22).slot = 0x3F)) : Bool) = true := by decide +kernel

theorem test_power_Hdr :
    ((let d := ({ up with err := { irqEn := 0 } } : Die).record 22 3 (some 1) 5 6 7 8
  let w := (d.errRec 22).words
  let h : Die := { d with err := { d.err with hold := [(22, (w.drop 1).take 6)] } }
  gives (.errHdrRead 2 7 22) d (d.sendHost (.regCpl 2 7 0xE102C0 0)) && gives (.errRecordClear 2 22) d d &&
      gives (.errHdrRead 0 7 22) d (h.sendHost (.regCpl 0 7 0xE102C0 (nth 0 w 0))) &&
  gives (.regRd 0 8 (0xE10000 + 0x20 * 22 + 12) 4) h (h.sendHost (.regCpl 0 8 0xE102CC (nth 0 w 3))) &&
      decide ((after (.errRecordClear 0 22) d).errRec 22 = {} ∧ (after (.errRecordClear 0 22) d).err.recs = []) &&
      (let r := d.errRec 22; decide ((after (.errRecordClear 0 22) { d with iss := { run := some { slot := 1, phase := .issuing 1 [] } }, err := { d.err with cycle := [(22, r)] } }).errRec 22 = r))) : Bool) = true := by decide +kernel

theorem test_power_Flash :
    ((let d := ({ up with err := { irqEn := 0 } } : Die).record 22 0x0E none 1 2 3 4
  let e := after (.fatalFlashWrite 22 true) d
  let f := after (.fatalFlashWrite 22 false) d
  decide (e.err.toFlash = [] ∧ e.err.writeErr = false ∧ e.boot.flash.fatal.length = 1 ∧
      (nth [] e.boot.flash.fatal 0).length = 64 ∧ f.err.writeErr = true ∧ f.boot.flash = d.boot.flash) &&
      (let b := nth [] e.boot.flash.fatal 0; decide (leNat (b.drop 60) = crc32c (b.take 60) ∧ leNat (b.take 4) = 1)) &&
      gives (.fatalFlashWrite 3 true) d d) : Bool) = true := by decide +kernel

theorem test_power_Reg64 :
    ((up.counter64 0 0x800018 = some 0 ∧ up.counter64 0 0x80001C = none ∧ up.reaches 0 0x800018 = true ∧
      up.readOpen 0x80001C = true) : Prop) ∧
      ((let d : Die := { up with ing := { up.ing with pixels := 0x1122334455667788 }, fld := { up.fld with loops := [(2, { rxNew := true, rxstat := [1,2,3,4,5] })] } }
  let off : Nat := 0x800018
  let o : BitVec 24 := BitVec.ofNat 24 off
  let e : Die := { d with latch := Tab.write 0 d.latch (latchKey 0 (off + 4)) 0x11223344 }
  decide (off ≠ 0) && gives (.reg64LoRead 0 9 o) d (e.sendHost (.regCpl 0 9 o 0x55667788)) &&
      gives (.regRd 0 10 (o + 4) 4) e (e.sendHost (.regCpl 0 10 (o + 4) 0x11223344)) &&
      gives (.rxstat0Read 0 4 2) d ((d.updLoop 2 fun l => { l with rxNew := false }).sendHost (.regCpl 0 4 (BitVec.ofNat 24 (offRxstat 2 0)) 0x04030201))) : Bool) = true := by decide +kernel

/-! ### Witnesses of the statements' hypotheses -/

set_option maxRecDepth 20000 in
theorem witness_NoOperationsDoNothing :
    slotOp 2 0 = 0 ∧ slotOp 4 (2 ^ 63) = 0 := by decide +kernel

set_option maxRecDepth 20000 in
theorem witness_ResetLeavesTheStatedValues :
    ((0x000000 : BitVec 24), (0x4E320100 : W32)) ∈ ([(0x000000, 0x4E320100), (0x208000, 0x00432380)] : List (BitVec 24 × W32)) := by decide +kernel

def moves (s : State) : Bool :=
  match step s with
  | .next _ => true
  | _ => false

set_option maxRecDepth 20000 in
theorem witness_StepRunsFrontCommand :
    ({ on up with pending := [.hostWake] } : State).pending = [.hostWake] ∧ (on up).pending = [] := by decide +kernel

set_option maxRecDepth 20000 in
theorem witness_EveryStepKeepsMemoryForm :
    let s : State := { on { with1 granted1 with st := { hbm := [(0x10000041, 9)] } } with pending := [.memWr 1 0x41 [0, 5] .ok] }
  MemoryForm s ∧ moves s = true := by decide +kernel

set_option maxRecDepth 20000 in
theorem witness_BundleWithoutWaitIssues :
    let ab := bundleOf 0 0 [2 ^ 58, 2 ^ 58 * 2]
  let a : Die := { due ab with fuses := { variant := .crz2214 } }
  let b := bundleOf 5 7 [0, 0, 0, 2 ^ 58]
  let d := due b
  let c := due 3
  (theRun d).phase = .due ∧ d.issueRuns = true ∧ eccBad (.uncorr 6 9) = true ∧ Steady (on d) ∧ Steady (on c) ∧
      (d.slot 1).seg = some seg1 ∧ BitVec.ofNat 512 (leNat (Mem.read d.st.instr (64 * (seg1.base + 0)) 64)) = b ∧
      bundleWait b = false ∧
    d.absentSlot 1 b = none ∧ firstSlots b ≠ [] ∧ (theRun c).phase = .due ∧ bundleWait 3 = false ∧ c.absentSlot 1 3 = none ∧
      firstSlots 3 = [] ∧ BitVec.ofNat 512 (leNat (Mem.read c.st.instr (64 * (seg1.base + 0)) 64)) = (3 : BitVec 512) ∧
    a.absentSlot 1 ab = some 1 ∧ Steady (on a) ∧ (theRun a).phase = .due ∧ bundleWait ab = false ∧ (a.slot 1).seg = some seg1 ∧
      BitVec.ofNat 512 (leNat (Mem.read a.st.instr (64 * (seg1.base + 0)) 64)) = ab := by decide +kernel

set_option maxRecDepth 20000 in
theorem witness_WaitReleasesStallsOrEnds :
    let b := bundleOf (2 ^ 17 + 2 ^ 18 + 2 ^ 19 * 3) 5 [0, 0, 0, 2 ^ 58]
  let x : Landing := { ready := 3, entry := 0, slot := 1, space := 1, addr := 0x12000, data := [12] }
  let l : Die := { due b with vec := { landings := [x] }, iss := { (due b).iss with cyc := 9, incs := [(4, 19)] } }
  bitsOf b.toNat 26 19 < seg1.tallies ∧ 19 = seg1.tallyBase + bitsOf b.toNat 26 19 ∧ bitsOf b.toNat 503 480 = 5 ∧
      bit b.toNat 17 = true ∧
    ([(4, false), (5, false), (4, true)] : List (Nat × Bool)).all (fun v =>
      let ts : List (Nat × Tally) := [(19, { value := BitVec.ofNat 24 v.1, err := v.2 })]
      let f : Die := { due b with iss := { run := some { slot := 1 }, tallies := ts } }
      let e (n : Nat) : Die := { due b with iss := { run := some { slot := 1, bundle := b, phase := .stalled n 1024 }, tallies := ts } }
      decide (Steady (on f) ∧ (f.slot 1).seg = some seg1 ∧ (theRun f).phase = .due ∧ f.fetchBundle (theRun f) = b ∧
      (f.tally 19).err = v.2 ∧ (f.tally 19).value.toNat = v.1) &&
      decide (Steady (on (e 3)) ∧ ((e 3).slot 1).seg = some seg1 ∧ (theRun (e 3)).phase = .stalled 3 1024 ∧ 3 < 1024 ∧
      Steady (on (e 1024)) ∧ (theRun (e 1024)).phase = .stalled 1024 1024)) = true ∧
    l.iss.run = some { slot := 1 } ∧ ¬ Landed l ∧ l.landReadable.iss.run = some { slot := 1 } ∧ Steady (on l.landReadable) := by decide +kernel

set_option maxRecDepth 20000 in
theorem witness_LoopControlMovesTheAddress :
    let l (n k : Nat) : LoopEntry := { start := n, remaining := k }
  let r (op d : Nat) (x : List LoopEntry) : Run := { slot := 1, pc := 9, phase := .control, bundle := bundleOf (op * 2 ^ 12 + d * 2 ^ 14) 0 [], loops := x }
  let below := r 2 2 ([l 6 1, l 5 1] ++ l 2 7 :: [l 1 3])
  let all := r 2 2 ([l 6 1, l 5 0, l 4 1] ++ [l 1 3])
  bitsOf (r 1 0 []).bundle.toNat 13 12 = 1 ∧ bitsOf (r 3 0 []).bundle.toNat 13 12 = 3 ∧ below.phase = .control ∧
      bitsOf below.bundle.toNat 13 12 = 2 ∧ bitsOf below.bundle.toNat 16 14 + 1 = 3 ∧
    (∀ x ∈ [l 6 1, l 5 1], x.remaining ≤ 1) ∧ [l 6 1, l 5 1].length < 3 ∧ 1 < (l 2 7).remaining ∧
      bitsOf all.bundle.toNat 13 12 = 2 ∧ (∀ x ∈ [l 6 1, l 5 0, l 4 1], x.remaining ≤ 1) ∧
    [l 6 1, l 5 0, l 4 1].length = bitsOf all.bundle.toNat 16 14 + 1 ∧ (due 0).issueRuns = true ∧ ([] : List LoopEntry).length < 3 := by decide +kernel

set_option maxRecDepth 20000 in
theorem witness_IssueCycleEnds :
    let d := issuing (bundleOf 3 0 [2 ^ 58, 0, 0, 2 ^ 58]) 4 [0, 3] {}
  (theRun d).phase = .issuing 4 [0, 3] ∧ (theRun d).ended = false ∧ [0, 3].erase 0 ≠ [] ∧ [3].erase 3 = [] ∧
      (theRun d).retired = false ∧ (firstSlots (theRun d).bundle).filter (fun j => decide (j ≠ 3 ∧ j ≠ 6)) = [0] ∧
    (firstSlots (bundleOf 3 0 [0, 0, 0, 2 ^ 58])).filter (fun j => decide (j ≠ 3 ∧ j ≠ 6)) = [] ∧
      ({ slot := 1, bundle := bundleOf 0 0 [2 ^ 58 * 2 + 2 ^ 52 * 3], phase := .issuing 4 [0], reported := [0] } : Run).retired = true ∧
    (let t : Die := { d with iss := { d.iss with aborts := [(2, 9)] } }; d.issueRuns = true ∧ (t.mainline &&
      !t.iss.aborts.isEmpty) = true) := by decide +kernel

def acts (k w op : Nat) (mica : Bool) : Bool :=
  let d := issuing (bundleOf 0 0 ((List.replicate k 0) ++ [w])) 1 [k] {}
  decide (Acting (on d) k (theRun d) 1 [k] ∧ slotWord (theRun d).bundle k = w ∧ slotOp k w = op) && (decide (k ≠ 4) || slot4Mica w == mica)

set_option maxRecDepth 20000 in
theorem witness_SlotActionsActOncePerCycle :
    ((List.range 2).all fun op => acts 0 (2 ^ 58 * (op + 1)) (op + 1) false &&
      acts 1 (2 ^ 58 * (op + 1)) (op + 1) false) = true ∧
      ((List.range 15).all fun op => acts 2 (2 ^ 58 * (op + 1)) (op + 1) false) = true ∧
    ((List.range 2).all fun op => acts 4 (2 ^ 57 * (op + 1)) (op + 1) false) = true ∧
      ((List.range 4).all fun op => acts 4 (2 ^ 63 + 2 ^ 57 * (op + 1)) (op + 1) true) = true ∧
    ((List.range 6).all fun op => acts 5 (2 ^ 58 * (op + 1)) (op + 1) false) = true ∧ (acts 6 (2 ^ 58 * 2) 2 false &&
      acts 6 (2 ^ 58 * 3) 3 false) = true ∧ eccBad .ok = false ∧ eccBad (.uncorr 1 0) = true := by decide +kernel

set_option maxRecDepth 20000 in
theorem witness_WeightLoadWritesOneRow :
    let s := on wlDie
  let r := theRun wlDie
  Acting s 0 r 1 [0] ∧ eccBad .ok = false ∧ slotOp 0 wlWord = 1 ∧ wlFmt wlWord = some .int8 ∧ slotWord r.bundle 0 = wlWord ∧
    (Checked s .ok r).prog 1 0 (wlSrc wlWord) = wlDie.prog 1 0 1 ∧ (wlDie.prog 1 0 1).rows ≠ 0 ∧
      (wlDie.prog 1 0 1).swalk = false ∧ r.firstCycle = true ∧
    ({} : Plane).next < 256 ∧ 256 ≤ ({ next := 256 } : Plane).next ∧
    (Checked s .ok r).slot 1 = armed1 ∧ armed1.seg = some seg1 ∧
    (let q : StatRead := { slot := 1, start := 3, space := 1, addr := 0x10000, len := 8192 }
     let p : Plane := { statRead := some q }
     p.statRead = some q ∧ p.stats = [] ∧ q.start ≤ 5 ∧ 5 ≤ 9 ∧ 5 ≤ q.start + q.len / 512) ∧
      ({ slot := 1, firstCycle := false } : Run).firstCycle = false := by decide +kernel

/-- A STREAM of `w` over a walk of three rows of four bytes whose block tag is `tag`, the bundle held `h` more cycles. -/
def strDie (h w tag : Nat) (data : List Byte) : Die := { issuing (bundleOf h 0 [w]) (h + 1) [0] {
    ag := agOf [(0, 1, mat4 1 4 4 0x10100 3 0), (0, 2, mat4 1 9 16 0x10400 3 4),
      (0, 3, [1 + 16 + 256 * 4 + 2 ^ 13 + 2 ^ 20 * 256 + 2 ^ 32 * 0x10100, 2, 256, 0, 0, 0, tag + 2 ^ 32 * 0x14000, 0])],
    ws0 := Mem.write [] 0x10100 data } with te0 := stDie.te0 }
/-- The elastic ADD of `stWord`, and its walk with block scales. -/
def elWord : Nat := stWord + 2 ^ 52 * 3 + 2 ^ 50
def skWord : Nat := stWord + 2 ^ 37 * 2
def streams (h w tag : Nat) (data : List Byte) (_ : List Nat) : Bool :=
  let d := strDie h w tag data
  decide (Acting (on d) 0 (theRun d) (h + 1) [0] ∧ slotWord (theRun d).bundle 0 = w ∧ slotOp 0 w = 2)

set_option maxRecDepth 20000 in
theorem witness_StreamRowEntersTheEngine :
    let s := on stDie
  let r := theRun stDie
  Acting s 0 r 1 [0] ∧ slotWord r.bundle 0 = stWord ∧ slotOp 0 stWord = 2 ∧ wlFmt stWord = some .int8 ∧ stGate stWord ≠ 3 ∧
    ((Checked s .ok r).prog 1 0 (stSrc stWord)).rows ≠ 0 ∧ ((Checked s .ok r).prog 1 0 (stSrc stWord)).swalk = false ∧
    streams 0 stWord 0 [] [0, 1, 2] = true ∧
    (let w := stWord + 2 ^ 37 * 8; wlFmt w = some .int8 ∧ ((strDie 0 w 0 []).prog 1 0 (stSrc w)).rows = 0 ∧ bitsOf w 53 52 = 0) ∧
    (let w := elWord; bitsOf w 53 52 = 3 ∧ bitsOf w 51 50 = 1 ∧
      ({ slot := 1, reported := [0] } : Run).reported.contains 0 = true) ∧
    (let w := skWord; let d := strDie 0 w 5 [0, 0, 0, 0]; let p := d.prog 1 0 (stSrc w); Acting (on d) 0 (theRun d) 1 [0] ∧
      wlFmt w = some .int8 ∧ p.rows ≠ 0 ∧ bitsOf w 53 52 = 0 ∧
      (d.actScales 1 p .int8 [(d.fetchRow 1 p.space p 0 256 0).1]).2.1.isSome = true) ∧
    (let w := skWord; let d0 := strDie 0 w 0 [0, 0, 0, 0]; let p := d0.prog 1 0 (stSrc w)
     let d : Die := { d0 with st := { d0.st with ws0 := Mem.write d0.st.ws0 0x14000 ((List.range 24).flatMap fun k => [0, BitVec.ofNat 8 (p.expectTag k)]) } }
     p.swalk = true ∧ (d.actScales 1 p .int8 [(d.fetchRow 1 p.space p 0 256 0).1]).2.1 = none) ∧
    (let w := stWord + 2 ^ 55 * 2; let d := strDie 0 w 0 [1, 2]; wlFmt w = some .int16 ∧ bitsOf w 53 52 = 0 ∧
      (d.prog 1 0 (stSrc w)).rows ≠ 0 ∧ (theRun d).second0 = false ∧ ({ slot := 1, second0 := true } : Run).second0 = true) ∧
    (let w := elWord; let d := strDie 7 w 0 [0, 0, 0, 0, 9]; let p := d.prog 1 0 (stSrc w)
     let zero (k : Nat) : Bool := (placeTokens .int8 ((d.fetchRow 1 p.space p (k % p.rows) 256 0).1.map Prod.snd) []).all fun b => decide (b = 0)
     Acting (on d) 0 (theRun d) 8 [0] ∧ wlFmt w = some .int8 ∧ bundleHold (theRun d).bundle + 1 = 8 ∧ p.rows ≠ 0 ∧
      (theRun d).reported.contains 0 = false ∧ (theRun d).force0 = false ∧ (d.prog 1 0 (stDst w)).rows ≠ 0 ∧
      zero 0 = true ∧ zero 1 = false) ∧
    (let w := elWord; let d := strDie 7 w 0 [0]; let p := d.prog 1 0 (stSrc w)
     (List.range 4).all (fun k => (placeTokens .int8 ((d.fetchRow 1 p.space p (k % p.rows) 256 0).1.map Prod.snd) []).all fun b => decide (b = 0)) = true) := by decide +kernel

set_option maxRecDepth 20000 in
theorem witness_EngineRowLandsAtItsDestination :
    let s := on { stDie with te0 := { flight := [stRow] }, iss := { cyc := 517 } }
  MemoryForm s ∧ s.die.te0.flight = [stRow] ∧ stRow.sideAddr = none ∧ stRow.ctally = none ∧ stRow.entry + 517 ≤ s.die.iss.cyc ∧
      stRow.dstOk = true ∧ stRow.acc ≠ 3 ∧ stRow.conf = false ∧
    ({ stRow with conf := true } : RowFlight).conf = true ∧ 516 < stRow.entry + 517 := by decide +kernel

set_option maxRecDepth 20000 in
theorem witness_Int8ColumnSumIsExact :
    stRow.blocked = false := by decide +kernel

set_option maxRecDepth 20000 in
theorem witness_MarginBoundCoversInt8 :
    stRow.blocked = false ∧ Tab.wf [] stRow.plane.rows = true ∧ (∀ k ∈ stRow.plane.rows, k.1 < 256) ∧
    (stRow.plane.rows.map fun k => (sext 8 (byteAt k.2 3) / 16).natAbs).sum ≤ 1 ∧ (∀ k ∈ stRow.plane.rows, byteAt k.2 3 % 16 ≤ 8) := by decide +kernel

/-- Slot 2's operation `op` on group 0 of FP32 rows, with stage `st` on its source and, when `rec` is 1, a record on its destination. -/
def vecDie (op st rec : Nat) : Die := issuing (bundleOf 0 0 [0, 0, op * 2 ^ 58 + 2 ^ 42 + 2 ^ 16 + 2 ^ 5 * 2]) 1 [2] {
  ag := agOf [(5, 0, [1 + 16 + 256 * 8 + 2 ^ 16 * st + 2 ^ 20 * 8 + 2 ^ 32 * 0x10000, 0, 8, 0, 0, 0, 0, 0]), (5, 1, mat4 1 8 8 0x11000 1 0),
    (5, 2, [1 + 16 + 256 * 8 + 2 ^ 12 * rec + 2 ^ 20 * 8 + 2 ^ 32 * 0x12000, 0, 8, 0, 0, 0, 2 ^ 32 * 0x13000, 0])] }
def vecOk (op st rec : Nat) : Bool :=
  let s := on (vecDie op st rec)
  let r := theRun s.die
  let w := slotWord r.bundle 2
  let d := Checked s .ok r
  let q := d.prog 1 5 (vDst w)
  let d2 := if rec = 1 then (d.rollFor r w q).1 else d
  decide (Acting s 2 r 1 [2] ∧ slotOp 2 w = op ∧ vFmt w = some .fp32 ∧ vSelected w = [0] ∧ (d.prog 1 5 (vA w)).rows ≠ 0 ∧ (d.prog 1 5 (vB w)).rows ≠ 0 ∧ q.rows ≠ 0 ∧
      (d.prog 1 5 (vA w)).hadStage = st ∧ (d.cvtSource r w 0).2.1 = none ∧ (d.cvtSource r w 0).2.2 = false) &&
    decide ((d.groupVals 1 (vA w) 0).2 = false ∧ (d.operandB r w .fp32 0).2 = false ∧ (d.groupVals 1 (vB w) 0).2 = false ∧ (d.groupVals 1 (vDst w) 0).2 = false ∧
      q.record = decide (rec = 1) ∧ cvtTarget w q = some .fp32 ∧ q.swalk = false) &&
    decide (d.granted 1 1 (q.rowAddr (d.row 1 5 (vDst w)) + groupShift q 0) 8 = true ∧ d.granted 1 1 (q.rowAddr (d.row 1 5 (vDst w)) : Int) 4 = true) &&
    (decide (rec = 0) || decide ((d2.groupVals 1 (vA w) 0).2 = false ∧ d2.granted 1 (vSide w + 1) (q.sbase + 4 : Nat) 4 = true))

set_option maxRecDepth 20000 in
theorem witness_ElementwiseVectorRowsLand :
    let s := on vaDie
  let d := Checked s .ok (theRun vaDie)
  let q := d.prog 1 5 (vDst vaWord)
  let out : List Byte := (packCodes 32 ((List.range 256).map fun i => (lane2 1 .int32 (nth .zero (d.groupVals 1 (vA vaWord) 0).1 i) (nth .zero (d.operandB (theRun vaDie) vaWord .int32 0).1 i) .zero).1)).take q.rowb
  Acting s 2 (theRun vaDie) 1 [2] ∧ slotWord (theRun vaDie).bundle 2 = vaWord ∧ slotOp 2 vaWord = 1 ∧
      vFmt vaWord = some .int32 ∧ vSelected vaWord = [0] ∧
    (d.prog 1 5 (vA vaWord)).rows ≠ 0 ∧ (d.prog 1 5 (vB vaWord)).rows ≠ 0 ∧ q.rows ≠ 0 ∧
      (d.groupVals 1 (vA vaWord) 0).2 = false ∧ (d.operandB (theRun vaDie) vaWord .int32 0).2 = false ∧
    d.granted 1 1 (q.rowAddr (d.row 1 5 (vDst vaWord)) + groupShift q 0) out.length = true ∧
    (([(1, 0), (2, 0), (3, 0), (4, 0), (5, 0), (6, 0), (10, 0), (11, 0), (12, 0), (13, 0), (14, 0), (15, 3), (15, 8)] : List (Nat × Nat)).all fun v => vecOk v.1 v.2 0) = true ∧ vecOk 13 0 1 = true := by decide +kernel

set_option maxRecDepth 20000 in
theorem witness_LaneSpecialCases :
    FVal.nan.isNan = true ∧ (FVal.fin false 3 0).isNan = false ∧ (FVal.fin false 0 0).isZero = true ∧
      (FVal.fin true 0 0).isZero = true ∧ (FVal.fin false 0 0).sign ≠ (FVal.fin true 0 0).sign ∧
    FVal.lt (.fin true 5 1) (.fin false 3 0) = true ∧ FVal.lt (.inf true) (.inf false) = true := by decide +kernel

set_option maxRecDepth 20000 in
theorem witness_DueResultsLand :
    let x : Landing := { ready := 3, entry := 0, slot := 1, space := 1, addr := 0x12000, data := [12, 0, 0, 0] }
  let l := [x, { x with ready := 9 }]
  let j : MicaJob := { ready := 3, slot := 1, op := 4, log2n := 4, bf := false, macc := false, a := [], aFmt := 8, b := [], bFmt := 8, dFmt := 8, rows := [] }
  let p : PostJob := { ready := 3, entry := 0, slot := 1, space := 1, addr := 0x12000, data := [7], ok := true, sats := 0, nan := false, allNan := false }
  (∃ y ∈ l, y.ready = 3) ∧ (∀ y ∈ l, 3 ≤ y.ready) ∧ (∀ y ∈ l, 2 < y.ready) ∧ (∃ y ∈ [j, { j with ready := 4 }], y.ready = 3) ∧
      (∀ y ∈ [j, { j with ready := 4 }], 3 ≤ y.ready) ∧ (∀ y ∈ [j], 2 < y.ready) ∧
    (∀ y ∈ [{ p with ready := 4, ok := false }], p.ready < y.ready) ∧ p.ready ≤ 3 ∧ (∀ y ∈ [p], 2 < y.ready) := by decide +kernel

set_option maxRecDepth 20000 in
theorem witness_EventBringsOnlyGenAndHoldoff :
    let d := after (.requestIssue 33 true false .ok) (thr2 { runZ with inStep := true })
  let n : Die := { d with st := { d.st with ws0 := [] } }
  (∀ c ∈ up.xfr.threads, ∀ q ∈ c.2.out, q.data.isSome = true) ∧
      (n.xfr.threads.flatMap fun c => c.2.out.filter fun r => r.data.isNone) = (d.thread 33).out ∧ (d.thread 33).out.length = 1 ∧
    (∀ q ∈ (d.thread 33).out, q.serial < d.xfr.issued ∧ q.data = none ∧ d.st.source q ≠ n.st.source q) ∧ d.seen = [] := by decide +kernel

set_option maxRecDepth 20000 in
theorem witness_LaunchAndStopTakeOneFifoEntry :
    let w : Nat := 2 ^ 58 + 2 ^ 46 * 3 + 2 ^ 34 + 2 ^ 18 * 2 + 2 ^ 17
  let s := on (issuing (bundleOf 0 9 [0, 0, 0, w]) 1 [3] {})
  let full : List LaunchEntry := List.replicate 64 { stop := false, slot := 1, first := 0, count := 1, entry := 0, arg := 0 }
  Acting s 3 (theRun s.die) 1 [3] ∧ (s.die.landReadable.slot 1).seg = some seg1 ∧ slotWord (theRun s.die).bundle 3 = w ∧
      slotOp 3 w = 1 ∧ slotOp 3 (w + 2 ^ 58) = 2 ∧ s.die.landReadable.iss.fifo.length < 64 ∧ 64 ≤ full.length := by decide +kernel

set_option maxRecDepth 20000 in
theorem witness_ArrivalStartsOrStopsTheThreads :
    let x : LaunchEntry := { stop := false, slot := 1, first := 0, count := 6, entry := 2, arg := 9 }
  let d : Die := { with1 armed1 with iss := { fifo := [x] }, xfr := { threads := [(33, run0)] } }
  d.iss.fifo = [x] ∧ (d.slot x.slot).seg = some seg1 ∧ Tab.wf {} d.xfr.threads = true ∧ (d.thread 32).running = false ∧
      (d.thread 33).running = true ∧ seg1.thrBase + 0 ≤ 35 ∧ 35 < seg1.thrBase + seg1.threads ∧
    x.dead = false ∧ x.stop = false ∧ ({ x with stop := true, dead := true } : LaunchEntry).dead = true ∧
      ({ x with stop := true } : LaunchEntry).stop = true ∧ ({ x with dead := true } : LaunchEntry).dead = true ∧
    d.xfrRuns = true ∧ ({ d with pwr := { d.pwr with state := .dusk } } : Die).xfrRuns = false := by decide +kernel

set_option maxRecDepth 20000 in
theorem witness_FlintLoadsStreamsAndLands :
    let w : Nat := 2 ^ 57 + 2 ^ 44
  let w2 : Nat := 2 ^ 57 * 2 + 2 ^ 42 + 2 ^ 31 * 2
  let ag := agOf [(2, 1, matrix 1 4 64 0x10100 3), (2, 2, matrix 1 9 256 0x10400 3)]
  let s := on (issuing (bundleOf 0 0 [0, 0, 0, 0, w]) 1 [4] { ag := ag })
  let s2 := on (issuing (bundleOf 0 0 [0, 0, 0, 0, w2]) 1 [4] { ag := ag })
  let d := Checked s .ok (theRun s.die)
  Acting s 4 (theRun s.die) 1 [4] ∧ slotWord (theRun s.die).bundle 4 = w ∧ slotOp 4 w = 1 ∧ slot4Mica w = false ∧
      (flFmt w).isSome = true ∧ (d.prog 1 2 (flLoadSrc w)).rows ≠ 0 ∧
    (d.fetchRow 1 1 (d.prog 1 2 1) 0 64 0).2 = false ∧ Acting s2 4 (theRun s2.die) 1 [4] ∧
      slotWord (theRun s2.die).bundle 4 = w2 ∧ slotOp 4 w2 = 2 ∧ slot4Mica w2 = false ∧ (flFmt w2).isSome = true ∧
      (theRun s.die).firstCycle = true ∧ 0 < 64 ∧
    ((Checked s2 .ok (theRun s2.die)).prog 1 2 (flSrc w2)).rows ≠ 0 ∧
      ({ slot := 1, firstCycle := false } : Run).firstCycle = false ∧
    (let x : RowFlight := { stRow with word := BitVec.ofNat 64 w2 }
     let e : Die := { s.die with fln := { flight := [x] }, iss := { cyc := 133 } }
     e.fln.flight = x :: [] ∧ x.entry + 133 ≤ e.iss.cyc ∧ (0 : Nat) < x.entry + 133 ∧ eccBad (.uncorr 2 0) = true ∧
      flFmt x.word.toNat = flFmt w2 ∧ (flFmt (2 ^ 57 * 2 + 2 ^ 55 * 3)).isNone = true) := by decide +kernel

set_option maxRecDepth 20000 in
theorem witness_MicaTakesSixteenElementsACycle :
    let w : Nat := 2 ^ 63 + 2 ^ 57 * 4 + 2 ^ 53 * 4 + 2 ^ 41 * 1 + 2 ^ 19 * 2
  let s := on (issuing (bundleOf 0 0 [0, 0, 0, 0, w]) 1 [4] { ag := agOf [(3, 1, matrix 1 8 64 0x10100 3), (3, 2, matrix 1 8 64 0x10400 3)] })
  let d := Checked s .ok (theRun s.die)
  Acting s 4 (theRun s.die) 1 [4] ∧ slotWord (theRun s.die).bundle 4 = w ∧ slotOp 4 w = 4 ∧ slot4Mica w = true ∧
      bitsOf w 56 53 = 4 ∧ (d.prog 1 3 (mcSrc w)).rows ≠ 0 ∧ (d.micaTake 1 (mcSrc w) 4).2 = false ∧
    (d.prog 1 3 99).rows = 0 ∧ (¬ (4 ≤ 3)) ∧ (∀ x ∈ d.micaRows 1 (mcDst w) 4, x.2.2.2 = true) ∧
      2 ^ 4 / 16 * 16 ≤ (d.mca.input ++ (d.micaTake 1 (mcSrc w) 4).1).length := by decide +kernel

def wins (f : Fmt) (c : List Nat) (i : Nat) : Bool :=
  decide (i < c.length ∧ (f.decode (nth 0 c i)).isNan = false) && ((List.range c.length).all fun j => !(f.decode (nth 0 c i)).lt (f.decode (nth 0 c j))) &&
    ((List.range i).all fun j => (f.decode (nth 0 c j)).isNan || (f.decode (nth 0 c j)).lt (f.decode (nth 0 c i)))

/-- A crop action's input cycle in a 4 x 4 image of one channel, two samples a box, the sample in progress `k` with these elements taken. -/
def crops (op : Nat) (taps : List Byte) (k : Nat) (box : List W32) (inside : Bool) : Bool :=
  let w : Nat := 2 ^ 58 * op + 2 ^ 47 + 2 ^ 36 * 2
  let r : Run := { slot := 1, firstCycle := false, bundle := bundleOf 0 0 [0, 0, 0, 0, 0, w] }
  let d : Die := { with1 armed1 with
    st := { ag := agOf [(4, 1, [2 + 16 + 256 * 4 + 2 ^ 20 * 1 + 2 ^ 32 * 0x10000, 4 + 4 * 2 ^ 16, 0, 2 ^ 32, 4 + 2 ^ 32, 0, 0, 0]), (4, 2, mat4 1 4 1 0x12000 2 0)],
            desc := Mem.write [] (32 * 64) ([0, 0, 0, 0, 0, 0, 1] ++ List.replicate 3 0 ++ [0, 0] ++ leBytes 4 (2 ^ 30 + 0x10100 / 16)), ws0 := Mem.write [] 0x10000 [1, 2, 3, 4] }
    pst := { taps := taps.map fun b => ([b], true), sample := k, box := box, boxOut := [] } }
  let q := descOf (d.descBytes 1 (psDesc w))
  let p := d.prog 1 postUnit (psSrc w)
  let d0 := (d.postCount 1).cropBegin r w q
  decide (p.kind = 2 ∧ (d0.pst.cropPoint q p).2.2 = inside ∧ d0.pst.taps = taps.map (fun b => ([b], true)) ∧ q.outH * q.outW = 2 ∧ d0.pst.sample = k)

set_option maxRecDepth 20000 in
theorem witness_PoolingAndArgmaxResults :
    (∀ v ∈ ([(.zero, false)] : List (FVal × Bool)), v.2 = false) ∧
      [(FVal.zero, false), (FVal.zero, true)].filter Prod.snd = [(FVal.zero, true)] ∧
      (∀ k ∈ [0x7FC00000], (Fmt.fp32.decode k).isNan = true) ∧
    wins .int16 [3, 0x7FFF, 0xFFFF, 0x7FFF] 1 = true ∧ wins .int32 [0x80000000, 0xFFFFFFFF] 1 = true ∧
      wins .bf16 [0x7FC0, 0x8000, 0, 0xBF80] 1 = true ∧ wins .fp32 [0x7FC00000, 0xFF800000, 0x7F800000, 0x7F7FFFFF] 2 = true ∧
    crops 4 [] 0 [0, 0, 0, 0] true = true ∧ crops 4 [1, 2] 0 [0, 0, 0, 0] true = true ∧
      crops 4 [1, 2, 3] 0 [0, 0, 0, 0] true = true ∧ crops 4 [1, 2, 3] 1 [0, 0, 0, 0] true = true ∧
      crops 5 [] 1 [0, 0, 0, 0] true = true ∧
    crops 5 [] 1 [0, 0, 0x42C80000, 0] false = true ∧ crops 4 [1, 2, 3] 1 [0, 0, 0x42C80000, 0] false = true ∧
      (0 : Nat) + 1 < 2 ∧ 2 ≤ (1 : Nat) + 1 := by decide +kernel

set_option maxRecDepth 20000 in
theorem witness_SynchronisationSlotActs :
    let w : Nat := 2 ^ 58 * 3 + 2 ^ 50 * 4 + 2 ^ 29 * 0x402
  let d : Die := { issuing (bundleOf 0 0 [0, 0, 0, 0, 0, 0, w]) 1 [6] {} with fld := { loops := [(2, { enable := true, slot := 1 })] } }
  Acting (on d) 6 (theRun d) 1 [6] ∧ slotWord (theRun d).bundle 6 = w ∧ slotOp 6 w = 3 ∧ bitsOf w 57 50 = 2 ^ 2 ∧
      (d.loop 2).enable = true ∧ (d.loop 2).slot.toNat = 1 ∧ d.granted 1 1 (64 * bitsOf w 48 29 : Nat) 64 = true ∧
    slotOp 6 (2 ^ 58 + 2 ^ 50 * 3) = 1 ∧ bitsOf (2 ^ 58 + 2 ^ 50 * 3) 57 50 < seg1.tallies ∧ d.isConf 1 = false ∧
      (d.slot 1).marks.length < 16 ∧ (d.slotRead 1 1 (64 * 0x401 : Nat) 64).2 = false ∧ (d.slotRead 1 1 64 64).2 = true ∧
    slotOp 6 (2 ^ 58 * 4) = 4 ∧ slotOp 6 (2 ^ 58 * 2) = 2 ∧ (d.landReadable.slot 1).seg = some seg1 ∧
      16 ≤ (List.replicate 16 ((0 : W32), (0 : Byte))).length ∧ Tab.wf {} d.ctx.slots = true ∧
    ((with1 armed1).slot 1).state = .armed ∧ (1 : Nat) ≠ 63 ∧ bitsOf (2 ^ 58 * 3 + 2 ^ 50 * 0x0D + 2 ^ 29 * 0x402) 57 50 = 0x0D := by decide +kernel

set_option maxRecDepth 20000 in
theorem witness_ThreadsTakeUpTheirSteps :
    let mv := thr run0 { xprog := xprogOf [1 + 2 ^ 16 * 300, 2 ^ 61 + 0x100F0, 0x40, 0] }
  let lp := thr { run0 with pc := 1 } { xprog := xprogOf [0, 0, 7 + 2 ^ 24 * 3 + 2 ^ 16, 16 + 2 ^ 32 * 32] }
  let wt : Die := { thr { run0 with state := .waiting } { xprog := xprogOf [6 + 2 ^ 8 * 3 + 2 ^ 16 + 2 ^ 40 * 5, 0] } with iss := { tallies := [(19, { value := 8 })] } }
  let ga := thr run0 { xprog := xprogOf [3 + 2 ^ 16 * 9 + 2 ^ 44, 2 ^ 61 + 0x10000, 0, 0], tmpl := Mem.write [] 128 (List.replicate 8 1) }
  let walk (k pages : Nat) : Die :=
    let g := thr run0 { xprog := xprogOf [k + 2 ^ 16 * 1 + 2 ^ 44 * pages, 2 ^ 61 + 0x10000, 0, 0], tmpl := Mem.write [] 128 (List.replicate 8 1) }
    { g with kvp := { g.kvp with seqs := [(17, { gen := 4, half := true, len := 9 })], tables := (Kvp.setEntry {} 17 true 0 (some 5)).tables } }
  let gi := walk 3 4
  let sc := walk 4 1
  let ge := after (.gather 33 .ok .ok) gi
  let se := after (.scatter 33 .ok .ok) sc
  run0.state = .running ∧ run0.inStep = false ∧ run0.stopping = false ∧ run0.out = [] ∧ bitsOf (mv.st.xword 0 0) 7 0 = 1 ∧
      mv.stepAbsent run0 [mv.st.xword 0 1, mv.st.xword 0 2] = false ∧
    0 < (mv.element { run0 with inStep := true, elem := 0, off := 0 }).len ∧ Tab.wf {} mv.xfr.threads = true ∧
      bitsOf (lp.st.xword 1 0) 7 0 = 7 ∧ nth 0 run0.ctr 0 + 1 < 3 ∧
    wt.threadTally 33 = some 19 ∧ wt.bundleTakes 19 = false ∧ wt.lowerWaiter 33 = false ∧ (wt.tally 19).err = false ∧
      bitsOf (wt.st.xword 0 0) 63 40 ≤ (wt.tally 19).value.toNat ∧
    bitsOf (ga.st.xword 0 0) 7 0 = 3 ∧ ga.stepAbsent run0 [ga.st.xword 0 1] = false ∧
      (ga.slot 1).seqCount ≤ walkSeq run0 (ga.st.xword 0 0) ∧ 0 < walkPages (ga.st.xword 0 0) ∧
      0 < (ga.template 1 (bitsOf (ga.st.xword 0 0) 15 8)).pgLen ∧
    bitsOf (gi.st.xword 0 0) 7 0 = 3 ∧ bitsOf (sc.st.xword 0 0) 7 0 = 4 ∧
      walkSeq run0 (gi.st.xword 0 0) < (gi.slot 1).seqCount ∧ (gi.slot 1).seqBase + walkSeq run0 (gi.st.xword 0 0) = 17 ∧
    gi.barred [(gi.entryAddr 17 true (walkFirst (gi.st.xword 0 0)), 4)] [] = false ∧
      (gi.template 1 (bitsOf (gi.st.xword 0 0) 15 8)).lenOut = false ∧
      gi.kvp.entry 17 true (walkFirst (gi.st.xword 0 0)) = some 5 ∧ (sc.page 5).refs < 2 ∧ run0.pass = none ∧
      0 < (gi.template 1 (bitsOf (gi.st.xword 0 0) 15 8)).pgLen ∧ 0 < (sc.template 1 (bitsOf (sc.st.xword 0 0) 15 8)).pgLen ∧
    gi.stepAbsent run0 [gi.st.xword 0 1] = false ∧ 0 < walkPages (gi.st.xword 0 0) ∧ 0 < walkPages (sc.st.xword 0 0) ∧
    (ge.thread 33).page = some 5 ∧ (ge.seq 17).hold1 = 1 ∧ ge.kvp.walkPages = 1 ∧
      (ge.thread 33).pass = some { seq := 17, half := true, gen := 4, len := 9, once := true } ∧ (se.thread 33).page = some 5 ∧
      (se.seq 17).hold1 = 1 ∧
    mv.xfrRuns = true ∧ wt.xfrRuns = true ∧ wt.bankRuns = true ∧
      ({ wt with pwr := { wt.pwr with changing := some 2, cur := 2 } } : Die).bankRuns = false := by decide +kernel

/-- A thread of slot 1 at a MOVE towards SPACE 0x4, with one send channel. -/
def fabReq (w0 peer : W32) : Die := { fabUp with
  fab := { fabUp.fab with channels := [(6, { w := [w0, peer, 0x20, 0, 0, 0, 0, 0] })] }
  xfr := { threads := [(33, { runZ with inStep := true })] }
  st := { xprog := Mem.write [] 0 ([1 + 2 ^ 16 * 300, 2 ^ 61 + 0x100F0, 2 ^ 63 + 0x40, 0, 5 + 2 ^ 8 * 3, 0].flatMap fun w => leBytes 8 w), ws0 := Mem.write [] 0x100F0 (List.replicate 20 7) } }
/-- Its request of two bytes, issued as number `n` towards port 1 and read. -/
def fabSent (n : Nat) : Die := { fabReq 0xC8010000 0x33 with
  xfr := { issued := 5, threads := [(33, { runZ with inStep := true, out := [{ srcSpace := 1, srcAddr := 0x100F0, dstSpace := 4, dstAddr := 0x40, len := 2, srcOk := true, dstOk := true, chan := 6, port := 1, serial := n, data := some [7, 7] }] })] } }

set_option maxRecDepth 20000 in
theorem witness_RequestsMoveTheirBytes :
    let d := thr2 { runZ with inStep := true }
  let x := d.thread 33
  let q := d.nextRequest x
  let d1 := after (.requestIssue 33 true false .ok) d
  let q1 := nth { srcSpace := 0, srcAddr := 0, dstSpace := 0, dstAddr := 0, len := 0, srcOk := false, dstOk := false } (d1.thread 33).out 0
  x.state = .running ∧ x.inStep = true ∧ x.out.length < 8 ∧ q.dstSpace ≤ 3 ∧ d.clusterTurn 33 = true ∧
      d.reqScrubbed q = false ∧ q.srcOk = true ∧ q.dstOk = true ∧ Tab.wf {} d.xfr.threads = true ∧ x.lenRec = false ∧
      d.mayFill q = false ∧ Landed d ∧
    d.st.xkind x.pc = 1 ∧ (q.readPort.map d.portTaken).getD false = false ∧ d.onDead q.reads = false ∧
      d.lost q.reads [] = none ∧ 8 ≤ (List.replicate 8 q).length ∧ (d1.thread 33).out[0]? = some q1 ∧ q1.dstSpace ≤ 3 ∧
      d1.barred q1.reads q1.writes = false ∧
    d1.portHeld q1 = false ∧ Landed d1 ∧ q1.dstOk = true ∧ q1.data = none ∧ 15 < q1.len ∧
    (let many : Die := { d with xfr := { threads := d.xfr.threads ++ (List.range 8).map fun k => (40 + k, { runZ with out := List.replicate 8 q }) } }
     many.mayFill q = true ∧ many.clusterTurn 33 = true ∧ many.thread 33 = x ∧ 8 ≤ (many.thread 40).out.length) ∧
    (let late : Die := d1.updThread 33 fun y => { y with state := .failed }
     (late.thread 33).state = .failed ∧ (late.thread 33).out[0]? = some q1 ∧ late.barred q1.reads q1.writes = false ∧
      late.portHeld q1 = false ∧ Landed late) ∧
    (let mid : Die := { issuing (bundleOf 0 0 [2 ^ 58, 2 ^ 58]) 1 [1] {} with xfr := d1.xfr }
     (mid.thread 33).out[0]? = some q1 ∧ mid.portHeld q1 = true) ∧
    d.xfrRuns = true ∧ ({ d with pwr := { d.pwr with state := .dusk } } : Die).xfrRuns = false := by decide +kernel

set_option maxRecDepth 20000 in
theorem witness_ThreadFailureEndsTheContext :
    let d : Die := { thr2 runZ with xfr := { threads := [(33, { runZ with failDue := some 6 }), (34, { runZ with pass := some { seq := 17, half := false, gen := 0, len := 0, closing := true, upTo := none } }), (35, { runZ with pass := some { seq := 17, half := false, gen := 0, len := 0 } })] } }
  let w : Die := { thr { run0 with state := .waiting } { xprog := xprogOf [6 + 2 ^ 8 * 3 + 2 ^ 40 * 5, 0] } with iss := { tallies := [(19, { err := true, cause := 9 })] } }
  (d.thread 33).failDue = some 6 ∧ (d.thread 34).failDue = none ∧ (d.thread 34).state ≠ .waiting ∧
      (d.thread 34).pass.map (fun p => (p.closing, p.seq)) = some (true, 17) ∧ (d.thread 34).out = [] ∧
    (d.seq 17).shadow = .ready ∧ Tab.wf {} d.kvp.seqs = true ∧ (d.thread 36).pass = none ∧
      (d.thread 35).pass.map (fun p => p.closing) = some false ∧
    (w.thread 33).failDue = none ∧ (w.thread 33).state = .waiting ∧ w.threadTally 33 = some 19 ∧ (w.tally 19).err = true ∧
      (w.tally 19).cause = 9 ∧
    d.xfrRuns = true ∧ w.xfrRuns = true ∧ ({ d with pwr := { d.pwr with state := .dusk } } : Die).xfrRuns = false ∧
      (d.thread 36).failDue = none ∧ (d.thread 36).state ≠ .waiting ∧
    (let q : Req := { srcSpace := 1, srcAddr := 0, dstSpace := 0, dstAddr := 0, len := 4, srcOk := true, dstOk := true, serial := 5 }
     let p : Pass := { seq := 17, half := false, gen := 0, len := 0, closing := true, from_ := 5, upTo := some 6 }
     let c (x : Req) : Die := { thr2 { runZ with out := [x], pass := some p } with kvp := { (thr2 runZ).kvp with seqs := [(17, { shadow := .retiring, hold0 := 1, half := true })] } }
     ((c q).thread 33).pass = some p ∧ p.closing = true ∧ (p.from_ ≤ q.serial ∧ q.serial < 6) ∧
      ((c { q with serial := 4 }).thread 33).pass = some p ∧ ¬ (p.from_ ≤ 4) ∧ ((c q).seq 17).shadow = .retiring ∧
      ((c q).seq 17).half ≠ p.half ∧ ((c q).seq 17).hold0 - 1 = 0 ∧
      (c q).kvp.queue.contains (.retire 17) = false ∧ Tab.wf {} (c q).kvp.seqs = true ∧ (c q).xfrRuns = true) := by decide +kernel

set_option maxRecDepth 20000 in
theorem witness_HbmEventsAreCountedAndRecorded :
    let d := with1 armed1
  let last : Die := { d with hbm := { d.hbm with patrolPos := d.hbmWords - 1 } }
  bit d.hbm.trained.toNat 2 = true ∧ d.hbm.selfRef = false ∧ d.patrols = true ∧ d.hbm.groups ≠ 0 ∧
      d.hbm.patrolPos + 1 < d.hbmWords ∧ ¬ (last.hbm.patrolPos + 1 < last.hbmWords) ∧ d.popSites.contains (5 / 32) = true ∧
      d.hbm.deadChans.contains 5 = false ∧
    Tab.wf {} d.ctx.slots = true ∧ ((after (.hbmPhyLockLoss 5) d).hbm.deadChans.contains 5) = true ∧
      ¬ (bit (3 : BitVec 4).toNat 2 = true) := by decide +kernel

set_option maxRecDepth 20000 in
theorem witness_FramePacketsFillTheRing :
    let d := ing str1
  let x := d.stream 3
  let y := (after (.sof 3 7 8 4 2 0 false) d).stream 3
  let a := after (.line 3 0 0 [1, 2, 3, 4] false) (after (.sof 3 7 8 4 2 0 false) d)
  let z := a.stream 3
  let two := { y with geom := 0x00040004, ring := 0x00040002 }
  let w := (after (.line 3 1 0 [1, 2, 3, 4] false) a).stream 3
  d.ingRuns = true ∧ d.streamPresent 3 = true ∧ Tab.wf {} d.ing.streams = true ∧ x.enabled = true ∧ x.open_ = false ∧
      x.voidQ = [] ∧ x.width = 4 ∧ x.height = 2 ∧ x.fmt = 0 ∧ (5 : BitVec 4).toNat = 5 ∧ (0 : BitVec 4).toNat = 0 ∧
    y.open_ = true ∧ y.row < y.height ∧ y.rowPos = 0 ∧
      y.slotFree (y.row / y.stripe % y.slots) y.frameNo (y.row / y.stripe) = true ∧ 0 + 2 < wireBytes y.fmt y.width ∧
      0 + 4 = wireBytes y.fmt y.width ∧
    two.row % two.stripe + 1 ≠ two.stripe ∧ two.row + 1 ≠ two.height ∧ z.open_ = true ∧ z.row < z.height ∧ z.rowPos = 0 ∧
      z.row + 1 = z.height ∧ z.slotFree (z.row / z.stripe % z.slots) z.frameNo (z.row / z.stripe) = true ∧
      0 + 4 = wireBytes z.fmt z.width ∧
    w.enabled = true ∧ w.open_ = true ∧ w.height ≤ w.row := by decide +kernel

set_option maxRecDepth 20000 in
theorem witness_StripesChangeHandsOverTallies :
    let x : Stream := { str1 with held := [(3, 0, false)] }
  let d : Die := { ing x with iss := { tallies := [(17, { value := 2 })] } }
  let v : VoidFrame := { frame := 5, frameNo := 9, sensorTs := 0, sofTime := 0, from_ := 0, timeStep := false }
  let n := ing { str1 with ctrl := 0 }
  d.ingRuns = true ∧ Tab.wf {} d.ing.streams = true ∧ ((ing { str1 with voidQ := [v] }).stream 3).voidQ = v :: [] ∧
      d.bundleTakes 17 = false ∧ d.threadTakes 17 = false ∧ (str1.ctrl.getLsbD 0 = true) ∧
      d.physTally x.slotOf x.freeTally = some 17 ∧ x.enabled = true ∧ x.held = [(3, 0, false)] ∧
      str1.slotFree (v.from_ % str1.slots) v.frameNo v.from_ = true ∧
    Prompt (on n) 0 ∧ n.hostOpen = true ∧ n.streamPresent 3 = true ∧ (n.stream 3).enabled = false ∧
      (1 : W32).getLsbD 0 = true ∧ (n.updStream 3 fun _ => { str1 with ctrl := 1 &&& 0x370 }).streamCheck 3 { str1 with ctrl := 1 &&& 0x370 } = 0 ∧
    (n.updStream 3 fun _ => { str1 with ctrl := 0x51 &&& 0x370 }).streamCheck 3 { str1 with ctrl := 0x51 &&& 0x370 } ≠ 0 ∧
      Prompt (on (ing str1)) 0 ∧ ((ing str1).stream 3).enabled = true ∧ (0x10 : W32).getLsbD 0 = false := by decide +kernel

set_option maxRecDepth 20000 in
theorem witness_TimesyncStepsOrSlewsTheTime :
    let d : Die := { up with time := { up.time with valid := true, tq := 1000 * 1048576 } }
  d.ingRuns = true ∧ d.time.valid = true ∧ ((2000 : Int) - d.time.tq / 1048576).natAbs ≤ 1000 ∧
      1000 < ((2001 : Int) - d.time.tq / 1048576).natAbs ∧ up.time.valid = false := by decide +kernel

set_option maxRecDepth 20000 in
theorem witness_KvCommandsEnterTheQueue :
    let d := kv1 [] []
  Prompt (on d) 1 ∧ Prompt (on d) 0 ∧ Prompt (on d) 3 ∧ d.hostOpen = true ∧ (d.kvCmd 1).pending = false ∧ (3 : Fin 64) ≠ 0 ∧
      (3 : Fin 64) ≠ 1 ∧ ({ pending := true } : KvCmd).pending = true := by decide +kernel

def kvq (q : Seq) (tables : Tab W32) (pages : Tab Page) (chain : List Nat) (op : Nat) (a0 a1 a2 : W32) : Die := { with1 armed1 with
  kvp := { poolBase := 100000, poolPages := 64, ptBase := 120000, seqs := [(17, q), (18, { half := true })], queue := [.command 1 op a0 a1 a2 1], chains := [(1, chain)], tables := tables, pages := pages } }
/-- What the clauses about an edit share, of sequence 17 of slot 1. -/
def kvEdits (d : Die) (op : Nat) (a1 a2 : W32) : Bool :=
  let x := d.slot 1
  let y := d.seq 17
  decide (d.kvp.queue = [.command 1 op 0x00010005 a1 a2 1] ∧ Tab.wf {} d.kvp.pages_ = true ∧ Tab.wf {} d.kvp.pages = true ∧ Tab.wf {} d.kvp.seqs = true ∧ x.isGranted = true ∧ wbits (0x00010005 : W32) 27 16 < x.seqCount ∧ x.seqBase + 1 = 17) &&
    decide (wbits (0x00010005 : W32) 15 0 = (y.gen.toNat + 1) % 65536 ∧ y.shadow = .ready ∧ y.half = false ∧ wbits a1 11 0 = 7) && d.kvSound [(d.entryAddr 17 true 7, 4)] && !d.hbm.failed && !d.barred [(d.entryAddr 17 true 7, 4)] []

set_option maxRecDepth 20000 in
theorem witness_KvQueueHeadRunsInOrder :
    let y : Seq := { gen := 4 }
  let e (p : Nat) : Tab W32 := [(halfKey 17 true + 7, w32 (0x80000000 + p))]
  let src : Tab W32 := [(halfKey 18 true + 9, w32 (0x80000000 + 20))]
  let at_ (r : Nat) : Nat × Nat := ((with1 armed1).kvp.poolBase.toNat * 0 + (kvq y [] [] [] 1 0 0 0).poolBase + r * pageBytes, pageBytes)
  let r : Die := { kvq { y with half := true, shadow := .copying } [(halfKey 17 false + 3, w32 (0x80000000 + 20))] [(20, { live := true, refs := 1, pins := 1 })] [] 1 0 0 0 with kvp := { (kvq { y with half := true, shadow := .copying } [(halfKey 17 false + 3, w32 (0x80000000 + 20))] [(20, { live := true, refs := 1, pins := 1 })] [] 1 0 0 0).kvp with queue := [.retire 17] } }
  (kvEdits (kvq y [] [] [16, 17] 1 0x00010005 7 0) 1 7 0 = true ∧
      (kvq y [] [] [16, 17] 1 0x00010005 7 0).kvp.entry 17 true 7 = none) ∧
    (kvEdits (kvq y (e 20) [] [16] 1 0x00010005 7 0) 1 7 0 = true ∧
      (kvq y (e 20) [] [16] 1 0x00010005 7 0).kvp.entry 17 true 7 = some 20) ∧
    (kvEdits (kvq y [] [] [] 2 0x00010005 0x00020007 9) 2 0x00020007 9 = true ∧
      wbits (0x00020007 : W32) 27 16 < armed1.seqCount ∧
      (kvq y [] [] [] 2 0x00010005 0x00020007 9).kvp.entry 18 true 9 = none ∧
      (kvq y src [] [] 2 0x00010005 0x00020007 9).kvp.entry 18 true 9 = some 20) ∧
    ((kvq y src [] [] 2 0x00010005 0x00020007 9).barred [((kvq y src [] [] 2 0x00010005 0x00020007 9).entryAddr 17 true 7, 4), ((kvq y src [] [] 2 0x00010005 0x00020007 9).entryAddr 18 true 9, 4)] [] = false ∧ kvEdits (kvq y src [] [] 2 0x00010005 0x00020007 9) 2 0x00020007 9 = true) ∧
    (let d := kvq y (e 20) [(20, { live := true, refs := 2 })] [16, 17] 3 0x00010005 7 0
     kvEdits d 3 7 0 = true ∧ d.kvp.entry 17 true 7 = some 20 ∧ 2 ≤ (d.page 20).refs ∧
      Tab.read [] d.kvp.chains 1 = 16 :: [17] ∧ (16 : Nat) ≠ 20 ∧ d.kvWaits 1 3 0x00010005 7 = false ∧
      d.barred [(d.entryAddr 17 true 7, 4), at_ 20] [at_ 16] = false ∧ (at_ 20).1 = d.poolBase + 20 * pageBytes) ∧
    (kvEdits (kvq y (e 20) [(20, { live := true, refs := 1 })] [] 3 0x00010005 7 0) 3 7 0 = true ∧
      kvEdits (kvq y (e 20) [(20, { live := true, refs := 2 })] [] 3 0x00010005 7 0) 3 7 0 = true) ∧
    (let d := kvq y (e 20) [(20, { live := true, refs := 1 })] [] 4 0x00010005 7 0
     kvEdits d 4 7 0 = true ∧ 0 < (d.page 20).refs ∧ ¬ (1 < (d.page 20).refs ∨ 0 < (d.page 20).pins) ∧
      (d.page 20).live = true ∧ (d.page 20).kept = false ∧ d.pageOwner 20 = some 1 ∧
      0 < ({ live := true, refs := 1, pins := 1 } : Page).pins) ∧
    (let d := kvq y (e 20) [(20, { live := true, refs := 1 })] [] 5 0x00010005 7 65536
     kvEdits d 5 7 65536 = true ∧ wbits (65536 : W32) 16 0 = 65536 ∧
      d.barred [(d.entryAddr 17 true 0, 4 * d.kvp.mapped 17 true)] [] = false ∧ d.kvp.queue.contains (.retire 17) = false ∧
      d.kvp.mapped 17 true = 8) ∧
    (armed1.seqCount ≤ wbits (0x00040005 : W32) 27 16 ∧ (4 : Nat) = y.gen.toNat ∧ (9 : Nat) ≠ y.gen.toNat ∧
      9 ≠ (y.gen.toNat + 1) % 65536 ∧ ({ y with shadow := .retiring } : Seq).shadow ≠ .ready ∧
      ((with1 armed1).slot 1).state = .armed ∧ 4095 < wbits (4096 : W32) 16 0 ∧ 65536 < wbits (65537 : W32) 16 0) ∧
    (r.kvp.queue = .retire 17 :: [] ∧ r.hbm.failed = false ∧ r.barred [(r.entryAddr 17 false 0, 32768)] [] = false ∧
      Tab.wf {} r.kvp.seqs = true ∧ Tab.wf {} r.kvp.pages = true ∧ Tab.wf 0 r.kvp.tables = true ∧
      (∀ c ∈ r.kvp.tables, c.2.getLsbD 31 = true)) ∧
    (((r.kvp.half 17 (!(r.seq 17).half)).map Prod.snd).Nodup ∧ (r.kvp.half 17 (!(r.seq 17).half)).map Prod.snd = [20] ∧
      (∀ p ∈ (r.kvp.half 17 (!(r.seq 17).half)).map Prod.snd, 0 < (r.page p).pins ∧ 0 < (r.page p).refs)) ∧
    r.xfrRuns = true ∧ (kvq y [] [] [16, 17] 1 0x00010005 7 0).xfrRuns = true ∧
      ({ r with pwr := { r.pwr with state := .dusk } } : Die).xfrRuns = false := by decide +kernel

set_option maxRecDepth 20000 in
theorem witness_FieldFramesAreReceivedOrCounted :
    let d := fl pt1 lp1
  let f := sealFrame [0x51, 0]
  Tab.wf {} d.fld.loops = true ∧ Tab.wf {} d.fld.ports = true ∧ (d.fport 1).enable = true ∧ (d.fport 1).align = true ∧
      d.fldRuns = true ∧ d.mainline = true ∧ f.length = 64 ∧ leNat (f.drop 60) = crc32c (f.take 60) ∧ byteOf f 0 = 0x51 ∧
      d.portLoop 1 (frameChan f) = some 2 ∧
    (List.replicate 64 (0 : Byte)).length = 64 ∧
      leNat ((List.replicate 64 (0 : Byte)).drop 60) ≠ crc32c ((List.replicate 64 (0 : Byte)).take 60) ∧
      byteOf (sealFrame [0x53, 0]) 0 = 0x53 ∧ d.portLoop 1 (frameChan (sealFrame [0x53, 0])) = some 2 ∧
    leNat ((sealFrame [0x53, 0]).drop 60) = crc32c ((sealFrame [0x53, 0]).take 60) ∧
      (fl pt1 { lp1 with msg := true, mch := 9 }).mchLoop 9 = some 2 ∧ d.mchLoop 9 = none := by decide +kernel

set_option maxRecDepth 20000 in
theorem witness_PortsAndLoopsAreEnabledAndDisabled :
    let d := fl pt1 { lp1 with enable := false, slot := 0x3F, tally := 0, period := 10000, deadline := 1000, phase := 0 }
  let b : W32 := 0x8100003F
  let l := (d.loop 2).setBind b
  let w := fl { pt1 with guards := [{ loop := 2, type := 0xC3, payload := [] }] } lp1
  Prompt (on d) 0 ∧ d.hostOpen = true ∧ Tab.wf {} d.fld.loops = true ∧ Tab.wf {} d.fld.ports = true ∧ d.loopPresent 2 = true ∧
      b.getLsbD 31 = true ∧ (d.loop 2).enable = false ∧ (d.fport 0).enable = false ∧ (d.fport 1).enable = true ∧
      (0x21 : W32).getLsbD 0 = true ∧ (0x20 : W32).getLsbD 0 = false ∧
    (d.updLoop 2 fun _ => l).loopCheck 2 l = 0 ∧
      (d.updLoop 2 fun _ => { l with chan := 0xF }).loopCheck 2 { l with chan := 0xF } = 2 ∧
    Prompt (on w) 0 ∧ w.hostOpen = true ∧ Tab.wf {} w.fld.loops = true ∧ Tab.wf {} w.fld.ports = true ∧
      (w.fport 1).enable = true ∧ (w.loop 2).enable = true ∧ (w.loop 2).msg = false ∧ (w.loop 2).port.toNat = 1 ∧
      w.loopPresent 2 = true ∧ (0x3F : W32).getLsbD 31 = false := by decide +kernel

set_option maxRecDepth 20000 in
theorem witness_LoopPeriodsCommandsAndGuards :
    let blk : List Byte := List.replicate 64 1
  let tb (d : Die) (n : Nat) : Die := { d with time := { d.time with timebase := BitVec.ofNat 64 n } }
  let d := tb (fl pt1 { lp1 with haveSens := true, k := 1, fifo := [(1, blk), (3, blk)] }) 1001
  let a := after (.periodStart 2) d
  let b := tb (after (.commandArrival 2) a) 1500
  let c := tb a 1500
  let s := tb (fl pt1 { lp1 with inPeriod := true, k := 1 }) 1500
  let l := d.loop 2
  let m := a.loop 2
  let n := b.loop 2
  Tab.wf {} d.fld.loops = true ∧ Tab.wf {} d.fld.ports = true ∧ d.fldRuns = true ∧ l.enable = true ∧ l.inPeriod = false ∧
      l.start l.k ≤ d.baseNow l.ptp ∧ d.dawnServes l = false ∧ m.enable = true ∧ m.slot.toNat = 1 ∧
      m.fifo = (1, blk) :: [(3, blk)] ∧ m.abortedCtx = false ∧ m.inPeriod = true ∧ m.haveSens = true ∧ m.lost = false ∧
    m.served = false ∧ m.taken = false ∧ a.baseNow m.ptp < m.due m.k ∧ m.msg = false ∧ n.fifo = (3, blk) :: [] ∧
      n.slot.toNat ≠ 3 ∧ n.inPeriod = true ∧ n.served = false ∧ n.due n.k ≤ b.baseNow n.ptp ∧ b.guardSilentSafe n = false ∧
      n.ready = true ∧
    (c.loop 2).due (c.loop 2).k ≤ c.baseNow false ∧ c.guardSilentSafe (c.loop 2) = false ∧ (c.loop 2).ready = false ∧
      s.fldRuns = true ∧ (s.loop 2).due (s.loop 2).k ≤ s.baseNow false ∧ s.guardSilentSafe (s.loop 2) = true ∧
      (tb d 999).baseNow false < l.start l.k ∧
    (let sv := { lp1 with msg := true, mch := 9, haveSens := true, inPeriod := true, k := 1, fifo := [(1, blk)] }
     sv.msg = true ∧ (1001 : Int) < sv.due sv.k ∧ sv.abortedCtx = false ∧ sv.lost = false ∧ sv.taken = false ∧
      ({ sv with served := true } : Loop).served = true) := by decide +kernel

set_option maxRecDepth 20000 in
theorem witness_NightwatchTakesWholeFrames :
    let d : Die := { up with nwt := { enable := true, pkg := 1, sideband := true, warmup := 2, work := some [] } }
  d.nwtSideband = d.nwt.sideband ∧ d.nwt.enable = true ∧ d.nwt.pkg = 1 ∧ d.nwt.sideband = true ∧ d.nwt.sbOpen = false ∧
      d.nwt.lastSof = none ∧ d.nwt.work = some [] ∧ d.nwt.warmup ≠ 0 ∧ (up.nwt.enable = false ∨ up.nwt.pkg ≠ 1) ∧
    (let o : Die := { d with nwt := { d.nwt with sbOpen := true, sbBytes := [1] } }
     o.nwtSideband = o.nwt.sideband ∧ o.nwt.sbOpen = true ∧ o.nwt.sbBytes.length ≠ 19200 ∧
      (List.replicate 19200 (1 : Byte)).length = 19200) ∧ eccBad (.uncorr 2 9) = true ∧
    Prompt (on { up with nwt := { pkg := 1 } }) 0 ∧ up.hostOpen = true ∧ (0x80000000 : W32).getLsbD 31 = true ∧
      ({ pkg := 1 } : Nwt).enable = false ∧ wbits (0x80000000 : W32) 19 16 < up.variant.streams ∧
    ((1199999 : Nat) < 0 + 1200000 ∧ ¬ ((1200000 : Nat) < 0 + 1200000) ∧ ¬ ((0 : Nat) + 38400000 < 38400000) ∧
      (0 : Nat) + 38400000 < 38400001) ∧
    (let f (x : Stream) (o : Bool) : Die := { ing x with nwt := { enable := true, pkg := 1, sideband := false, stream := 3, inOpen := o } }
     let y := (after (.sof 3 7 8 4 2 0 false) (ing str1)).stream 3
     let whole := { y with geom := 0x00F00140, row := 240 }
     (f str1 false).nwt.enable = true ∧ (f str1 false).nwt.stream.toNat = 3 ∧ (f str1 false).ingRuns = true ∧
      (f str1 false).streamPresent 3 = true ∧ Tab.wf {} (f str1 false).ing.streams = true ∧
      ((f str1 false).stream 3).enabled = true ∧
     str1.open_ = false ∧ str1.voidQ = [] ∧ str1.width = 4 ∧ str1.height = 2 ∧ str1.fmt = 0 ∧ ((f y true).stream 3) = y ∧
      y.enabled = true ∧ y.open_ = true ∧ y.row < y.height ∧
      y.slotFree (y.row / y.stripe % y.slots) y.frameNo (y.row / y.stripe) = true ∧ y.rowPos + 4 = wireBytes y.fmt y.width ∧
     whole.open_ = true ∧ whole.enabled = true ∧ whole.width = 320 ∧ whole.height = 240 ∧ whole.height ≤ whole.row ∧
      (nwtReduce (decide (whole.fmt ≤ 2)) #[] whole.width whole.height).isSome = true ∧
     (nwtReduce (decide (y.fmt ≤ 2)) #[] y.width y.height).isNone = true) := by decide +kernel

set_option maxRecDepth 20000 in
theorem witness_RegisterMessagesAnswerAndTakeEffect :
    Prompt (on up) 3 ∧ Prompt (on up) 64 ∧ Prompt (on up) 0 ∧ up.glb.lock = false ∧ (0x14 : BitVec 24).toNat % 4 = 0 ∧
      (0x15 : BitVec 24).toNat % 4 ≠ 0 ∧ (1 : W32).getLsbD 0 = true ∧ ({ up.glb with lock := true }).lock = true ∧
    (0x10 : BitVec 24).toNat < 0x18 ∧ (0x10 : BitVec 24).toNat % 4 = 0 := by decide +kernel

set_option maxRecDepth 20000 in
theorem witness_MemoryMessagesStayInTheGrant :
    let d := with1 granted1
  Prompt (on d) 1 ∧ d.memPhys 1 0x40 4 = some 0x10000040 ∧ d.scrubbing 0x10000040 4 = false ∧
      d.barred [(0x10000040, 4)] [] = false ∧ d.barred [] [(0x10000040, 4)] = false ∧ d.memPhys 1 0x4000000 4 = none ∧
      d.memPhys 1 0xFE 4 = none ∧ MemoryForm (on d) := by decide +kernel

/-- Every pending deadline of another loop of the port lies after now + F. -/
def wireClear (d : Die) (p : Nat) (own : Option Nat) : Bool := (List.range 8).all fun i =>
  !decide ((d.loop i).enable = true ∧ (d.loop i).msg = false ∧ (d.loop i).port.toNat = p ∧ own ≠ some i) ||
    decide (d.baseNow (d.loop i).ptp + frameSlotNs (d.fport p).rate.toNat < d.pendingDue (d.loop i))

set_option maxRecDepth 20000 in
theorem witness_TransmitOrderOfFrames :
    let f : TxFrame := { loop := 2, type := 0xC3, payload := [] }
  let port (gs cs : List TxFrame) (hb n : Nat) : Die := { fl { pt1 with guards := gs, cmds := cs, hbDue := hb, hbNext := some 5 } { lp1 with haveSens := true, inPeriod := true, k := 1 } with time := { up.time with timebase := BitVec.ofNat 64 n } }
  let g := port [f] [f] 1 1001
  let c := port [] [f] 1 1001
  let h := port [] [] 1 1001
  let e : Die := { c with fld := { c.fld with loops := c.fld.loops ++ [(3, { lp1 with haveSens := true, inPeriod := true, k := 1, chan := 1 })] } }
  let msg (gs cs : List TxFrame) : Die := { up with fld := { msgGuards := gs, msgCmds := cs, msgCredits := 2 } }
  (1 : Fin 5).val < 4 ∧ g.fldRuns = true ∧ (g.fport 1).enable = true ∧ (g.fport 1).wireFree ≤ g.fldNow ∧
      (g.fport 1).guards = f :: [] ∧ (c.fport 1).guards = [] ∧ (c.fport 1).cmds = f :: [] ∧ (h.fport 1).cmds = [] ∧
      0 < (h.fport 1).hbDue ∧
    wireClear c 1 (some 2) = true ∧
    wireClear e 1 (some 2) = false ∧
    (let free : Die := { h with fld := { h.fld with loops := [] } }
     (free.fport 1).guards = [] ∧ (free.fport 1).cmds = [] ∧ 0 < (free.fport 1).hbDue ∧
       wireClear free 1 none = true) ∧
    (msg [f] [f]).fldRuns = true ∧ (msg [f] [f]).mainline = true ∧ (msg [f] [f]).fld.msgGuards = f :: [f].tail ∧
      (msg [] [f]).fld.msgGuards = [] ∧ (msg [] [f]).fld.msgCmds = f :: [] ∧ 0 < (msg [] [f]).fld.msgCredits + 0 ∧
      ({ msgCredits := 0 } : Fld).msgCredits = 0 ∧
    (h.fport 1).hbNext = some 5 := by decide +kernel

set_option maxRecDepth 20000 in
theorem witness_FabricRequestsOfThreads :
    (let g := fabReq 0xC8010000 0x33; let x := g.thread 33; let q := g.nextRequest x
     g.xfrRuns = true ∧ x.state = .running ∧ x.inStep = true ∧ x.out = [] ∧ g.clusterTurn 33 = true ∧ g.mayFill q = false ∧
      q.dstSpace = 4 ∧ g.reqScrubbed q = false ∧ g.originRoute x.slot q.fch = .inr (6, 1) ∧
     (g.tport 1).state ≠ .asleep ∧ g.takesOwn 1 (g.xfr.toPort 1) = true ∧ q.srcOk = true ∧ g.st.xkind x.pc = 1 ∧
      Tab.wf {} g.xfr.threads = true ∧
     (let a := g.updTport 1 fun y => { y with state := .asleep }; (a.tport 1).state = .asleep ∧
      a.originRoute x.slot q.fch = .inr (6, 1)) ∧
     (let a := g.updTport 1 fun y => { y with credits := 0 }; (a.tport 1).state ≠ .asleep ∧
      a.takesOwn 1 (a.xfr.toPort 1) = false ∧ a.originRoute x.slot q.fch = .inr (6, 1))) ∧
    (let g := fabReq 0xC8010001 0x33; g.originRoute 1 (g.nextRequest (g.thread 33)).fch = .inl (1, 0)) ∧
    (let g := fabSent 1; let x := g.thread 33; let q := nth ({ srcSpace := 0, srcAddr := 0, dstSpace := 0, dstAddr := 0, len := 0, srcOk := false, dstOk := false } : Req) x.out 0
     g.xfrRuns = true ∧ x.out[0]? = some q ∧ q.dstSpace = 4 ∧ q.port < 8 ∧ q.data = some [7, 7] ∧ g.barred q.reads [] = false ∧
      g.cellTurn x.slot q = true ∧ g.originStop x.slot = none ∧ g.sendChannel x.slot q.fch = some q.chan ∧
     g.takesOwn q.port 0 = true ∧ g.served q.port true = some 8 ∧ g.moduleTurn q.port = true ∧
      g.cellTurn x.slot { q with serial := 4 } = false) := by decide +kernel

set_option maxRecDepth 20000 in
theorem witness_DawnCommandsArrive :
    let blk : List Byte := List.replicate 64 1;
  (let e : Die := { fl pt1 { lp1 with dawn := true, slot := 0x3F, fifo := [(0x40, blk), (63, blk)] } with fld := { (fl pt1 { lp1 with dawn := true, slot := 0x3F, fifo := [(0x40, blk), (63, blk)] }).fld with dawn := true } };
     (e.loop 2).enable = true ∧ e.dawnServes (e.loop 2) = true ∧ (e.loop 2).fifo = (0x40, blk) :: [(63, blk)] ∧
      (e.loop 0).enable = false ∧ (e.loop 1).enable = false) ∧
    (let u : Die := fl pt1 { lp1 with slot := 0x3F, fifo := [(63, blk), (0x40, blk)] };
     (u.loop 2).enable = true ∧ (u.loop 2).fifo = (63, blk) :: [(0x40, blk)] ∧ (u.loop 2).slot.toNat = 63 ∧
      u.dawnServes (u.loop 2) = false) := by decide +kernel

set_option maxRecDepth 20000 in
theorem witness_SlotCommandsAreCheckedInOrder :
    let d := with1 free1
  Prompt (on d) 0 ∧ Prompt (on d) 1 ∧ Prompt (on d) 2 ∧ d.hostOpen = true ∧ Tab.wf {} d.ctx.slots = true ∧
      (d.slot 1).busy = .idle ∧ ((with1 { free1 with busy := .load }).slot 1).busy ≠ .idle ∧ (d.slot 1).state = .free ∧
      (d.prot 1).departing = false ∧
    (2 : Fin 64) ≠ 0 ∧ (2 : Fin 64) ≠ 1 ∧ (1 : Fin 64) ≠ 0 ∧ ((with1 loaded1).slot 1).busy = .idle ∧ loaded1.state ≠ .free ∧
      ((prot1 { departing := true }).prot 1).departing = true ∧ ((prot1 { departing := true }).slot 1).busy = .idle := by decide +kernel

set_option maxRecDepth 20000 in
theorem witness_SlotCommandsTakeEffect :
    let d := with1 free1
  let z := with1 { free1 with memSize := 0 }
  let g := with1 granted1
  let n := with1 { free1 with ws0 := 0, ws1 := 0, lb := 0 }
  Prompt (on d) 0 ∧ Prompt (on d) 1 ∧ d.hostOpen = true ∧ Tab.wf {} d.ctx.slots = true ∧ Tab.wf [] d.kvp.chains = true ∧
      (d.slot 1).busy = .idle ∧ (d.prot 1).departing = false ∧ (d.slot 1).state = .free ∧ 2 ≤ d.glb.service.toNat ∧
      d.boot.full = true ∧ d.boot.warm = false ∧
    d.fuses.lifecycle ≠ 3 ∧ z.grantRange 1 = true ∧
      (let o : Die := { d with ctx := { d.ctx with slots := [(1, free1), (2, granted1)] } }; o.grantRange 1 = false ∧
      o.grantOverlap 1 = true ∧ (o.slot 1).state = .free) ∧ d.grantRange 1 = false ∧ d.grantOverlap 1 = false ∧
      (d.slot 1).prologueCycles ≠ 0 ∧ (g.prot 1).protected_ = false ∧ (g.prot 1).init = false ∧
    ((g.slot 1).phys (g.slot 1).imageAddr (g.slot 1).imageLen.toNat).isSome = true ∧ ((with1 armed1).slot 1).state = .armed ∧
      ((with1 loaded1).slot 1).state = .loaded ∧ ((with1 loaded1).prot 1).tdi = .unlocked ∧
    n.grantRange 1 = false ∧ n.grantOverlap 1 = false ∧ (n.slot 1).prologueCycles = 0 ∧
      (n.sec.prologues.any fun p => decide (p.slot = 1)) = false ∧ n.sec.scrubs = [] ∧
    ((with1 { granted1 with imageLen := 0x10000000 }).slot 1).phys ((with1 { granted1 with imageLen := 0x10000000 }).slot 1).imageAddr 0x10000000 = none ∧
    (let l : Die := { g with sec := { prots := [(1, { protected_ := true, tdi := .locked })] } }; Prompt (on l) 1 ∧
      l.hostOpen = true ∧ (l.slot 1).state = .granted ∧ (l.prot 1).protected_ = true ∧ (l.prot 1).tdi = .locked ∧
      (l.prot 1).departing = false) ∧
    (let b : Die := { issuing 3 1 [0] {} with pwr := (with1 armed1).pwr }; b.issuing = true ∧ Prompt (on b) 1 ∧
      (b.slot 1).state = .armed) ∧ (with1 armed1).issuing = false := by decide +kernel

/-- An image of one bundle, an EXIT, with one tally. -/
def image1 : List Byte :=
  leBytes 4 0x325A5842 ++ leBytes 2 2 ++ leBytes 2 0 ++ leBytes 4 0 ++ leBytes 4 1 ++ leBytes 2 1 ++ leBytes 2 0 ++ leBytes 4 0 ++ leBytes 8 1 ++ List.replicate 32 0 ++
    leBytes 64 (bundleOf (3 * 2 ^ 12) 0 []).toNat

set_option maxRecDepth 20000 in
theorem witness_SlotWorkCompletes :
    let d := with1 { granted1 with state := .loading, busy := .load, imageLen := 256 }
  let f : Die := { with1 { granted1 with state := .loading, busy := .load, imageLen := 128 } with st := { hbm := Mem.write [] 0x10000000 image1 } }
  let u := with1 { loaded1 with busy := .unload false }
  let v := with1 { loaded1 with busy := .unload true }
  let c : Die := { v with sec := { prots := [(1, { lastConf := true })] } }
  let a : Die := { with1 { loaded1 with state := .aborted } with xfr := { threads := [(33, { slot := 1, state := .running })] } }
  Tab.wf {} d.ctx.slots = true ∧ Tab.wf [] d.kvp.chains = true ∧ (d.slot 1).busy = .load ∧
      (d.slot 1).phys (d.slot 1).imageAddr 256 = some 0x10000000 ∧ (d.prot 1).departing = false ∧ d.hbm.failed = false ∧
    d.barred [(0x10000000, 256)] [] = false ∧ (d.checkImage 1 (Mem.read d.st.hbm 0x10000000 256)).2 = none ∧
      (f.slot 1).phys (f.slot 1).imageAddr 128 = some 0x10000000 ∧ f.barred [(0x10000000, 128)] [] = false ∧
      (f.checkImage 1 (Mem.read f.st.hbm 0x10000000 128)).1 = 0 ∧
    (f.checkImage 1 (Mem.read f.st.hbm 0x10000000 128)).2.isSome = true ∧ Prompt (on (with1 loaded1)) 1 ∧
      (with1 loaded1).hostOpen = true ∧ loaded1.busy = .idle ∧ loaded1.runCtrl.getLsbD 0 = false ∧ loaded1.state = .loaded ∧
      ((with1 loaded1).prot 1).protected_ = false ∧
    a.slotRunning 1 = true ∧ a.slotQuiet 1 = false ∧ u.slotQuiet 1 = true ∧ (u.slot 1).busy = .unload false ∧
      (v.slot 1).busy = .unload true ∧ v.slotQuiet 1 = true ∧ (v.prot 1).lastConf = false ∧
      (v.sec.scrubs.any fun c => decide (c.slot = 1) && c.release) = false ∧
    (c.slot 1).busy = .unload true ∧ c.slotQuiet 1 = true ∧ (c.prot 1).lastConf = true ∧ (c.prot 1).departing = false ∧
      loaded1.unloading = false ∧ ((with1 loaded1).prot 1).departing = false ∧
    (let k : Die := { with1 { loaded1 with runCtrl := 1 } with sec := { prots := [(1, { protected_ := true, tdi := .run })] } }
     Prompt (on k) 1 ∧ k.hostOpen = true ∧ (k.slot 1).runCtrl.getLsbD 0 = true ∧ k.variant.hasConf = true ∧
      (k.prot 1).protected_ = true ∧ (k.prot 1).tdi = .run ∧ k.sec.debugOpen = false ∧ (k.slot 1).state = .loaded ∧
      (k.slot 1).busy = .idle) ∧
    (let q : Die := with1 { loaded1 with state := .aborted }; q.slotRunning 1 = false ∧ (q.slot 1).state = .aborted ∧
      (q.prot 1).protected_ = false) ∧ ({ protected_ := true } : Prot).protected_ ≠ false ∧ (a.slot 1).state = .aborted := by decide +kernel

set_option maxRecDepth 20000 in
theorem witness_CalendarSwapsAndEnables :
    let c : Cal := { enable := true }
  Prompt (on up) 0 ∧ Prompt (on up) 1 ∧ up.hostOpen = true ∧ (1 : W32).getLsbD 0 = true ∧ c.swapPend = false ∧
      ({ count1 := 600 } : Cal).bankErr true ≠ 0 ∧ c.bankErr (!c.active) = 0 ∧ 0 < c.quantum.toNat ∧
      (0x80000000 : W32).getLsbD 31 = true ∧
    up.ctx.cal.enable = false ∧ 10000 ≤ up.ctx.cal.quantum.toNat ∧ up.ctx.cal.quantum.toNat ≤ 100000000 ∧
      up.ctx.cal.quantum.toNat % 10 = 0 ∧ up.ctx.cal.phase.toNat < up.ctx.cal.quantum.toNat ∧
      up.ctx.cal.bankErr up.ctx.cal.active = 0 ∧
    ({ quantum := 9999 } : Cal).quantum.toNat < 10000 ∧ (0xA0000000 : W32).getLsbD 29 = true ∧
      ({ count0 := 600 } : Cal).bankErr false ≠ 0 ∧ (0 : W32).getLsbD 31 = false ∧ c.enable = true ∧
    up.time.valid = false ∧ ({ enable := true, swapPend := true, swapAt := 1 } : Cal).swapDue 250000 = true ∧
      c.swapDue 250000 = false := by decide +kernel

set_option maxRecDepth 20000 in
theorem witness_CalendarEntriesStartAndEndRuns :
    let c : Cal := { enable := true, count0 := 1, bank0 := [(0, 0x01000000)], phase := 8 }
  let d : Die := { with1 { armed1 with armTick := 7 } with ctx := { (with1 { armed1 with armTick := 7 }).ctx with cal := c }, time := { up.time with timebase := 8 } }
  let e : Die := { with1 armed1 with ctx := { (with1 armed1).ctx with cal := { pending := some 1 } } }
  let f (x : Slot) : Die := { with1 x with iss := { run := some { slot := 1, phase := .drain, held := 77 } } }
  Tab.wf {} d.ctx.slots = true ∧ c.nextEntry = some (0, 0) ∧ wbits (c.entry c.active 0) 29 24 = 1 ∧
      c.start 0 + c.offset c.active 0 = 8 ∧ d.baseNow c.ptp = 8 ∧ up.baseNow c.ptp < 8 ∧ (d.slot 1).state = .armed ∧
      (d.slot 1).armTick ≠ d.boot.sinceRst + 1 ∧ c.pending = none ∧
    ((with1 loaded1).slot 1).state ≠ .armed ∧ ({ c with pending := some 2 } : Cal).pending = some 2 ∧
      ({ armed1 with armTick := 1 } : Slot).armTick = up.boot.sinceRst + 1 ∧
    e.ctx.cal.pending = some 1 ∧ (e.slot 1).seg = some seg1 ∧ e.iss.run = none ∧ e.drained = true ∧ e.glb.service = 2 ∧
      e.hbm.failed = false ∧ e.pwr.state = .active ∧ e.te0.inReset = false ∧ e.te1.inReset = false ∧ (e.slot 1).state = .armed ∧
    (theRun (f armed1)).phase = .drain ∧ (f { armed1 with runsLeft := 1 }).drained = true ∧ (f armed1).drained = true ∧
      armed1.state = .armed ∧ 1 < armed1.runsLeft.toNat ∧ ({ armed1 with runsLeft := 0 } : Slot).runsLeft = 0 ∧
      loaded1.state = .loaded ∧
    e.issueRuns = true ∧ (f armed1).tallyReadable.iss.run = (f armed1).iss.run ∧ (f armed1).tallyReadable.drained = true := by decide +kernel

set_option maxRecDepth 20000 in
theorem witness_LinksKeepSequenceAndCredits :
    let h := leBytes 1 0x14 ++ leBytes 3 0 ++ leBytes 2 9 ++ leBytes 2 0x82
  let c := h ++ leBytes 4 (crc32c h)
  let bad := cell1.set 100 9
  let k (n : Nat) : List Byte := cellOf 0 n 3 0 0 0 0 0 1 0 []
  let l := fabUp.updTport 0 fun x => { x with state := .asleep, waking := true }
  let t := fabUp.updTport 0 fun x => { x with replayBuf := [k 8, k 9, k 10] }
  let w := turn0 (fabUp.updTport 0 fun x => { x with inbuf := [(1, cell1)], ret0 := 70 })
  Tab.wf {} fabUp.fab.ports = true ∧ fabUp.portPresent 0 = true ∧ (fabUp.tport 0).state = .up ∧ cellClass c = 4 ∧
      cellKind c = 1 ∧ linkCrcGood c = true ∧ cellNak c = false ∧ linkCrcGood (c.set 4 7) = false ∧ cellKind (c.set 4 7) = 1 ∧
      cellClass (c.set 4 7) = 4 ∧
    cellClass bad = 4 ∧ cellKind bad = 0 ∧ cellCrcGood bad = false ∧
      fabUp.landHeld (cellRch bad) (cellOffset bad) (cellLen bad) = false ∧
    0 < ({ ret0 := 1 } : FabPort).ret0 ∧ (fabUp.tport 0).replayBuf = [] ∧ fabUp.moduleTurn 0 = true ∧
      (l.tport 0).state = .asleep ∧ (l.tport 0).waking = true ∧ l.pwr.state = .active ∧ (t.tport 0).replayBuf ≠ [] ∧
      t.moduleTurn 0 = true ∧ w.moduleTurn 0 = false ∧
    (t.tport 0).replayBuf = [k 8] ++ k 9 :: [k 10] ∧ cellLseq (k 9) = cellAck c ∧ (∀ j ∈ [k 8], cellLseq j ≠ cellAck c) ∧
      (∀ j ∈ (fabUp.tport 0).replayBuf, cellLseq j ≠ cellAck c) ∧
    cellClass cell1 = 4 ∧ cellCrcGood (cellOf 0 3 3 0x11 0x22 0 5 0 64 64 []) = true ∧
      cellLseq (cellOf 0 3 3 0x11 0x22 0 5 0 64 64 []) ≠ ((fabUp.tport 0).rxSeq + 1) % 4096 ∧
    fabUp.fabRuns = true ∧ t.fabRuns = true ∧ l.pwr.tripped = false ∧
      ({ fabUp with pwr := { fabUp.pwr with tripped := true } } : Die).fabRuns = false := by decide +kernel

set_option maxRecDepth 20000 in
theorem witness_DataCellsLandOrAreDiscarded :
    let d := fabUp
  let ch := d.channel 5
  let far := cellOf 0 0 3 0x11 0x22 0 5 0 64 0x100000 []
  let mid : Die := { issuing (bundleOf 0 0 [2 ^ 58, 2 ^ 58]) 1 [1] {} with fab := fabUp.fab }
  Tab.wf {} d.fab.ports = true ∧ Tab.wf {} d.fab.channels = true ∧ d.portPresent 0 = true ∧ (d.tport 0).state = .up ∧
      cellClass cell1 = 4 ∧ cellKind cell1 = 0 ∧ cellCrcGood cell1 = true ∧ cellLseq cell1 = ((d.tport 0).rxSeq + 1) % 4096 ∧
    cellNak cell1 = false ∧ d.fab.addr ≠ 0xFFFFFFFF ∧ cellDst cell1 = d.fab.addr ∧
      d.landHeld (cellRch cell1) (cellOffset cell1) (cellLen cell1) = false ∧ cellRch cell1 = 5 ∧ ch.isRecv = true ∧
      ch.slotOf = 1 ∧ d.isConf 1 = false ∧ (d.slot 1).state = .armed ∧ cellSrc cell1 = ch.peer ∧
      cellJob cell1 = (d.slot 1).jobId ∧
    cellEnc cell1 = false ∧ ch.inWindow cell1 = true ∧ Landed d ∧ ch.space ≠ 0 ∧
      d.granted 1 ch.space (ch.winBase + cellOffset cell1 : Nat) (min (cellLen cell1) 256) = true ∧
      (cellPayload cell1).length = 256 ∧
    (d.channel 6).isRecv = false ∧ cellRch (cellOf 0 0 3 0x11 0x22 0 6 0 64 64 []) = 6 ∧
      cellSrc (cellOf 0 0 3 0x11 0x23 0 5 0 64 64 []) ≠ ch.peer ∧
      cellJob (cellOf 0 0 3 0x11 0x22 9 5 0 64 64 []) ≠ (d.slot 1).jobId ∧ ch.inWindow far = false ∧ cellCrcGood far = true ∧
    mid.landHeld (cellRch cell1) (cellOffset cell1) (cellLen cell1) = true ∧ cellDst cell1 = mid.fab.addr ∧
    d.fabRuns = true ∧ mid.fabRuns = true := by decide +kernel

set_option maxRecDepth 20000 in
theorem witness_TransitCellsAreForwarded :
    let c := cellOf 0 0 3 0x33 0x22 0 5 0 64 64 []
  let d := fabUp.updTport 0 fun x => { x with inbuf := [(2, []), (1, cell1)] }
  let t := fabUp.updTport 0 fun x => { x with state := .training, nonce := some 77 }
  let m := cellOf 3 0 3 0xFFFFFFFF 0x22 0 0 0 256 0 [0, 2, 0, 1, 4]
  let g := cellOf 2 0 0 0xFFFFFFFF 0x22 0 0 0 256 0 (leBytes 4 0x22 ++ [3] ++ List.replicate 3 0 ++ leBytes 4 0 ++ leBytes 8 5 ++ leBytes 8 77 ++ leBytes 4 0)
  Tab.wf {} fabUp.fab.ports = true ∧ fabUp.portPresent 0 = true ∧ (fabUp.tport 0).state = .up ∧ cellClass c = 4 ∧
      cellCrcGood c = true ∧ cellLseq c = ((fabUp.tport 0).rxSeq + 1) % 4096 ∧ cellNak c = false ∧ cellKind c = 0 ∧
      cellDst c ≠ fabUp.fab.addr ∧
    1 < cellTtl c ∧ fabUp.egress (cellDst c) = some 1 ∧ (fabUp.tport 1).state = .up ∧ fabUp.egress 0x34 = none ∧
      d.nextForward 1 = some (0, cell1) ∧ d.nextTopo 1 = none ∧ fabUp.nextTopo 1 = none ∧ d.moduleTurn 1 = true ∧
      (d.tport 1).room false = true ∧ cellTtl (cellOf 0 0 1 0x33 0x22 0 5 0 64 64 []) ≤ 1 ∧ cellKind m = 3 ∧
      cellCrcGood m = true ∧
    bit (nth 0 (cellPayload m) 0).toNat 0 = false ∧ (nth 0 (cellPayload m) 1).toNat = 2 ∧ (nth 0 (cellPayload m) 2).toNat = 0 ∧
      (nth 0 (cellPayload m) 3).toNat = 1 ∧ (fabUp.tport 1).room true = true ∧ fabUp.moduleTurn 1 = true ∧
      t.moduleTurn 0 = true ∧ cellRch c = 5 ∧ fabUp.fab.addr ≠ 0xFFFFFFFF ∧
    (t.tport 0).state = .training ∧ cellKind g = 2 ∧ cellCrcGood g = true ∧
      (t.tport 0).nonce = some (BitVec.ofNat 64 (cellField (cellPayload g) 20 8)) ∧
    fabUp.fabRuns = true ∧ d.fabRuns = true ∧ t.fabRuns = true := by decide +kernel

set_option maxRecDepth 20000 in
theorem witness_FabricTimeoutsFailPortsAndReport :
    let d := fabUp.updTport 0 fun x => { x with replayCnt := 8 }
  let p : PeerFail := { job := 1, peer := 2, cause := 1, count := 2, time := 0, opened := 100 }
  let e : Die := { up with fab := { up.fab with peerFails := [p, { p with peer := 4, count := 1 }] } }
  Tab.wf {} d.fab.ports = true ∧ (d.tport 0).state = .up ∧ 8 ≤ (d.tport 0).replayCnt ∧ (d.tport 1).replayCnt < 8 ∧
      5 < (6 : BitVec 4).toNat ∧ e.fab.peerFails.find? (fun e => decide (e.job = 1 ∧ e.peer = 2)) = some p ∧ 1 < p.count ∧
      e.refNs < p.opened + 10000000 ∧
    (let l : Die := { e with boot := { e.boot with sinceRst := 1000010 }, time := { e.time with timebase := 10000100 } }
     l.fab.peerFails.find? (fun e => decide (e.job = 1 ∧ e.peer = 2)) = some p ∧ p.opened + 10000000 ≤ l.refNs) ∧
    (∀ e ∈ [p], ¬ (e.job = 1 ∧ e.peer = 3)) ∧ (d.waitingPorts 33).contains (5, 0) = false ∧
      (({ state := .training } : FabPort).state ≠ .up) ∧
    d.fabRuns = true := by decide +kernel

/-- A GRANT waits in no slot. -/
theorem noGrantWaits (x : Slot) (h : x.busy ≠ .grant) (d : Die) (e : d.ctx.slots = [(1, x)]) : ∀ j, (d.slot j).busy ≠ .grant := by
  intro j
  simp only [Die.slot, e, Tab.read]
  split
  · exact h
  · simp

set_option maxRecDepth 20000 in
theorem witness_InterfaceRequestsMoveTheTdi :
    let d := fwOn (with1 granted1)
  let l : Die := { with1 granted1 with sec := { prots := [(1, { tdi := .locked, init := true, key0 := 1 })], scrubs := [granted1.scrub 1 1 false false], keyGen := 1 } }
  let r := fwOn (prot1 { tdi := .run, protected_ := true })
  Tab.wf {} d.ctx.slots = true ∧ Tab.wf {} l.sec.prots = true ∧ Memory.wf (mem1 l).st.hbm = true ∧ up.firmwareAnswers = false ∧
      d.firmwareAnswers = true ∧ d.fuses.lifecycle ≠ 3 ∧ ({ rows := [(3, { commit := true })] } : Fuses).lifecycle = 3 ∧
      d.lockAccepted 1 = true ∧ (fwOn (with1 free1)).lockAccepted 1 = false ∧ (l.prot 1).init = true ∧
    (l.sec.prologues.any fun p => decide (p.slot = 1 ∧ p.lock = true)) = false ∧ l.ctx.held = [] ∧
      l.sec.scrubs.filter (fun c => decide (c.slot = 1 ∧ c.initKey ≠ 0)) = [granted1.scrub 1 1 false false] ∧
      (l.ctx.slots.all fun x => decide (x.2.busy ≠ .grant)) = true ∧
    ((prot1 { tdi := .locked }).prot 1).tdi = .locked ∧ ((prot1 { tdi := .locked }).prot 1).init = false ∧
      r.variant.hasConf = true ∧ (r.prot 1).protected_ = true ∧ (r.prot 1).departing = false ∧ (r.prot 1).tdi = .run ∧
      r.firmwareAnswers = true ∧
    ((prot1 { tdi := .error }).prot 1).tdi = .error ∧ ((prot1 { departing := true }).prot 1).departing = true ∧
      (r.slot 1).isGranted = true ∧ (1 : Fin 64) ≠ 0 ∧ r.abortable 1 = false ∧ ((with1 armed1).slot 1).state = .armed ∧
      (free1).isGranted = false ∧
    Path.mgmtPort ≠ .i3c ∧ Path.host ≠ .i3c ∧ d.firmwareAnswers = true := by decide +kernel

set_option maxRecDepth 20000 in
theorem witness_ScrubsAndProloguesWriteZeros :
    let c := granted1.scrub 1 0 true false
  let d : Die := { mem1 (with1 granted1) with sec := { prots := [(1, { tdi := .unlocked, departing := true, stopWaits := true })], scrubs := [c] } }
  let f : Die := { mem1 (with1 { granted1 with busy := .unload true }) with sec := { scrubs := [granted1.scrub 1 0 false true] } }
  let p : Prologue := { slot := 1, left := 5, lock := false }
  let e : Die := { with1 granted1 with sec := { prologues := [p] }, st := { ws0 := [(3, 1), (0x10000, 2)] } }
  Tab.wf {} d.ctx.slots = true ∧ Tab.wf {} d.sec.prots = true ∧ Memory.wf d.st.hbm = true ∧
      d.sec.scrubs.findIdx? (fun c => decide (c.slot = 1 ∧ c.initKey = 0)) = some 0 ∧ d.sec.scrubs[0]? = some c ∧
      c.depart = true ∧ d.ctx.held = [] ∧ (d.ctx.slots.all fun x => decide (x.2.busy ≠ .grant)) = true ∧
    f.sec.scrubs.findIdx? (fun c => decide (c.slot = 1 ∧ c.initKey = 0)) = some 0 ∧
      (granted1.scrub 1 0 false true).depart = false ∧ (granted1.scrub 1 0 false true).release = true ∧
      (f.slot 1).busy = .unload true ∧ (granted1.scrub 1 0 false false).release = false ∧
    Memory.wf e.st.ws0 = true ∧ Memory.wf e.st.ws1 = true ∧ Memory.wf e.st.lb = true ∧ e.sec.prologues = [p] ∧
      e.iss.run = none ∧ e.drained = true ∧ e.ctx.cal.pending = none ∧ e.issueRuns = true ∧ p.left ≤ 1024 ∧ p.place = none ∧
      e.placeBundles 1 = some 0 ∧ 1024 < ({ p with left := 1025 } : Prologue).left ∧
    (let full : Die := { e with ctx := { e.ctx with slots := [(1, { granted1 with seg := some { seg1 with base := 0, bundles := 65536 } })] } }
     full.placeBundles 1 = none ∧ full.sec.prologues = [p]) ∧
    (let g : Die := { e with ctx := { e.ctx with slots := [(1, { granted1 with lb := 0x00080001 })] } }
     let x := g.slot 1
     8192 * (x.prologueCycles - 5) < (x.range 3).2 ∧ g.barred [(g.zeroArea, 0x10000)] [] = false ∧ g.placeBundles 1 ≠ none ∧
      g.sec.prologues = [p] ∧ g.issueRuns = true ∧ g.drained = true ∧
     ({ g with hbm := { g.hbm with failed := true, deadChans := List.range 128 } } : Die).onDead [(g.zeroArea, 0x10000)] = true) := by decide +kernel

set_option maxRecDepth 20000 in
theorem witness_RotationSweepsEveryBlock :
    let q : Prot := { tdi := .run, protected_ := true, key0 := 1, key1 := 2 }
  let w : Prot := { q with sweeping := true, pointer := 4095 }
  let d := prot1 q
  let s := prot1 { w with pointer := 4094 }
  Tab.wf {} d.sec.prots = true ∧ Prompt (on d) 1 ∧ Prompt (on d) 0 ∧ (0 : Fin 64) ≠ 1 ∧ d.variant.hasConf = true ∧
      d.hostOpen = true ∧ q.pending = false ∧ q.tdi = .run ∧ q.departing = false ∧ q.sweeping = false ∧
      d.sec.entropyOk = true ∧ ({ d.sec with entropyOk := false } : Sec).entropyOk = false ∧
    (prot1 w).barred [((prot1 w).sweepAddr 1, 256)] [] = false ∧ w.swept < wbits ((prot1 w).slot 1).memSize 17 0 ∧
      ((prot1 w).slot 1).regionBlocks w.swept = 4096 ∧ w.sweeping = true ∧ w.sweepStuck = false ∧
      w.swept < ((prot1 w).slot 1).regions ∧ w.pointer = 4095 ∧
      ({ w with swept := ((prot1 w).slot 1).regions } : Prot).swept = ((prot1 w).slot 1).regions ∧
    s.barred [(s.sweepAddr 1, 256)] [] = false ∧ (s.prot 1).pointer + 1 < 4096 ∧
      ({ uncorr := true, store := 10, off := 0 } : EccWord).uncorr = true ∧
    (prot1 w).iss.run = none := by decide +kernel

set_option maxRecDepth 20000 in
theorem witness_NafinPackagesOpenInOrder :
    let q : Prot := { nfpBusy := true, pending := true, len := 16, dstLo := 4096 }
  let d := prot1 q
  let x := d.slot 1
  let pkg (flag : Nat) : Die := { prot1 { q with len := 6675, dstLo := 0x100000, signer := [(0, 5)] } with
    st := { hbm := Mem.write [] 0x10000000 (leBytes 4 0x3150464E ++ leBytes 2 1 ++ leBytes 2 flag ++ leBytes 2 1 ++ leBytes 2 0 ++ leBytes 4 1 ++ leBytes 8 16) } }
  let k := pkg 0
  let n := nfpOf (Mem.read k.st.hbm 0x10000000 6675)
  let c := nfpOf (Mem.read (pkg 1).st.hbm 0x10000000 6675)
  let scrubAt (lo : Nat) : Die := { k with sec := { k.sec with scrubs := [{ slot := 2, memBase := lo, memSize := 1, pageBase := 0, pageCnt := 0, initKey := 0, depart := false }] } }
  Tab.wf {} d.sec.prots = true ∧ Memory.wf k.st.hbm = true ∧ Prompt (on d) 1 ∧ d.variant.hasConf = true ∧ d.hostOpen = true ∧
      (with1 granted1).hostOpen = true ∧ ((with1 granted1).prot 1).pending = false ∧ ((with1 granted1).prot 1).tdi ≠ .locked ∧
      ((prot1 { tdi := .locked }).prot 1).tdi = .locked ∧
    q.nfpBusy = true ∧ q.departing = false ∧ q.tdi ≠ .locked ∧ d.hbm.failed = false ∧
      ((with1 granted1).prot 1).departing = false ∧ d.scrubbing 0x10000000 16 = false ∧
      d.barred [(0x10000000, 16)] [] = false ∧ x.phys q.src q.len.toNat = some 0x10000000 ∧
      q.len.toNat ≠ (nfpOf (Mem.read d.st.hbm 0x10000000 16)).total ∧ x.phys 0x8000000 16 = none ∧
    (k.prot 1).nfpBusy = true ∧ (k.slot 1).phys (k.prot 1).src (k.prot 1).len.toNat = some 0x10000000 ∧
      k.scrubbing 0x10000000 6675 = false ∧ k.barred [(0x10000000, 6675)] [] = false ∧
      (k.slot 1).phys (k.prot 1).dst n.plain = some 0x10100000 ∧
      rangesMeet (k.prot 1).src 6675 (k.prot 1).dst n.plain = false ∧ (k.prot 1).len.toNat = n.total ∧
      k.scrubbing 0x10100000 n.plain = false ∧
    n.formatBad = false ∧ bit (le n.bytes 6 2) 0 = false ∧ sliceOf n.bytes 0x28 48 ≠ (k.prot 1).signerBytes ∧
      (nfpOf []).formatBad = true ∧ c.formatBad = false ∧ bit (le c.bytes 6 2) 0 = true ∧ (k.prot 1).protected_ = false ∧
      c.total = 6675 ∧
    (scrubAt 256).scrubbing 0x10000000 6675 = true ∧ (scrubAt 257).scrubbing 0x10000000 6675 = false ∧
      (scrubAt 257).scrubbing 0x10100000 n.plain = true ∧
      ({ k with hbm := { k.hbm with failed := true, deadChans := List.range 128 } } : Die).onDead [(0x10000000, 6675)] = true ∧
    k.mgmt.keys = none ∧ sliceOf n.bytes 0x28 48 = ({} : Prot).signerBytes ∧ n.members = 1 ∧ n.chunks = 1 ∧
      k.barred [] [(0x10100000, n.plain)] = false := by decide +kernel

set_option maxRecDepth 20000 in
theorem witness_ManagementBusesAndPinsAnswer :
    fw.answersOn .i3c = true ∧ Path.i3c ≠ .host ∧ up.answersOn .i3c = false ∧ fw.firmwareAnswers = true ∧
      up.fuses.burning = none ∧ up.boot.pwrgood = true ∧ up.boot.resetN = true ∧ ({} : Boot).resetN = false ∧
    mg.mgmt.waiting = [] ∧ ({ mg.fuses with burning := some (1, 2, 3) } : Fuses).burning = some (1, 2, 3) ∧
      ({ mg.mgmt with cmdSid := some 7 } : Mgmt).cmdSid = some 7 ∧
      ({ rows := [(1, { commit := true })] } : Fuses).lifecycle = 1 ∧ up.fuses.lifecycle = 2 ∧ up.glb.service ≠ 3 ∧
      up.sec.debugOpen = false ∧
    ({ up.sec with debugOpen := true } : Sec).debugOpen = true ∧ (0x10 : Nat) < 0x10000000 ∧
      (0x200000 : BitVec 24).toNat = 0x200000 ∧ ({ up.boot with pwrgood := false } : Boot).pwrgood = false ∧
      (up.mgmt.lfsr).getLsbD 0 = (up.mgmt.lfsr).getLsbD 0 ∧
    Landed up ∧ up.awake = true ∧ up.pwr.tripped = false ∧ ¬ (0x700000 : BitVec 24).toNat < 0x700000 ∧
      (0x600001 : BitVec 24).toNat % 4 ≠ 0 ∧ (0x6FFFFC : BitVec 24).toNat % 4 = 0 ∧ up.hasTe1 = true ∧
      up.pwr.heldReset = false ∧ ({ up.pwr with heldReset := true } : Pwr).heldReset = true := by decide +kernel

set_option maxRecDepth 20000 in
theorem witness_SpdmRequestsFollowTheirOrder :
    let d : Die := { fwv with mgmt := { fwv.mgmt with sessions := [{ id := 7, path := .mgmtPort }, { id := 8, path := .mgmtPort, open_ := true }] } }
  let many : Die := { fwv with mgmt := { fwv.mgmt with sessions := List.replicate 16 { id := 7, path := .mgmtPort } } }
  let i3 : Die := { fw with mgmt := { vca := [(1, 3)] } }
  let dec : Die := { fwv with fuses := { rows := [(3, { commit := true })] } }
  let lg : Die := { fwv with mgmt := { fwv.mgmt with xferSize := [(0, 20)] } }
  fw.answersOn .mgmtPort = true ∧ fw.fuses.lifecycle ≠ 3 ∧ fw.vcaOf .mgmtPort < 3 ∧ fwv.answersOn .mgmtPort = true ∧
      3 ≤ fwv.vcaOf .mgmtPort ∧ Path.mgmtPort ≠ .i3c ∧
      (d.mgmt.sessions.filter fun x => decide (x.path = .mgmtPort)).length < sessionLimit .mgmtPort ∧
    sessionLimit .mgmtPort ≤ (many.mgmt.sessions.filter fun x => decide (x.path = .mgmtPort)).length ∧
      dec.answersOn .mgmtPort = true ∧ dec.fuses.lifecycle = 3 ∧ (1 : Byte) ≠ 0 ∧
      ({ d.sec with entropyOk := false } : Sec).entropyOk = false ∧
    (d.session .mgmtPort 7).map (fun x => x.open_) = some false ∧ (d.session .mgmtPort 8).map (fun x => x.open_) = some true ∧
      d.session .mgmtPort 9 = none ∧ d.time.valid = false ∧ d.mgmt.keys = none ∧ d.sec.entropyOk = true ∧
      Tab.read 0 d.mgmt.xferSize 0 = 0 ∧
    Tab.read 0 lg.mgmt.xferSize 0 = 20 ∧ 20 < (List.replicate 17 (0 : Byte)).length + 4 ∧
      (List.replicate 16 (0 : Byte)).length + 4 ≤ 20 ∧ i3.answersOn .i3c = true ∧ 3 ≤ i3.vcaOf .i3c ∧
      1 ≤ [(5 : BitVec 384)].length := by decide +kernel

set_option maxRecDepth 20000 in
theorem witness_ManagementCommandsRunOneAtATime :
    let np : Die := { mg with mgmt := { mg.mgmt with presence := false } }
  let l1 : Die := { mg with fuses := { rows := (1, { data := 1, commit := true }) :: digestRows 8 5 } }
  let l0 : Die := { mg with fuses := { rows := digestRows 8 5 } }
  let c : BoardConf := { seq := 1, sigOk := true, root := 5, safe := [], loops := [], ports := [], weights := [], nwtCtrl := 0, mgmtAddr := 0, poolPages := 0, exclOnFail := false, exclGroups := 0, digest := 0 }
  let p1 : Die := { mg with sec := { prots := [(1, { protected_ := true })] } }
  let jk : Die := { mg with fab := { mg.fab with jobs := [(3, { key1 := some 9 })] } }
  let recv : List W32 := [0xA0010000, 0x22, 0, 0x20000300, 0x100, 0x10, 1, 0]
  let ch : Die := { mg with ctx := (with1 armed1).ctx }
  mg.firmwareAnswers = true ∧ mg.fuses.lifecycle = 2 ∧ Tab.wf {} mg.fab.jobs = true ∧ Tab.wf {} mg.sec.prots = true ∧
      Tab.wf {} mg.fuses.rows = true ∧ mg.mgmt.cmdSid = none ∧ mg.mgmtAllowed 7 (.setFabAddr 1) = true ∧
      mg.mgmtAllowed 8 (.setFabAddr 1) = false ∧ ({ mg.mgmt with cmdSid := some 3 } : Mgmt).cmdSid.isSome = true ∧
    mg.mgmtAllowed 7 .eraseKeys = true ∧ needsPresence .eraseKeys = true ∧ needsPresence (.setFabAddr 1) = false ∧
      mg.mgmt.presence = true ∧ 32 ≤ mg.mgmt.sealRun ∧ mg.mgmt.sealBroken = false ∧ np.mgmt.presence = false ∧
      np.mgmtAllowed 7 .eraseKeys = true ∧ l1.fuses.lifecycle = 1 ∧ isBurnFuse .eraseKeys = false ∧
    l1.mgmtAllowed 7 .eraseKeys = true ∧ l0.fuses.lifecycle = 0 ∧ Tab.wf {} l1.fuses.rows = true ∧ (4095 : Nat) < 4096 ∧
      wbits (0x8000200E : W32) 13 8 ≤ 32 ∧ wbits (0x8000200E : W32) 3 0 = 14 ∧
      mg.mgmtAllowed 7 (.setRoute 4095 5 0x8000200E) = true ∧ mg.mgmtAllowed 7 (.setChannel 4095 []) = true ∧
      (nth 0 recv 0).getLsbD 31 = true ∧
    (let x : Channel := { w := channelWords recv }; (ch.slot x.slotOf).state ≠ .free ∧ x.isRecv = true ∧ x.isSend = false ∧
      ch.windowGranted x = true) ∧ ch.mgmtAllowed 7 (.setChannel 5 recv) = true ∧
    mg.mgmtAllowed 7 (.setJobKey 3 true (.install 9)) = true ∧ (mg.fab.jobs.filter fun x => x.2.held).length < 256 ∧
      (jk.job 3).key1.isSome = true ∧ (mg.job 3).key1.isSome = false ∧ mg.mgmtAllowed 7 (.setPort 2 true 100) = true ∧
    mg.portPresent 2 = true ∧ (mg.tport 2).enable = false ∧ p1.mgmtAllowed 7 (.rotateSlot 1) = true ∧
      (p1.prot 1).protected_ = true ∧ (p1.prot 1).sweeping = false ∧ mg.sec.entropyOk = true ∧ (mg.mgNwt [] true true).2 = 4 ∧
      mg.mgmtAllowed 7 (.setNwtPackage [] true true) = true ∧
    c.sigOk = true ∧ c.root = mg.fuses.root ∧ ({ c with root := 6 } : BoardConf).root ≠ mg.fuses.root ∧
      mg.mgmtAllowed 7 (.setBoardConfig c true) = true ∧ mg.boot.conf = none ∧ mg.mgmtAllowed 7 .readFaults = true ∧
      mg.mgmtAllowed 7 .unlockDebug = true ∧ mg.mgmtAllowed 7 (.rollbackFirmware true) = true ∧
    (let sw (at_ : Option Nat) : Die := { mg with sec := { prots := [(1, { protected_ := true, sweeping := true, rotateAt := at_ })] } }
     (sw none).mgmtAllowed 7 (.rotateSlot 1) = true ∧ ((sw none).prot 1).protected_ = true ∧
      ((sw none).prot 1).sweeping = true ∧ ((sw none).prot 1).rotateAt ≠ some mg.boot.sinceRst ∧
      ((sw (some mg.boot.sinceRst)).prot 1).rotateAt = some mg.boot.sinceRst ∧
      (sw (some 0)).mgmtAllowed 7 (.rotateSlot 1) = true) := by decide +kernel

set_option maxRecDepth 20000 in
theorem witness_TalliesHoldAtTheTop :
    let d : Die := { up with iss := { up.iss with tallies := [(5, { value := 0xFFFFFE })] } }
  (5 : Nat) < 256 ∧ Tab.wf {} d.iss.tallies = true ∧ 0xFFFFFF < (d.tally 5).value.toNat + 2 ∧
      (d.tally 5).value.toNat + 1 ≤ 0xFFFFFF := by decide +kernel

set_option maxRecDepth 20000 in
theorem witness_LevelsVotesSleepAndWake :
    let e : Die := { up with time := { up.time with aon := 0x400 }, pwr := { up.pwr with maxState := 2, okSince := some 0 } }
  let x : Die := { up with pwr := { up.pwr with state := .dusk, hostWake := true } }
  let y : Die := { x with time := { x.time with aon := 100000 }, pwr := { x.pwr with exiting := true } }
  let m : Die := { with1 granted1 with time := { up.time with aon := 100000 }, pwr := { up.pwr with state := .dusk, exiting := true, held := [.memWr 0 0x40 [9] .ok] } }
  let w : Die := { y with pwr := { y.pwr with heldWarm := true } }
  let entry (t : Sleep) (c : Bool) (n : Nat) : Die := { up with time := { up.time with aon := BitVec.ofNat 64 n }, pwr := { up.pwr with entry := some (t, c) } }
  let p (q : Pwr) : Die := { up with pwr := q }
  Prompt (on up) 3 ∧ Prompt (on up) 0 ∧ up.hostOpen = true ∧ up.boot.full = true ∧ up.boot.resetN = true ∧
      up.pwr.tripped = false ∧ up.pwr.changing = none ∧ (∃ t ∈ ([30, 111] : List Int), ∀ u ∈ ([30, 111] : List Int), u ≤ t) ∧
      (111 : Int) ∈ ([30, 111] : List Int) ∧ (110 : Int) ≤ 111 ∧
    (p { req := 3, changing := some 3, chgTicks := 100 }).pwr.changing = some 3 ∧
      (3 : BitVec 3).toNat = max (min 5 (3 : BitVec 3).toNat) 0 ∧ ({ hotSince := some 7 } : Pwr).hotSince = some 7 ∧
      ({ coolSince := some 9 } : Pwr).coolSince = some 9 ∧ ({ floor := 5 } : Pwr).floor.toNat = 5 ∧
    e.entryDueNow = true ∧ up.entryDueNow = false ∧ (up.stream 3).enabled = false ∧ Memory.wf up.st.ws0 = true ∧
      up.nwtSideband = up.nwt.sideband ∧ up.ing.streams = [] ∧
      (entry .dusk false 12).pwr.seqStart + 12 ≤ (entry .dusk false 12).time.aon.toNat ∧
      (entry .dusk true 16).pwr.entry = some (.dusk, true) ∧
    (entry .midnight true 192).pwr.seqStart + 192 ≤ (entry .midnight true 192).time.aon.toNat ∧
      (entry .night true 128).pwr.seqDone < 16 ∧ 160 ≤ ({ seqDone := 160 } : Pwr).seqDone ∧
      (entry .night true 128).pwr.entry.isSome = true ∧
    x.exitDue = true ∧ x.pwr.state ≠ .active ∧ up.pwr.wakeN = true ∧ up.pwr.inWindow = false ∧
      ({ up.pwr with pinEdge := true } : Pwr).pinEdge = true ∧ up.pwr.pinEdge = false ∧ up.time.aon = up.pwr.timer ∧
    y.pwr.exiting = true ∧ y.pwr.entry = none ∧ y.pwr.tripped = false ∧
      y.pwr.seqStart + exitCycles y.pwr.state ≤ y.time.aon.toNat ∧ y.pwr.held = [] ∧ y.pwr.heldReset = false ∧
      y.pwr.heldWarm = false ∧ up.pwr.exiting = false ∧
    m.pwr.exiting = true ∧ m.pwr.seqStart + exitCycles m.pwr.state ≤ m.time.aon.toNat ∧ m.ctx.held = [] ∧
      w.pwr.heldWarm = true ∧ w.boot.warm = false ∧ w.boot.full = true ∧
    (p { entry := some (.night, false) }).pwr.entry = some (.night, false) ∧ (up.pwr.tripped = false) := by decide +kernel

set_option maxRecDepth 20000 in
theorem witness_ResetsAndServiceStages :
    let r := State.reset.die
  let c : BoardConf := { seq := 2, sigOk := true, root := 5, safe := [], loops := [], ports := [], weights := [7], nwtCtrl := 0, mgmtAddr := 0, poolPages := 0, exclOnFail := false, exclGroups := 0, digest := 6 }
  let e : Die := { boot := { resetN := true, fwRuns := true }, pwr := { cur := 4, vid := some 4, vcoreEn := some true } }
  let o (f : Flash) : Die := { e with fuses := { rows := rows5 }, boot := { e.boot with flash := f } }
  let f := after (.dawnServiceStart .good .good) e
  let f2 := after (.dawnServiceStart .good .good) (o { conf0 := some c })
  let g : Die := { f with boot := { f.boot with mainRun := true } }
  let w := after .warmResetMsg { up with boot := { up.boot with clean := true } }
  Tab.wf {} r.ctx.slots = true ∧ r.boot.pwrgood = true ∧ r.boot.resetN = false ∧ r.pwr.heldReset = false ∧
      (0 : BitVec 3).getLsbD 0 = false ∧ r.boot.flash.ctl.rollback = false ∧
    r.boot.flash.ctl.state r.boot.flash.ctl.preferred = fsConfirmed ∧
      (r.boot.flash.slot r.boot.flash.ctl.preferred).isSome = true ∧
      ({ r.boot with pwrgood := false } : Boot).pwrgood = false ∧ e.boot.fwRuns = true ∧ e.glb.service = 0 ∧
      e.boot.full = false ∧ e.fuses.rootRow = 0 ∧ e.boot.flash.nwtPkg = none ∧
    (o {}).fuses.rootRow ≠ 0 ∧ (o { conf0 := some c }).boot.flash.confs = c :: [] ∧ (o {}).confVerdict c = .good ∧
      (o { conf0 := some { c with seq := 3, root := 6 }, conf1 := some c }).boot.flash.confs = [{ c with seq := 3, root := 6 }, c] ∧ (o {}).confVerdict { c with seq := 3, root := 6 } ≠ .good ∧
    f2.glb.service = 1 ∧ f2.boot.conf = some c ∧ f2.boot.weightsRead = false ∧ c.weights ≠ [] ∧
      (after (.dawnWeightsChecked .good) f2).boot.weightsRead = true ∧
    f.glb.service = 1 ∧ f.boot.mainRun = false ∧ f.boot.conf = none ∧ f.mainOk = false ∧ g.boot.mainRun = true ∧
      g.hbm.rate = 0 ∧ g.variant = .crz2240 ∧ g.hbm.populated = 0xF ∧ g.hbm.capacity = 36 ∧ g.boot.conf = none ∧
      (after (.hbmTrainingDone 15 0) g).hbm.rate ≠ 0 ∧
    up.boot.warm = false ∧ up.boot.full = true ∧ up.pwr.tripped = false ∧ up.pwr.state = .active ∧ up.pwr.entry = none ∧
      Prompt (on up) 0 ∧ (0x5E5E0004 : W32).toNat / 0x10000 = 0x5E5E ∧ (0x5E5E0004 : W32).getLsbD 2 = true ∧
      w.boot.warm = true ∧ w.pwr.tripped = false ∧ w.boot.warmFail = false ∧ w.boot.clean = true ∧
    ({ w.pwr with tripped := true } : Pwr).tripped = true ∧ (0x5E5E0001 : W32).getLsbD 2 = false ∧
      (0x5E5E0001 : W32).getLsbD 0 = true ∧ (0x5E5E0001 : W32).getLsbD 1 = false ∧ ((with1 armed1).slot 1).state = .armed ∧
      ((with1 armed1).updSlot 1 fun x => { x with seg := some { seg1 with usesE0 := true } }).slotUses 1 0 = true ∧
      (with1 armed1).slotUses 1 0 = false ∧
    ({ up.boot with unconfirmed := true } : Boot).unconfirmed = true ∧ up.boot.flash.ctl.seq ≠ 0xFFFFFFFF ∧ up.glb.service = 2 ∧
    w.hbm.warmAgain = false ∧ ({ w.hbm with warmAgain := true } : Hbm).warmAgain = true := by decide +kernel

set_option maxRecDepth 20000 in
theorem witness_RecordsAndReadsFollowTheirRules :
    let d := ({ up with err := { irqEn := 0 } } : Die).record 22 0x0E none 1 2 3 4
  up.recPresent 22 = true ∧ (0x0E : Nat) < 32 ∧ Tab.wf {} d.err.recs = true ∧ (d.errRec 22).valid = true ∧
      (up.errRec 22).valid = false ∧ Prompt (on d) 0 ∧ Prompt (on d) 2 ∧ d.hostOpen = true ∧ 22 ∈ d.err.toFlash ∧
      3 ∉ d.err.toFlash ∧ (∀ x ∈ d.err.cycle, x.1 ≠ 22) ∧
    ({ d.err with cycle := [(22, d.errRec 22)] } : Err).cycle = [(22, d.errRec 22)] ∧
      ({ d.err with hold := [(22, [1])] } : Err).hold = [(22, [1])] ∧
    up.counter64 0 0x800018 = some 0 ∧ up.reaches 0 0x800018 = true ∧ up.readOpen 0x800018 = true ∧
      (0x800018 : BitVec 24).toNat % 4 = 0 ∧ (0x800018 : BitVec 24) ≠ 0x20 ∧ up.counter64 0 0x80001C = none ∧
      up.reaches 0 0x80001C = true ∧ up.readOpen 0x80001C = true ∧ up.loopPresent 2 = true ∧
    d.issuing = false ∧ (d.cycleEvents 22).length + 1 < min 0xFFFF ((d.errRec 22).count.toNat + 1) ∧
    (let c : Die := { issuing 3 1 [0] {} with err := { d.err with cycle := [(22, d.errRec 22)] } }
     c.issuing = true ∧ c.err.cycle = [(22, c.errRec 22)] ∧ (c.errRec 22).valid = true ∧ (c.errRec 22).count = 1 ∧
      (c.capture 3 (some 9) 0 0 0 0).slot.toNat < (c.errRec 22).slot.toNat ∧
      (c.capture 3 none 9 0 0 0).slot = (c.errRec 22).slot ∧ ¬ ((c.capture 3 none 9 0 0 0).place 22 < (c.errRec 22).place 22) ∧
      Prompt (on c) 0 ∧ c.hostOpen = true) ∧
    (up.counter64 0 0x600010).isSome = true ∧ ((up.settled 0x600010).counter64 0 0x600010) = some 0 ∧
      ((up.settled 0x600014).counter64 0 0x600010).isSome = true ∧ (up.settled 0x600014).counter64 0 0x600014 = none := by decide +kernel

set_option maxRecDepth 20000 in
theorem witness_HeldWriteTakesEffect :
    let m : Die := { with1 granted1 with ctx := { slots := [(0, granted1)], memLimit := 100000 }, pwr := { up.pwr with state := .dusk, exiting := true, held := [.memWr 0 0x40 [9] .ok] } }
  m.memPhys 0 0x40 1 = some 0x10000040 ∧ m.scrubbing 0x10000040 1 = false ∧ m.barred [] [(0x10000040, 1)] = false := by decide +kernel

set_option maxRecDepth 20000 in
theorem witness_ManagementCommandsBurnAndStage :
    let rolled : Die := { mg with boot := { mg.boot with flash := { mg.boot.flash with ctl0 := BootCtl.bytes { seq := 7, preferred := true, stateA := 2, stateB := 2, tries := 0, rollback := false } } } }
  let b : Die := { mg with fuses := { rows := rows5 ++ [(16, { data := 9 })], burning := some (1, 2, 9) }, mgmt := { mg.mgmt with cmdSid := some 5 } }
  mg.stageBarred = false ∧ rolled.stageBarred = true ∧ mg.fuses.rootRow ≠ 0 ∧ mg.fuses.rootRow < 2 ∧
      mg.mgmtAllowed 7 (.burnFuse false 2 9) = true ∧ mg.boot.flash.ctl.seq ≠ 0xFFFFFFFF ∧ b.fuses.burning = some (1, 2, 9) ∧
      b.mgmt.cmdSid = some 5 ∧ b.mgmt.waiting = [] ∧ Tab.wf {} b.fuses.rows = true ∧
    (∀ i, i < 6 → (Tab.read {} b.fuses.rows (8 * 2 + i)).data = (9 : BitVec 384).extractLsb' (64 * i) 64) ∧
      (Tab.read {} mg.fuses.rows 16).data ≠ (9 : BitVec 384).extractLsb' 0 64 ∧ mg.firmwareAnswers = true := by decide +kernel

/-- With no weight and no bias, a gesture's logit is 0. -/
theorem gesture_zero (p : Array Byte) (h : ∀ a, a < 15920 → p.getD a 0 = 0) (v : Array Nat) (o : Nat) (ho : o < 9) :
    nwtHead p v nwtGestW nwtGestB o = 0 := by
  have z : ∀ n a, a + n ≤ 15920 → pU p a n = 0 := by
    intro n a ha
    unfold pU
    have : ∀ l : List Nat, (∀ i ∈ l, i < n) → ∀ x, l.foldl (fun (v : Nat) i => v + (p.getD (a + i) 0).toNat * 256 ^ i) x = x := by
      intro l
      induction l with
      | nil => intro _ x; rfl
      | cons i t ih =>
        intro hl x
        have hi := hl i (by simp)
        rw [List.foldl_cons, h (a + i) (by omega)]
        simpa using ih (fun j hj => hl j (by simp [hj])) x
    exact this _ (by simp) 0
  have fold : ∀ (l : List Nat), (∀ k ∈ l, k < 32) →
      l.foldl (fun (z : Int) k => z + (v.getD k 0 : Int) * pI8 p (nwtGestW + 32 * o + k)) 0 = 0 := by
    intro l
    induction l with
    | nil => intro _; rfl
    | cons i t ih =>
      intro hl
      have hi := hl i (by simp)
      have : pI8 p (nwtGestW + 32 * o + i) = 0 := by
        unfold pI8; rw [z 1 _ (by simp [nwtGestW]; omega)]; decide
      rw [List.foldl_cons, this]
      simpa using ih (fun j hj => hl j (by simp [hj]))
  unfold nwtHead
  have : pI32 p (nwtGestB + 4 * o) = 0 := by unfold pI32; rw [z 4 _ (by simp [nwtGestB]; omega)]; decide
  rw [this]
  exact fold _ (by simp)

theorem gestures_zero (p : Array Byte) (h : ∀ a, a < 15920 → p.getD a 0 = 0) (m : NwtImage) (j : Nat) :
    nth 0 (nwtNetwork p m).2 j = 0 := by
  have e : (nwtNetwork p m).2 = List.replicate 9 0 := by
    unfold nwtNetwork
    simp only [List.range_succ, List.range_zero, List.nil_append, List.cons_append, List.map_cons, List.map_nil]
    simp [gesture_zero p h]
  rw [e]
  have : ∀ n j, nth (0 : Int) (List.replicate n 0) j = 0 := by
    intro n
    induction n with
    | zero => intro j; rfl
    | succ n ih => intro j; cases j with
      | zero => rfl
      | succ j => exact ih j
  exact this 9 j

theorem zeros_getD (n : Nat) (l : List Byte) (a : Nat) (h : a < n) : (List.replicate n 0 ++ l).toArray.getD a 0 = 0 := by
  simp [List.getElem?_append_left, h]

/-- Parameters that are all 0 but G_HOLD, 200. -/
def heldParam : List Byte := List.replicate 15932 0 ++ [200, 0]

/-- Nightwatch with a frame in work after warm-up. -/
def judged (p : List Byte) (rept : Option (Nat × Nat)) : Nwt := { enable := true, pkg := 1, work := some [], param := p, lastRept := rept, taken := 7 }

/-- The clauses about a frame that Nightwatch judges: with a report, and without one because G_HOLD frames have not passed. -/
theorem test_witness_NightwatchJudges :
    let quiet := judged [] none
    let held := judged heldParam (some (0, 5))
    let z (n : Nwt) (j : Nat) : Int := nth 0 (nwtNetwork n.param.toArray (n.background [].toArray).2).2 j
    quiet.enable = true ∧ quiet.pkg = 1 ∧ quiet.work = some [] ∧ quiet.warmup = 0 ∧ held.work = some [] ∧ held.warmup = 0 ∧ (0 : Nat) < 8 ∧
      (∀ j, z quiet j = 0) ∧ (∀ j, z held j = 0) ∧ pI32 quiet.param.toArray (nwtThresh + 8) ≤ z quiet 0 - z quiet 1 ∧ quiet.lastRept = none ∧
      held.lastRept = some (0, 5) ∧ pU held.param.toArray (nwtThresh + 12) 2 = 200 ∧ ¬ (200 ≤ held.taken - 1 - 5) := by
  have q : ∀ m j, nth 0 (nwtNetwork (judged [] none).param.toArray m).2 j = 0 := gestures_zero _ fun a _ => rfl
  have h : ∀ m j, nth 0 (nwtNetwork (judged heldParam (some (0, 5))).param.toArray m).2 j = 0 :=
    gestures_zero _ fun a ha => zeros_getD 15932 [200, 0] a (by omega)
  refine ⟨rfl, rfl, rfl, rfl, rfl, rfl, by decide, q _, h _, ?_, rfl, rfl, by decide +kernel, by decide⟩
  exact (by decide : pI32 [].toArray (nwtThresh + 8) ≤ 0 - 0).trans_eq (congrArg₂ (· - ·) (q _ 0).symm (q _ 1).symm)

/-- The factory image passes the checks of R571 to R575: hypotheses of ResetsAndServiceStages and ManagementCommandsRunOneAtATime. -/
theorem test_witness_factoryImage :
    State.reset.die.boot.flash.slot State.reset.die.boot.flash.ctl.preferred = some factoryImage ∧ imageFormat factoryImage = true ∧
      imageSigned factoryImage = true ∧ factoryImage.signer = Config.firmwareSigner ∧ imageDawnOk factoryImage = true ∧
      State.reset.die.fuses.arb ≤ factoryImage.svn.toNat ∧ State.reset.die.mainOk = true ∧ imageWhole factoryImage = true := by
  have f : imageFormat factoryImage = true := by decide +kernel
  have s : State.reset.die.boot.flash.slot State.reset.die.boot.flash.ctl.preferred = some factoryImage := by
    have : State.reset.die.boot.flash.ctl.preferred = false := by decide +kernel
    rw [this]; rfl
  have sg : imageSigned factoryImage = true := by
    have h : imageHeader factoryImage = imageHeader factoryManifest := by simp only [imageHeader, factoryImage]
    simp only [imageSigned, h]; simp [factoryImage]
  have m : imageMainOk factoryImage = true := decide_eq_true rfl
  have w : imageDawnOk factoryImage = true := decide_eq_true rfl
  refine ⟨s, f, sg, rfl, w, ?_, m, ?_⟩
  · decide +kernel
  · simp [imageWhole, f, m, w, sg]; rfl
/-- The DeviceID certificates that the die is delivered with are those whose SHA-384 is fused. -/
theorem test_witness_factoryDevices : State.reset.die.deviceOk 0 = true ∧ State.reset.die.deviceOk 1 = true := by
  constructor <;> · simp [Die.deviceOk, List.range_succ, List.range_zero]; refine ⟨?_, ?_, ?_, ?_, ?_, ?_⟩ <;> rfl

/-! ### Ill-formed commands are refused by `Instr.wf`, one for each check -/

def badEcc : Ecc := .corr 11 0
def badAccess : Access := .delivered 0x100000000 [] 0
def conf0 : BoardConf := {
  seq := 1, sigOk := true, root := 0, safe := [], loops := [], ports := [], weights := [], nwtCtrl := 0, mgmtAddr := 0, poolPages := 0, exclOnFail := false,
  exclGroups := 0, digest := 0 }
def conf1 : BoardConf := { conf0 with poolPages := 131073 }

theorem test_wf_refuses :
    (([Instr.bundleIssue, .wload 0, .stream 1, .streamRowComplete 0, .vadd, .vmul, .vfma, .vmax, .vmin, .vcmpgt, .vexp, .vrecip, .vrsqrt,
        .vcvt, .vrmax, .vrsum, .vamax, .vmerge, .vhad, fun e => .vectorResult e, .fwload, .fstream, .flintRowComplete, .fft, .ifft, .cmul, .wht,
        fun e => .micaResult e, .maxpool, .avgpoolInc, .avgpoolExc, .cropBilinear, .cropNearest, .argmax, fun e => .postResult e, .cmd, fun e => .sense e, .patrolRead,
        .move 0, .stride 0, .signal 0, .wait 0, .loop 0, .endStep 0, .nwtFrameResult, fun e => .gather 0 e .ok,
        fun e => .scatter 0 e .ok] : List (Ecc → Instr)).all fun f => !(f badEcc).wf && (f (.uncorr 10 0)).wf) = true ∧
    (([fun a => .gather 0 .ok a, fun a => .scatter 0 .ok a, fun a => .requestIssue 0 true true a, fun a => .requestComplete 0 0 0 a, Instr.kvpQueueHead, .retire, .loadComplete 1,
        .nfpOpenDone 1, .sweepBlockRewrite 1, .memRd 0 0 0 0, .memWr 0 0 [1]] : List (Access → Instr)).all fun f =>
      !(f badAccess).wf && !(f (.crcFail 0x10000000000)).wf && !(f (.ecc badEcc)).wf && (f (.crcFail 5)).wf) = true ∧
    ([.requestComplete 0 8 0 .ok, .line 0 8192 0 [] false, .line 0 0 65536 [] false, .line 0 0 0 (List.replicate 4097 0) false,
      .sensor 0 [], .status 0 (List.replicate 65 0), .dataCell 0 [], .helloCell 0 [], .topoCell 0 [], .linkCell 0 (List.replicate 13 0),
      .memWr 0 0 [] .ok, .memWr 0 0 (List.replicate 257 0) .ok, .setRoute 0 4096 0 0, .setChannel 0 4096 (List.replicate 8 0),
      .setChannel 0 0 [], .setPort 0 8 true 0, .getCapabilities .host 0 0x100000000, .txFrameStart 4 5, .setBoardConfig 0 conf1 true,
      .setBoardConfig 0 { conf0 with ports := [(4, 0)] } true, .setBoardConfig 0 { conf0 with ports := [(3, 5)] } true,
      .setBoardConfig 0 { conf0 with loops := [{ loop := 8, port := 0, chan := 0, period := 0, phase := 0, deadline := 0, guard := 0, dawn := false }] } true,
      .chunkSend .host 0 0 (some (.manage 0 (.setRoute 4096 0 0))) [], .chunkSend .host 0 0 (some (.manage 0 (.setPort 8 true 0))) [],
      .chunkSend .host 0 0 (some (.manage 0 (.setChannel 0 []))) [], .chunkSend .host 0 0 (some (.manage 0 (.setBoardConfig conf1 true))) [],
      .thermalSample [], .getCertificate .host 0 65536 0, .getCertificate .host 0 0 65536] : List Instr).all (fun c => !c.wf) = true := by
  decide +kernel

theorem test_wf_weights : ∀ w : List Byte, w.length = 2097153 → (Instr.setBoardConfig 0 { conf0 with weights := w } true).wf = false := by
  intro w h
  simp [Instr.wf, BoardConf.wf, conf0, h]

theorem test_wf_accepts :
    ([.requestComplete 0 7 0 .ok, .line 0 8191 65535 (List.replicate 4096 0) false, .sensor 0 (List.replicate 64 0),
      .linkCell 0 (List.replicate 12 0), .dataCell 0 (List.replicate 316 0), .memWr 0 0 (List.replicate 256 1) .ok, .setPort 0 7 true 0,
      .setRoute 0 4095 0 0, .txFrameStart 4 4, .setBoardConfig 0 { conf0 with ports := [(3, 4)], poolPages := 131072 } true,
      .thermalSample (List.replicate 16 0), .hostWake] : List Instr).all Instr.wf = true := by
  decide +kernel

/-- No row of the table has bits: no word spells a command. -/
theorem test_decode_none : decodeTableWord 16 0 = none ∧ (State.reset.withFetchWord 16 0).pending = [] := by decide +kernel

end Sys2Proof.Tests
end

section
/-! Registers as the host reads and writes them: what a message that is heard answers, and what a read gives (R9 to R13, R430). -/

namespace Sys2Proof.Machine

/-! ### Messages -/

/-- A command whose meaning is a message of a prompt function answers what the message's effect gives. -/
theorem answers_of_hostMsg {c : Instr} {s : State} {m : HostMsg} {f : Die → Die} {d : Die} (p : Prompt s m.fn)
    (hc : exec c s = s.act fun d => d.hostMsg m f) (h : f s.die = d) : Answers c s d :=
  answers_of_act hc (by rw [Die.hostMsg_prompt p rfl, h])

theorem answers_regRd {s : State} {fn : Fin 64} {tag : BitVec 16} {off : BitVec 24} {bytes : Nat} {d : Die} (p : Prompt s fn.val)
    (h : s.die.rdMsg fn.val tag off.toNat bytes = d) : Answers (.regRd fn tag off bytes) s d :=
  answers_of_hostMsg (m := .rd fn.val tag off.toNat bytes) p (exec_regRd fn tag off bytes s) h

theorem answers_regWr {s : State} {fn : Fin 64} {off : BitVec 24} {bytes : Nat} {v : W32} {d : Die} (p : Prompt s fn.val)
    (h : s.die.wrMsg fn.val off.toNat bytes v = d) : Answers (.regWr fn off bytes v) s d :=
  answers_of_hostMsg (m := .wr fn.val off.toNat bytes v) p (exec_regWr fn off bytes v s) h

theorem answers_errHdrRead {s : State} {fn : Fin 64} {tag : BitVec 16} {i : Fin 73} {d : Die} (p : Prompt s fn.val)
    (h : s.die.rdMsg fn.val tag (offRec i.val 0) 4 = d) : Answers (.errHdrRead fn tag i) s d :=
  answers_of_hostMsg (m := .rd fn.val tag (offRec i.val 0) 4) p (exec_errHdrRead fn tag i s) h

theorem answers_rxstat0Read {s : State} {fn : Fin 64} {tag : BitVec 16} {n : Fin 8} {d : Die} (p : Prompt s fn.val)
    (h : s.die.rdMsg fn.val tag (offRxstat n.val 0) 4 = d) : Answers (.rxstat0Read fn tag n) s d :=
  answers_of_hostMsg (m := .rd fn.val tag (offRxstat n.val 0) 4) p (exec_rxstat0Read fn tag n s) h

/-- REG64_LO_READ of a pair that the die has is REG_RD of its low word. -/
theorem answers_reg64LoRead {s : State} {fn : Fin 64} {tag : BitVec 16} {off : BitVec 24} {d : Die} (p : Prompt s fn.val)
    (hc : (s.die.counter64 fn.val off.toNat).isSome = true) (h : s.die.rdMsg fn.val tag off.toNat 4 = d) :
    Answers (.reg64LoRead fn tag off) s d :=
  answers_of_act (exec_reg64LoRead fn tag off s) (by rw [hc, Bool.true_or, if_pos rfl, Die.hostMsg_prompt p rfl, h])

/-- ERR_RECORD_CLEAR by the physical function is a write of VALID (R599). -/
theorem answers_errRecordClear {s : State} {i : Fin 73} (p : Prompt s 0) (ho : s.die.hostOpen = true) :
    Answers (.errRecordClear 0 i) s (s.die.recClear i.val 0x80000000) :=
  answers_of_act (exec_errRecordClear 0 i s) (Die.pfWr_prompt p ho _ _ _)

theorem answers_errRecordClear_other {s : State} {fn : Fin 64} {i : Fin 73} (p : Prompt s fn.val) (h : fn.val ≠ 0) :
    Answers (.errRecordClear fn i) s s.die :=
  answers_of_act (exec_errRecordClear fn i s) (Die.pfWr_other p h _ _ _)

/-! ### Register messages -/

theorem regAligned_iff {off bytes : Nat} : regAligned off bytes = true ↔ bytes = 4 ∧ off % 4 = 0 := decide_eq_true_iff

theorem regAligned_false {off bytes : Nat} (h : bytes ≠ 4 ∨ off % 4 ≠ 0) : regAligned off bytes = false :=
  decide_eq_false (by omega)

theorem Die.rdMsg_aligned (d : Die) (fn : Nat) (tag : BitVec 16) {off bytes : Nat} (h : bytes = 4 ∧ off % 4 = 0) :
    d.rdMsg fn tag off bytes = (d.regRead fn off).1.sendHost (.regCpl fn tag (BitVec.ofNat 24 off) (d.regRead fn off).2) :=
  if_pos (regAligned_iff.2 h)

theorem Die.rdMsg_unaligned (d : Die) (fn : Nat) (tag : BitVec 16) {off bytes : Nat} (h : bytes ≠ 4 ∨ off % 4 ≠ 0) :
    d.rdMsg fn tag off bytes = d.sendHost (.regCpl fn tag (BitVec.ofNat 24 off) 0) := by
  rw [Die.rdMsg, regAligned_false h, if_neg Bool.false_ne_true]

theorem Die.wrMsg_aligned (d : Die) (fn : Nat) {off bytes : Nat} (v : W32) (h : bytes = 4 ∧ off % 4 = 0) :
    d.wrMsg fn off bytes v = d.regWrite fn off v := if_pos (regAligned_iff.2 h)

theorem Die.wrMsg_unaligned (d : Die) (fn : Nat) {off bytes : Nat} (v : W32) (h : bytes ≠ 4 ∨ off % 4 ≠ 0) :
    d.wrMsg fn off bytes v = d := by
  rw [Die.wrMsg, regAligned_false h, if_neg Bool.false_ne_true]

/-! ### Reads -/

/-- Outside the regions of the engines and units nothing lands for a read. -/
theorem Die.settled_other (d : Die) {off : Nat} (h : off / 0x100000 < 2 ∨ 6 < off / 0x100000) : d.settled off = d := if_neg (by omega)

theorem Die.regRead_open {d : Die} {fn off : Nat} (hr : d.reaches fn off = true) (ho : d.readOpen off = true) :
    d.regRead fn off = (d.settled off).regTake fn off := by
  rw [Die.regRead, hr, ho, if_pos (Bool.and_self true)]

theorem Die.regRead_unreached {d : Die} {fn off : Nat} (h : d.reaches fn off = false) : d.regRead fn off = (d, 0) := by
  rw [Die.regRead, h, if_neg (by simp)]

theorem Die.readOpen_of_hostOpen {d : Die} (h : d.hostOpen = true) (off : Nat) : d.readOpen off = true := by
  rw [Die.readOpen, h, Bool.true_or]

/-- The physical function reaches every register but the slot pages of SEC. -/
theorem Die.reaches_pf (d : Die) {off : Nat} (h : off < 0xC10000 ∨ 0xC14000 ≤ off) : d.reaches 0 off = true := by
  unfold Die.reaches
  split
  · rfl
  · rw [if_neg (by omega), if_pos rfl]

/-- The low word of a pair: the high word of the same moment is held (R13). -/
theorem Die.regTake_lo {d : Die} {fn off : Nat} {v : W64} (h : d.counter64 fn off = some v) :
    d.regTake fn off = ({ d with latch := Tab.write 0 d.latch (latchKey fn (off + 4)) (hiHalf v) }, loHalf v) := by
  rw [Die.regTake, h]

/-- The high word of a pair is what is held. -/
theorem Die.regTake_hi {d : Die} {fn off : Nat} (hl : (d.counter64 fn off).isSome = true) (hh : d.counter64 fn (off + 4) = none)
    (ha : off ≠ 0x20) : d.regTake fn (off + 4) = (d, Tab.read 0 d.latch (latchKey fn (off + 4))) := by
  rw [Die.regTake, hh]
  dsimp only
  rw [Nat.add_sub_cancel, if_pos ⟨Nat.le_add_left 4 off, hl⟩, if_neg (by omega)]

/-- A register that is no word of a pair. -/
theorem Die.regTake_plain {d : Die} {fn off : Nat} (h : d.counter64 fn off = none) (h' : off < 4 ∨ d.counter64 fn (off - 4) = none) :
    d.regTake fn off = (d.readEffect off, d.regValue fn off) := by
  rw [Die.regTake, h]
  dsimp only
  rw [if_neg]
  rcases h' with h' | h'
  · omega
  · simp [h']

/-! ### Where no pair lies -/

theorem Die.counter64_glb_none (d : Die) (fn : Nat) {off : Nat} (h : off < 0x18) : d.counter64 fn off = none := by
  have ho : off % 0x100000 = off := by omega
  have hr : off / 0x100000 = 0 := by omega
  simp only [Die.counter64, ho, hr, if_true, if_neg (show off ≠ 0x18 by omega), if_neg (show off ≠ 0x20 by omega)]

theorem Die.counter64_fld_none (d : Die) (fn : Nat) {off : Nat} (h : off / 0x100000 = 9) (ho : off % 0x100000 ≠ 0x10) :
    d.counter64 fn off = none := by
  simp [Die.counter64, h, ho]

theorem Die.counter64_err_none (d : Die) (fn : Nat) {off : Nat} (h : off / 0x100000 = 14) : d.counter64 fn off = none := by
  simp [Die.counter64, h]

/-! ### The identity registers (R28 to R32) -/

theorem Die.regRead_glb (d : Die) (fn : Nat) {off : Nat} (h : off < 0x18) : d.regRead fn off = (d, d.rdGlb off) := by
  have hr : off / 0x100000 = 0 := by omega
  have ho : off % 0x100000 = off := by omega
  have reach : d.reaches fn off = true := if_pos (by omega)
  have opened : d.readOpen off = true := by simp [Die.readOpen, show off < 0x100000 by omega]
  rw [Die.regRead_open reach opened, Die.settled_other d (by omega),
    Die.regTake_plain (d.counter64_glb_none fn h) (.inr (d.counter64_glb_none fn (by omega)))]
  simp [Die.readEffect, Die.regValue, hr, ho]

/-- A register write below 0x100000 by the physical function. -/
theorem Die.regWrite_glb (d : Die) {off : Nat} (v : W32) (h : off < 0x100000) : d.regWrite 0 off v = d.wrGlb off v := by
  rw [Die.regWrite, if_pos h, if_pos rfl]

/-! ### The fault records' registers (R600, R610) -/

/-- Another function than the physical one reaches no register of ERR. -/
theorem Die.reaches_err_other (d : Die) {fn off : Nat} (h : fn ≠ 0) (hf : fn < 64) (hr : off / 0x100000 = 14) :
    d.reaches fn off = false := by
  unfold Die.reaches offSlot offKv
  rw [if_neg (by omega), if_neg (by omega), if_neg h, decide_eq_false (by omega), decide_eq_false (by omega), decide_eq_false (by omega)]
  rfl

theorem Die.regRead_err {d : Die} (h : d.hostOpen = true) {off : Nat} (hr : off / 0x100000 = 14) (hp : (off - 4) / 0x100000 = 14) :
    d.regRead 0 off = (d.readEffect off, d.rdErr (off % 0x100000)) := by
  rw [Die.regRead_open (d.reaches_pf (by omega)) (Die.readOpen_of_hostOpen h off), Die.settled_other d (by omega),
    Die.regTake_plain (d.counter64_err_none 0 hr) (.inr (d.counter64_err_none 0 hp))]
  simp [Die.regValue, hr]

end Sys2Proof.Machine
end

section
/-! O39: register messages. -/

namespace Sys2Proof.Machine

/-- An aligned read: the register's value with the read's effect on the die, and the message that carries it (R9, R430). -/
theorem answers_regRd_aligned {s : State} {fn : Fin 64} (tag : BitVec 16) {off : BitVec 24} {bytes : Nat} (p : Prompt s fn.val)
    (h : bytes = 4 ∧ off.toNat % 4 = 0) :
    Answers (.regRd fn tag off bytes) s
      ((s.die.regRead fn.val off.toNat).1.sendHost (.regCpl fn.val tag off (s.die.regRead fn.val off.toNat).2)) :=
  answers_regRd p (by rw [Die.rdMsg_aligned _ _ _ h, BitVec.ofNat_toNat, BitVec.setWidth_eq])

theorem answers_regRd_unaligned {s : State} {fn : Fin 64} (tag : BitVec 16) {off : BitVec 24} {bytes : Nat} (p : Prompt s fn.val)
    (h : bytes ≠ 4 ∨ off.toNat % 4 ≠ 0) : Answers (.regRd fn tag off bytes) s (s.die.sendHost (.regCpl fn.val tag off 0)) :=
  answers_regRd p (by rw [Die.rdMsg_unaligned _ _ _ h, BitVec.ofNat_toNat, BitVec.setWidth_eq])

/-- The identity registers as they are held: GLB_ID, GLB_LOCK, GLB_BOARD_ID and GLB_SCRATCH (R28, R32). -/
theorem Die.rdGlb_held (d : Die) (o : Nat) : d.rdGlb o =
    if o = 0 then 0x4E320100 else if o = 0xC then (if d.glb.lock then 1 else 0)
    else if o = 0x10 then d.glb.boardId else if o = 0x14 then d.glb.scratch else d.rdGlb o := by
  have lock : w32 (b2n d.glb.lock) = if d.glb.lock then 1 else 0 := by cases d.glb.lock <;> rfl
  split_ifs <;> simp_all [Die.rdGlb]

theorem answers_reservedHostKind {s : State} (kind : BitVec 4) (p : Prompt s 64) :
    Answers (.reservedHostKind kind) s (s.die.reservedMsg kind.toNat) :=
  answers_of_hostMsg (m := .reserved kind.toNat) p (exec_reservedHostKind kind s) rfl

/-- Both write commands of the host write an aligned word alike. -/
theorem exec_registerWrite_eq_regWr (fn : Fin 64) (off : BitVec 24) (v : W32) (s : State) :
    exec (.registerWrite fn off v) s = exec (.regWr fn off 4 v) s := by
  rw [exec_registerWrite, exec_regWr]; rfl

/-- A word written to an identity register by the physical function. -/
theorem answers_regWr_glb {s : State} {off : BitVec 24} (v : W32) (p : Prompt s 0) (h : off.toNat % 4 = 0) (hg : off.toNat < 0x100000) :
    Answers (.regWr 0 off 4 v) s (s.die.wrGlb off.toNat v) :=
  answers_regWr p (by rw [Die.wrMsg_aligned _ _ _ ⟨rfl, h⟩]; exact Die.regWrite_glb _ v hg)

theorem answers_lockSet {s : State} (v : W32) (p : Prompt s 0) : Answers (.regionLockSet 0 0xC v) s (s.die.wrGlb 0xC v) :=
  answers_of_act (exec_regionLockSet 0 0xC v s) <| by
    have h : (0xC : BitVec 24).toNat = 0xC := rfl
    rw [h, if_pos (.inl rfl), Die.hostMsg_prompt p rfl]
    exact Die.regWrite_glb _ v (by omega)

theorem Die.wrGlb_lock (d : Die) {v : W32} (h : v.getLsbD 0 = true) : d.wrGlb 0xC v = { d with glb := { d.glb with lock := true } } := by
  rw [Die.wrGlb, if_pos rfl, h, Bool.or_true]

theorem Die.wrGlb_boardId_open {d : Die} (h : d.glb.lock = false) (v : W32) :
    d.wrGlb 0x10 v = { d with glb := { d.glb with boardId := v } } := by simp [Die.wrGlb, h]

theorem Die.wrGlb_boardId_locked {d : Die} (h : d.glb.lock = true) (v : W32) : d.wrGlb 0x10 v = d := by simp [Die.wrGlb, h]

/-- Settles O39: messages take effect at once on a prompt function, a read then goes through `regRead` and a write through
`regWrite`, whose lemmas say the rest. -/
theorem registerMessagesAnswerAndTakeEffect : Obligations.RegisterMessagesAnswerAndTakeEffect := by
  refine ⟨fun s fn tag off bytes p => ⟨fun h => ?_, answers_regRd_unaligned tag p, fun v h => ?_, ?_⟩, fun s kind p => ?_, fun s v p => ?_⟩
  · refine ⟨_, answers_regRd_aligned tag p h, rfl, rfl, fun hg => ?_⟩
    rw [Die.regRead_glb _ _ hg]
    exact Prod.ext rfl (Die.rdGlb_held _ _)
  · exact answers_regWr p (Die.wrMsg_unaligned _ _ v h)
  · exact fun v => exec_registerWrite_eq_regWr fn off v s
  · exact answers_reservedHostKind kind p
  · have board : Answers (.regWr 0 0x10 4 v) s (s.die.wrGlb 0x10 v) := answers_regWr_glb v p rfl (by decide)
    have scratch : Answers (.regWr 0 0x14 4 v) s (s.die.wrGlb 0x14 v) := answers_regWr_glb v p rfl (by decide)
    refine ⟨?_, fun h => ?_, fun h => ?_, fun h => ?_⟩
    · rw [Answers, exec_registerWrite_eq_regWr]
      exact scratch
    · exact Die.wrGlb_boardId_open h v ▸ board
    · exact Die.wrGlb_boardId_locked h v ▸ board
    · exact Die.wrGlb_lock _ h ▸ answers_lockSet v p

end Sys2Proof.Machine
end

section
/-! Fault records: what one event does to its record, to the flash entries due and to what is sent (R597, R606), what a clear
leaves (R599), and what a read of their registers answers (R600). -/

namespace Sys2Proof.Machine

/-! ### One event -/

theorem Die.errRec_write {d e : Die} {i : Nat} {r : Rec} (w : Tab.wf {} d.err.recs = true) (h : e.err.recs = Tab.write {} d.err.recs i r)
    (j : Nat) : e.errRec j = if j = i then r else d.errRec j := by
  rw [Die.errRec, h, Tab.read_write i j r w]; rfl

/-- The die after an event differs in the records, what is due for flash, and the messages sent. -/
theorem Die.recordEvent_eq (d : Die) (i : Nat) (x : Rec) : d.recordEvent i x = { d with
    err := { d.err with recs := (d.recordEvent i x).err.recs, toFlash := (d.recordEvent i x).err.toFlash }
    out := (d.recordEvent i x).out
    fab := { d.fab with modTurn := (d.recordEvent i x).fab.modTurn } } := by
  unfold Die.recordEvent Die.intr
  dsimp only
  split_ifs <;> rfl

/-- On a valid record an event counts. -/
theorem Die.recordEvent_valid {d : Die} {i : Nat} (x : Rec) (h : (d.errRec i).valid = true) : d.recordEvent i x = { d with
    err := { d.err with
      recs := Tab.write {} d.err.recs i { d.errRec i with count := BitVec.ofNat 16 (min 0xFFFF ((d.errRec i).count.toNat + 1)) } } } :=
  if_pos h

/-- On another record it is captured. -/
theorem Die.recordEvent_recs {d : Die} {i : Nat} (x : Rec) (h : (d.errRec i).valid = false) :
    (d.recordEvent i x).err.recs = Tab.write {} d.err.recs i x := by
  unfold Die.recordEvent
  dsimp only
  rw [if_neg (by simp [h])]
  split_ifs <;> simp

theorem Die.recordEvent_toFlash {d : Die} {i : Nat} (x : Rec) (h : (d.errRec i).valid = false) :
    (d.recordEvent i x).err.toFlash = if x.fatal then d.err.toFlash ++ [i] else d.err.toFlash := by
  unfold Die.recordEvent
  dsimp only
  rw [if_neg (by simp [h])]
  split_ifs <;> simp

/-- What is sent for a first event: vector 0x01 when its cause is enabled, then 0x02 when it is fatal (R606). -/
def Die.toldOf (d : Die) (x : Rec) : List Out :=
  let told := if bit d.err.irqEn.toNat x.cause.toNat then .intr 0 1 :: d.out else d.out
  if x.fatal then .intr 0 2 :: told else told

/-- Whether an INTR goes out is for the bring-up and the power of the die, with their time, to say. -/
theorem Die.intr_out_of {d e : Die} (hb : e.boot = d.boot) (hp : e.pwr = d.pwr) (ht : e.time = d.time) (fn v : Nat) :
    (e.intr fn v).out = if d.mainline then .intr fn (BitVec.ofNat 8 v) :: e.out else e.out := by
  have same : e.mainline = d.mainline := by
    unfold Die.mainline Die.fabPowered Die.fldPowered Die.seqAt
    rw [hb, hp, ht]
  rw [Die.intr_out, same]

theorem Die.recordEvent_out {d : Die} {i : Nat} (x : Rec) (h : (d.errRec i).valid = false) :
    (d.recordEvent i x).out = if d.mainline then d.toldOf x else d.out := by
  unfold Die.recordEvent Die.toldOf
  dsimp only
  rw [if_neg (by simp [h])]
  by_cases hf : x.fatal = true <;> by_cases hb : bit d.err.irqEn.toNat x.cause.toNat = true <;> simp only [hf, hb, if_true, Bool.false_eq_true, if_false]
  · rw [Die.intr_out_of (d := d) (by simp) (by simp) (by simp)]
    dsimp only
    rw [Die.intr_out_of (d := d) (by rfl) (by rfl) (by rfl)]
    split <;> rfl
  · rw [Die.intr_out_of (d := d) (by rfl) (by rfl) (by rfl)]
    rfl
  · rw [Die.intr_out_of (d := d) (by rfl) (by rfl) (by rfl)]
    rfl
  · exact (ite_self _).symm

/-! ### The first event of an issue cycle (R597) -/

/-- Only the records may differ. -/
theorem Die.keepFirst_eq (d : Die) (i : Nat) :
    d.keepFirst i = { d with err := { d.err with recs := (d.keepFirst i).err.recs } } := by
  unfold Die.keepFirst
  dsimp only
  split
  · rfl
  · split <;> rfl

theorem Die.keepFirst_nil {d : Die} {i : Nat} (h : d.cycleEvents i = []) : d.keepFirst i = d := by
  unfold Die.keepFirst
  rw [h]

/-- A record that counts other events than those of the cycle stays. -/
theorem Die.keepFirst_other {d : Die} {i : Nat} (h : (d.errRec i).count.toNat ≠ (d.cycleEvents i).length) : d.keepFirst i = d := by
  unfold Die.keepFirst
  split
  · rfl
  · next e es he =>
    rw [he, List.length_cons] at h
    simp [h]

/-- The first of a list of events by `Rec.before`. -/
def Rec.firstOf (i : Nat) (e : Rec) (es : List Rec) : Rec := es.foldl (fun (x : Rec) y => if y.before i x then y else x) e

/-- A record that counts the events of the cycle alone holds the first of them, with its count. -/
theorem Die.keepFirst_cycle {d : Die} {i : Nat} {e : Rec} {es : List Rec} (h : d.cycleEvents i = e :: es)
    (hv : (d.errRec i).valid = true) (hc : (d.errRec i).count.toNat = es.length + 1) : d.keepFirst i = { d with
      err := { d.err with recs := Tab.write {} d.err.recs i { Rec.firstOf i e es with count := (d.errRec i).count } } } := by
  unfold Die.keepFirst
  rw [h]
  dsimp only
  rw [if_pos (by simp [hv, hc])]
  rfl

/-- Another record is not touched. -/
theorem Die.keepFirst_errRec_ne {d : Die} (w : Tab.wf {} d.err.recs = true) {i j : Nat} (h : j ≠ i) :
    (d.keepFirst i).errRec j = d.errRec j := by
  unfold Die.keepFirst
  split
  · rfl
  · dsimp only
    split
    · exact Tab.read_write_ne _ w h
    · rfl

/-- The count stays. -/
theorem Die.keepFirst_count {d : Die} (w : Tab.wf {} d.err.recs = true) (i : Nat) :
    ((d.keepFirst i).errRec i).count = (d.errRec i).count := by
  unfold Die.keepFirst
  split
  · rfl
  · dsimp only
    split
    · rw [Die.errRec, Tab.read_write_self i _ w]
    · rfl

/-! ### An event on a present record, in an issue cycle or beside one -/

section
variable {d : Die} {i : Nat} {x : Rec}

/-- What event `x` writes into record `i`: its capture, or one more count. -/
def Die.eventRec (d : Die) (i : Nat) (x : Rec) : Rec :=
  if (d.errRec i).valid then { d.errRec i with count := BitVec.ofNat 16 (min 0xFFFF ((d.errRec i).count.toNat + 1)) } else x

theorem Die.eventRec_valid (h : (d.errRec i).valid = true) :
    d.eventRec i x = { d.errRec i with count := BitVec.ofNat 16 (min 0xFFFF ((d.errRec i).count.toNat + 1)) } := if_pos h

theorem Die.eventRec_new (h : (d.errRec i).valid = false) : d.eventRec i x = x := if_neg (by simp [h])

theorem Die.recordEvent_write : (d.recordEvent i x).err.recs = Tab.write {} d.err.recs i (d.eventRec i x) := by
  cases h : (d.errRec i).valid
  · rw [Die.recordEvent_recs x h, Die.eventRec_new h]
  · rw [Die.recordEvent_valid x h, Die.eventRec_valid h]

/-- The die with event `x` on record `i`, and among the events of the issue cycle. -/
def Die.noted (d : Die) (i : Nat) (x : Rec) : Die :=
  let e := d.recordEvent i x
  { e with err := { e.err with cycle := d.err.cycle ++ [(i, x)] } }

theorem Die.noted_cycleEvents (h : d.issuing = true) : (d.noted i x).cycleEvents i = d.cycleEvents i ++ [x] := by
  have issuing : (d.noted i x).issuing = d.issuing := by rw [Die.noted, Die.recordEvent_eq]; rfl
  rw [Die.cycleEvents, Die.cycleEvents, issuing, if_pos h, if_pos h]
  simp [Die.noted]

/-- The die after event `x` on record `i`. -/
def Die.eventOn (d : Die) (i : Nat) (x : Rec) : Die := if d.issuing then (d.noted i x).keepFirst i else d.recordEvent i x

theorem Die.record_present (h : d.recPresent i = true) (c : Nat) (sl : Option Nat) (f0 f1 f2 f3 : Nat) :
    d.record i c sl f0 f1 f2 f3 = d.eventOn i (d.capture c sl f0 f1 f2 f3) := by
  have issuing (x : Rec) : (d.recordEvent i x).issuing = d.issuing := by rw [Die.recordEvent_eq]; rfl
  have cycle (x : Rec) : (d.recordEvent i x).err.cycle = d.err.cycle := by rw [Die.recordEvent_eq]
  unfold Die.record Die.eventOn Die.noted
  rw [if_pos h]
  dsimp only
  rw [issuing, cycle]

/-- Whatever neither the records nor the events of the cycle is, is as `recordEvent` leaves it. -/
theorem Die.eventOn_eq : d.eventOn i x = { d.recordEvent i x with
    err := { (d.recordEvent i x).err with recs := (d.eventOn i x).err.recs, cycle := (d.eventOn i x).err.cycle } } := by
  unfold Die.eventOn
  split
  · rw [Die.keepFirst_eq]; rfl
  · rfl

theorem Die.eventOn_frame : d.eventOn i x = { d with
    err := { d.err with
      recs := (d.eventOn i x).err.recs, toFlash := (d.eventOn i x).err.toFlash, cycle := (d.eventOn i x).err.cycle }
    out := (d.eventOn i x).out
    fab := { d.fab with modTurn := (d.eventOn i x).fab.modTurn } } := by
  rw [Die.eventOn_eq, Die.recordEvent_eq]

theorem Die.eventOn_cycle :
    (d.eventOn i x).err.cycle = if d.issuing then d.err.cycle ++ [(i, x)] else d.err.cycle := by
  unfold Die.eventOn
  split
  · rw [Die.keepFirst_eq]; rfl
  · rw [Die.recordEvent_eq]

theorem Die.eventOn_out_valid (h : (d.errRec i).valid = true) : (d.eventOn i x).out = d.out := by
  rw [Die.eventOn_eq, Die.recordEvent_valid x h]

theorem Die.eventOn_toFlash_valid (h : (d.errRec i).valid = true) : (d.eventOn i x).err.toFlash = d.err.toFlash := by
  rw [Die.eventOn_eq, Die.recordEvent_valid x h]

theorem Die.eventOn_out_new (h : (d.errRec i).valid = false) :
    (d.eventOn i x).out = if d.mainline then d.toldOf x else d.out := by
  rw [Die.eventOn_eq]
  exact Die.recordEvent_out x h

theorem Die.eventOn_toFlash_new (h : (d.errRec i).valid = false) :
    (d.eventOn i x).err.toFlash = if x.fatal then d.err.toFlash ++ [i] else d.err.toFlash := by
  rw [Die.eventOn_eq]
  exact Die.recordEvent_toFlash x h

/-- A count holds at 0xFFFF (R597). -/
theorem Die.eventRec_count (h : (d.errRec i).valid = true) :
    (d.eventRec i x).count.toNat = min 0xFFFF ((d.errRec i).count.toNat + 1) := by
  rw [Die.eventRec_valid h]
  simp only [BitVec.toNat_ofNat]
  omega

variable (w : Tab.wf {} d.err.recs = true)
include w

theorem Die.recordEvent_errRec (j : Nat) : (d.recordEvent i x).errRec j = if j = i then d.eventRec i x else d.errRec j :=
  Die.errRec_write w Die.recordEvent_write j

theorem Die.noted_wf : Tab.wf {} (d.noted i x).err.recs = true := by
  rw [Die.noted, Die.recordEvent_write]
  exact Tab.wf_write i _ w

theorem Die.noted_errRec (j : Nat) : (d.noted i x).errRec j = if j = i then d.eventRec i x else d.errRec j :=
  Die.recordEvent_errRec w j

theorem Die.eventOn_errRec_ne {j : Nat} (h : j ≠ i) : (d.eventOn i x).errRec j = d.errRec j := by
  unfold Die.eventOn
  split
  · rw [Die.keepFirst_errRec_ne (Die.noted_wf w) h, Die.noted_errRec w, if_neg h]
  · rw [Die.recordEvent_errRec w, if_neg h]

theorem Die.eventOn_count : ((d.eventOn i x).errRec i).count = (d.eventRec i x).count := by
  unfold Die.eventOn
  split
  · rw [Die.keepFirst_count (Die.noted_wf w), Die.noted_errRec w, if_pos rfl]
  · rw [Die.recordEvent_errRec w, if_pos rfl]

/-- Beside an issue cycle, and where the record counts other events than those of the cycle, its first capture stays. -/
theorem Die.eventOn_errRec (h : d.issuing = false ∨ (d.eventRec i x).count.toNat ≠ (d.cycleEvents i).length + 1) :
    (d.eventOn i x).errRec i = d.eventRec i x := by
  unfold Die.eventOn
  split
  · next hi =>
    rw [Die.keepFirst_other, Die.noted_errRec w, if_pos rfl]
    rw [Die.noted_errRec w, if_pos rfl, Die.noted_cycleEvents hi, List.length_append]
    exact h.resolve_left (by simp [hi])
  · rw [Die.recordEvent_errRec w, if_pos rfl]

/-- The first event that a record counts is what it holds. -/
theorem Die.eventOn_errRec_new (h : (d.errRec i).valid = false) (hv : x.valid = true) (hc : x.count = 1) :
    (d.eventOn i x).errRec i = x := by
  cases hi : d.issuing
  · rw [Die.eventOn_errRec w (.inl hi), Die.eventRec_new h]
  · cases he : d.cycleEvents i with
    | nil =>
      have one : (d.noted i x).cycleEvents i = [x] := by rw [Die.noted_cycleEvents hi, he]; rfl
      have own : (d.noted i x).errRec i = x := by rw [Die.noted_errRec w, if_pos rfl, Die.eventRec_new h]
      rw [Die.eventOn, if_pos hi, Die.keepFirst_cycle one (by rw [own, hv]) (by rw [own, hc]; rfl), own, Die.errRec,
        Tab.read_write_self i _ (Die.noted_wf w)]
      rfl
    | cons y ys =>
      rw [Die.eventOn_errRec w (.inr _), Die.eventRec_new h]
      rw [Die.eventRec_new h, hc, he]
      simp

/-- The second event of an issue cycle takes the record over when it comes first by `Rec.before`. -/
theorem Die.eventOn_errRec_second {y : Rec} (hi : d.issuing = true) (he : d.err.cycle = [(i, y)]) (hr : d.errRec i = y)
    (hv : y.valid = true) (hc : y.count = 1) :
    (d.eventOn i x).errRec i = { (if x.before i y then x else y) with count := 2 } := by
  have now : d.eventRec i x = { y with count := 2 } := by rw [Die.eventRec_valid (by rw [hr, hv]), hr, hc]; rfl
  have two : (d.noted i x).cycleEvents i = [y, x] := by
    rw [Die.noted_cycleEvents hi, Die.cycleEvents, if_pos hi, he]
    simp
  have own : (d.noted i x).errRec i = { y with count := 2 } := by rw [Die.noted_errRec w, if_pos rfl, now]
  rw [Die.eventOn, if_pos hi, Die.keepFirst_cycle two (by rw [own]; exact hv) (by rw [own]; rfl), own, Die.errRec,
    Tab.read_write_self i _ (Die.noted_wf w)]
  rfl

end

/-! ### The capture (R594, R595) -/

theorem Die.capture_cause (d : Die) {c : Nat} (h : c < 32) (sl : Option Nat) (f0 f1 f2 f3 : Nat) :
    (d.capture c sl f0 f1 f2 f3).cause.toNat = c := by
  simp only [Die.capture, BitVec.toNat_ofNat]
  omega

theorem Die.capture_fatal_iff (d : Die) (c : Nat) (sl : Option Nat) (f0 f1 f2 f3 : Nat) :
    (d.capture c sl f0 f1 f2 f3).fatal = true ↔ c = 0x0E ∨ c = 0x0F ∨ c = 0x10 := decide_eq_true_iff

theorem Rec.before_iff (i : Nat) (x y : Rec) :
    x.before i y = true ↔ x.slot.toNat < y.slot.toNat ∨ (x.slot = y.slot ∧ x.place i < y.place i) := decide_eq_true_iff

/-! ### A clear (R599) -/

theorem Die.recClear_write (d : Die) (i : Nat) : d.recClear i 0x80000000 =
    ((d.cycleEvents i).foldl (fun (d : Die) e => d.recordEvent i e) { d with err := d.err.clear i }).keepFirst i := if_pos rfl

theorem Die.cycleEvents_nil {d : Die} {i : Nat} (h : d.issuing = false ∨ ∀ x ∈ d.err.cycle, x.1 ≠ i) : d.cycleEvents i = [] := by
  unfold Die.cycleEvents
  split
  · next hi =>
    have hx := h.resolve_left (by simp [hi])
    rw [List.filter_eq_nil_iff.2 fun x hm => by simpa using hx x hm, List.map_nil]
  · rfl

/-- Without an event of the cycle the record is zero. -/
theorem Die.recClear_quiet {d : Die} {i : Nat} (h : d.cycleEvents i = []) : d.recClear i 0x80000000 = { d with err := d.err.clear i } := by
  rw [Die.recClear_write, h, List.foldl_nil]
  exact Die.keepFirst_nil h

theorem Die.clear_errRec {d : Die} (w : Tab.wf {} d.err.recs = true) (i j : Nat) :
    ({ d with err := d.err.clear i } : Die).errRec j = if j = i then {} else d.errRec j :=
  Die.errRec_write w rfl j

/-- The one event that the present cycle has on the record comes after the clear. -/
theorem Die.recClear_event {d : Die} (w : Tab.wf {} d.err.recs = true) {i : Nat} {r : Rec} (hi : d.issuing = true)
    (hc : d.err.cycle = [(i, r)]) (hv : r.valid = true) : (d.recClear i 0x80000000).errRec i = r := by
  have events : d.cycleEvents i = [r] := by rw [Die.cycleEvents, if_pos hi, hc]; simp
  have wc : Tab.wf {} (d.err.clear i).recs = true := Tab.wf_write i ({} : Rec) w
  have zero : (({ d with err := d.err.clear i } : Die).errRec i).valid = false := by rw [Die.clear_errRec w, if_pos rfl]
  rw [Die.recClear_write, events, List.foldl_cons, List.foldl_nil]
  generalize hd : ({ d with err := d.err.clear i } : Die).recordEvent i r = e
  have own : e.errRec i = r := by rw [← hd, Die.recordEvent_errRec wc, if_pos rfl, Die.eventRec_new zero]
  have we : Tab.wf {} e.err.recs = true := by rw [← hd, Die.recordEvent_write]; exact Tab.wf_write i _ wc
  have still : e.cycleEvents i = [r] := by rw [← hd, Die.recordEvent_eq]; exact events
  by_cases h1 : r.count.toNat = 1
  · rw [Die.keepFirst_cycle still (by rw [own, hv]) (by rw [own, h1]; rfl), own, Die.errRec, Tab.read_write_self i _ we]
    rfl
  · rw [Die.keepFirst_other (by rw [own, still]; exact h1), own]

/-! ### Reads of the records (R600, R610) -/

/-- HDR latches W1 to W6 of its record; the other words latch nothing. -/
theorem Die.readEffect_rec (d : Die) {i j : Nat} (hi : i < 73) (hj : j < 8) : d.readEffect (0xE10000 + 0x20 * i + 4 * j) =
    if j = 0 then { d with err := { d.err with hold := [(i, ((d.errRec i).words.drop 1).take 6)] } } else d := by
  have hr : (0xE10000 + 0x20 * i + 4 * j) / 0x100000 = 14 := by omega
  have ho : (0xE10000 + 0x20 * i + 4 * j) % 0x100000 = 0x10000 + 0x20 * i + 4 * j := by omega
  have hk : (0x10000 + 0x20 * i + 4 * j - 0x10000) / 0x20 = i := by omega
  simp only [Die.readEffect, hr, ho, hk]
  rw [if_neg (by omega)]
  by_cases h : j = 0
  · rw [if_pos ⟨trivial, by omega⟩, if_pos h]
  · rw [if_neg (fun c => h (by omega)), if_neg (by omega), if_neg h]

theorem Die.rdErr_rec (d : Die) {i j : Nat} (hi : i < 73) (hj : j < 8) : d.rdErr (0x10000 + 0x20 * i + 4 * j) = d.recWord i j := by
  have hk : (0x10000 + 0x20 * i + 4 * j - 0x10000) / 0x20 = i := by omega
  have hw : (0x10000 + 0x20 * i + 4 * j) % 0x20 / 4 = j := by omega
  simp only [Die.rdErr, hk, hw]
  exact if_pos (by omega)

/-- The physical function reads word `j` of record `i`. -/
theorem Die.regRead_rec {d : Die} (h : d.hostOpen = true) {i j : Nat} (hi : i < 73) (hj : j < 8) :
    d.regRead 0 (0xE10000 + 0x20 * i + 4 * j) =
      (if j = 0 then { d with err := { d.err with hold := [(i, ((d.errRec i).words.drop 1).take 6)] } } else d, d.recWord i j) := by
  have ho : (0xE10000 + 0x20 * i + 4 * j) % 0x100000 = 0x10000 + 0x20 * i + 4 * j := by omega
  rw [Die.regRead_err h (by omega) (by omega), Die.readEffect_rec d hi hj, ho, Die.rdErr_rec d hi hj]

/-- Another function reads nothing there. -/
theorem Die.regRead_rec_other (d : Die) {fn : Nat} (h : fn ≠ 0) (hf : fn < 64) {i : Nat} (hi : i < 73) :
    d.regRead fn (offRec i 0) = (d, 0) :=
  Die.regRead_unreached (d.reaches_err_other h hf (by unfold offRec; omega))

/-- W1 to W6 are those of the record that is held (R600). -/
theorem Die.recWord_held {d : Die} {i j : Nat} {ws : List W32} (h : d.err.hold = [(i, ws)]) (hj : j < 6) :
    d.recWord i (j + 1) = nth 0 ws j := by
  have found : (d.err.hold.find? fun c => decide (c.1 = i)) = some (i, ws) := by simp [h]
  unfold Die.recWord
  dsimp only
  rw [if_pos (by omega), found]
  rfl

/-! ### Flash entries (R609) -/

theorem crcBit_lt {c : Nat} (h : c < 2 ^ 32) : crcBit c < 2 ^ 32 := by
  unfold crcBit
  split
  · exact Nat.xor_lt_two_pow (by omega) (by decide)
  · omega

theorem crcByte_lt {c : Nat} (h : c < 2 ^ 32) (b : Byte) : crcByte c b < 2 ^ 32 :=
  crcBit_lt <| crcBit_lt <| crcBit_lt <| crcBit_lt <| crcBit_lt <| crcBit_lt <| crcBit_lt <| crcBit_lt <|
    Nat.xor_lt_two_pow h (by have := b.isLt; omega)

/-- A CRC-32C fits its four bytes. -/
theorem crc32c_lt (bs : List Byte) : crc32c bs < 2 ^ 32 :=
  Nat.xor_lt_two_pow (foldl_pred (P := fun c => c < 2 ^ 32) (by decide) fun _ b _ h => crcByte_lt h b) (by decide)

theorem leNat_leBytes_crc32c (bs : List Byte) : leNat (leBytes 4 (crc32c bs)) = crc32c bs := by
  rw [leNat_leBytes]
  exact Nat.mod_eq_of_lt (crc32c_lt bs)

/-- An entry but for its CRC: sequence, W0 to W6, PWR_AON, image, and zeros. -/
def Die.fatalBody (d : Die) (r : Rec) : List Byte :=
  leBytes 4 (d.boot.flash.fatalSeq + 1) ++ ((r.words.take 7).flatMap fun w => leBytes 4 w.toNat) ++ leBytes 8 d.time.aon.toNat ++
    leBytes 8 (b2n d.boot.runSlotB + 256 * d.boot.svn.toNat) ++ List.replicate 12 0

theorem Die.fatalEntry_eq (d : Die) (r : Rec) : d.fatalEntry r = d.fatalBody r ++ leBytes 4 (crc32c (d.fatalBody r)) := rfl

theorem Die.length_fatalBody (d : Die) (r : Rec) : (d.fatalBody r).length = 60 := by
  simp [Die.fatalBody, Rec.words, length_leBytes]

theorem Die.length_fatalEntry (d : Die) (r : Rec) : (d.fatalEntry r).length = 64 := by
  rw [Die.fatalEntry_eq, List.length_append, Die.length_fatalBody, length_leBytes]

/-- The last four bytes of an entry are the CRC of the sixty before. -/
theorem Die.fatalEntry_crc (d : Die) (r : Rec) : leNat ((d.fatalEntry r).drop 60) = crc32c ((d.fatalEntry r).take 60) := by
  rw [Die.fatalEntry_eq, List.drop_left' (d.length_fatalBody r), List.take_left' (d.length_fatalBody r), leNat_leBytes_crc32c]

/-- The first four are its number. -/
theorem Die.fatalEntry_seq (d : Die) (r : Rec) : leNat ((d.fatalEntry r).take 4) = (d.boot.flash.fatalSeq + 1) % 2 ^ 32 := by
  have first : (d.fatalEntry r).take 4 = leBytes 4 (d.boot.flash.fatalSeq + 1) := by
    rw [Die.fatalEntry_eq]
    simp only [Die.fatalBody, List.append_assoc]
    exact List.take_left' (length_leBytes 4 _)
  rw [first, leNat_leBytes]
  rfl

theorem Die.fatalWrite_due {d : Die} {i : Nat} (h : i ∈ d.err.toFlash) (ok : Bool) :
    (d.fatalWrite i ok).err.toFlash = d.err.toFlash.erase i ∧ (d.fatalWrite i ok).err.writeErr = (!ok) ∧
      (d.fatalWrite i ok).boot.flash = if ok then d.boot.flash.addFatal (d.fatalEntry (d.err.forFlash i)) else d.boot.flash := by
  unfold Die.fatalWrite
  rw [if_pos (List.contains_iff_mem.2 h)]
  cases ok <;> exact ⟨rfl, rfl, rfl⟩

theorem Die.fatalWrite_none {d : Die} {i : Nat} (h : i ∉ d.err.toFlash) (ok : Bool) : d.fatalWrite i ok = d :=
  if_neg (by simpa using h)

/-- Where the area has room an entry is appended. -/
theorem Flash.addFatal_fatal {f : Flash} (e : List Byte) (h : f.fatal.length < 176 * 64) : (f.addFatal e).fatal = f.fatal ++ [e] := by
  rw [Flash.addFatal, if_neg (show ¬ fatalEntries ≤ f.fatal.length from Nat.not_le.2 h)]

/-! ### RXSTAT0 (R409) -/

theorem Die.regRead_rxstat0 {d : Die} (h : d.hostOpen = true) {n : Nat} (hn : n < 8) (hp : d.loopPresent n = true) :
    d.regRead 0 (offRxstat n 0) = (d.updLoop n fun l => { l with rxNew := false },
      if d.loopConf (d.loop n) then 0 else w32 (leNat ((d.loop n).rxstat.take 4))) := by
  have hr : (0x902000 + 0x40 * n + 0) / 0x100000 = 9 := by omega
  have ho : (0x902000 + 0x40 * n + 0) % 0x100000 = 0x2000 + 0x40 * n := by omega
  have hl : fldLoop (0x2000 + 0x40 * n) = n := by unfold fldLoop; omega
  have hz : (0x2000 + 0x40 * n) % 0x40 = 0 := by omega
  have effect : d.readEffect (0x902000 + 0x40 * n + 0) = d.updLoop n fun l => { l with rxNew := false } := by
    simp only [Die.readEffect, hr, ho, hl]
    exact if_pos ⟨trivial, by omega, by omega, hz, hp⟩
  have value : d.rdFld (0x2000 + 0x40 * n) = if d.loopConf (d.loop n) then 0 else w32 (leNat ((d.loop n).rxstat.take 4)) := by
    rw [Die.rdFld, if_neg (by omega), if_pos (by omega), hl, hz, hp, List.drop_zero]
    cases d.loopConf (d.loop n) <;> rfl
  unfold offRxstat
  rw [Die.regRead_open (d.reaches_pf (by omega)) (Die.readOpen_of_hostOpen h _), Die.settled_other d (by omega),
    Die.regTake_plain (d.counter64_fld_none 0 hr (by omega)) (.inr (d.counter64_fld_none 0 (by omega) (by omega))), effect]
  simp only [Die.regValue, hr, ho, value]
  rfl

end Sys2Proof.Machine
end

section
/-! O60: fault records, the words of R13 and RXSTAT0. -/

namespace Sys2Proof.Machine

/-- What is sent for a first event of a cause that is not fatal. -/
theorem Die.told_of_not_fatal (d : Die) {x : Rec} (h : x.fatal = false) : (if d.mainline then d.toldOf x else d.out) =
    if bit d.err.irqEn.toNat x.cause.toNat = true ∧ d.mainline = true then .intr 0 1 :: d.out else d.out := by
  simp only [Die.toldOf, h, Bool.false_eq_true, if_false]
  by_cases hm : d.mainline = true <;> simp [hm]

/-- What is sent for a first event of a fatal cause. -/
theorem Die.told_of_fatal (d : Die) {x : Rec} (h : x.fatal = true) : (if d.mainline then d.toldOf x else d.out) =
    if d.mainline = true then
      .intr 0 2 :: (if bit d.err.irqEn.toNat x.cause.toNat = true ∧ d.mainline = true then .intr 0 1 :: d.out else d.out)
    else d.out := by
  simp only [Die.toldOf, h, if_true]
  by_cases hm : d.mainline = true <;> simp [hm]

theorem answers_errHdrRead_other {s : State} {fn : Fin 64} (tag : BitVec 16) (i : Fin 73) (p : Prompt s fn.val) (h : fn.val ≠ 0) :
    Answers (.errHdrRead fn tag i) s (s.die.sendHost (.regCpl fn.val tag (BitVec.ofNat 24 (0xE10000 + 0x20 * i.val)) 0)) :=
  answers_errHdrRead p <| by
    rw [Die.rdMsg_aligned _ _ _ ⟨rfl, by unfold offRec; omega⟩, Die.regRead_rec_other _ h fn.isLt i.isLt]
    rfl

theorem answers_errHdrRead_pf {s : State} (tag : BitVec 16) (i : Fin 73) (p : Prompt s 0) (h : s.die.hostOpen = true) :
    Answers (.errHdrRead 0 tag i) s
      (Die.sendHost { s.die with err := { s.die.err with hold := [(i.val, ((s.die.errRec i.val).words.drop 1).take 6)] } }
        (.regCpl 0 tag (BitVec.ofNat 24 (0xE10000 + 0x20 * i.val)) (nth 0 (s.die.errRec i.val).words 0))) :=
  answers_errHdrRead p <| by
    rw [Die.rdMsg_aligned _ _ _ ⟨rfl, by unfold offRec; omega⟩]
    rw [show s.die.regRead (0 : Fin 64).val (offRec i.val 0) = _ from Die.regRead_rec h i.isLt (j := 0) (by omega)]
    rfl

/-- W1 to W6 of the record whose HDR was read last. -/
theorem answers_regRd_held {s : State} (tag : BitVec 16) (i : Fin 73) (j : Fin 6) {ws : List W32} (p : Prompt s 0)
    (h : s.die.hostOpen = true) (hh : s.die.err.hold = [(i.val, ws)]) :
    Answers (.regRd 0 tag (BitVec.ofNat 24 (0xE10000 + 0x20 * i.val + 4 * (j.val + 1))) 4) s
      (s.die.sendHost (.regCpl 0 tag (BitVec.ofNat 24 (0xE10000 + 0x20 * i.val + 4 * (j.val + 1))) (nth 0 ws j.val))) := by
  have lt : 0xE10000 + 0x20 * i.val + 4 * (j.val + 1) < 2 ^ 24 := by omega
  have read := Die.regRead_rec h i.isLt (j := j.val + 1) (by omega)
  rw [if_neg (by omega), Die.recWord_held hh j.isLt] at read
  have answer := answers_regRd_aligned (fn := 0) tag (off := BitVec.ofNat 24 (0xE10000 + 0x20 * i.val + 4 * (j.val + 1)))
    (bytes := 4) p (by rw [BitVec.toNat_ofNat, Nat.mod_eq_of_lt lt]; omega)
  rw [BitVec.toNat_ofNat, Nat.mod_eq_of_lt lt] at answer
  rw [show s.die.regRead (0 : Fin 64).val _ = _ from read] at answer
  exact answer

/-- Without an event of the present issue cycle a clear leaves zero, and the other records as they are (R599). -/
theorem answers_errRecordClear_quiet {s : State} {i : Fin 73} (p : Prompt s 0) (ho : s.die.hostOpen = true)
    (w : Tab.wf {} s.die.err.recs = true) (hq : s.die.issuing = false ∨ ∀ x ∈ s.die.err.cycle, x.1 ≠ i.val) :
    ∃ e : Die, Answers (.errRecordClear 0 i) s e ∧ e.errRec i.val = {} ∧ (∀ j, j ≠ i.val → e.errRec j = s.die.errRec j) ∧
      e = { s.die with err := { s.die.err with recs := e.err.recs, cleared := e.err.cleared } } := by
  have clear := answers_errRecordClear (i := i) p ho
  rw [Die.recClear_quiet (Die.cycleEvents_nil hq)] at clear
  exact ⟨_, clear, by rw [Die.clear_errRec w, if_pos rfl], fun j hj => by rw [Die.clear_errRec w, if_neg hj], rfl⟩

/-- The low word of a pair is answered, and the high word of the same moment held (R13). -/
theorem answers_reg64LoRead_pair {s : State} {fn : Fin 64} (tag : BitVec 16) {off : BitVec 24} {v : W64} (p : Prompt s fn.val)
    (hs : (s.die.counter64 fn.val off.toNat).isSome = true) (hv : (s.die.settled off.toNat).counter64 fn.val off.toNat = some v)
    (hr : s.die.reaches fn.val off.toNat = true) (ho : s.die.readOpen off.toNat = true) (ha : off.toNat % 4 = 0) :
    Answers (.reg64LoRead fn tag off) s
      (Die.sendHost { s.die.settled off.toNat with
        latch := Tab.write 0 (s.die.settled off.toNat).latch (latchKey fn.val (off.toNat + 4)) (hiHalf v) }
        (.regCpl fn.val tag off (loHalf v))) :=
  answers_reg64LoRead p hs <| by
    rw [Die.rdMsg_aligned _ _ _ ⟨rfl, ha⟩, Die.regRead_open hr ho, Die.regTake_lo hv, BitVec.ofNat_toNat, BitVec.setWidth_eq]

/-- The high word of a pair is answered as it is held (R13). -/
theorem answers_regRd_hi {s : State} {fn : Fin 64} (tag : BitVec 16) {off : BitVec 24} (p : Prompt s fn.val) (ha : off.toNat % 4 = 0)
    (hlt : off.toNat + 4 < 0x1000000) (hl : ((s.die.settled (off.toNat + 4)).counter64 fn.val off.toNat).isSome = true)
    (hh : (s.die.settled (off.toNat + 4)).counter64 fn.val (off.toNat + 4) = none) (h20 : off ≠ 0x20)
    (hr : s.die.reaches fn.val (off.toNat + 4) = true) (ho : s.die.readOpen (off.toNat + 4) = true) :
    Answers (.regRd fn tag (off + 4) 4) s
      ((s.die.settled (off.toNat + 4)).sendHost (.regCpl fn.val tag (off + 4)
        (Tab.read 0 (s.die.settled (off.toNat + 4)).latch (latchKey fn.val (off.toNat + 4))))) := by
  have next : (off + 4).toNat = off.toNat + 4 := by
    rw [BitVec.toNat_add]
    exact Nat.mod_eq_of_lt hlt
  have answer := answers_regRd_aligned tag (off := off + 4) (bytes := 4) p ⟨rfl, by omega⟩
  have h20' : off.toNat ≠ 0x20 := fun e => h20 (BitVec.eq_of_toNat_eq e)
  rw [next, Die.regRead_open hr ho, Die.regTake_hi hl hh h20'] at answer
  exact answer

theorem answers_rxstat0Read_pf {s : State} (tag : BitVec 16) {n : Fin 8} (p : Prompt s 0) (ho : s.die.hostOpen = true)
    (hn : s.die.loopPresent n.val = true) : Answers (.rxstat0Read 0 tag n) s
      ((s.die.updLoop n.val fun l => { l with rxNew := false }).sendHost (.regCpl 0 tag (BitVec.ofNat 24 (offRxstat n.val 0))
        (if s.die.loopConf (s.die.loop n.val) then 0 else w32 (leNat ((s.die.loop n.val).rxstat.take 4))))) :=
  answers_rxstat0Read p <| by
    rw [Die.rdMsg_aligned _ _ _ ⟨rfl, by unfold offRxstat; omega⟩,
      show s.die.regRead (0 : Fin 64).val _ = _ from Die.regRead_rxstat0 ho n.isLt hn]
    rfl

/-- Settles O60: each clause is what the lemmas on events, clears, reads and flash entries say of one of its commands. -/
theorem recordsAndReadsFollowTheirRules : Obligations.RecordsAndReadsFollowTheirRules := by
  refine ⟨fun d i c sl f0 f1 f2 f3 hp hc w => ?_, fun s fn tag i p ho w => ⟨fun hf => ?_, ?_, ?_, ?_, ?_⟩, fun s i ok => ?_,
    fun s fn tag off v p hs hv hr ho ha => answers_reg64LoRead_pair tag p hs hv hr ho ha,
    fun s fn tag off p ha hlt hl hh h20 hr ho => answers_regRd_hi tag p ha hlt hl hh h20 hr ho,
    fun s tag n p ho hn => answers_rxstat0Read_pf tag p ho hn⟩
  · rw [Die.record_present hp]
    have fatal := d.capture_fatal_iff c sl f0 f1 f2 f3
    have cause := d.capture_cause hc sl f0 f1 f2 f3
    refine ⟨fun hv => ⟨Die.eventOn_out_valid hv, Die.eventOn_toFlash_valid hv, ?_, fun hq => ?_⟩, fun x hi he hr hv h1 => ?_,
      fun hv => ?_, Die.eventOn_cycle, fun j hj => Die.eventOn_errRec_ne w hj, Die.eventOn_frame⟩
    · rw [Die.eventOn_count w, Die.eventRec_count hv]
    · rw [Die.eventOn_errRec w (hq.imp_right fun hq => by rw [Die.eventRec_count hv]; exact hq.ne'), Die.eventRec_valid hv]
    · rw [Die.eventOn_errRec_second w hi he hr hv h1]
      exact ⟨fun hb => by rw [if_pos ((Rec.before_iff ..).2 hb)], fun hb => by rw [if_neg (mt (Rec.before_iff ..).1 hb)]⟩
    · rw [Die.eventOn_errRec_new w hv rfl rfl, Die.eventOn_out_new hv, Die.eventOn_toFlash_new hv]
      refine ⟨rfl, cause, rfl, rfl, rfl, rfl, rfl, rfl, fatal, ?_, ?_, fun hf => ?_, fun hf => ?_⟩
      · rintro k rfl
        exact ⟨rfl, rfl⟩
      · rintro rfl
        rfl
      · rw [Die.told_of_fatal d (fatal.2 hf), if_pos (fatal.2 hf), cause]
        exact ⟨rfl, rfl⟩
      · have hf' := Bool.eq_false_iff.2 (mt fatal.1 hf)
        rw [Die.told_of_not_fatal d hf', hf', cause]
        exact ⟨rfl, rfl⟩
  · have hf' : fn.val ≠ 0 := fun e => hf (Fin.ext e)
    exact ⟨answers_errHdrRead_other tag i p hf', answers_errRecordClear_other p hf'⟩
  · rintro rfl
    exact answers_errHdrRead_pf tag i p ho
  · rintro ws j rfl hh
    exact answers_regRd_held tag i j p ho hh
  · rintro rfl hq
    exact answers_errRecordClear_quiet p ho w hq
  · rintro r rfl hi hc hv
    exact ⟨_, answers_errRecordClear p ho, Die.recClear_event w hi hc hv⟩
  · have write : Answers (.fatalFlashWrite i ok) s (s.die.fatalWrite i.val ok) := answers_of_act (exec_fatalFlashWrite i ok s) rfl
    refine ⟨fun h => ?_, fun h => by rw [Die.fatalWrite_none h] at write; exact write⟩
    obtain ⟨due, status, flash⟩ := Die.fatalWrite_due h ok
    refine ⟨_, _, write, due, status, rfl, Die.length_fatalEntry _ _, Die.fatalEntry_crc _ _, Die.fatalEntry_seq _ _, ?_, ?_⟩
    · rintro rfl room
      rw [flash]
      exact Flash.addFatal_fatal _ room
    · rintro rfl
      exact flash

end Sys2Proof.Machine
end

section
/-! The die time's step and slew (R281): what a step of the time leaves of the time and of ingress once the field loops and the
calendar have seen it, and what a TIMESYNC makes of the die in either case. -/

namespace Sys2Proof.Machine

variable (d : Die)

/-- What no round of a loop changes, the loop leaves as it was. -/
theorem forUpto_keeps {α β : Type} (g : α → β) {f : Nat → α → α} (h : ∀ k a, g (f k a) = g a) (n : Nat) (a : α) :
    g (forUpto n f a) = g a :=
  foldl_pred (P := fun b => g b = g a) rfl fun b k _ hb => (h k b).trans hb

/-! ### The field loops leave the time and ingress alone -/

@[simp] theorem Die.queueGuard_time (l : Loop) (f : TxFrame) : (d.queueGuard l f).time = d.time := by
  unfold Die.queueGuard; split <;> rfl

@[simp] theorem Die.queueGuard_ing (l : Loop) (f : TxFrame) : (d.queueGuard l f).ing = d.ing := by
  unfold Die.queueGuard; split <;> rfl

@[simp] theorem Die.serveDeadline_time (n : Nat) : (d.serveDeadline n).time = d.time := by
  unfold Die.serveDeadline
  dsimp only
  split_ifs <;> simp

@[simp] theorem Die.serveDeadline_ing (n : Nat) : (d.serveDeadline n).ing = d.ing := by
  unfold Die.serveDeadline
  dsimp only
  split_ifs <;> simp

/-- A step of the time works on a loop only by serving its deadline and by updates of the loop. -/
theorem Die.loopStepped_keeps {β : Type} (g : Die → β) {n : Nat} (upd : ∀ (d : Die) f, g (d.updLoop n f) = g d)
    (serve : ∀ d : Die, g (d.serveDeadline n) = g d) (backward : Bool) : g (d.loopStepped n backward) = g d := by
  unfold Die.loopStepped
  dsimp only
  split
  · split
    · generalize (if (d.loop n).inPeriod && (d.loop n).served then (d.loop n).k + 1 else (d.loop n).k) = next
      split
      · rw [upd, serve]
        split
        · rfl
        · exact upd d _
      · rfl
    · split
      · exact upd d _
      · rfl
  · rfl

@[simp] theorem Die.loopStepped_time (n : Nat) (backward : Bool) : (d.loopStepped n backward).time = d.time :=
  d.loopStepped_keeps Die.time (fun d => d.updLoop_time n) (fun d => d.serveDeadline_time n) backward

@[simp] theorem Die.loopStepped_ing (n : Nat) (backward : Bool) : (d.loopStepped n backward).ing = d.ing :=
  d.loopStepped_keeps Die.ing (fun d => d.updLoop_ing n) (fun d => d.serveDeadline_ing n) backward

/-! ### A step of the time -/

theorem Die.timeStep_time (off : Int) : (d.timeStep off).time =
    { d.time with tq := d.time.tq + off * 1048576, slew := 0, slewLeft := 0, valid := true, everSet := true } := by
  unfold Die.timeStep
  dsimp only
  rw [forUpto_keeps Die.time fun n d => d.loopStepped_time n _]
  rfl

theorem Die.timeStep_steps (off : Int) : (d.timeStep off).ing.steps = satInc32 d.ing.steps 1 := by
  unfold Die.timeStep
  dsimp only
  rw [forUpto_keeps Die.ing fun n d => d.loopStepped_ing n _]

/-! ### TIMESYNC -/

/-- The ns by which the die time lies behind what a TIMESYNC tells. -/
def Die.syncOff (d : Die) (timeNs : W64) : Int := (timeNs.toNat : Int) + (d.ing.latency.toNat : Nat) - d.time.tq / 1048576

/-- A TIMESYNC by its offset: the step or the slew, and ING_OFFSET in either case. -/
theorem Die.timeSync_eq (timeNs : W64) : d.timeSync timeNs =
    let e := if d.time.valid = false ∨ 1000 < (d.syncOff timeNs).natAbs then d.timeStep (d.syncOff timeNs)
      else { d with time := { d.time with slew := d.syncOff timeNs, slewLeft := 1048576 } }
    { e with ing := { e.ing with offset := satI32 (d.syncOff timeNs) } } := rfl

theorem Die.timeSync_slew {timeNs : W64} (hv : d.time.valid = true) (h : (d.syncOff timeNs).natAbs ≤ 1000) :
    d.timeSync timeNs = { d with
      time := { d.time with slew := d.syncOff timeNs, slewLeft := 1048576 }
      ing := { d.ing with offset := satI32 (d.syncOff timeNs) } } := by
  rw [Die.timeSync_eq, if_neg (by simp [hv, h])]

theorem Die.timeSync_offset (timeNs : W64) : (d.timeSync timeNs).ing.offset = satI32 (d.syncOff timeNs) := rfl

theorem Die.timeSync_time_of_step {timeNs : W64} (h : d.time.valid = false ∨ 1000 < (d.syncOff timeNs).natAbs) :
    (d.timeSync timeNs).time = { d.time with
      tq := d.time.tq + d.syncOff timeNs * 1048576, slew := 0, slewLeft := 0, valid := true, everSet := true } := by
  simp only [Die.timeSync_eq, if_pos h, Die.timeStep_time]

theorem Die.timeSync_steps_of_step {timeNs : W64} (h : d.time.valid = false ∨ 1000 < (d.syncOff timeNs).natAbs) :
    (d.timeSync timeNs).ing.steps = satInc32 d.ing.steps 1 := by
  simp only [Die.timeSync_eq, if_pos h, Die.timeStep_steps]

end Sys2Proof.Machine
end

section
/-! O32: the time sync. -/

namespace Sys2Proof.Machine

theorem answers_timesync {s : State} (timeNs : W64) (hr : s.die.ingRuns = true) :
    Answers (.timesync timeNs) s (s.die.timeSync timeNs) :=
  answers_of_act (exec_timesync timeNs s) (if_pos hr)

/-- Settles O32: the offset decides between the slew and a step of the time, whose time and count are as stated. -/
theorem timesyncStepsOrSlewsTheTime : Obligations.TimesyncStepsOrSlewsTheTime := by
  refine fun s => ⟨fun timeNs hr => ⟨fun hv h => ?_, fun h => ?_⟩, answers_of_act (exec_slewEnd s) rfl⟩
  · exact s.die.timeSync_slew hv h ▸ answers_timesync timeNs hr
  · exact ⟨_, answers_timesync timeNs hr, s.die.timeSync_time_of_step h, s.die.timeSync_offset timeNs, s.die.timeSync_steps_of_step h⟩

end Sys2Proof.Machine
end

section
/-! What the host reads at reset: no pair and no result in flight comes between a register and its reset value. -/

namespace Sys2Proof.Machine

/-- A read by the physical function of a register that is no word of a pair gives the register's value. -/
theorem Die.regRead_pf_plain {d : Die} {off : Nat} (ho : d.hostOpen = true) (hs : d.settled off = d) (hr : off < 0xC10000 ∨ 0xC14000 ≤ off)
    (h : d.counter64 0 off = none) (h' : off < 4 ∨ d.counter64 0 (off - 4) = none) : (d.regRead 0 off).2 = d.regValue 0 off := by
  rw [Die.regRead_open (d.reaches_pf hr) (Die.readOpen_of_hostOpen ho off), hs, Die.regTake_plain h h']

/-- At a die where nothing is readable that has not landed, no read finds it otherwise. -/
theorem Die.settled_landed {d : Die} (h : Landed d) (off : Nat) : d.settled off = d := by
  unfold Die.settled
  split
  · exact Die.landReadable_landed h
  · rfl

theorem State.reset_hostOpen : State.reset.die.hostOpen = true := rfl

theorem State.reset_landed : Landed State.reset.die := by decide

/-- The registers of a table read at reset what `regValue` gives, where none is a word of a pair. -/
theorem State.reset_reads {table : List (Nat × W32)}
    (plain : ∀ p ∈ table, (p.1 < 0xC10000 ∨ 0xC14000 ≤ p.1) ∧ State.reset.die.counter64 0 p.1 = none ∧
      (p.1 < 4 ∨ State.reset.die.counter64 0 (p.1 - 4) = none))
    (value : ∀ p ∈ table, State.reset.die.regValue 0 p.1 = p.2) :
    ∀ p, p ∈ table → (State.reset.die.regRead 0 p.1).2 = p.2 := by
  intro p hp
  obtain ⟨hr, h, h'⟩ := plain p hp
  rw [Die.regRead_pf_plain State.reset_hostOpen (Die.settled_landed State.reset_landed _) hr h h', value p hp]

end Sys2Proof.Machine
end

section
/-! O4: the reset state. -/

namespace Sys2Proof.Machine

/-- Settles O4: the stores and tables are empty, and each register listed is read as it is held. -/
theorem resetLeavesTheStatedValues : Obligations.ResetLeavesTheStatedValues :=
  ⟨State.reset_queue, (memoryForm_iff _).2 StoresForm.empty, fun _ => ⟨rfl, rfl⟩, State.reset_reads (by decide) (by decide)⟩

end Sys2Proof.Machine
end

section
/-! O10: the no-operations. -/

namespace Sys2Proof.Machine

/-- A no-operation encodes no action: it is not listed, and names no unit. -/
theorem slotListed_noop {k w : Nat} (h : slotOp k w = 0) : slotListed k w = false := by
  simp [slotListed, h]

theorem Die.wordAbsent_noop (d : Die) (i : Nat) {k w : Nat} (h : slotOp k w = 0) : d.wordAbsent i k w = false := by
  unfold Die.wordAbsent; exact if_pos h

/-- Settles O10: the meanings are the identity, and neither the list of slots that act nor the absent units see an opcode 0. -/
theorem noOperationsDoNothing : Obligations.NoOperationsDoNothing := fun s =>
  ⟨fun te => answers_of_act (exec_enop te s) rfl, answers_of_act (exec_vnop s) rfl, answers_of_act (exec_pnop s) rfl,
   answers_of_act (exec_snop s) rfl, fun _ _ h => ⟨slotListed_noop h, fun i => s.die.wordAbsent_noop i h⟩⟩

end Sys2Proof.Machine
end

section
/-! O57: what an increment makes of a tally. -/

namespace Sys2Proof.Machine

/-- An increment writes the sum, held at the top, and sets the tally's bit of XFR_TALLY_SAT when the sum exceeds the top. -/
theorem Die.tallyAdd_eq (d : Die) (p n : Nat) :
    let v := (d.tally p).value.toNat + n
    d.tallyAdd p n = { d with iss := { d.iss with
      tallies := Tab.upd {} d.iss.tallies p fun t => { t with value := BitVec.ofNat 24 (min 0xFFFFFF v) },
      sat := if v ≤ 0xFFFFFF then d.iss.sat else d.iss.sat ||| (1#256 <<< (p % 256)) } } := by
  intro v
  unfold Die.tallyAdd
  split
  · next h => rw [if_pos h, Nat.min_eq_right h]; rfl
  · next h => rw [if_neg h, Nat.min_eq_left (by omega)]; rfl

theorem Die.tallyAdd_tally_self {d : Die} {p n : Nat} (w : Tab.wf {} d.iss.tallies = true) :
    (d.tallyAdd p n).tally p = { d.tally p with value := BitVec.ofNat 24 (min 0xFFFFFF ((d.tally p).value.toNat + n)) } := by
  rw [Die.tallyAdd_eq]; dsimp only [Die.tally]; exact Tab.read_upd_self p _ w

theorem Die.tallyAdd_tally_ne {d : Die} {p q n : Nat} (w : Tab.wf {} d.iss.tallies = true) (h : q ≠ p) :
    (d.tallyAdd p n).tally q = d.tally q := by
  rw [Die.tallyAdd_eq]; dsimp only [Die.tally]; exact Tab.read_upd_ne _ w h

/-- Bit `q` of the word that has bit `p` alone. -/
theorem getLsbD_one_shiftLeft {w p q : Nat} (hp : p < w) : (1#w <<< p).getLsbD q = decide (q = p) := by
  by_cases h : q = p
  · subst h; simp [hp]
  · simp [h]; omega

/-- Settles O57: the sum held at the top is what the tally has, and its bit tells when it was held. -/
theorem talliesHoldAtTheTop : Obligations.TalliesHoldAtTheTop := by
  intro d p n hp w e
  have top := (d.tally p).value.isLt
  have value : (e.tally p).value.toNat = min 0xFFFFFF ((d.tally p).value.toNat + n) := by
    rw [show e.tally p = _ from Die.tallyAdd_tally_self w]; exact Nat.mod_eq_of_lt (by omega)
  have sat : e.iss.sat = if (d.tally p).value.toNat + n ≤ 0xFFFFFF then d.iss.sat else d.iss.sat ||| (1#256 <<< p) := by
    rw [show e = _ from Die.tallyAdd_eq d p n, Nat.mod_eq_of_lt hp]
  refine ⟨fun h => ⟨BitVec.eq_of_toNat_eq (by rw [value, Nat.min_eq_left (by omega)]; rfl), ?_⟩, fun h => ⟨by omega, by rw [sat, if_pos h]⟩,
    fun q hq => ⟨?_, Die.tallyAdd_tally_ne w hq⟩, by rw [show e.tally p = _ from Die.tallyAdd_tally_self w], by omega, ?_⟩
  · rw [sat, if_neg (by omega), BitVec.getLsbD_or, getLsbD_one_shiftLeft hp]; simp
  · rw [sat]
    split
    · rfl
    · rw [BitVec.getLsbD_or, getLsbD_one_shiftLeft hp]; simp [hq]
  · rw [show e = _ from Die.tallyAdd_eq d p n]

end Sys2Proof.Machine
end

section
/-! O8: loop control. -/

namespace Sys2Proof.Machine

theorem Die.setRun_of_run {d : Die} {r : Run} (h : d.iss.run = some r) (f : Run → Run) :
    d.setRun f = { d with iss := { d.iss with run := some (f r) } } := by
  rw [Die.setRun, h]

/-- Loop control of the bundle's kind, at a run that awaits it, changes the run alone. -/
theorem Die.loopControl_due {d : Die} {r : Run} {op : Nat} (f : Run → Run) (h : d.iss.run = some r) (hp : r.phase = .control)
    (ho : bundleLoopOp r.bundle = op) (hi : d.issueRuns = true) :
    d.loopControl op f = { d with iss := { d.iss with run := some (f r) } } := by
  rw [Die.loopControl, h]
  dsimp only
  rw [if_pos ⟨hp, ho, hi⟩, Die.setRun_of_run h]

/-! Entries on their last turn are popped (R45). -/

theorem endLoops_branch (pc : Nat) (rest : List LoopEntry) (e : LoopEntry) (he : 1 < e.remaining) :
    ∀ (done : List LoopEntry) (n : Nat), (∀ x ∈ done, x.remaining ≤ 1) → done.length < n →
      endLoops pc n (done ++ e :: rest) = (e.start, { e with remaining := e.remaining - 1 } :: rest)
  | _, 0, _, hn => absurd hn (Nat.not_lt_zero _)
  | [], n + 1, _, _ => if_pos he
  | x :: done, n + 1, h, hn => by
    have hx := h x (by simp)
    rw [List.cons_append, endLoops, if_neg (by omega)]
    exact endLoops_branch pc rest e he done n (fun y hy => h y (by simp [hy])) (by simpa using hn)

theorem endLoops_through (pc : Nat) (rest : List LoopEntry) :
    ∀ done : List LoopEntry, (∀ x ∈ done, x.remaining ≤ 1) → endLoops pc done.length (done ++ rest) = (pc + 1, rest)
  | [], _ => rfl
  | x :: done, h => by
    have hx := h x (by simp)
    rw [List.length_cons, List.cons_append, endLoops, if_neg (by omega)]
    exact endLoops_through pc rest done fun y hy => h y (by simp [hy])

/-- Settles O8: loop control writes the run that `Run.begin`, `Run.end_` or a drain gives. -/
theorem loopControlMovesTheAddress : Obligations.LoopControlMovesTheAddress := by
  intro s r hr hp hi after N levels
  have answers {c : Instr} {op : Nat} {f : Run → Run} {q : Run} (hc : exec c s = s.act fun d => d.loopControl op f)
      (ho : bundleLoopOp r.bundle = op) (hq : f r = q) : Answers c s (after q) :=
    answers_of_act hc (hq ▸ Die.loopControl_due f hr hp ho hi)
  have ended {q : Run} (ho : bundleLoopOp r.bundle = 2) (hq : r.end_ = q) : Answers .loopEnd s (after q) := answers (exec_loopEnd s) ho hq
  refine ⟨fun ho => answers (exec_loopBegin s) ho rfl, fun done e rest ho hl hd hn he => ended ho ?_, fun done rest ho hl hd hn => ended ho ?_,
    fun ho => answers (exec_exit s) ho rfl⟩
  · rw [Run.end_, hl, endLoops_branch r.pc rest e he done (bundleLoopDepth r.bundle + 1) hd hn]
  · rw [Run.end_, hl, show bundleLoopDepth r.bundle + 1 = done.length from hn.symm, endLoops_through r.pc rest done hd]

end Sys2Proof.Machine
end

section
/-! O9: the end of an issue cycle. -/

namespace Sys2Proof.Machine

/-- A run in the last issue cycle of its bundle, slot 0 still to act. -/
def lastCycle : Run := { slot := 1, phase := .issuing 1 [0] }

/-- Two contexts were aborted in the run's issue cycle, the mainline is up, and the table of the modules' rounds holds two entries for
module 0: no canonical table does. -/
def twoAborts : Die :=
  { glb := { service := 2 }, boot := { linked := true }, fab := { modTurn := [(0, 1), (0, 2)] },
    iss := { run := some lastCycle, aborts := [(1, 4), (2, 4)] } }

/-- The vectors of the two aborted contexts each begin module 0's round again, and each takes one of its two entries away. -/
theorem twoAborts_modTurn : (twoAborts.slotDone 0).fab.modTurn = [] := by decide

/-- Refutes O9: the statement has one write of module 0's round at the cycle's end, the model one for each vector that goes out; in a table
that is not canonical (`twoAborts`) the two differ. -/
theorem not_issueCycleEnds : ¬ Obligations.IssueCycleEnds := by
  intro h
  have last := (h twoAborts lastCycle 0 1 [0] rfl rfl rfl).2.1 rfl (.inl (Nat.le_refl 1))
  have turn := congrArg (fun d : Die => d.fab.modTurn) last
  rw [twoAborts_modTurn] at turn
  exact absurd turn (by decide)

end Sys2Proof.Machine
end

section
/-! O6: bundle issue. -/

namespace Sys2Proof.Machine

/-- The die with `q` as its run. -/
def Die.withRun (d : Die) (q : Run) : Die := { d with iss := { d.iss with run := some q } }

@[simp] theorem Die.withRun_run (d : Die) (q : Run) : (d.withRun q).iss.run = some q := rfl

theorem Die.withRun_self {d : Die} {r : Run} (h : d.iss.run = some r) : d.withRun r = d := by
  unfold Die.withRun; rw [← h]

theorem Die.setRun_const {d : Die} {r q : Run} (h : d.iss.run = some r) : (d.setRun fun _ => q) = d.withRun q := Die.setRun_of_run h _

/-- Cycles pass, and the run goes on as `f` says. -/
theorem Die.passCycles_setRun {d : Die} {r : Run} (h : d.iss.run = some r) (n : Nat) (f : Run → Run) :
    (d.passCycles n).setRun f = { d with
      iss := { d.iss with cyc := d.iss.cyc + n, owed := d.iss.owed - n,
                          run := some (f { r with cycles := r.cycles + n, held := r.held + n, refused := false }) }
      glb := { d.glb with aclkCycles := inc64 d.glb.aclkCycles n } } := by
  rw [Die.passCycles, Die.setRun_of_run (show (d.aclk n).iss.run = some r from h), Die.setRun_of_run rfl]
  rfl

/-- Bundle issue acts on what has become readable. -/
theorem Die.issueStep_run {d : Die} {r : Run} (h : d.iss.run = some r) (hi : d.issueRuns = true) (f : Run → Die → Die) :
    d.issueStep f = f r d.landReadable := by
  rw [Die.issueStep, h]; exact if_pos hi

/-- Where everything readable has landed, it acts on the die as it is. -/
theorem Die.issueStep_steady {s : State} {r : Run} (h : s.die.iss.run = some r) (hs : Steady s) (f : Run → Die → Die) :
    s.die.issueStep f = f r s.die := by
  rw [Die.issueStep_run h hs.1, Die.landReadable_landed hs.2]

/-- It acts alike on a die and on the die where the readable results have landed. -/
theorem answers_issueStep_landed {c : Instr} {s : State} {r : Run} {f : Run → Die → Die}
    (hc : ∀ s, exec c s = s.act fun d => d.issueStep f) (h : s.die.iss.run = some r) (hi : s.die.issueRuns = true)
    (hl : s.die.landReadable.iss.run = some r) (hs : Steady { s with die := s.die.landReadable }) :
    ∃ e : Die, Answers c { s with die := s.die.landReadable } e ∧ Answers c s e :=
  ⟨f r s.die.landReadable, answers_of_act (hc _) (Die.issueStep_steady hl hs f), answers_of_act (hc s) (Die.issueStep_run h hi f)⟩

/-! ### The bundle that is due -/

/-- A word of the bundle that cannot be corrected ends the fetch. -/
theorem Die.issueBundle_bad {d : Die} {r : Run} {e : Ecc} (h : d.iss.run = some r) (hp : r.phase = .due) (hi : d.issueRuns = true)
    (he : eccBad e = true) : d.issueBundle e = d.landReadable.ecc e (some r.slot) { code := 0 } := by
  rw [Die.issueBundle, Die.issueStep_run h hi, if_pos hp]
  exact if_pos he

/-- The bundle fetched becomes the run's. -/
theorem Die.issueBundle_ok {s : State} {r q : Run} (h : s.die.iss.run = some r) (hp : r.phase = .due) (hs : Steady s)
    (hq : q = { r with bundle := s.die.fetchBundle r }) :
    s.die.issueBundle .ok =
      if bundleWait q.bundle then
        (s.die.withRun q).tryWait q fun d => (d.stallCycles 1).setRun fun r => { r with phase := .stalled 1 d.iss.waitLimit }
      else (s.die.withRun q).enterBundle := by
  rw [Die.issueBundle, Die.issueStep_steady h hs, if_pos hp, hq, ← Die.setRun_const h]
  rfl

/-! ### The bundle that issues -/

theorem Die.enterBundle_absent {d : Die} {q : Run} {k : Nat} (h : d.absentSlot q.slot q.bundle = some k) :
    (d.withRun q).enterBundle = ((d.withRun q).record 23 0x04 (some q.slot) q.pc k 0 0).abortSlot q.slot 0x04 := by
  rw [Die.enterBundle, Die.withRun_run]
  dsimp only
  rw [show (d.withRun q).absentSlot q.slot q.bundle = some k from h]

/-- A bundle without an absent unit enters its first issue cycle; one with nothing to act passes its cycles at once. -/
theorem Die.enterBundle_present {d : Die} {q : Run} (h : d.absentSlot q.slot q.bundle = none) :
    (d.withRun q).enterBundle =
      let e : Die := { d.withRun q.enter with err := { d.err with cycle := [] } }
      if (firstSlots q.bundle).isEmpty then (e.passCycles (bundleHold q.bundle + 1)).setRun Run.bundleEnd else e := by
  rw [Die.enterBundle, Die.withRun_run]
  dsimp only
  rw [show (d.withRun q).absentSlot q.slot q.bundle = none from h]
  rfl

/-- The lowest slot addressed to an absent unit. -/
theorem Die.absentSlot_some {d : Die} {i k : Nat} {b : BitVec 512} (h : d.absentSlot i b = some k) :
    k < 7 ∧ d.wordAbsent i k (slotWord b k) = true ∧ ∀ j < k, d.wordAbsent i j (slotWord b j) = false := by
  obtain ⟨hk, hm, hj⟩ := List.find?_range_eq_some.1 h
  exact ⟨List.mem_range.1 hm, hk, fun j hlt => by simpa using hj j hlt⟩

/-- The bundle at the run's address in its segment. -/
theorem Die.fetchBundle_seg {d : Die} {r : Run} {g : Segment} (h : (d.slot r.slot).seg = some g) :
    d.fetchBundle r = BitVec.ofNat 512 (leNat (Mem.read d.st.instr (64 * (g.base + r.pc)) 64)) := by
  rw [Die.fetchBundle, h]; rfl

theorem answers_bundleIssue {s : State} {e : Ecc} {d : Die} (h : s.die.issueBundle e = d) : Answers (.bundleIssue e) s d :=
  answers_of_act (exec_bundleIssue e s) h

/-- Settles O6: a bundle without a wait enters issue as `Die.enterBundle` says. -/
theorem bundleWithoutWaitIssues : Obligations.BundleWithoutWaitIssues := by
  refine ⟨fun s r e hr hp hi he => answers_bundleIssue (Die.issueBundle_bad hr hp hi he), ?_⟩
  intro s r g hr hp hs hg b r1 hw
  have hf : s.die.issueBundle .ok = (s.die.withRun { r with bundle := b }).enterBundle :=
    (Die.issueBundle_ok hr hp hs (by rw [Die.fetchBundle_seg hg])).trans (if_neg (by rw [hw]; exact Bool.false_ne_true))
  refine ⟨?_, fun ha hl => answers_bundleIssue (hf.trans ?_), fun ha hl => answers_bundleIssue (hf.trans ?_)⟩
  · intro k hk d
    obtain ⟨lt, this, lower⟩ := Die.absentSlot_some hk
    exact ⟨lt, this, lower, answers_bundleIssue (hf.trans (Die.enterBundle_absent hk))⟩
  · exact (Die.enterBundle_present (q := { r with bundle := b }) ha).trans (if_neg (by simpa using hl))
  · refine ((Die.enterBundle_present (q := { r with bundle := b }) ha).trans (if_pos (by simpa using hl))).trans ?_
    refine (Die.passCycles_setRun (d := { s.die.withRun r1 with err := { s.die.err with cycle := [] } }) (r := r1) rfl (bundleHold b + 1)
      Run.bundleEnd).trans ?_
    clear_value b
    rfl

end Sys2Proof.Machine
end

section
/-! O7: the wait of a bundle. -/

namespace Sys2Proof.Machine

/-! ### The wait -/

/-- The tally of a wait, inside the slot's window. -/
theorem Die.waitTally_window {d : Die} {q : Run} {g : Segment} (hg : (d.slot q.slot).seg = some g) (h : bundleTally q.bundle < g.tallies) :
    d.waitTally q = some (g.tallyBase + bundleTally q.bundle) := by
  rw [Die.waitTally, Die.physTally, hg]; exact if_pos h

/-- An error bit ends the context with its cause. -/
theorem Die.tryWait_err {d : Die} {q : Run} {p : Nat} (stall : Die → Die) (hw : d.waitTally q = some p) (h : (d.tally p).err = true) :
    d.tryWait q stall = d.abortSlot q.slot (d.tally p).cause := by
  rw [Die.tryWait, Die.waitErr, hw]; dsimp only; rw [if_pos h]

/-- A target that is met releases the bundle. -/
theorem Die.tryWait_met {d : Die} {q : Run} {p : Nat} (stall : Die → Die) (hw : d.waitTally q = some p) (h : (d.tally p).err = false)
    (hm : bundleTarget q.bundle ≤ (d.tally p).value.toNat) :
    d.tryWait q stall = (if bundleConsume q.bundle then
      d.updTally p fun t => { t with value := (d.tally p).value - BitVec.ofNat 24 (bundleTarget q.bundle) } else d).enterBundle := by
  have met : d.waitMet q = true := by rw [Die.waitMet, hw]; exact decide_eq_true hm
  rw [Die.tryWait, Die.waitErr, hw]
  dsimp only
  rw [if_neg (by rw [h]; exact Bool.false_ne_true)]
  dsimp only
  rw [if_pos met, Die.waitRelease, hw]
  rfl

/-- Otherwise `stall` follows. -/
theorem Die.tryWait_stall {d : Die} {q : Run} {p : Nat} (stall : Die → Die) (hw : d.waitTally q = some p) (h : (d.tally p).err = false)
    (hm : (d.tally p).value.toNat < bundleTarget q.bundle) : d.tryWait q stall = stall d := by
  have met : d.waitMet q = false := by rw [Die.waitMet, hw]; exact decide_eq_false (by omega)
  rw [Die.tryWait, Die.waitErr, hw]
  dsimp only
  rw [if_neg (by rw [h]; exact Bool.false_ne_true)]
  dsimp only
  rw [if_neg (by rw [met]; exact Bool.false_ne_true)]

/-- One stall cycle: the clock, the cycles that the run holds issue, and XFR_STALL_CYCLES of a context that is not confidential. -/
theorem Die.stallCycles_setRun {d : Die} {q : Run} (n m : Nat) :
    ((d.withRun q).stallCycles 1).setRun (fun r => { r with phase := .stalled n m }) = { d with
      glb := { d.glb with aclkCycles := inc64 d.glb.aclkCycles 1 }
      iss := { d.iss with
        cyc := d.iss.cyc + 1, owed := d.iss.owed - 1,
        stallCycles := if d.isConf q.slot then d.iss.stallCycles else inc64 d.iss.stallCycles 1,
        run := some { q with held := q.held + 1, cycles := if q.started then q.cycles + 1 else q.cycles, phase := .stalled n m } } } := rfl

/-! ### The commands at a stalled wait -/

theorem answers_tallyWaitRelease {s : State} {r : Run} {n lim : Nat} {d : Die} (hr : s.die.iss.run = some r) (hs : Steady s)
    (hp : r.phase = .stalled n lim)
    (h : ((s.die.withRun r).tryWait r fun d => if n < lim then (d.stallCycles 1).setRun fun r => { r with phase := .stalled (n + 1) lim } else d) = d) :
    Answers .tallyWaitRelease s d :=
  answers_of_act (exec_tallyWaitRelease s) (by rw [Die.withRun_self hr] at h; rw [Die.issueStep_steady hr hs, hp]; exact h)

theorem answers_tallyTimeout {s : State} {r : Run} {n lim : Nat} {d : Die} (hr : s.die.iss.run = some r) (hs : Steady s)
    (hp : r.phase = .stalled n lim) (hn : lim ≤ n)
    (h : ((s.die.withRun r).tryWait r fun d =>
      let p := (d.waitTally r).getD 0
      (d.record 22 0x03 (some r.slot) r.pc p (bundleTarget r.bundle) (d.tally p).value.toNat).abortSlot r.slot 0x03) = d) :
    Answers .tallyTimeout s d :=
  answers_of_act (exec_tallyTimeout s) (by
    rw [Die.withRun_self hr] at h; rw [Die.issueStep_steady hr hs, hp]; exact (if_neg (Nat.not_lt.2 hn)).trans h)

/-- Settles O7: the commands of a wait are `Die.tryWait` with what each does at a stall. -/
theorem waitReleasesStallsOrEnds : Obligations.WaitReleasesStallsOrEnds := by
  constructor
  · intro s r q g p n lim hr hs hg hq ht hp T v d released stalled
    have slot : q.slot = r.slot := by rcases hq with ⟨_, rfl⟩ | ⟨_, rfl⟩ <;> rfl
    have hw : d.waitTally q = some p := by rw [hp]; exact Die.waitTally_window (by rw [slot]; exact hg) ht
    have onErr (f : Die → Die) (he : (s.die.tally p).err = true) : d.tryWait q f = d.abortSlot r.slot (s.die.tally p).cause :=
      slot ▸ Die.tryWait_err f hw he
    have onMet (f : Die → Die) (he : (s.die.tally p).err = false) (hm : T ≤ v.toNat) : d.tryWait q f = released.enterBundle :=
      Die.tryWait_met f hw he hm
    have onStall (f : Die → Die) (he : (s.die.tally p).err = false) (hm : v.toNat < T) : d.tryWait q f = f d := Die.tryWait_stall f hw he hm
    have stall (k m : Nat) : ((s.die.withRun q).stallCycles 1).setRun (fun r => { r with phase := .stalled k m }) = stalled k m := by
      rw [Die.stallCycles_setRun, slot]
      rcases hq with ⟨_, rfl⟩ | ⟨_, rfl⟩ <;> rfl
    constructor
    · intro hd hb
      obtain ⟨-, hq⟩ | ⟨hp', -⟩ := hq
      · have wait : s.die.issueBundle .ok = _ := (Die.issueBundle_ok hr hd hs hq).trans (if_pos hb)
        exact ⟨fun he => answers_bundleIssue (wait.trans (onErr _ he)), fun he hm => answers_bundleIssue (wait.trans (onMet _ he hm)),
          fun he hm => answers_bundleIssue (wait.trans ((onStall _ he hm).trans (stall 1 _)))⟩
      · rw [hd] at hp'; cases hp'
    · intro hst
      obtain ⟨hp', -⟩ | ⟨-, rfl⟩ := hq
      · rw [hst] at hp'; cases hp'
      refine ⟨fun he => answers_tallyWaitRelease hr hs hst (onErr _ he), fun he hm => answers_tallyWaitRelease hr hs hst (onMet _ he hm),
        fun he hm hn => answers_tallyWaitRelease hr hs hst ((onStall _ he hm).trans ((if_pos hn).trans (stall (n + 1) lim))),
        fun he hn => answers_tallyTimeout hr hs hst hn (onErr _ he), fun he hm hn => answers_tallyTimeout hr hs hst hn (onMet _ he hm),
        fun he hm hn => answers_tallyTimeout hr hs hst hn ((onStall _ he hm).trans ?_)⟩
      dsimp only
      rw [hw, show d = s.die from Die.withRun_self hr]
      rfl
  · intro s r c hr hi hc landed hl hs
    rcases List.mem_cons.1 hc with rfl | hc
    · exact answers_issueStep_landed (exec_bundleIssue .ok) hr hi hl hs
    rcases List.mem_cons.1 hc with rfl | hc
    · exact answers_issueStep_landed exec_tallyWaitRelease hr hi hl hs
    · cases List.mem_singleton.1 hc
      exact answers_issueStep_landed exec_tallyTimeout hr hi hl hs

end Sys2Proof.Machine
end

section
/-! O19: results that are due land. -/

namespace Sys2Proof.Machine

/-! ### What is due first -/

/-- The entries due first by the cycle `cyc`, and those that stay: what the lists of the lane groups and of Mica share. -/
def dueFirst {α : Type} (ready : α → Nat) (cyc : Nat) (l : List α) : List α × List α :=
  match (l.map ready).min? with
  | some m => if m ≤ cyc then (l.filter fun x => decide (ready x = m), l.filter fun x => decide (ready x ≠ m)) else ([], l)
  | none => ([], l)

/-- A fold that keeps the lesser of what it has and the next is the minimum. -/
theorem foldl_least {α : Type} {ready : α → Nat} {step : Option Nat → α → Option Nat} (start : ∀ x, step none x = some (ready x))
    (next : ∀ m x, step (some m) x = some (min m (ready x))) (l : List α) : l.foldl step none = (l.map ready).min? := by
  have key : ∀ (l : List α) (m : Nat), l.foldl step (some m) = some ((l.map ready).foldl min m) := by
    intro l
    induction l with
    | nil => exact fun m => rfl
    | cons x l ih => exact fun m => by rw [List.foldl_cons, next, ih]; rfl
  cases l with
  | nil => rfl
  | cons x l => rw [List.foldl_cons, start, key]; rfl

theorem dueLandings_eq (cyc : Nat) (l : List Landing) : dueLandings cyc l = dueFirst Landing.ready cyc l := by
  have h : earliest l = (l.map Landing.ready).min? := foldl_least (fun _ => rfl) (fun _ _ => rfl) l
  unfold dueLandings dueFirst
  rw [h] <;> rfl

theorem dueJobs_eq (cyc : Nat) (l : List MicaJob) : dueJobs cyc l = dueFirst MicaJob.ready cyc l := by
  have h : l.foldl (fun (o : Option Nat) (x : MicaJob) => match o with | some m => some (min m x.ready) | none => some x.ready) none =
      (l.map MicaJob.ready).min? := foldl_least (fun _ => rfl) (fun _ _ => rfl) l
  unfold dueJobs dueFirst
  rw [← h] <;> rfl

section
variable {α : Type} {ready : α → Nat} {cyc t : Nat} {l : List α}

theorem dueFirst_none (h : ∀ x ∈ l, cyc < ready x) : dueFirst ready cyc l = ([], l) := by
  unfold dueFirst
  split
  · next m e =>
    obtain ⟨x, hx, rfl⟩ := List.mem_map.1 (List.min?_mem e)
    exact if_neg (Nat.not_le.2 (h x hx))
  · rfl

theorem dueFirst_some (hm : ∃ x ∈ l, ready x = t) (hle : ∀ x ∈ l, t ≤ ready x) (ht : t ≤ cyc) :
    dueFirst ready cyc l = (l.filter fun x => decide (ready x = t), l.filter fun x => decide (ready x ≠ t)) := by
  have least : (l.map ready).min? = some t := by
    rw [List.min?_eq_some_iff]
    exact ⟨List.mem_map.2 hm, fun b hb => by obtain ⟨x, hx, rfl⟩ := List.mem_map.1 hb; exact hle x hx⟩
  unfold dueFirst
  rw [least]
  exact if_pos ht

/-- The first of the entries due at `t`. -/
theorem filter_ready_cons (hm : ∃ x ∈ l, ready x = t) : ∃ x rest, (l.filter fun x => decide (ready x = t)) = x :: rest ∧ ready x = t := by
  cases e : l.filter fun x => decide (ready x = t) with
  | nil =>
    obtain ⟨x, hx, h⟩ := hm
    have := (List.filter_eq_nil_iff.1 e) x hx
    simp [h] at this
  | cons x rest =>
    have hx : x ∈ l.filter fun x => decide (ready x = t) := by rw [e]; simp
    exact ⟨x, rest, rfl, by simpa using (List.mem_filter.1 hx).2⟩
end

/-! ### The lane groups -/

theorem Die.vectorLand_none {d : Die} {e : Ecc} (h : ∀ x ∈ d.vec.landings, d.iss.cyc < x.ready) : d.vectorLand e = d := by
  unfold Die.vectorLand
  rw [dueLandings_eq, dueFirst_none h]

/-- With nothing wrong in the words written, no action's writes are discarded. -/
theorem Landing.spoilt_ok (l : Landing) : l.spoilt .ok = false := rfl
theorem PostJob.spoilt_ok (j : PostJob) : j.spoilt .ok = false := Bool.and_false _

theorem Die.vectorLand_some {d : Die} {t : Nat} (hm : ∃ x ∈ d.vec.landings, x.ready = t) (hle : ∀ x ∈ d.vec.landings, t ≤ x.ready)
    (ht : t ≤ d.iss.cyc) : d.vectorLand .ok = { d.readDue t with
      st := (d.vec.landings.filter fun x => decide (x.ready = t)).foldl Stores.land d.st,
      vec := { d.vec with landings := d.vec.landings.filter fun x => decide (x.ready ≠ t) } } := by
  obtain ⟨x, rest, e, rfl⟩ := filter_ready_cons hm
  have all : ((x :: rest).filter fun l => !((((x :: rest).filter fun l => l.spoilt .ok).map Landing.entry).contains l.entry)) = x :: rest := by
    simp [Landing.spoilt_ok]
  unfold Die.vectorLand
  rw [dueLandings_eq, dueFirst_some hm hle ht]
  dsimp only
  rw [e]
  dsimp only
  rw [all]
  rfl

/-! ### Mica -/

theorem MicaJob.readNow_ready (j : MicaJob) (st : Stores) (m : Nat) : (j.readNow st m).ready = j.ready := by
  unfold MicaJob.readNow; split <;> rfl

theorem Die.micaLand_none {d : Die} {e : Ecc} (h : ∀ x ∈ d.mca.jobs, d.iss.cyc < x.ready) : d.micaLand e = d := by
  unfold Die.micaLand
  rw [dueJobs_eq, dueFirst_none h]

theorem Die.micaLand_some {d : Die} {t : Nat} (hm : ∃ x ∈ d.mca.jobs, x.ready = t) (hle : ∀ x ∈ d.mca.jobs, t ≤ x.ready)
    (ht : t ≤ d.iss.cyc) :
    let d0 := d.readDue t
    d.micaLand .ok = { d0 with
      st := (d0.mca.jobs.filter fun x => decide (x.ready = t)).foldl (Stores.landMica .ok) d.st,
      mca := { d0.mca with jobs := d0.mca.jobs.filter fun x => decide (x.ready ≠ t) } } := by
  intro d0
  obtain ⟨x, rest, e, hx⟩ := filter_ready_cons hm
  have hm0 : ∃ y ∈ d0.mca.jobs, y.ready = t := by
    obtain ⟨y, hy, h⟩ := hm
    exact ⟨y.readNow d.st t, List.mem_map_of_mem hy, (MicaJob.readNow_ready y _ _).trans h⟩
  have hle0 : ∀ y ∈ d0.mca.jobs, t ≤ y.ready := by
    intro y hy
    obtain ⟨z, hz, rfl⟩ := List.mem_map.1 hy
    rw [MicaJob.readNow_ready]; exact hle z hz
  unfold Die.micaLand
  rw [dueJobs_eq, dueFirst_some hm hle ht]
  dsimp only
  rw [e]
  dsimp only
  rw [hx, dueJobs_eq, dueFirst_some (cyc := (d.readDue t).iss.cyc) (l := (d.readDue t).mca.jobs) hm0 hle0 ht]
  rfl

/-! ### The post unit -/

/-- The first of the earliest results: the strictly lesser of what is kept and the next. -/
def PostJob.firstOf (o : Option PostJob) (x : PostJob) : Option PostJob :=
  match o with | some j => if x.ready < j.ready then some x else some j | none => some x

theorem firstOf_head {j : PostJob} {l : List PostJob} (h : ∀ y ∈ l, j.ready < y.ready) : l.foldl PostJob.firstOf (some j) = some j :=
  foldl_pred (P := fun o => o = some j) rfl fun o x hx e => by
    rw [e]; exact if_neg (Nat.not_lt.2 (Nat.le_of_lt (h x hx)))

theorem firstOf_mem {l : List PostJob} {j : PostJob} (h : l.foldl PostJob.firstOf none = some j) : j ∈ l := by
  have key : ∀ j, l.foldl PostJob.firstOf none = some j → j ∈ l := by
    apply foldl_pred (P := fun o : Option PostJob => ∀ j, o = some j → j ∈ l)
    · intro j e; cases e
    · intro o x hx ho j e
      cases o with
      | none => cases e; exact hx
      | some y =>
        unfold PostJob.firstOf at e
        dsimp only at e
        split at e
        · cases e; exact hx
        · exact ho j e
  exact key j h

/-- What the post unit lands, by the first of its earliest results. -/
theorem Die.postLand_eq (d : Die) : d.postLand .ok =
    match d.pst.jobs.foldl PostJob.firstOf none with
    | some j =>
      if j.ready ≤ d.iss.cyc then
        (d.pst.jobs.filter fun x => decide (x.ready = j.ready)).foldl (Die.landPost []) { d.readDue j.ready with
          pst := { d.pst with jobs := d.pst.jobs.filter fun x => decide (x.ready ≠ j.ready) } }
      else d
    | none => d := by
  have clean (due : List PostJob) : (due.filter fun x => x.spoilt .ok) = [] := by simp [PostJob.spoilt_ok]
  unfold Die.postLand
  simp only [clean, List.map_nil] <;> rfl

/-- A result of which nothing is spoilt is written if it is inside the grant, and counted unless its context is confidential. -/
theorem Die.landPost_clean (d : Die) (j : PostJob) : d.landPost [] j = { d with
    st := if j.ok then d.st.write j.space j.addr j.data else d.st,
    pst := if d.isConf j.slot then d.pst else
      { d.pst with sat := satInc32 d.pst.sat j.sats, narrow := d.pst.narrow || j.nan, allNan := d.pst.allNan || j.allNan,
                   results := inc64 d.pst.results (if j.ok then 1 else 0) } } := by
  have ok : (j.ok && !([] : List Nat).contains j.entry) = j.ok := Bool.and_true _
  unfold Die.landPost
  rw [ok]
  cases j.ok
  · show (if d.isConf j.slot then d else _) = _
    split <;> rfl
  · show (if d.isConf j.slot then { d with st := d.st.write j.space j.addr j.data } else _) = _
    split <;> rfl

theorem Die.postLand_none {d : Die} (h : ∀ x ∈ d.pst.jobs, d.iss.cyc < x.ready) : d.postLand .ok = d := by
  rw [Die.postLand_eq]
  split
  · next j e => exact if_neg (Nat.not_le.2 (h j (firstOf_mem e)))
  · rfl

theorem Die.postLand_head {d : Die} {x : PostJob} {rest : List PostJob} (hj : d.pst.jobs = x :: rest) (hr : ∀ y ∈ rest, x.ready < y.ready)
    (ht : x.ready ≤ d.iss.cyc) : d.postLand .ok = Die.landPost [] { d.readDue x.ready with pst := { d.pst with jobs := rest } } x := by
  have due : (x :: rest).filter (fun y => decide (y.ready = x.ready)) = [x] := by
    rw [List.filter_cons_of_pos (by simp), List.filter_eq_nil_iff.2]
    intro y hy; simpa using Nat.ne_of_gt (hr y hy)
  have later : (x :: rest).filter (fun y => decide (y.ready ≠ x.ready)) = rest := by
    rw [List.filter_cons_of_neg (by simp), List.filter_eq_self]
    intro y hy; simpa using Nat.ne_of_gt (hr y hy)
  rw [Die.postLand_eq, hj, List.foldl_cons, show PostJob.firstOf none x = some x from rfl, firstOf_head hr]
  dsimp only
  rw [if_pos ht, due, later]
  rfl

/-- Settles O19: each unit lands what is due first of its list, or nothing. -/
theorem dueResultsLand : Obligations.DueResultsLand := by
  intro s l m
  have vector {e d} (h : s.die.vectorLand e = d) : Answers (.vectorResult e) s d := answers_of_act (exec_vectorResult e s) h
  have mica {e d} (h : s.die.micaLand e = d) : Answers (.micaResult e) s d := answers_of_act (exec_micaResult e s) h
  have post {e d} (h : s.die.postLand e = d) : Answers (.postResult e) s d := answers_of_act (exec_postResult e s) h
  refine ⟨fun h => vector (Die.vectorLand_none h), fun t hm hle ht => vector (Die.vectorLand_some hm hle ht),
    fun h => mica (Die.micaLand_none h), fun t hm hle ht => mica (Die.micaLand_some hm hle ht), fun x rest hj hr ht => ?_,
    fun h => post (Die.postLand_none h)⟩
  refine ⟨_, post ((Die.postLand_head hj hr ht).trans (Die.landPost_clean _ _)), ?_, ?_, rfl, rfl⟩
  · dsimp only
    split <;> rfl
  · dsimp only
    rw [show ({ s.die.readDue x.ready with pst := { s.die.pst with jobs := rest } } : Die).isConf x.slot = s.die.isConf x.slot from rfl]
    split <;> rfl

end Sys2Proof.Machine
end

section
/-! O21: launches and stops arrive at the threads. -/

namespace Sys2Proof.Machine

theorem forUpto_succ {σ : Type} (n : Nat) (f : Nat → σ → σ) (a : σ) : forUpto (n + 1) f a = f n (forUpto n f a) := by
  simp [forUpto, List.range_succ]

/-- Induction over a loop: what holds of its start, and of the state after each round from that before it, holds at its end. -/
theorem forUpto_induct {σ : Type} {P : Nat → σ → Prop} {f : Nat → σ → σ} {a : σ} (n : Nat) (start : P 0 a)
    (round : ∀ k b, k < n → P k b → P (k + 1) (f k b)) : P n (forUpto n f a) := by
  induction n with
  | zero => exact start
  | succ n ih => rw [forUpto_succ]; exact round n _ (Nat.lt_succ_self n) (ih fun k b h => round k b (Nat.lt_succ_of_lt h))

/-! ### What an arriving command changes -/

/-- The threads and the KV manager's state of the die replaced. -/
def Die.withThreads (d : Die) (threads : Tab Thread) (kvp : Kvp) : Die := { d with xfr := { d.xfr with threads := threads }, kvp := kvp }

theorem Die.retireIfFree_eq (d : Die) (q : Nat) : d.retireIfFree q = { d with kvp := (d.retireIfFree q).kvp } := by
  have key : d.retireIfFree q = { d with kvp := { d.kvp with queue := d.kvp.queue ++ [.retire q] } } ∨ d.retireIfFree q = d :=
    ite_eq_or_eq _ _ _
  rcases key with h | h <;> rw [h]

theorem Die.retireIfFree_kvp {d e : Die} (q : Nat) (h : d.kvp = e.kvp) : (d.retireIfFree q).kvp = (e.retireIfFree q).kvp := by
  unfold Die.retireIfFree Die.seq
  dsimp only
  rw [apply_ite Die.kvp, apply_ite Die.kvp, h]

/-- The sequence's half that a closing pass holds has one hold less. -/
def Pass.unhold (p : Pass) (x : Seq) : Seq := if p.half then { x with hold1 := x.hold1 - 1 } else { x with hold0 := x.hold0 - 1 }

theorem Die.closePass_some {d : Die} {t : Nat} {p : Pass} (h : (d.thread t).pass = some p) :
    d.closePass t = ((d.updSeq p.seq p.unhold).updThread t fun y => { y with pass := none }).retireIfFree p.seq := by
  rw [Die.closePass, h]; rfl

theorem Die.closePass_none {d : Die} {t : Nat} (h : (d.thread t).pass = none) : d.closePass t = d := by rw [Die.closePass, h]

/-- A pass that closes leaves its thread, and changes no other thread and nothing beside the KV manager. -/
theorem Die.closePass_threads {d : Die} (t : Nat) (w : Tab.wf {} d.xfr.threads = true) :
    ∃ threads kvp, d.closePass t = d.withThreads threads kvp ∧ Tab.wf {} threads = true ∧
      ∀ p, Tab.read {} threads p = if p = t then { d.thread t with pass := none } else d.thread p := by
  cases h : (d.thread t).pass with
  | none =>
    refine ⟨d.xfr.threads, d.kvp, Die.closePass_none h, w, fun p => ?_⟩
    split
    · next e => subst e; show d.thread p = _; rw [← h]
    · rfl
  | some q =>
    rw [Die.closePass_some h, Die.retireIfFree_eq]
    exact ⟨Tab.upd {} d.xfr.threads t fun y => { y with pass := none }, _, rfl, Tab.wf_upd t _ w, fun p => Tab.read_upd t p _ w⟩

/-- What it makes of the KV manager depends on the manager and the thread's pass alone. -/
theorem Die.closePass_kvp {d e : Die} (t : Nat) (hk : d.kvp = e.kvp) (hp : (d.thread t).pass = (e.thread t).pass) :
    (d.closePass t).kvp = (e.closePass t).kvp := by
  cases h : (e.thread t).pass with
  | none => rw [Die.closePass_none h, Die.closePass_none (hp.trans h), hk]
  | some q =>
    rw [Die.closePass_some h, Die.closePass_some (hp.trans h)]
    apply Die.retireIfFree_kvp
    show { d.kvp with seqs := Tab.upd {} d.kvp.seqs q.seq q.unhold } = { e.kvp with seqs := Tab.upd {} e.kvp.seqs q.seq q.unhold }
    rw [hk]

section
variable {d : Die} {e : LaunchEntry} {g : Segment}

/-- The `k`-th thread of the entry's range, when it lies in the segment's window. -/
def LaunchEntry.names (e : LaunchEntry) (g : Segment) (n p : Nat) : Prop :=
  g.thrBase + e.first ≤ p ∧ p < g.thrBase + e.first + n ∧ p < g.thrBase + g.threads

/-- The threads of the range that a launch starts. -/
def Die.starts (d : Die) (e : LaunchEntry) (g : Segment) (k : Nat) : Bool :=
  decide (e.first + k < g.threads) && !(d.thread (g.thrBase + e.first + k)).running

/-- A stop of the first `n` threads of the range. -/
theorem Die.stopOnes_threads (w : Tab.wf {} d.xfr.threads = true) (hg : (d.slot e.slot).seg = some g) (n : Nat) :
    ∃ threads, forUpto n (fun k d => d.stopOne e k) d = d.withThreads threads d.kvp ∧ Tab.wf {} threads = true ∧
      (∀ p, e.names g n p → Tab.read {} threads p = (d.thread p).stop) ∧ ∀ p, ¬ e.names g n p → Tab.read {} threads p = d.thread p := by
  apply forUpto_induct (P := fun n b => ∃ threads, b = d.withThreads threads d.kvp ∧ Tab.wf {} threads = true ∧
      (∀ p, e.names g n p → Tab.read {} threads p = (d.thread p).stop) ∧ ∀ p, ¬ e.names g n p → Tab.read {} threads p = d.thread p)
  · exact ⟨d.xfr.threads, rfl, w, fun p h => by unfold LaunchEntry.names at h; omega, fun p _ => rfl⟩
  · rintro k _ - ⟨threads, rfl, wt, named, other⟩
    unfold Die.stopOne
    rw [show ((d.withThreads threads d.kvp).slot e.slot).seg = some g from hg]
    dsimp only
    split
    · next hk =>
      refine ⟨Tab.upd {} threads (g.thrBase + e.first + k) Thread.stop, rfl, Tab.wf_upd _ _ wt, fun p h => ?_, fun p h => ?_⟩
      · rw [Tab.read_upd _ _ _ wt]
        split
        · next hp => rw [other _ (by unfold LaunchEntry.names; omega), hp]
        · next hp => exact named p (by unfold LaunchEntry.names at h ⊢; omega)
      · unfold LaunchEntry.names at h
        rw [Tab.read_upd_ne _ wt (by omega)]
        exact other p (by unfold LaunchEntry.names; omega)
    · next hk =>
      refine ⟨threads, rfl, wt, fun p h => named p ?_, fun p h => other p ?_⟩
      · unfold LaunchEntry.names at h ⊢; omega
      · unfold LaunchEntry.names at h ⊢; omega

/-- The first `n` rounds' started threads give back the passes that they still held closed. -/
def Die.closeStarted (d : Die) (e : LaunchEntry) (g : Segment) (n : Nat) : Die :=
  ((List.range n).filter (d.starts e g)).foldl (fun (d : Die) k => d.closePass (g.thrBase + e.first + k)) d

theorem Die.closeStarted_succ (d : Die) (e : LaunchEntry) (g : Segment) (n : Nat) :
    d.closeStarted e g (n + 1) =
      if d.starts e g n = true then (d.closeStarted e g n).closePass (g.thrBase + e.first + n) else d.closeStarted e g n := by
  unfold Die.closeStarted
  rw [List.range_succ, List.filter_append, List.foldl_append]
  by_cases h : d.starts e g n = true
  · rw [if_pos h, List.filter_cons_of_pos h]; rfl
  · rw [if_neg h, List.filter_cons_of_neg h]; rfl

/-- A thread that no round has come to is as it was. -/
theorem Die.closeStarted_thread (w : Tab.wf {} d.xfr.threads = true) (n : Nat) :
    Tab.wf {} (d.closeStarted e g n).xfr.threads = true ∧
      ∀ p, g.thrBase + e.first + n ≤ p → (d.closeStarted e g n).thread p = d.thread p := by
  induction n with
  | zero => exact ⟨w, fun _ _ => rfl⟩
  | succ n ih =>
    obtain ⟨wf, same⟩ := ih
    rw [Die.closeStarted_succ]
    split
    · obtain ⟨threads, kvp, eq, wt, ht⟩ := Die.closePass_threads (g.thrBase + e.first + n) wf
      rw [eq]
      exact ⟨wt, fun p hp => ((ht p).trans (if_neg (by omega))).trans (same p (by omega))⟩
    · exact ⟨wf, fun p hp => same p (by omega)⟩

/-- Bundle issue's state replaced. -/
def Die.withIss (d : Die) (i : Issue) : Die := { d with iss := i }

theorem Die.retireIfFree_iss (d : Die) (q : Nat) (i : Issue) : (d.withIss i).retireIfFree q = (d.retireIfFree q).withIss i := by
  unfold Die.retireIfFree
  dsimp only
  rw [apply_ite (fun d : Die => d.withIss i)]
  rfl

/-- Bundle issue has no part in a pass that closes. -/
theorem Die.closePass_iss (d : Die) (t : Nat) (i : Issue) : (d.withIss i).closePass t = (d.closePass t).withIss i := by
  cases h : (d.thread t).pass with
  | none => rw [Die.closePass_none h, Die.closePass_none (d := d.withIss i) h]
  | some p =>
    rw [Die.closePass_some h, Die.closePass_some (d := d.withIss i) h]
    exact ((d.updSeq p.seq p.unhold).updThread t fun y => { y with pass := none }).retireIfFree_iss p.seq i

theorem Die.closeStarted_iss (d : Die) (e : LaunchEntry) (g : Segment) (n : Nat) (i : Issue) :
    (d.withIss i).closeStarted e g n = (d.closeStarted e g n).withIss i :=
  List.foldl_hom (fun d : Die => d.withIss i) fun d _ => d.closePass_iss _ i

theorem Die.starts_not (d : Die) (e : LaunchEntry) (g : Segment) (k : Nat) :
    (!d.starts e g k) = decide (g.threads ≤ e.first + k ∨ (d.thread (g.thrBase + e.first + k)).running = true) := by
  unfold Die.starts
  cases (d.thread (g.thrBase + e.first + k)).running <;> by_cases h : e.first + k < g.threads <;> simp [h] <;> omega

/-- A saturating counter that holds a saturated sum. -/
theorem satInc32_w32 (n k : Nat) : satInc32 (w32 (min 0xFFFFFFFF n)) k = w32 (min 0xFFFFFFFF (n + k)) := by
  have small : (w32 (min 0xFFFFFFFF n)).toNat = min 0xFFFFFFFF n := Nat.mod_eq_of_lt (by omega)
  rw [satInc32, satAdd, small, show min 0xFFFFFFFF (min 0xFFFFFFFF n + k) = min 0xFFFFFFFF (n + k) by omega]

/-- What a launch of the first `n` threads of its range makes of the die `d`. -/
structure Launched (d : Die) (e : LaunchEntry) (g : Segment) (n : Nat) (b : Die) : Prop where
  frame : b = { d.withThreads b.xfr.threads b.kvp with iss := { d.iss with launchDrop := b.iss.launchDrop } }
  wf : Tab.wf {} b.xfr.threads = true
  started : ∀ p, e.names g n p → (d.thread p).running = false → b.thread p = startThread e (p - (g.thrBase + e.first)) (d.thread p).failed
  other : ∀ p, ¬ e.names g n p ∨ (d.thread p).running = true → b.thread p = d.thread p
  closed : b.kvp = (d.closeStarted e g n).kvp
  dropped : b.iss.launchDrop = if d.isConf e.slot then d.iss.launchDrop
    else w32 (min 0xFFFFFFFF (d.iss.launchDrop.toNat + ((List.range n).filter fun k => !d.starts e g k).length))

theorem LaunchEntry.names_succ (e : LaunchEntry) (g : Segment) (k p : Nat) :
    e.names g (k + 1) p ↔ e.names g k p ∨ (p = g.thrBase + e.first + k ∧ e.first + k < g.threads) := by
  unfold LaunchEntry.names; omega

theorem Launched.zero (w : Tab.wf {} d.xfr.threads = true) : Launched d e g 0 d := by
  refine ⟨rfl, w, fun p h => ?_, fun p _ => rfl, rfl, ?_⟩
  · unfold LaunchEntry.names at h; omega
  · split
    · rfl
    · have := d.iss.launchDrop.isLt
      apply BitVec.eq_of_toNat_eq
      show _ = min 0xFFFFFFFF (d.iss.launchDrop.toNat + 0) % 2 ^ 32
      omega

/-- The round of a thread that starts. -/
theorem Launched.start {b : Die} {k : Nat} (h : Launched d e g k b) (w : Tab.wf {} d.xfr.threads = true) (hs : d.starts e g k = true) :
    Launched d e g (k + 1) ((b.closePass (g.thrBase + e.first + k)).updThread (g.thrBase + e.first + k) fun x => startThread e k x.failed) := by
  have cond : e.first + k < g.threads ∧ (d.thread (g.thrBase + e.first + k)).running = false := by simpa [Die.starts] using hs
  have here : b.thread (g.thrBase + e.first + k) = d.thread (g.thrBase + e.first + k) :=
    h.other _ (.inl (by unfold LaunchEntry.names; omega))
  have kvp : (b.closePass (g.thrBase + e.first + k)).kvp = (d.closeStarted e g (k + 1)).kvp := by
    rw [Die.closeStarted_succ, if_pos hs]
    exact Die.closePass_kvp _ h.closed (by rw [here, (Die.closeStarted_thread w k).2 _ (Nat.le_refl _)])
  obtain ⟨threads, kvp', eq, wt, ht⟩ := Die.closePass_threads (g.thrBase + e.first + k) h.wf
  have read (p : Nat) : ((b.closePass (g.thrBase + e.first + k)).updThread (g.thrBase + e.first + k) fun x => startThread e k x.failed).thread p =
      if p = g.thrBase + e.first + k then startThread e k (d.thread p).failed else b.thread p := by
    rw [eq]
    refine (Die.updThread_thread (b.withThreads threads kvp') _ _ p wt).trans ?_
    split
    · next hp => rw [show (b.withThreads threads kvp').thread _ = _ from ht _, if_pos rfl, here, hp]
    · next hp => exact (ht p).trans (if_neg hp)
  refine ⟨?_, ?_, fun p hp hr => ?_, fun p hp => ?_, kvp, ?_⟩
  · obtain ⟨T, K, L, rfl⟩ : ∃ T K L, b = { d.withThreads T K with iss := { d.iss with launchDrop := L } } := ⟨_, _, _, h.frame⟩
    rw [eq]; rfl
  · rw [eq]; exact Die.wf_updThread (b.withThreads threads kvp') _ _ wt
  · rw [read]
    split
    · next h' => rw [h', Nat.add_sub_cancel_left]
    · next h' =>
      have := (e.names_succ g k p).1 hp
      exact h.started p (by tauto) hr
  · rw [read]
    have ns := e.names_succ g k p
    split
    · next h' => subst h'; rw [cond.2] at hp; simp at hp; exact absurd (ns.2 (.inr ⟨rfl, cond.1⟩)) hp
    · next h' => exact h.other p (by tauto)
  · rw [eq]
    show b.iss.launchDrop = _
    rw [h.dropped, List.range_succ, List.filter_append, List.filter_cons_of_neg (by simp [hs])]
    simp

/-- The round of a thread that does not start. -/
theorem Launched.drop {b : Die} {k : Nat} (h : Launched d e g k b) (hs : ¬ d.starts e g k = true) :
    Launched d e g (k + 1) (b.launchDrop e.slot 1) := by
  have cond : e.first + k < g.threads → (d.thread (g.thrBase + e.first + k)).running = true := by simpa [Die.starts] using hs
  have ns (p : Nat) := e.names_succ g k p
  have conf : b.isConf e.slot = d.isConf e.slot := by rw [h.frame]; rfl
  have count : ((List.range (k + 1)).filter fun j => !d.starts e g j).length = ((List.range k).filter fun j => !d.starts e g j).length + 1 := by
    rw [List.range_succ, List.filter_append, List.filter_cons_of_pos (by simpa using hs)]; simp
  have only : b.launchDrop e.slot 1 = { b with iss := { b.iss with launchDrop := (b.launchDrop e.slot 1).iss.launchDrop } } := by
    unfold Die.launchDrop; split <;> rfl
  have thread (p : Nat) : (b.launchDrop e.slot 1).thread p = b.thread p := by rw [only]; rfl
  refine ⟨?_, ?_, fun p hp hr => ?_, fun p hp => ?_, ?_, ?_⟩
  · obtain ⟨T, K, L, rfl⟩ : ∃ T K L, b = { d.withThreads T K with iss := { d.iss with launchDrop := L } } := ⟨_, _, _, h.frame⟩
    rw [only]; rfl
  · rw [only]; exact h.wf
  · rw [thread]
    refine h.started p (((ns p).1 hp).resolve_right ?_) hr
    rintro ⟨rfl, lt⟩
    rw [cond lt] at hr; cases hr
  · rw [thread]
    exact h.other p (hp.imp_left fun n n' => n ((ns p).2 (.inl n')))
  · rw [only, Die.closeStarted_succ, if_neg hs]; exact h.closed
  · unfold Die.launchDrop
    rw [count, conf]
    split
    · next c => rw [h.dropped, if_pos c]
    · next c =>
      show satInc32 b.iss.launchDrop 1 = _
      rw [h.dropped, if_neg c, satInc32_w32, Nat.add_assoc]

theorem Die.launchOnes (w : Tab.wf {} d.xfr.threads = true) (hg : (d.slot e.slot).seg = some g) (n : Nat) :
    Launched d e g n (forUpto n (fun k d => d.launchOne e k) d) := by
  apply forUpto_induct (P := Launched d e g)
  · exact Launched.zero w
  · intro k b _ ih
    have hg' : (b.slot e.slot).seg = some g := by rw [ih.frame]; exact hg
    have here : b.thread (g.thrBase + e.first + k) = d.thread (g.thrBase + e.first + k) :=
      ih.other _ (.inl (by unfold LaunchEntry.names; omega))
    unfold Die.launchOne
    rw [hg']
    dsimp only
    rw [here]
    by_cases hs : d.starts e g k = true
    · have cond : e.first + k < g.threads ∧ (d.thread (g.thrBase + e.first + k)).running = false := by simpa [Die.starts] using hs
      rw [if_pos cond]
      exact ih.start w hs
    · have cond : ¬ (e.first + k < g.threads ∧ (d.thread (g.thrBase + e.first + k)).running = false) := by simpa [Die.starts] using hs
      rw [if_neg cond]
      exact ih.drop hs
end

/-! ### The FIFO's oldest entry -/

theorem Die.arriveLaunch_off {d : Die} {stop : Bool} (h : d.xfrRuns = false) : d.arriveLaunch stop = d := by
  unfold Die.arriveLaunch
  split
  · rfl
  · exact if_neg fun c => by rw [h] at c; exact Bool.false_ne_true c.2

section
variable {d : Die} {e : LaunchEntry} {rest : List LaunchEntry} {stop : Bool}

theorem Die.arriveLaunch_other (hf : d.iss.fifo = e :: rest) (h : e.stop ≠ stop) : d.arriveLaunch stop = d := by
  rw [Die.arriveLaunch, hf]; exact if_neg fun c => h c.1

theorem Die.arriveLaunch_dead (hf : d.iss.fifo = e :: rest) (h : e.stop = stop) (hx : d.xfrRuns = true) (hd : e.dead = true) :
    d.arriveLaunch stop = { d with iss := { d.iss with fifo := rest } } := by
  rw [Die.arriveLaunch, hf]; exact (if_pos ⟨h, hx⟩).trans (if_pos hd)

theorem Die.arriveLaunch_live (hf : d.iss.fifo = e :: rest) (h : e.stop = stop) (hx : d.xfrRuns = true) (hd : e.dead = false) :
    d.arriveLaunch stop =
      forUpto e.count (fun k d => if stop then d.stopOne e k else d.launchOne e k) { d with iss := { d.iss with fifo := rest } } := by
  rw [Die.arriveLaunch, hf]; exact (if_pos ⟨h, hx⟩).trans (if_neg (by rw [hd]; exact Bool.false_ne_true))
end

/-- Settles O21: the entry is taken off, and each round starts or stops one thread of its range (`Die.launchOnes`, `Die.stopOnes_threads`). -/
theorem arrivalStartsOrStopsTheThreads : Obligations.ArrivalStartsOrStopsTheThreads := by
  intro s e rest g hf hg w
  have launch {d} (h : s.die.arriveLaunch false = d) : Answers .threadLaunchArrive s d := answers_of_act (exec_threadLaunchArrive s) h
  have stop {d} (h : s.die.arriveLaunch true = d) : Answers .threadStopArrive s d := answers_of_act (exec_threadStopArrive s) h
  refine ⟨fun hx => ⟨launch (Die.arriveLaunch_off hx), stop (Die.arriveLaunch_off hx)⟩, fun hx => ?_⟩
  intro popped inRange
  refine ⟨fun hd hs => launch (Die.arriveLaunch_dead hf hs hx hd), fun hd hs => stop (Die.arriveLaunch_dead hf hs hx hd),
    fun hs => launch (Die.arriveLaunch_other hf (by rw [hs]; decide)), fun hs => stop (Die.arriveLaunch_other hf (by rw [hs]; decide)),
    fun hd hs => ?_, fun hd hs => ?_⟩
  · have l : Launched popped e g e.count (forUpto e.count (fun k d => d.launchOne e k) popped) :=
      Die.launchOnes (d := popped) w hg e.count
    have eq : s.die.arriveLaunch false = forUpto e.count (fun k d => d.launchOne e k) popped := Die.arriveLaunch_live hf hs hx hd
    refine ⟨_, launch eq, fun p hp hr => l.started p hp hr, l.other, ?_, ?_, ?_⟩
    · rw [l.dropped, show (fun k => !popped.starts e g k) = _ from funext fun k => s.die.starts_not e g k]; rfl
    · rw [l.closed]; exact (congrArg Die.kvp (s.die.closeStarted_iss e g e.count popped.iss) :)
    · exact l.frame
  · obtain ⟨threads, eq, -, named, other⟩ := Die.stopOnes_threads (d := popped) w hg e.count
    exact ⟨_, stop ((Die.arriveLaunch_live hf hs hx hd).trans eq), named, other, rfl⟩

end Sys2Proof.Machine
end

section
/-! O25: the slot that synchronises. -/

namespace Sys2Proof.Machine

/-! ### Reads of destinations are made once -/

theorem Stores.length_read (st : Stores) (space a n : Nat) : (st.read space a n).length = n := by
  unfold Stores.read
  split
  · exact Mem.length_read _ _ _
  · split
    · exact Mem.length_read _ _ _
    · split
      · exact Mem.length_read _ _ _
      · exact List.length_replicate

theorem Stores.read_zero (st : Stores) (space a : Nat) : st.read space a 0 = [] := List.eq_nil_of_length_eq_zero (st.length_read space a 0)

/-- The bytes that a plane's statistics have read stay read. -/
theorem Plane.statDue_statDue (p : Plane) (st st' : Stores) (m : Nat) : (p.statDue st m).statDue st' m = p.statDue st m := by
  cases h : p.statRead with
  | none =>
    have e (st : Stores) : p.statDue st m = p := by rw [Plane.statDue, h]
    rw [e, e]
  | some q =>
    let n := 512 * min (q.len / 512) (m - q.start)
    have e : p.statDue st m = { p with
      stats := p.stats ++ st.read q.space (q.addr + p.stats.length) (n - p.stats.length),
      statRead := if q.last < m then none else some q } := by rw [Plane.statDue, h]
    rw [e]
    by_cases hm : q.last < m
    · rw [if_pos hm]; rfl
    · rw [if_neg hm, Plane.statDue]
      dsimp only
      rw [if_neg hm, List.length_append, Stores.length_read, show n - (p.stats.length + (n - p.stats.length)) = 0 by omega,
        Stores.read_zero, List.append_nil]

section
variable (d d' : Die) (acc vals : RowFlight → Nat) (m : Nat) (q : RowFlight)

theorem Die.readRow_part : (d.readRow acc vals q).part ≠ none := by
  unfold Die.readRow
  split
  · exact Option.some_ne_none _
  · assumption

theorem Die.readRow_entry : (d.readRow acc vals q).entry = q.entry := by unfold Die.readRow; split <;> rfl

theorem Die.readRow_plane : (d.readRow acc vals q).plane = q.plane := by unfold Die.readRow; split <;> rfl

/-- An engine's row on its way when the reads due by cycle `m` have been made. -/
def RowFlight.readBy : RowFlight :=
  let q := { q with plane := q.plane.statDue d.st m }
  if q.entry + 512 ≤ m then d.readRow RowFlight.acc RowFlight.vals q else q

theorem RowFlight.readBy_entry : (q.readBy d m).entry = q.entry := by
  unfold RowFlight.readBy
  dsimp only
  split
  · exact Die.readRow_entry _ _ _ _
  · rfl

theorem RowFlight.readBy_plane : (q.readBy d m).plane = q.plane.statDue d.st m := by
  unfold RowFlight.readBy
  dsimp only
  split
  · exact Die.readRow_plane _ _ _ _
  · rfl

theorem RowFlight.readBy_part (h : q.entry + 512 ≤ m) : (q.readBy d m).part ≠ none := by
  unfold RowFlight.readBy
  dsimp only
  rw [if_pos h]
  exact Die.readRow_part _ _ _ _

/-- A row of which nothing is left to read stays as it is. -/
theorem RowFlight.readBy_of_read (hp : q.plane.statDue d.st m = q.plane) (hr : q.entry + 512 ≤ m → q.part ≠ none) : q.readBy d m = q := by
  unfold RowFlight.readBy
  rw [hp]
  dsimp only
  split
  · next h => exact if_neg (hr h)
  · rfl

theorem RowFlight.readBy_readBy : (q.readBy d m).readBy d' m = q.readBy d m := by
  apply RowFlight.readBy_of_read
  · rw [RowFlight.readBy_plane, Plane.statDue_statDue]
  · intro h
    rw [RowFlight.readBy_entry] at h
    exact RowFlight.readBy_part d m q h

theorem Engine.readDue_readDue (e : Engine) : (e.readDue d m).readDue d' m = e.readDue d m := by
  have flight : (e.flight.map (RowFlight.readBy d m)).map (RowFlight.readBy d' m) = e.flight.map (RowFlight.readBy d m) := by
    rw [List.map_map]; exact List.map_congr_left fun q _ => RowFlight.readBy_readBy d d' m q
  show ({ e with flight := (e.flight.map (RowFlight.readBy d m)).map (RowFlight.readBy d' m),
                 plane0 := (e.plane0.statDue d.st m).statDue d'.st m,
                 plane1 := (e.plane1.statDue d.st m).statDue d'.st m } : Engine) =
    { e with flight := e.flight.map (RowFlight.readBy d m), plane0 := e.plane0.statDue d.st m, plane1 := e.plane1.statDue d.st m }
  rw [flight, Plane.statDue_statDue, Plane.statDue_statDue]

/-- Flint's row when the reads due by cycle `m` have been made. -/
def RowFlight.flintBy : RowFlight := if q.entry + 128 ≤ m then d.readRow (fun q => flAcc q.word.toNat) RowFlight.ncol q else q

theorem RowFlight.flintBy_flintBy : (q.flintBy d m).flintBy d' m = q.flintBy d m := by
  by_cases h : q.entry + 128 ≤ m
  · have e : q.flintBy d m = d.readRow (fun q => flAcc q.word.toNat) RowFlight.ncol q := if_pos h
    rw [e, RowFlight.flintBy, Die.readRow_entry, if_pos h]
    exact if_neg (Die.readRow_part _ _ _ _)
  · have e (d : Die) : q.flintBy d m = q := if_neg h
    rw [e, e]
end

theorem MicaJob.readNow_readNow (j : MicaJob) (st st' : Stores) (m : Nat) : (j.readNow st m).readNow st' m = j.readNow st m := by
  by_cases h : (j.macc && decide (j.op = 3) && j.old.isNone && decide (j.ready ≤ m + 4)) = true
  · rw [show j.readNow st m = { j with old := some (j.dest st) } from if_pos h]
    exact if_neg (by simp)
  · have e (st : Stores) : j.readNow st m = j := if_neg h
    rw [e, e]

/-- The units whose rows and jobs read destinations. -/
theorem Die.readDue_eq (d : Die) (m : Nat) : d.readDue m = { d with
    te0 := d.te0.readDue d m, te1 := d.te1.readDue d m, fln := { d.fln with flight := d.fln.flight.map (RowFlight.flintBy d m) },
    mca := { d.mca with jobs := d.mca.jobs.map fun j => j.readNow d.st m } } := rfl

/-- What reads have made of the units stands when they are made again, whatever lies in the stores by then. -/
theorem Die.readDue_of_read {d x : Die} {m : Nat} (h0 : x.te0 = (d.readDue m).te0) (h1 : x.te1 = (d.readDue m).te1)
    (hf : x.fln = (d.readDue m).fln) (hm : x.mca = (d.readDue m).mca) : x.readDue m = x := by
  have t0 : x.te0.readDue x m = x.te0 := by rw [h0]; exact Engine.readDue_readDue d x m d.te0
  have t1 : x.te1.readDue x m = x.te1 := by rw [h1]; exact Engine.readDue_readDue d x m d.te1
  have fl : x.fln.flight.map (RowFlight.flintBy x m) = x.fln.flight := by
    rw [hf]
    show (d.fln.flight.map (RowFlight.flintBy d m)).map (RowFlight.flintBy x m) = d.fln.flight.map (RowFlight.flintBy d m)
    rw [List.map_map]; exact List.map_congr_left fun q _ => RowFlight.flintBy_flintBy d x m q
  have jobs : x.mca.jobs.map (fun j => j.readNow x.st m) = x.mca.jobs := by
    rw [hm]
    show (d.mca.jobs.map fun j => j.readNow d.st m).map (fun j => j.readNow x.st m) = d.mca.jobs.map fun j => j.readNow d.st m
    rw [List.map_map]; exact List.map_congr_left fun j _ => MicaJob.readNow_readNow j d.st x.st m
  rw [Die.readDue_eq, t0, t1, fl, jobs]

/-! ### SENSE -/

theorem Die.setRun_eq (d : Die) (f : Run → Run) : d.setRun f = { d with iss := { d.iss with run := d.iss.run.map f } } := by
  unfold Die.setRun
  cases h : d.iss.run with
  | none => show d = { d with iss := { d.iss with run := none } }; rw [← h]
  | some r => rfl

/-- The cycle with a refused access, or as it is. -/
def Run.orRefused (b : Bool) (r : Run) : Run := { r with refused := r.refused || b }

theorem Run.orRefused_false : Run.orRefused false = id := funext fun r => by rw [Run.orRefused, Bool.or_false]; rfl

theorem Run.orRefused_true : Run.orRefused true = fun r => { r with refused := true } :=
  funext fun r => by rw [Run.orRefused, Bool.or_true]

theorem Die.markRefused_eq (d : Die) (b : Bool) : d.markRefused b = d.setRun (Run.orRefused b) := by
  cases b with
  | false => rw [Die.setRun_eq, Run.orRefused_false, Option.map_id]; rfl
  | true => rw [Run.orRefused_true]; rfl

/-- What the blocks written so far, a count of foreign loops and a refusal make of the die. -/
def Die.sensed (d : Die) (written : List Nat) (st : Stores) (n : Nat) (refused : Bool) : Die :=
  let d1 := if written = [] then d else d.readDue d.iss.cyc
  { d1 with
    iss := { d.iss with run := d.iss.run.map (Run.orRefused refused) },
    st := st, fld := { d.fld with foreign := satInc32 d.fld.foreign n } }

theorem Die.sensed_start (d : Die) : d.sensed [] d.st 0 false = d := by
  have foreign : satInc32 d.fld.foreign 0 = d.fld.foreign := BitVec.eq_of_toNat_eq (by
    have := d.fld.foreign.isLt
    show min 0xFFFFFFFF (d.fld.foreign.toNat + 0) % 2 ^ 32 = _
    omega)
  unfold Die.sensed
  rw [Run.orRefused_false, Option.map_id, foreign]
  rfl

theorem Die.sensed_foreign (d : Die) (written : List Nat) (st : Stores) (n : Nat) (rf : Bool) :
    (d.sensed written st n rf).foreign = d.sensed written st (n + 1) rf := by
  have count : satInc32 (satInc32 d.fld.foreign n) 1 = satInc32 d.fld.foreign (n + 1) := satInc32_w32 (d.fld.foreign.toNat + n) 1
  unfold Die.foreign Die.sensed
  dsimp only
  rw [count]

theorem Die.sensed_refused (d : Die) (written : List Nat) (st : Stores) (n : Nat) (rf : Bool) :
    (d.sensed written st n rf).markRefused true = d.sensed written st n true := by
  rw [Die.markRefused_eq, Die.setRun_eq]
  unfold Die.sensed
  dsimp only
  rw [Option.map_map, show Run.orRefused true ∘ Run.orRefused rf = Run.orRefused true from funext fun r => by
    simp [Run.orRefused]]

/-- A block that is written: the reads that are due come first, once. -/
theorem Die.sensed_storeNow (d : Die) (written : List Nat) (st : Stores) (n : Nat) (rf : Bool) (hw : written = [] → st = d.st) (i space a : Nat)
    (bs : List Byte) : (d.sensed written st n rf).storeNow space a bs = d.sensed (written ++ [i]) (st.write space a bs) n rf := by
  have some' : ¬ written ++ [i] = [] := by simp
  unfold Die.storeNow
  by_cases h : written = []
  · rw [hw h]
    unfold Die.sensed
    rw [if_pos h, if_neg some']
    rfl
  · have read : (d.sensed written st n rf).readDue d.iss.cyc = d.sensed written st n rf := by
      apply Die.readDue_of_read (d := d)
      all_goals (unfold Die.sensed; rw [if_neg h])
    rw [show (d.sensed written st n rf).iss.cyc = d.iss.cyc from rfl, read]
    unfold Die.sensed
    rw [if_neg h, if_neg some']

section
variable (d : Die) (slot space first : Nat)

/-- The loop is enabled and the slot's. -/
def Die.senses (n : Nat) : Bool := (d.loop n).enable && decide ((d.loop n).slot.toNat = slot)

/-- The block that SENSE writes for loop `n`. -/
def Die.sensorBlock (n : Nat) : List Byte :=
  if d.senses slot n = true ∧ (d.loop n).haveSens = true then (d.loop n).sensor else List.replicate 64 0

/-- The places of the first `k` blocks that are inside the grant. -/
def Die.sensedPlaces (k : Nat) : List Nat := (List.range k).filter fun i => d.granted slot space (64 * (first + i) : Nat) 64

/-- A bound loop of slot 63 would be an unbound one. -/
theorem Die.senseBlock_eq (h : slot ≠ 63) (n : Nat) : d.senseBlock slot n = (d.sensorBlock slot n, !d.senses slot n) := by
  have bound : ((d.loop n).enable && !(d.loop n).unbound && decide ((d.loop n).slot.toNat = slot)) = d.senses slot n := by
    unfold Die.senses Loop.unbound
    by_cases hs : (d.loop n).slot.toNat = slot
    · have this : ((d.loop n).slot == 0x3F) = false := beq_eq_false_iff_ne.2 fun e => h (by rw [← hs, e]; rfl)
      rw [this]; simp
    · simp [hs]
  unfold Die.senseBlock Die.sensorBlock
  dsimp only
  rw [bound]
  cases d.senses slot n <;> simp

/-- One loop of the mask: its block at the next place. -/
def Die.senseLoop (p : Die × Nat) (n : Nat) : Die × Nat :=
  let b := p.1.senseBlock slot n
  let d := if b.2 then p.1.foreign else p.1
  let a := 64 * p.2
  (if d.granted slot space a 64 then d.storeNow space a b.1 else d.markRefused true, p.2 + 1)

/-- What SENSE makes of the die for the loops `ls` of its mask. -/
def Die.sensedFor (ls : List Nat) : Die :=
  let written := d.sensedPlaces slot space first ls.length
  d.sensed written (written.foldl (fun st i => st.write space (64 * (first + i)) (d.sensorBlock slot (nth 0 ls i))) d.st)
    (ls.filter fun n => !d.senses slot n).length (decide (written.length < ls.length))

theorem Die.sensed_granted (written : List Nat) (st : Stores) (n : Nat) (rf : Bool) (s space : Nat) (a : Int) (k : Nat) :
    (d.sensed written st n rf).granted s space a k = d.granted s space a k := by
  unfold Die.sensed; split <;> rfl

theorem Die.sensedPlaces_succ (k : Nat) : d.sensedPlaces slot space first (k + 1) =
    d.sensedPlaces slot space first k ++ if d.granted slot space (64 * (first + k) : Nat) 64 then [k] else [] := by
  unfold Die.sensedPlaces
  rw [List.range_succ, List.filter_append, List.filter_cons, List.filter_nil]

theorem Die.sensedPlaces_length_le (k : Nat) : (d.sensedPlaces slot space first k).length ≤ k :=
  (List.length_filter_le _ _).trans_eq List.length_range

theorem nth_append_left {α : Type} (x : α) (ms : List α) : ∀ (ls : List α) (i : Nat), i < ls.length → nth x (ls ++ ms) i = nth x ls i
  | _ :: _, 0, _ => rfl
  | _ :: ls, i + 1, h => nth_append_left x ms ls i (Nat.lt_of_succ_lt_succ h)

theorem nth_append_length {α : Type} (x m : α) : ∀ ls : List α, nth x (ls ++ [m]) ls.length = m
  | [] => rfl
  | _ :: ls => nth_append_length x m ls

/-- What the blocks of the loops `ls` make of the stores, in the places `written`. -/
def Die.sensedStores (ls written : List Nat) : Stores :=
  written.foldl (fun st i => st.write space (64 * (first + i)) (d.sensorBlock slot (nth 0 ls i))) d.st

theorem Die.sensedStores_append (ls : List Nat) (n : Nat) :
    d.sensedStores slot space first (ls ++ [n]) (d.sensedPlaces slot space first ls.length) =
      d.sensedStores slot space first ls (d.sensedPlaces slot space first ls.length) :=
  List.foldl_ext _ _ _ fun st i hi => by
    rw [nth_append_left 0 [n] ls i (List.mem_range.1 (List.mem_filter.1 hi).1)]

theorem Die.sensedFor_nil : d.sensedFor slot space first [] = d := d.sensed_start

/-- The loop that comes last adds its count, and its block or its refusal. -/
theorem Die.sensedFor_append (ls : List Nat) (n : Nat) :
    d.sensedFor slot space first (ls ++ [n]) =
      let written := d.sensedPlaces slot space first ls.length
      let st := d.sensedStores slot space first ls written
      let k := (ls.filter fun n => !d.senses slot n).length + if d.senses slot n then 0 else 1
      if d.granted slot space (64 * (first + ls.length) : Nat) 64 then
        d.sensed (written ++ [ls.length]) (st.write space (64 * (first + ls.length)) (d.sensorBlock slot n)) k
          (decide (written.length < ls.length))
      else d.sensed written st k true := by
  have count : ((ls ++ [n]).filter fun n => !d.senses slot n).length =
      (ls.filter fun n => !d.senses slot n).length + if d.senses slot n then 0 else 1 := by
    cases h : d.senses slot n <;> simp [h]
  have le := d.sensedPlaces_length_le slot space first ls.length
  show d.sensed _ (d.sensedStores slot space first (ls ++ [n]) _) _ _ = _
  rw [count, List.length_append, List.length_singleton, Die.sensedPlaces_succ]
  dsimp only
  split
  · have last : d.sensedStores slot space first (ls ++ [n]) (d.sensedPlaces slot space first ls.length ++ [ls.length]) =
        (d.sensedStores slot space first ls (d.sensedPlaces slot space first ls.length)).write space (64 * (first + ls.length))
          (d.sensorBlock slot n) := by
      rw [← Die.sensedStores_append d slot space first ls n]
      unfold Die.sensedStores
      rw [List.foldl_append, List.foldl_cons, List.foldl_nil, nth_append_length]
    rw [last, List.length_append, List.length_singleton]
    congr 1
    exact decide_eq_decide.2 (by omega)
  · rw [List.append_nil, Die.sensedStores_append]
    congr 1
    exact decide_eq_true (by omega)

theorem Die.senseLoop_foldl (h : slot ≠ 63) (ls : List Nat) :
    ls.foldl (Die.senseLoop slot space) (d, first) = (d.sensedFor slot space first ls, first + ls.length) := by
  induction ls using List.reverseRecOn with
  | nil => exact congrArg (·, first) (d.sensedFor_nil slot space first).symm
  | append_singleton ls n ih =>
    rw [List.foldl_append, ih, Die.sensedFor_append, List.length_append]
    have block : (d.sensedFor slot space first ls).senseBlock slot n = (d.sensorBlock slot n, !d.senses slot n) := d.senseBlock_eq slot h n
    have counted : (if (!d.senses slot n) = true then (d.sensedFor slot space first ls).foreign else d.sensedFor slot space first ls) =
        d.sensed (d.sensedPlaces slot space first ls.length) (d.sensedStores slot space first ls (d.sensedPlaces slot space first ls.length))
          ((ls.filter fun n => !d.senses slot n).length + if d.senses slot n then 0 else 1)
          (decide ((d.sensedPlaces slot space first ls.length).length < ls.length)) := by
      cases d.senses slot n
      · exact Die.sensed_foreign d _ _ _ _
      · rfl
    have unwritten : d.sensedPlaces slot space first ls.length = [] →
        d.sensedStores slot space first ls (d.sensedPlaces slot space first ls.length) = d.st := fun e => by rw [e]; rfl
    show Die.senseLoop slot space _ n = _
    unfold Die.senseLoop
    rw [block]
    dsimp only
    rw [counted, Die.sensed_granted, Die.sensed_refused, Die.sensed_storeNow d _ _ _ _ unwritten ls.length]
    rfl

/-- SENSE of a slot whose loops can be bound. -/
theorem Die.sense_eq (r : Run) (w : Nat) (h : r.slot ≠ 63) : d.sense r w =
    d.sensedFor r.slot (if bit w 49 then 2 else 1) (bitsOf w 48 29) ((List.range 8).filter fun n => bit (bitsOf w 57 50) n) :=
  congrArg Prod.fst (d.senseLoop_foldl r.slot (if bit w 49 then 2 else 1) (bitsOf w 48 29) h ((List.range 8).filter fun n => bit (bitsOf w 57 50) n))
end

/-! ### A slot that acts -/

/-- A slot whose action is due acts on its word. -/
theorem Die.slotAction_due {s : State} {k op : Nat} {mica : Bool} {e : Ecc} {r : Run} {left : Nat} {todo : List Nat}
    (h : Acting s k r left todo) (ho : slotOp k (slotWord r.bundle k) = op) (hm : k = 4 → slot4Mica (slotWord r.bundle k) = mica)
    (f : Run → Nat → Die → Die) : s.die.slotAction k op mica e f =
      if eccBad e then (Checked s e r).slotDone k else (f r (slotWord r.bundle k) (Checked s e r)).slotDone k := by
  obtain ⟨hr, hp, hk, hi⟩ := h
  have due : (todo.contains k && decide (slotOp k (slotWord r.bundle k) = op) &&
      (decide (k ≠ 4) || slot4Mica (slotWord r.bundle k) == mica) && s.die.issueRuns) = true := by
    by_cases h4 : k = 4
    · simp [hk, ho, hi, hm h4]
    · simp [hk, ho, hi, h4]
  rw [Die.slotAction, hr]
  dsimp only
  rw [hp]
  exact if_pos due

/-- With nothing wrong in the words it meets. -/
theorem Die.slotAction_ok {s : State} {k op : Nat} {mica : Bool} {r : Run} {left : Nat} {todo : List Nat}
    (h : Acting s k r left todo) (ho : slotOp k (slotWord r.bundle k) = op) (hm : k = 4 → slot4Mica (slotWord r.bundle k) = mica)
    (f : Run → Nat → Die → Die) :
    s.die.slotAction k op mica .ok f = (f r (slotWord r.bundle k) s.die.landReadable).slotDone k := Die.slotAction_due h ho hm f

theorem Die.logTallyAdd_window {d : Die} {s l n : Nat} {g : Segment} (hg : (d.slot s).seg = some g) (hl : l < g.tallies) :
    d.logTallyAdd s l n = d.tallyAdd (g.tallyBase + l) n := by
  rw [Die.logTallyAdd, Die.physTally, hg]
  dsimp only
  rw [if_pos hl]

/-- A refused block of CMD marks the cycle; a granted one goes to the loop's hand-off FIFO. -/
theorem Die.cmd_refused {d : Die} {r : Run} {w : Nat} (h : (d.slotRead r.slot (if bit w 54 then 2 else 1) (64 * bitsOf w 53 34 : Nat) 64).2 = true) :
    d.cmd r w = d.setRun fun x => { x with refused := true } := by
  unfold Die.cmd
  dsimp only
  rw [if_pos h, Die.markRefused_eq, Run.orRefused_true]

theorem Die.cmd_granted {d : Die} {r : Run} {w : Nat} (h : (d.slotRead r.slot (if bit w 54 then 2 else 1) (64 * bitsOf w 53 34 : Nat) 64).2 = false) :
    d.cmd r w = d.updLoop (bitsOf w 57 55) fun l => { l with
      fifo := l.fifo ++ [(r.slot, (d.slotRead r.slot (if bit w 54 then 2 else 1) (64 * bitsOf w 53 34 : Nat) 64).1)] } :=
  if_neg (by rw [h]; exact Bool.false_ne_true)

/-- MARK while the log has room, and else. -/
theorem Die.mark_room {d : Die} {r : Run} {w : Nat} (hc : d.isConf r.slot = false) (h : (d.slot r.slot).marks.length < 16) :
    d.mark r w = d.updSlot r.slot fun x =>
      { x with marks := x.marks ++ [(w32 (min 0xFFFFFFFF r.cycles), BitVec.ofNat 8 (bitsOf w 57 50))] } := by
  unfold Die.mark
  rw [hc]
  exact Die.updSlot_congr _ _ _ _ (if_pos h)

theorem Die.mark_full {d : Die} {r : Run} {w : Nat} (h : d.isConf r.slot = true ∨ (16 ≤ (d.slot r.slot).marks.length ∧ Tab.wf {} d.ctx.slots = true)) :
    d.mark r w = d := by
  unfold Die.mark
  split
  · rfl
  · next hc =>
    obtain ⟨full, wf⟩ := h.resolve_left hc
    exact Die.updSlot_id _ _ _ wf (if_neg (by omega))

/-- Settles O25: each slot-6 command acts as the function on the die that it runs. -/
theorem synchronisationSlotActs : Obligations.SynchronisationSlotActs := by
  intro s r left todo ha d w space
  have act {op : Nat} {c : Instr} {f : Run → Nat → Die → Die} {e : Die} (hc : exec c s = s.act fun d => d.slotAction 6 op false .ok f)
      (ho : slotOp 6 w = op) (he : f r w d = e) : Answers c s (e.slotDone 6) :=
    answers_of_act hc (he ▸ Die.slotAction_ok ha ho (fun h => absurd h (by decide)) f)
  refine ⟨?_, ?_, ?_, fun ho => ⟨fun hc hm => act (exec_mark s) ho (Die.mark_room hc hm), fun h => act (exec_mark s) ho (Die.mark_full h)⟩⟩
  · intro g ho hg hl p v
    exact act (exec_tinc s) ho ((Die.logTallyAdd_window hg hl).trans (Die.tallyAdd_eq _ _ _))
  · intro ho sp b
    exact ⟨fun h => act (exec_cmd .ok s) ho (Die.cmd_granted h), fun h => act (exec_cmd .ok s) ho (Die.cmd_refused h)⟩
  · intro ho h63 loops bound block place written d1
    refine act (exec_sense .ok s) ho ((Die.sense_eq d r w h63).trans ?_)
    have iss : d1.iss = d.iss := by show (if written = [] then d else d.readDue d.iss.cyc).iss = d.iss; split <;> rfl
    rw [Die.markRefused_eq, Die.setRun_eq]
    show _ = { d1 with iss := { d1.iss with run := d1.iss.run.map _ }, st := _, fld := _ }
    rw [iss]
    rfl

end Sys2Proof.Machine
end

section
/-! O11: the slots of an issue cycle. -/

namespace Sys2Proof.Machine

/-- A slot command whose meaning is a slot action acts on the slot's word, or leaves the cycle's list after an uncorrectable word. -/
theorem answers_slotAction {s : State} {k op : Nat} {mica : Bool} {c : Ecc → Instr} {f : Run → Nat → Die → Die}
    (hc : ∀ e, exec (c e) s = s.act fun d => d.slotAction k op mica e f) {e : Ecc} {r : Run} {left : Nat} {todo : List Nat}
    (ha : Acting s k r left todo) (ho : slotOp k (slotWord r.bundle k) = op) (hm : k = 4 → slot4Mica (slotWord r.bundle k) = mica) :
    (eccBad e = false → Answers (c e) s ((f r (slotWord r.bundle k) (Checked s e r)).slotDone k)) ∧
      (eccBad e = true → Answers (c e) s ((Checked s e r).slotDone k)) := by
  have due := Die.slotAction_due (e := e) ha ho hm f
  exact ⟨fun he => answers_of_act (hc e) (due.trans (if_neg (by rw [he]; exact Bool.false_ne_true))),
    fun he => answers_of_act (hc e) (due.trans (if_pos he))⟩

/-- Settles O11: the meaning of each slot command is a slot action, by its equation. -/
theorem slotActionsActOncePerCycle : Obligations.SlotActionsActOncePerCycle := by
  intro s k op mica c f h e r left todo ha ho hm
  have other (hk : k ≠ 4) (hc : ∀ e, exec (c e) s = s.act fun d => d.slotAction k op false e f) :
      (eccBad e = false → Answers (c e) s ((f r (slotWord r.bundle k) (Checked s e r)).slotDone k)) ∧
        (eccBad e = true → Answers (c e) s ((Checked s e r).slotDone k)) :=
    answers_slotAction hc ha ho fun h4 => absurd h4 hk
  have k2 : (2 : Nat) ≠ 4 := by decide
  have k5 : (5 : Nat) ≠ 4 := by decide
  rcases h with ⟨te, rfl, h⟩ | ⟨rfl, ⟨g, rfl, h⟩ | ⟨rfl, rfl, rfl⟩ | ⟨rfl, rfl, rfl⟩⟩ | ⟨rfl, rfl, h⟩ | ⟨rfl, rfl, rfl, h⟩ | ⟨rfl, h⟩ |
    ⟨rfl, rfl, rfl, rfl⟩ | ⟨rfl, rfl, rfl, rfl⟩
  · have hk : te.val ≠ 4 := by omega
    rcases h with ⟨rfl, rfl, rfl⟩ | ⟨rfl, rfl, rfl⟩
    exacts [other hk fun e => exec_wload te e s, other hk fun e => exec_stream te e s]
  · rcases h with ⟨rfl, rfl, rfl⟩ | ⟨rfl, rfl, rfl⟩ | ⟨rfl, rfl, rfl⟩ | ⟨rfl, rfl, rfl⟩ | ⟨rfl, rfl, rfl⟩ | ⟨rfl, rfl, rfl⟩ |
      ⟨rfl, rfl, rfl⟩ | ⟨rfl, rfl, rfl⟩ | ⟨rfl, rfl, rfl⟩ | ⟨rfl, rfl, rfl⟩ | ⟨rfl, rfl, rfl⟩ | ⟨rfl, rfl, rfl⟩ | ⟨rfl, rfl, rfl⟩
    exacts [other k2 (exec_vadd · s), other k2 (exec_vmul · s), other k2 (exec_vfma · s), other k2 (exec_vmax · s), other k2 (exec_vmin · s), other k2 (exec_vcmpgt · s),
      other k2 (exec_vexp · s), other k2 (exec_vrecip · s), other k2 (exec_vrsqrt · s), other k2 (exec_vrmax · s), other k2 (exec_vrsum · s), other k2 (exec_vmerge · s), other k2 (exec_vhad · s)]
  · exact other k2 (exec_vcvt · s)
  · exact other k2 (exec_vamax · s)
  · rcases h with ⟨rfl, rfl, rfl⟩ | ⟨rfl, rfl, rfl⟩
    exacts [answers_slotAction (exec_fwload · s) ha ho hm, answers_slotAction (exec_fstream · s) ha ho hm]
  · rcases h with ⟨rfl, rfl⟩ | ⟨rfl, rfl⟩ | ⟨rfl, rfl⟩ | ⟨rfl, rfl⟩
    exacts [answers_slotAction (exec_fft · s) ha ho hm, answers_slotAction (exec_ifft · s) ha ho hm,
      answers_slotAction (exec_cmul · s) ha ho hm, answers_slotAction (exec_wht · s) ha ho hm]
  · rcases h with ⟨rfl, rfl, rfl⟩ | ⟨rfl, rfl, rfl⟩ | ⟨rfl, rfl, rfl⟩ | ⟨rfl, rfl, rfl⟩ | ⟨rfl, rfl, rfl⟩ | ⟨rfl, rfl, rfl⟩
    exacts [other k5 (exec_maxpool · s), other k5 (exec_avgpoolInc · s), other k5 (exec_avgpoolExc · s), other k5 (exec_cropBilinear · s), other k5 (exec_cropNearest · s), other k5 (exec_argmax · s)]
  · exact other (by decide) (exec_cmd · s)
  · exact other (by decide) (exec_sense · s)

end Sys2Proof.Machine
end

section
/-! O28: a thread fails, a pass closes. -/

namespace Sys2Proof.Machine

/-! ### A thread fails -/

/-- The thread that fails: its program ends where it stands, and its pass is to close. -/
def Thread.faulted (x : Thread) : Thread :=
  if x.state = .failed then { x with failDue := none }
  else { x with state := .failed, failed := true, stopping := true, inStep := false, failDue := none,
                pass := x.pass.map fun p => { p with closing := true, upTo := none } }

theorem Thread.fail_faulted (x : Thread) (c : Nat) : { x.fail c with failDue := none } = x.faulted := by
  unfold Thread.fail Thread.faulted
  split <;> rfl

/-- A thread that a fault meets. -/
theorem Die.failNow_eq (d : Die) (t c : Nat) : d.failNow t c =
    ((((d.st.signalTallies (d.thread t).entry).filterMap fun l => d.physTally (d.thread t).slot l).foldl (fun (d : Die) p => d.tallyErr p c) d).updThread t
      Thread.faulted).abortSlot (d.thread t).slot c := by
  have fold (s : Nat) : ∀ (ls : List Nat) (e : Die), (∀ l, e.physTally s l = d.physTally s l) →
      ls.foldl (fun (d : Die) l => match d.physTally s l with | some p => d.tallyErr p c | none => d) e =
        (ls.filterMap fun l => d.physTally s l).foldl (fun (d : Die) p => d.tallyErr p c) e := by
    intro ls
    induction ls with
    | nil => exact fun e _ => rfl
    | cons l ls ih =>
      intro e he
      rw [List.foldl_cons, List.filterMap_cons, he l]
      cases d.physTally s l with
      | none => exact ih e he
      | some p => exact ih (e.tallyErr p c) he
  rw [← fold (d.thread t).slot _ d fun _ => rfl, ← show (fun x : Thread => { x.fail c with failDue := none }) = Thread.faulted from
    funext fun x => x.fail_faulted c]
  rfl

section
variable {s : State} {t : Fin 4096}

theorem answers_threadFail_due {c : Nat} (hx : s.die.xfrRuns = true) (h : (s.die.thread t.val).failDue = some c) :
    Answers (.threadFail t) s (s.die.failNow t.val c) :=
  answers_of_act (exec_threadFail t s) (by dsimp only; rw [h]; exact if_pos hx)

theorem answers_threadFail_tally {p : Nat} (hx : s.die.xfrRuns = true) (h : (s.die.thread t.val).failDue = none)
    (hw : (s.die.thread t.val).state = .waiting) (hp : s.die.threadTally t.val = some p) (he : (s.die.tally p).err = true) :
    Answers (.threadFail t) s (s.die.failNow t.val (s.die.tally p).cause) :=
  answers_of_act (exec_threadFail t s) (by dsimp only; rw [h]; dsimp only; rw [if_pos ⟨hw, hx⟩, hp]; exact if_pos he)

/-- Without a fault and without a tally in error nothing happens. -/
theorem answers_threadFail_none (h : (s.die.thread t.val).failDue = none)
    (hw : (s.die.thread t.val).state ≠ .waiting ∨ ∀ p, s.die.threadTally t.val = some p → (s.die.tally p).err = false) :
    Answers (.threadFail t) s s.die :=
  answers_of_act (exec_threadFail t s) (by
    dsimp only
    rw [h]
    dsimp only
    split
    · next hc =>
      split
      · next p hp => exact if_neg (by rw [(hw.resolve_left fun n => n hc.1) p hp]; exact Bool.false_ne_true)
      · rfl
    · rfl)

theorem answers_threadFail_off (hx : s.die.xfrRuns = false) : Answers (.threadFail t) s s.die :=
  answers_of_act (exec_threadFail t s) (by
    dsimp only
    split
    · exact if_neg (by rw [hx]; exact Bool.false_ne_true)
    · exact if_neg fun c => by rw [hx] at c; exact Bool.false_ne_true c.2)

/-! ### A pass closes -/

theorem answers_passClose_stays (h : ∀ p, (s.die.thread t.val).pass = some p →
    (s.die.xfrRuns && p.closing && (s.die.thread t.val).passDone p) = false) : Answers (.passClose t) s s.die :=
  answers_of_act (exec_passClose t s) (by
    dsimp only
    split
    · next p hp => exact if_neg (by rw [h p hp]; exact Bool.false_ne_true)
    · rfl)

theorem answers_passClose_done {p : Pass} (h : (s.die.thread t.val).pass = some p)
    (hd : (s.die.xfrRuns && p.closing && (s.die.thread t.val).passDone p) = true) : Answers (.passClose t) s (s.die.closePass t.val) :=
  answers_of_act (exec_passClose t s) (by dsimp only; rw [h]; exact if_pos hd)

/-- A request belongs to the pass's closing step. -/
def Pass.covers (p : Pass) (q : Req) : Prop := match p.upTo with | none => True | some n => p.from_ ≤ q.serial ∧ q.serial < n

/-- The closing step's requests have completed when none of them is outstanding. -/
theorem Thread.passDone_iff (x : Thread) (p : Pass) : x.passDone p = true ↔ ∀ q ∈ x.out, ¬ p.covers q := by
  unfold Thread.passDone Pass.covers
  cases p.upTo with
  | none =>
    dsimp only
    rw [List.isEmpty_iff, List.eq_nil_iff_forall_not_mem]
    exact forall_congr' fun q => ⟨fun h hq => absurd hq h, fun h hq => h hq trivial⟩
  | some n =>
    dsimp only
    rw [List.all_eq_true]
    exact forall₂_congr fun q _ => by rw [decide_eq_true_iff]; omega
end

theorem Pass.unhold_eq (p : Pass) (x : Seq) : p.unhold x =
    let left := (if p.half then x.hold1 else x.hold0) - 1
    if p.half then { x with hold1 := left } else { x with hold0 := left } := by
  unfold Pass.unhold
  cases p.half <;> rfl

theorem Pass.unhold_shadow (p : Pass) (x : Seq) : (p.unhold x).shadow = x.shadow := by unfold Pass.unhold; split <;> rfl

/-- The holds of the shadow's half once the pass has given back its own. -/
theorem Pass.unhold_last (p : Pass) (x : Seq) : (if (p.unhold x).half then (p.unhold x).hold0 else (p.unhold x).hold1) = 0 ↔
    if x.half = p.half then (if x.half then x.hold0 else x.hold1) = 0 else (if p.half then x.hold1 else x.hold0) - 1 = 0 := by
  unfold Pass.unhold
  cases p.half <;> cases x.half <;> simp

/-- The retire that the last hold of a RETIRING half lets in. -/
theorem Die.retireIfFree_retires {d : Die} {q : Nat} (h : (d.seq q).shadow = .retiring ∧
    (if (d.seq q).half then (d.seq q).hold0 else (d.seq q).hold1) = 0 ∧ d.kvp.queue.contains (.retire q) = false) :
    d.retireIfFree q = { d with kvp := { d.kvp with queue := d.kvp.queue ++ [.retire q] } } := if_pos h

theorem Die.retireIfFree_stays {d : Die} {q : Nat} (h : ¬ ((d.seq q).shadow = .retiring ∧
    (if (d.seq q).half then (d.seq q).hold0 else (d.seq q).hold1) = 0 ∧ d.kvp.queue.contains (.retire q) = false)) :
    d.retireIfFree q = d := if_neg h

/-- Settles O28: `Die.failNow` and `Die.closePass`, by the conditions under which the two commands run them. -/
theorem threadFailureEndsTheContext : Obligations.ThreadFailureEndsTheContext := by
  refine ⟨fun s t hx => ⟨answers_threadFail_off hx, answers_passClose_stays fun p _ => by rw [hx]; rfl⟩, ?_,
    fun s t h hw => answers_threadFail_none h hw, ?_, fun s t h => answers_passClose_stays fun p hp => ?_⟩
  · intro s t c x hx h
    have key : s.die.failNow t.val c = _ := s.die.failNow_eq t.val c
    rcases h with h | ⟨h, hw, p, hp, he, rfl⟩
    · exact (key ▸ answers_threadFail_due hx h :)
    · exact (key ▸ answers_threadFail_tally hx h hw hp he :)
  · intro s t p x ours hp hc
    refine ⟨fun ⟨q, hq, ho⟩ => answers_passClose_stays fun p' hp' => ?_, ?_⟩
    · cases hp.symm.trans hp'
      have this : x.passDone p = false := by
        rw [← Bool.not_eq_true, Thread.passDone_iff]; exact fun h => h q hq ho
      rw [this, Bool.and_false]
    · intro hn hx w left y d1 retires
      have done : x.passDone p = true := (Thread.passDone_iff x p).2 hn
      have closes := answers_passClose_done hp (by rw [hx, hc, done]; rfl)
      have unhold : p.unhold = fun y => if p.half then { y with hold1 := left y } else { y with hold0 := left y } :=
        funext fun y => p.unhold_eq y
      have d1_eq : d1 = (s.die.updSeq p.seq p.unhold).updThread t.val fun y => { y with pass := none } := by rw [unhold]
      have seq : d1.seq p.seq = p.unhold y := by rw [d1_eq]; exact s.die.updSeq_seq_self p.seq p.unhold w
      rw [Die.closePass_some hp, ← d1_eq] at closes
      have lastHold := p.unhold_last y
      constructor
      · rintro ⟨hs, hl, hq⟩
        rw [Die.retireIfFree_retires (by rw [seq]; exact ⟨(p.unhold_shadow y).trans hs, lastHold.2 hl, hq⟩)] at closes
        exact closes
      · intro hr
        rw [Die.retireIfFree_stays (by
          rw [seq, p.unhold_shadow y]; exact fun ⟨hs, hl, hq⟩ => hr ⟨hs, lastHold.1 hl, hq⟩)] at closes
        exact closes
  · rw [h p hp, Bool.and_false, Bool.false_and]

end Sys2Proof.Machine
end

section
/-! The slot commands: GRANT, LOAD, DISARM, ABORT, UNLOAD and RELEASE take effect (R78, R433 to R440, R506) -/

namespace Sys2Proof.Machine

/-! ### The end of an armed context -/

/-- The die as a context's end leaves it, before its function is told (R78). -/
def Die.aborted (d : Die) (s cause : Nat) : Die :=
  let d := (d.clearWindow s).discardInFlight s
  let d := { d with iss := (d.iss.endRun s).killLaunches s,
                    ctx := { d.ctx with cal := d.ctx.cal.dropPending s },
                    ing := { d.ing with streams := Tab.mapVal {} (fun x : Stream => x.endContext s) d.ing.streams },
                    fld := { d.fld with loops := Tab.mapVal {} (fun l : Loop =>
                      if l.slot.toNat = s ∧ s ≠ 0x3F ∧ l.enable then { l with abortedCtx := true } else l) d.fld.loops } }
  (d.stopThreads s).nwtSync.updSlot s fun x => { x with state := .aborted, cause := cause, runsLeft := 0 }

section
variable {d : Die} {s cause : Nat}

theorem Die.abortSlot_abortable (h : d.abortable s = true) : d.abortSlot s cause = (d.aborted s cause).abortTold s cause := if_pos h

theorem Die.aborted_ctx : (d.aborted s cause).ctx =
    { d.ctx with cal := d.ctx.cal.dropPending s,
                 slots := Tab.upd {} d.ctx.slots s fun x => { x with state := .aborted, cause := cause, runsLeft := 0 } } := by
  simp [Die.aborted, Die.updSlot]

theorem Die.aborted_fab : (d.aborted s cause).fab = d.fab := by simp [Die.aborted]
theorem Die.aborted_out : (d.aborted s cause).out = d.out := by simp [Die.aborted]

theorem Die.clearWindow_run (d : Die) (s : Nat) : (d.clearWindow s).iss.run = d.iss.run := by
  unfold Die.clearWindow; split <;> rfl

theorem Die.clearWindow_aborts (d : Die) (s : Nat) : (d.clearWindow s).iss.aborts = d.iss.aborts := by
  unfold Die.clearWindow; split <;> rfl

theorem Issue.endRun_aborts (i : Issue) (s : Nat) : (i.endRun s).aborts = i.aborts := by
  unfold Issue.endRun
  repeat' split
  all_goals rfl

theorem Die.aborted_aborts : (d.aborted s cause).iss.aborts = d.iss.aborts := by
  simp [Die.aborted, Issue.killLaunches, Issue.endRun_aborts, Die.clearWindow_aborts]

/-- The run is in an issue cycle. -/
def Run.inCycle (o : Option Run) : Bool := match o with | some r => (match r.phase with | .issuing _ _ => true | _ => false) | none => false

theorem Issue.endRun_inCycle (i : Issue) (s : Nat) : Run.inCycle (i.endRun s).run = Run.inCycle i.run := by
  unfold Issue.endRun
  cases h : i.run with
  | none => simp [h]
  | some r =>
    dsimp only
    split
    · cases hp : r.phase <;> simp [Run.inCycle, hp]
    · simp [h]

/-- The end of a run stops issue between bundles, and leaves an issue cycle to its end. -/
theorem Die.aborted_issuing : (d.aborted s cause).issuing = d.issuing := by
  have run : (d.aborted s cause).iss.run = ((d.clearWindow s).iss.endRun s).run := by simp [Die.aborted, Issue.killLaunches]
  show Run.inCycle (d.aborted s cause).iss.run = Run.inCycle d.iss.run
  rw [run, Issue.endRun_inCycle, Die.clearWindow_run]

theorem Die.aborted_mainline : (d.aborted s cause).mainline = d.mainline := by
  unfold Die.mainline Die.fabPowered Die.fldPowered Die.seqAt
  simp [Die.aborted]
end

/-! ### A slot command that acts -/

theorem Die.ctxCmd_acts {d : Die} {fn s op : Nat} (w : Tab.wf {} d.ctx.slots = true) (hr : fn = 0 ∨ fn = s) (ho : d.hostOpen = true)
    (hb : (d.slot s).busy = .idle) (hop : op ≠ 0 ∧ op ≤ 6) (hd : ctxDenied fn s op = false) (hs : ctxStateOk (d.slot s).state op = true)
    (hq : (d.prot s).departing = false) :
    d.ctxCmd fn s op = (d.updSlot s fun x => { x with overrun := false }).ctxAct fn s op := by
  have reach : (!kvReach fn s || (!d.hostOpen && decide (op ≠ 1))) = false := by
    rw [ho, show kvReach fn s = true from decide_eq_true hr]; rfl
  have state : ((d.updSlot s fun x => { x with overrun := false }).slot s).state = (d.slot s).state := by
    rw [Die.updSlot_slot_self _ _ _ w]
  unfold Die.ctxCmd
  rw [reach, if_neg Bool.false_ne_true, if_neg (not_not_intro hb)]
  dsimp only
  rw [if_neg (by omega), if_neg (by rw [hd]; exact Bool.false_ne_true), state, hs, Die.updSlot_prot, hq]
  rfl

/-- A refusal of a slot that was not busy. -/
theorem Die.ctxDone_idle {d : Die} {s : Nat} (w : Tab.wf {} d.ctx.slots = true) (hb : (d.slot s).busy = .idle) (k : Nat) :
    (d.updSlot s fun x => { x with overrun := false }).ctxDone s k =
      d.updSlot s fun x => { x with overrun := false, status := BitVec.ofNat 4 k } := by
  unfold Die.ctxDone
  rw [Die.updSlot_updSlot _ _ _ _ w]
  exact Die.updSlot_congr _ _ _ _ (by rw [← hb])

/-! ### GRANT -/

/-- A predicate that no entry of the key meets does not see a write there. -/
theorem Tab.any_write {α : Type} [DecidableEq α] {dflt : α} {k : Nat} {p : Nat × α → Bool} (hp : ∀ v, p (k, v) = false) (v : α) :
    ∀ t : List (Nat × α), (Tab.write dflt t k v).any p = t.any p := by
  have erase : ∀ t : List (Nat × α), (Tab.erase t k).any p = t.any p := by
    intro t
    induction t with
    | nil => rfl
    | cons c t ih =>
      obtain ⟨j, u⟩ := c
      unfold Tab.erase
      split
      · next h => rw [List.any_cons, h, hp, Bool.false_or]
      · split
        · rfl
        · rw [List.any_cons, List.any_cons, ih]
  have insert : ∀ t : List (Nat × α), (Tab.insert t k v).any p = t.any p := by
    intro t
    induction t with
    | nil => simp [Tab.insert, hp]
    | cons c t ih =>
      obtain ⟨j, u⟩ := c
      unfold Tab.insert
      split
      · next h => rw [List.any_cons, List.any_cons, h, hp, hp]
      · split
        · rw [List.any_cons, hp, Bool.false_or]
        · rw [List.any_cons, List.any_cons, ih]
  intro t
  unfold Tab.write
  split
  · exact erase t
  · exact insert t

section
variable {d : Die} {s : Nat}

theorem Die.grantRange_overrun (w : Tab.wf {} d.ctx.slots = true) :
    (d.updSlot s fun x => { x with overrun := false }).grantRange s = d.grantRange s := by
  unfold Die.grantRange
  rw [Die.updSlot_slot_self _ _ _ w]
  rfl

theorem Die.grantOverlap_overrun (w : Tab.wf {} d.ctx.slots = true) :
    (d.updSlot s fun x => { x with overrun := false }).grantOverlap s = d.grantOverlap s := by
  unfold Die.grantOverlap
  rw [Die.updSlot_slot_self _ _ _ w]
  exact Tab.any_write (fun v => by simp) _ _

/-- The slot that GRANT has emptied, before its prologue and its scrubs are over. -/
def Slot.granting (x : Slot) : Slot :=
  { x with overrun := false, state := .granted, busy := .grant, conf := false, seg := none, runsLeft := 0, runsDone := 0, runNum := 0,
           marks := [], lastCyc := 0, cause := 0 }

/-- The die with the slot's grant begun: its pages as its chain, its sequences reset, its prologue due. -/
def Die.granting (d : Die) (s : Nat) : Die :=
  let d := ((d.updSlot s Slot.granting).kvGrant s).updProt s fun q => { q with lastConf := false }
  let n := (d.slot s).prologueCycles
  { d with boot := { d.boot with clean := false },
           sec := { d.sec with prologues :=
             if n = 0 then d.sec.prologues else d.sec.prologues ++ [({ slot := s, left := n, lock := false } : Prologue)] } }

/-- GRANT is let through: service is degraded or full, and the part may serve. -/
theorem Die.grantSlot_served (hs : 2 ≤ d.glb.service.toNat) (hf : d.boot.full = true) (hw : d.boot.warm = false) (hl : d.fuses.lifecycle ≠ 3) :
    ¬ (d.glb.service = 0 ∨ d.glb.service = 1 ∨ d.boot.full = false ∨ d.boot.warm = true ∨ d.fuses.lifecycle = 3) := by
  rintro (h | h | h | h | h)
  · rw [h] at hs; exact absurd hs (by decide)
  · rw [h] at hs; exact absurd hs (by decide)
  · rw [hf] at h; cases h
  · rw [hw] at h; cases h
  · exact hl h

theorem Die.grantSlot_range (w : Tab.wf {} d.ctx.slots = true) (hb : (d.slot s).busy = .idle) (hs : 2 ≤ d.glb.service.toNat)
    (hf : d.boot.full = true) (hw : d.boot.warm = false) (hl : d.fuses.lifecycle ≠ 3) (hr : d.grantRange s = true) :
    (d.updSlot s fun x => { x with overrun := false }).grantSlot s = d.updSlot s fun x => { x with overrun := false, status := 4 } := by
  unfold Die.grantSlot
  refine (if_neg (Die.grantSlot_served hs hf hw hl)).trans ?_
  rw [Die.grantRange_overrun w, hr, if_pos rfl, Die.ctxDone_idle w hb]
  rfl

theorem Die.grantSlot_overlap (w : Tab.wf {} d.ctx.slots = true) (hb : (d.slot s).busy = .idle) (hs : 2 ≤ d.glb.service.toNat)
    (hf : d.boot.full = true) (hw : d.boot.warm = false) (hl : d.fuses.lifecycle ≠ 3) (hr : d.grantRange s = false)
    (ho : d.grantOverlap s = true) :
    (d.updSlot s fun x => { x with overrun := false }).grantSlot s = d.updSlot s fun x => { x with overrun := false, status := 3 } := by
  unfold Die.grantSlot
  refine (if_neg (Die.grantSlot_served hs hf hw hl)).trans ?_
  rw [Die.grantRange_overrun w, Die.grantOverlap_overrun w, hr, ho, if_neg Bool.false_ne_true, if_pos rfl, Die.ctxDone_idle w hb]
  rfl

theorem Die.grantSlot_granting (w : Tab.wf {} d.ctx.slots = true) (hs : 2 ≤ d.glb.service.toNat) (hf : d.boot.full = true)
    (hw : d.boot.warm = false) (hl : d.fuses.lifecycle ≠ 3) (hr : d.grantRange s = false) (ho : d.grantOverlap s = false) :
    (d.updSlot s fun x => { x with overrun := false }).grantSlot s = (d.granting s).grantDone s := by
  unfold Die.grantSlot
  refine (if_neg (Die.grantSlot_served hs hf hw hl)).trans ?_
  rw [Die.grantRange_overrun w, Die.grantOverlap_overrun w, hr, ho, if_neg Bool.false_ne_true, if_neg Bool.false_ne_true,
    Die.updSlot_updSlot _ _ _ _ w]
  rfl

theorem Die.granting_ctx : (d.granting s).ctx = (d.updSlot s Slot.granting).ctx := by
  unfold Die.granting Die.kvGrant Die.updProt
  dsimp only

theorem Die.granting_boot : (d.granting s).boot = { d.boot with clean := false } := by
  simp only [Die.granting, Die.kvGrant, Die.updProt, Die.updSlot]

theorem Die.granting_scrubs : (d.granting s).sec.scrubs = d.sec.scrubs := by
  simp only [Die.granting, Die.kvGrant, Die.updProt, Die.updSlot]

theorem Die.granting_slot (w : Tab.wf {} d.ctx.slots = true) : (d.granting s).slot s = (d.slot s).granting := by
  rw [Die.slot, Die.granting_ctx]
  exact Die.updSlot_slot_self d s Slot.granting w

theorem Die.granting_slot_ne (w : Tab.wf {} d.ctx.slots = true) {j : Nat} (h : j ≠ s) : (d.granting s).slot j = d.slot j := by
  rw [Die.slot, Die.granting_ctx]
  exact Die.updSlot_slot_ne d s Slot.granting w h

theorem Die.granting_chain (w : Tab.wf {} d.ctx.slots = true) (wc : Tab.wf [] d.kvp.chains = true) :
    Tab.read [] (d.granting s).kvp.chains s = (List.range (d.slot s).pages).map fun i => (d.slot s).firstPage + i := by
  have slot : (d.updSlot s Slot.granting).slot s = (d.slot s).granting := Die.updSlot_slot_self _ _ _ w
  refine (Tab.read_write_self s _ wc).trans ?_
  rw [slot]; rfl

theorem Die.granting_prologues (w : Tab.wf {} d.ctx.slots = true) :
    (d.granting s).sec.prologues = if (d.slot s).prologueCycles = 0 then d.sec.prologues
      else d.sec.prologues ++ [{ slot := s, left := (d.slot s).prologueCycles, lock := false }] := by
  have cycles : ((d.updSlot s Slot.granting).slot s).prologueCycles = (d.slot s).prologueCycles := by
    rw [Die.updSlot_slot_self _ _ _ w]; rfl
  rw [← cycles]; rfl

theorem Die.granting_frame : d.granting s =
    { d with ctx := { d.ctx with slots := (d.granting s).ctx.slots }, kvp := (d.granting s).kvp, boot := { d.boot with clean := false },
             sec := { d.sec with prots := (d.granting s).sec.prots, prologues := (d.granting s).sec.prologues } } := by
  simp only [Die.granting, Die.kvGrant, Die.updProt, Die.updSlot]

/-! The grant is over at once, or waits for its prologue and its scrubs. -/

theorem Die.grantDone_cases (d : Die) (s : Nat) : d.grantDone s = d.ctxDone s stOk ∨ d.grantDone s = d := by
  unfold Die.grantDone
  dsimp only
  split
  · exact .inl rfl
  · exact .inr rfl

theorem Die.grantDone_waits {p : Prologue} (h : p ∈ d.sec.prologues) (hs : p.slot = s) (hl : p.lock = false) : d.grantDone s = d :=
  if_neg fun ⟨_, h', _⟩ => by
    have := List.any_eq_false.1 h' p h
    simp [hs, hl] at this

theorem Die.grantDone_now (hb : (d.slot s).busy = .grant) (hp : (d.sec.prologues.any fun p => decide (p.slot = s)) = false)
    (hc : d.sec.scrubs = []) : d.grantDone s = d.ctxDone s stOk := by
  have scrub : ∀ a n, d.scrubbing a n = false := fun a n => by unfold Die.scrubbing; rw [hc]; rfl
  have prologue : (d.sec.prologues.any fun p => decide (p.slot = s ∧ p.lock = false)) = false :=
    List.any_eq_false.2 fun p h => by
      have := List.any_eq_false.1 hp p h
      simp at this; simp [this]
  exact if_pos ⟨hb, prologue, scrub _ _, scrub _ _⟩

theorem Die.grantDone_frame (d : Die) (s : Nat) :
    d.grantDone s = { d with ctx := { d.ctx with slots := (d.grantDone s).ctx.slots } } := by
  rcases d.grantDone_cases s with h | h <;> rw [h]
  rfl

theorem Die.grantDone_kvp (d : Die) (s : Nat) : (d.grantDone s).kvp = d.kvp := by rw [Die.grantDone_frame]
theorem Die.grantDone_boot (d : Die) (s : Nat) : (d.grantDone s).boot = d.boot := by rw [Die.grantDone_frame]
theorem Die.grantDone_sec (d : Die) (s : Nat) : (d.grantDone s).sec = d.sec := by rw [Die.grantDone_frame]

theorem Die.grantDone_slot (w : Tab.wf {} d.ctx.slots = true) :
    ∃ b st, (d.grantDone s).slot s = { d.slot s with busy := b, status := st } := by
  rcases d.grantDone_cases s with h | h <;> rw [h]
  · exact ⟨_, _, Die.updSlot_slot_self _ _ _ w⟩
  · exact ⟨_, _, rfl⟩

theorem Die.grantDone_slot_ne (w : Tab.wf {} d.ctx.slots = true) {j : Nat} (hj : j ≠ s) : (d.grantDone s).slot j = d.slot j := by
  rcases d.grantDone_cases s with h | h <;> rw [h]
  exact Die.updSlot_slot_ne _ _ _ w hj

/-- What a grant that passes its checks leaves (R433). -/
def Die.Granted (d e : Die) (s : Nat) : Prop :=
  (e.slot s).state = .granted ∧ (e.slot s).seg = none ∧ (e.slot s).runNum = 0 ∧ (∀ j, j ≠ s → e.slot j = d.slot j) ∧
    Tab.read [] e.kvp.chains s = (List.range (d.slot s).pages).map (fun n => (d.slot s).firstPage + n) ∧ e.boot.clean = false ∧
    ((d.slot s).prologueCycles = 0 → (d.sec.prologues.any fun p => decide (p.slot = s)) = false → d.sec.scrubs = [] →
      (e.slot s).busy = .idle ∧ (e.slot s).status = 0) ∧
    ((d.slot s).prologueCycles ≠ 0 → (e.slot s).busy = .grant ∧
      e.sec.prologues = d.sec.prologues ++ [{ slot := s, left := (d.slot s).prologueCycles, lock := false }]) ∧
    e = { d with ctx := { d.ctx with slots := e.ctx.slots }, kvp := e.kvp, boot := { d.boot with clean := false },
                 sec := { d.sec with prots := e.sec.prots, prologues := e.sec.prologues } }

theorem Die.grantDone_granted (w : Tab.wf {} d.ctx.slots = true) (wc : Tab.wf [] d.kvp.chains = true) : d.Granted ((d.granting s).grantDone s) s := by
  have wg : Tab.wf {} (d.granting s).ctx.slots = true := by rw [Die.granting_ctx]; exact Die.wf_updSlot d s _ w
  have frame := Die.grantDone_frame (d.granting s) s
  obtain ⟨b, st, slot⟩ := Die.grantDone_slot (d := d.granting s) (s := s) wg
  rw [Die.granting_slot w] at slot
  refine ⟨?_, ?_, ?_, fun j hj => ?_, ?_, ?_, fun h0 hp hs => ?_, fun h0 => ?_, ?_⟩
  · rw [slot]; rfl
  · rw [slot]; rfl
  · rw [slot]; rfl
  · rw [Die.grantDone_slot_ne wg hj, Die.granting_slot_ne w hj]
  · rw [Die.grantDone_kvp]; exact Die.granting_chain w wc
  · rw [Die.grantDone_boot, Die.granting_boot]
  · have none : ((d.granting s).sec.prologues.any fun p => decide (p.slot = s)) = false := by rw [Die.granting_prologues w, if_pos h0, hp]
    have busy : ((d.granting s).slot s).busy = .grant := by rw [Die.granting_slot w]; rfl
    rw [Die.grantDone_now busy none (Die.granting_scrubs.trans hs), Die.ctxDone, Die.updSlot_slot_self _ _ _ wg]
    exact ⟨rfl, rfl⟩
  · have prologues := Die.granting_prologues (s := s) w
    rw [if_neg h0] at prologues
    have mem : ({ slot := s, left := (d.slot s).prologueCycles, lock := false } : Prologue) ∈ (d.granting s).sec.prologues := by
      rw [prologues]; simp
    rw [Die.grantDone_waits mem rfl rfl]
    exact ⟨by rw [Die.granting_slot w]; rfl, prologues⟩
  · have := congrArg (fun g : Die => { g with ctx := { g.ctx with slots := ((d.granting s).grantDone s).ctx.slots } }) (Die.granting_frame (d := d) (s := s))
    rw [← frame] at this
    rw [Die.grantDone_kvp, Die.grantDone_sec]
    exact this
end

/-! ### The commands -/

/-- A slot command that its function may issue and its slot's state allows does what `Die.ctxAct` says. -/
theorem answers_slotCmd {c : Instr} {s : State} {fn i : Fin 64} {op : Nat} {e : Die}
    (hc : exec c s = s.act fun d => d.hostMsg (.wr fn.val (offSlot i.val 0x40) 4 (BitVec.ofNat 32 op)) fun d => d.ctxCmd fn.val i.val op)
    (p : Prompt s fn.val) (ho : s.die.hostOpen = true) (w : Tab.wf {} s.die.ctx.slots = true) (hb : (s.die.slot i.val).busy = .idle)
    (hq : (s.die.prot i.val).departing = false) (hr : fn = 0 ∨ fn = i) (hop : op ≠ 0 ∧ op ≤ 6) (hd : ctxDenied fn.val i.val op = false)
    (hs : ctxStateOk (s.die.slot i.val).state op = true)
    (h : (s.die.updSlot i.val fun x => { x with overrun := false }).ctxAct fn.val i.val op = e) : Answers c s e := by
  have reach : fn.val = 0 ∨ fn.val = i.val := hr.imp (fun h => by rw [h]; rfl) (congrArg Fin.val)
  exact answers_of_hostMsg (m := .wr fn.val (offSlot i.val 0x40) 4 (BitVec.ofNat 32 op)) p hc
    ((Die.ctxCmd_acts w reach ho hb hop hd hs hq).trans h)

section
variable {d : Die} {s fn : Nat}

theorem Die.slot_overrun (w : Tab.wf {} d.ctx.slots = true) :
    (d.updSlot s fun x => { x with overrun := false }).slot s = { d.slot s with overrun := false } :=
  Die.updSlot_slot_self d s _ w

/-- LOAD of a slot that holds BUSY no longer, with what the clearing of OVERRUN leaves. -/
theorem Die.loadSlot_overrun (w : Tab.wf {} d.ctx.slots = true) (hb : (d.slot s).busy = .idle) :
    (d.updSlot s fun x => { x with overrun := false }).loadSlot s =
      if (d.prot s).protected_ ∧ (d.prot s).tdi = .locked then d.updSlot s fun x => { x with overrun := false, status := 1 }
      else if (d.prot s).init then d.updSlot s fun x => { x with overrun := false, status := 1 }
      else if (d.slot s).phys (d.slot s).imageAddr (d.slot s).imageLen.toNat = none then d.updSlot s fun x => { x with overrun := false, status := 8 }
      else d.updSlot s fun x => { x with overrun := false, state := .loading, busy := .load } := by
  unfold Die.loadSlot
  rw [Die.ctxDone_idle w hb, Die.ctxDone_idle w hb, Die.slot_overrun w, Die.updSlot_updSlot _ _ _ _ w]
  rfl

theorem Die.disarmSlot_overrun (w : Tab.wf {} d.ctx.slots = true) (hb : (d.slot s).busy = .idle) :
    (d.updSlot s fun x => { x with overrun := false }).disarmSlot s =
      Die.updSlot { d with ctx := { d.ctx with cal := d.ctx.cal.dropPending s } } s fun x =>
        { x with overrun := false, state := .loaded, conf := false, runsLeft := 0, status := 0 } := by
  have slots : ∀ f g h : Slot → Slot, Tab.upd {} (Tab.upd {} (Tab.upd {} d.ctx.slots s f) s g) s h =
      Tab.upd {} d.ctx.slots s fun x => h (g (f x)) := fun f g h => by rw [Tab.upd_upd s _ _ w, Tab.upd_upd s _ _ w]
  unfold Die.disarmSlot Die.ctxDone Die.updSlot
  dsimp only
  rw [slots]
  have last : Tab.upd {} d.ctx.slots s (fun x : Slot =>
        { x with overrun := false, state := .loaded, conf := false, runsLeft := 0, busy := .idle, status := BitVec.ofNat 4 stOk }) =
      Tab.upd {} d.ctx.slots s fun x => { x with overrun := false, state := .loaded, conf := false, runsLeft := 0, status := 0 } :=
    Tab.upd_congr _ _ <| congrArg (fun b =>
      ({ d.slot s with overrun := false, state := .loaded, conf := false, runsLeft := 0, busy := b, status := 0 } : Slot)) hb.symm
  exact congrArg (fun t => { d with ctx := { d.ctx with cal := d.ctx.cal.dropPending s, slots := t } }) last

theorem Die.unloadSlot_overrun (w : Tab.wf {} d.ctx.slots = true) (ht : (d.prot s).tdi = .unlocked) (release : Bool) :
    (d.updSlot s fun x => { x with overrun := false }).unloadSlot fn s release =
      (d.updSlot s fun x => { x with overrun := false, busy := .unload release }).stopUnits s := by
  unfold Die.unloadSlot
  rw [Die.updSlot_updSlot _ _ _ _ w]
  exact if_neg fun ⟨_, _, h⟩ => by
    rw [Die.updSlot_prot, ht] at h
    rcases h with h | h <;> cases h

/-- The end of an armed slot by command: cause 0, no record, vector 0x40, at once or with the issue cycle's end (R78, R601, R606). -/
def Die.AbortedBy (d e : Die) (s : Nat) : Prop :=
  e.slot s = { d.slot s with overrun := false, state := .aborted, cause := 0, runsLeft := 0, status := 0 } ∧
    (∀ j, j ≠ s → e.slot j = d.slot j) ∧ e.err = d.err ∧ e.st = d.st ∧
    (d.issuing = false → e.out = .intr s 0x40 :: d.out ∧ e.fab = { d.fab with modTurn := Tab.write 3 d.fab.modTurn 0 3 }) ∧
    (d.issuing = true → e.out = d.out ∧ e.fab = d.fab ∧ e.iss.aborts = d.iss.aborts ++ [(s, 0)]) ∧
    e.ctx.cal.pending ≠ some s ∧ e.kvp = d.kvp ∧ e.sec = d.sec

theorem Cal.dropPending_ne (c : Cal) (s : Nat) : (c.dropPending s).pending ≠ some s := by
  unfold Cal.dropPending
  split
  · exact fun h => by cases h
  · assumption

theorem Die.aborted_slots : (d.aborted s 0).ctx.slots = Tab.upd {} d.ctx.slots s fun x => { x with state := .aborted, cause := 0, runsLeft := 0 } := by
  rw [Die.aborted_ctx]

theorem Die.abortSlot_by (w : Tab.wf {} d.ctx.slots = true) (ha : (d.slot s).state = .armed) (hb : (d.slot s).busy = .idle) (hm : d.mainline = true) :
    d.AbortedBy (((d.updSlot s fun x => { x with overrun := false }).abortSlot s 0).ctxDone s stOk) s := by
  have abortable : (d.updSlot s fun x => { x with overrun := false }).abortable s = true := by
    unfold Die.abortable
    rw [Die.slot_overrun w, decide_eq_true ha]; rfl
  have told : ∀ e : Die, (e.abortTold s 0).ctx = e.ctx := fun e => Die.abortTold_ctx e s 0
  have ctx := Die.aborted_ctx (d := d.updSlot s fun x => { x with overrun := false }) (s := s) (cause := 0)
  rw [Die.abortSlot_abortable abortable]
  generalize hg : (d.updSlot s fun x => { x with overrun := false }).aborted s 0 = g at ctx ⊢
  have slots : (((g.abortTold s 0).ctxDone s stOk).ctx).slots = Tab.upd {} d.ctx.slots s fun x =>
      { x with overrun := false, state := .aborted, cause := 0, runsLeft := 0, busy := .idle, status := 0 } := by
    unfold Die.ctxDone Die.updSlot
    dsimp only
    rw [told, ctx]
    dsimp only [Die.updSlot]
    rw [Tab.upd_upd s _ _ w, Tab.upd_upd s _ _ w]; rfl
  refine ⟨?_, fun j hj => ?_, ?_, ?_, fun hi => ?_, fun hi => ?_, ?_, ?_, ?_⟩
  · rw [Die.slot, slots, Tab.read_upd_self s _ w, ← Die.slot, ← hb]
  · rw [Die.slot, slots, Tab.read_upd_ne _ w hj]; rfl
  · unfold Die.ctxDone; rw [Die.updSlot_err, Die.abortTold_err, ← hg]; simp [Die.aborted]
  · unfold Die.ctxDone; rw [Die.updSlot_st, Die.abortTold_st, ← hg]; simp [Die.aborted]
  · have issuing : g.issuing = false := by rw [← hg, Die.aborted_issuing]; exact hi
    have mainline : g.mainline = true := by rw [← hg, Die.aborted_mainline]; exact hm
    have sent : g.abortTold s 0 = g.sendHost (.intr s 0x40) := by
      unfold Die.abortTold Die.abortIntr Die.intr
      rw [issuing, mainline]; rfl
    unfold Die.ctxDone
    rw [sent, Die.updSlot_out, Die.updSlot_fab, Die.sendHost_out, Die.sendHost_fab, ← hg, Die.aborted_out, Die.aborted_fab]
    exact ⟨rfl, rfl⟩
  · have issuing : g.issuing = true := by rw [← hg, Die.aborted_issuing]; exact hi
    have waits : g.abortTold s 0 = { g with iss := { g.iss with aborts := g.iss.aborts ++ [(s, 0)] } } := if_pos issuing
    unfold Die.ctxDone
    rw [waits, Die.updSlot_out, Die.updSlot_fab, Die.updSlot_iss]
    dsimp only
    rw [← hg, Die.aborted_out, Die.aborted_fab, Die.aborted_aborts]
    exact ⟨rfl, rfl, rfl⟩
  · have cal : (((g.abortTold s 0).ctxDone s stOk).ctx).cal = d.ctx.cal.dropPending s := by
      unfold Die.ctxDone Die.updSlot
      dsimp only
      rw [told, ctx]; rfl
    rw [cal]
    exact Cal.dropPending_ne _ _
  · unfold Die.ctxDone; rw [Die.updSlot_kvp, Die.abortTold_kvp, ← hg]; simp [Die.aborted]
  · unfold Die.ctxDone; rw [Die.updSlot_sec, Die.abortTold_sec, ← hg]; simp [Die.aborted]
end

/-- Settles O42, command by command, from what each leaves (`Die.Granted`, `Die.AbortedBy`). -/
theorem slotCommandsTakeEffect : Obligations.SlotCommandsTakeEffect := by
  unfold Obligations.SlotCommandsTakeEffect
  intro s fn i p ho w wc d x hb hq
  have mainline : s.die.mainline = true := (Bool.and_eq_true _ _ ▸ p.1).2
  have named : ∀ {j : Fin 64}, fn = j → ¬ fn.val ≠ j.val := fun h => not_not_intro (congrArg Fin.val h)
  have either : fn = 0 ∨ fn = i → ¬ (fn.val ≠ 0 ∧ fn.val ≠ i.val) := fun h ⟨n0, ni⟩ => h.elim (fun e => named e n0) (fun e => named e ni)
  have grant : fn = 0 → x.state = .free → ∀ {e : Die},
      (d.updSlot i.val fun x => { x with overrun := false }).grantSlot i.val = e → Answers (.grant fn i) s e := fun h0 hf _ h =>
    answers_slotCmd (op := 1) (exec_grant fn i s) p ho w hb hq (.inl h0) (by decide) (decide_eq_false (named h0)) (decide_eq_true hf) h
  have load : fn = i → x.state = .granted → ∀ {e : Die},
      (d.updSlot i.val fun x => { x with overrun := false }).loadSlot i.val = e → Answers (.load fn i) s e := fun hi hg _ h =>
    answers_slotCmd (op := 2) (exec_load fn i s) p ho w hb hq (.inr hi) (by decide) (decide_eq_false (named hi)) (decide_eq_true hg) h
  refine ⟨?_, ?_, ?_, ?_, ?_, ?_, fun hr ha => ?_, fun hr ha => ?_, fun hr hs ht => ?_, fun h0 hs ht => ?_⟩
  · intro h0 hf hs hb' hw hl hr
    exact grant h0 hf (Die.grantSlot_range w hb hs hb' hw hl hr)
  · intro h0 hf hs hb' hw hl hr hov
    exact grant h0 hf (Die.grantSlot_overlap w hb hs hb' hw hl hr hov)
  · intro h0 hf hs hb' hw hl hr hov
    exact ⟨_, grant h0 hf (Die.grantSlot_granting w hs hb' hw hl hr hov), Die.grantDone_granted w wc⟩
  · intro hi hg hp hn hph
    refine load hi hg ((Die.loadSlot_overrun w hb).trans ?_)
    rw [if_neg (fun h => by rw [hp] at h; cases h.1), hn, if_neg Bool.false_ne_true, if_neg (fun h => by rw [h] at hph; cases hph)]
  · intro hi hg hp hn hph
    refine load hi hg ((Die.loadSlot_overrun w hb).trans ?_)
    rw [if_neg (fun h => by rw [hp] at h; cases h.1), hn, if_neg Bool.false_ne_true, if_pos hph]
  · intro hi hg hp ht
    exact load hi hg ((Die.loadSlot_overrun w hb).trans (if_pos ⟨hp, ht⟩))
  · exact answers_slotCmd (op := 3) (exec_disarm fn i s) p ho w hb hq hr (by decide) (decide_eq_false (either hr)) (decide_eq_true ha)
      (Die.disarmSlot_overrun w hb)
  · exact ⟨_, answers_slotCmd (op := 4) (exec_abort fn i s) p ho w hb hq hr (by decide) (decide_eq_false (either hr)) (decide_eq_true ha) rfl,
      Die.abortSlot_by w ha hb mainline⟩
  · exact answers_slotCmd (op := 5) (exec_unload fn i s) p ho w hb hq hr (by decide) (decide_eq_false (either hr)) (decide_eq_true hs)
      (Die.unloadSlot_overrun w ht false)
  · exact answers_slotCmd (op := 6) (exec_release fn i s) p ho w hb hq (.inl h0) (by decide) (decide_eq_false (named h0)) (decide_eq_true hs)
      (Die.unloadSlot_overrun w ht true)

end Sys2Proof.Machine
end

section
/-! The work of a slot: LOAD_COMPLETE, ARM and UNLOAD_RELEASE_DONE (R69, R438 to R440, R487, R504) -/

namespace Sys2Proof.Machine

/-! ### LOAD_COMPLETE -/

/-- An access that no dead channel and no erased key bars, and that brings no error, changes nothing. -/
theorem Die.accessed_free {d : Die} {rs ws : List (Nat × Nat)} (h : d.barred rs ws = false) (owner : Option Nat) :
    d.accessed .ok rs ws owner = (d, false) := by
  obtain ⟨hd, hl⟩ := Bool.or_eq_false_iff.1 h
  unfold Die.accessed Die.accessedBy
  rw [hd, if_neg Bool.false_ne_true]
  dsimp only
  rw [if_neg Bool.false_ne_true, Option.isNone_iff_eq_none.1 (Option.isSome_eq_false_iff.1 hl)]

section
variable {d : Die} {s : Nat}

/-- What the loader makes of the image that it has read: installed, or rejected with its code. -/
def Die.loadRead (d : Die) (s c : Nat) : Option (Image × Segment) → Die
  | some (m, g) => ((d.installImage s m g).updSlot s fun x =>
      { x with state := .loaded, seg := some g, runsDone := 0, runNum := 0, loadStat := 0 }).ctxDone s stOk
  | none => (d.updSlot s fun x => { x with loadStat := BitVec.ofNat 4 c }).loadFailed s stLoad

theorem Die.loadEnd_read {p : Nat} (hp : (d.slot s).phys (d.slot s).imageAddr (d.slot s).imageLen.toNat = some p)
    (hq : (d.prot s).departing = false) (hf : d.hbm.failed = false) (hb : d.barred [(p, (d.slot s).imageLen.toNat)] [] = false)
    {r : Option (Image × Segment)} (hr : (d.checkImage s (Mem.read d.st.hbm p (d.slot s).imageLen.toNat)).2 = r) :
    d.loadEnd s .ok = d.loadRead s (d.checkImage s (Mem.read d.st.hbm p (d.slot s).imageLen.toNat)).1 r := by
  unfold Die.loadEnd
  dsimp only
  rw [hp]
  dsimp only
  rw [Die.accessed_free hb]
  dsimp only
  rw [hq, hf, if_neg Bool.false_ne_true, Bool.or_false, if_neg Bool.false_ne_true, ← hr]
  rcases d.checkImage s (Mem.read d.st.hbm p (d.slot s).imageLen.toNat) with ⟨c, _ | ⟨m, g⟩⟩ <;> rfl

theorem Die.installImage_ctx (m : Image) (g : Segment) : (d.installImage s m g).ctx = d.ctx := rfl

theorem Die.updSlot_ctxDone_slot (w : Tab.wf {} d.ctx.slots = true) (f : Slot → Slot) (k : Nat) :
    ((d.updSlot s f).ctxDone s k).slot s = { f (d.slot s) with busy := .idle, status := BitVec.ofNat 4 k } := by
  unfold Die.ctxDone
  rw [Die.updSlot_updSlot _ _ _ _ w, Die.updSlot_slot_self _ _ _ w]

theorem Die.updSlot_ctxDone_slot_ne (w : Tab.wf {} d.ctx.slots = true) (f : Slot → Slot) (k : Nat) {j : Nat} (hj : j ≠ s) :
    ((d.updSlot s f).ctxDone s k).slot j = d.slot j := by
  unfold Die.ctxDone
  rw [Die.updSlot_updSlot _ _ _ _ w, Die.updSlot_slot_ne _ _ _ w hj]

theorem Die.loadFailed_updSlot (w : Tab.wf {} d.ctx.slots = true) (f : Slot → Slot) (k : Nat) :
    (d.updSlot s f).loadFailed s k = d.updSlot s fun x => { f x with state := .granted, busy := .idle, status := BitVec.ofNat 4 k } := by
  unfold Die.loadFailed Die.ctxDone
  rw [Die.updSlot_updSlot _ _ _ _ w, Die.updSlot_updSlot _ _ _ _ w]

theorem Die.ctxDone_overrun (w : Tab.wf {} d.ctx.slots = true) (k : Nat) :
    (d.updSlot s fun x => { x with overrun := false }).ctxDone s k =
      d.updSlot s fun x => { x with overrun := false, busy := .idle, status := BitVec.ofNat 4 k } :=
  Die.updSlot_updSlot _ _ _ _ w

/-! ### ARM -/

/-- The die with a slot armed, before CMD_STATUS says so. -/
theorem Die.armSlot_own (w : Tab.wf {} d.ctx.slots = true) (ho : d.hostOpen = true) (hb : (d.slot s).busy = .idle)
    (hq : (d.prot s).departing = false) (hs : (d.slot s).state = .loaded ∨ (d.slot s).state = .aborted) (runs : W32) :
    d.armSlot s s runs =
      let e := d.updSlot s fun x => { x with overrun := false }
      let conf := (d.slot s).runCtrl.getLsbD 0
      if (conf && !d.confReady s) || (!conf && (d.prot s).protected_) then e.ctxDone s stConf
      else if (d.slot s).state = .aborted ∧ d.slotRunning s = true then e.ctxDone s stBusy
      else (e.armNow s (wbits runs 15 0) conf).ctxDone s stOk := by
  have reach : kvReach s s = true := decide_eq_true (.inr rfl)
  unfold Die.armSlot
  rw [reach, ho, if_neg (by decide), if_neg (not_not_intro hb)]
  dsimp only
  rw [Die.slot_overrun w, if_neg (not_not_intro rfl), Die.updSlot_prot, hq, if_neg (by
    rintro (h | h)
    · exact h hs
    · cases h)]
  rfl

/-- ARM is let through (R439, R487). -/
theorem Die.arm_meets (d : Die) (s : Nat) (conf : Bool) :
    (((conf && !d.confReady s) || (!conf && (d.prot s).protected_)) = false) ↔
      (if conf = true then d.variant.hasConf = true ∧ (d.prot s).protected_ = true ∧ (d.prot s).tdi = .run ∧ d.sec.debugOpen = false
        else (d.prot s).protected_ = false) := by
  cases conf <;> simp [Die.confReady, and_assoc]

theorem Die.armNow_eq (d : Die) (s runs : Nat) (conf : Bool) : ∃ iss channels prots loops,
    d.armNow s runs conf =
      { d with ctx := { d.ctx with slots := Tab.upd {} d.ctx.slots s fun x =>
                 { x with state := .armed, conf := conf, runsLeft := BitVec.ofNat 16 runs, cause := 0, armTick := d.boot.sinceRst + 1 } },
               fab := { d.fab with channels := channels }, iss := iss, sec := { d.sec with prots := prots },
               fld := { d.fld with loops := loops } } ∧ ((d.slot s).state ≠ .aborted → iss = d.iss) := by
  unfold Die.armNow
  dsimp only
  split
  · split
    · next h => exact ⟨_, _, _, _, rfl, fun hn => absurd h hn⟩
    · exact ⟨_, _, _, _, rfl, fun _ => rfl⟩
  · exact ⟨_, _, _, _, rfl, fun _ => rfl⟩

/-- What an ARM that is let through leaves (R439). -/
def Die.ArmedBy (d e : Die) (s : Nat) (runs : W32) : Prop :=
  e.slot s = { d.slot s with overrun := false, state := .armed, conf := (d.slot s).runCtrl.getLsbD 0, runsLeft := runs.setWidth 16, cause := 0,
                             armTick := d.boot.sinceRst + 1, busy := .idle, status := 0 } ∧
    (∀ j, j ≠ s → e.slot j = d.slot j) ∧
    e = { d with ctx := { d.ctx with slots := e.ctx.slots }, fab := { d.fab with channels := e.fab.channels },
                 iss := if (d.slot s).state = .loaded then d.iss else e.iss,
                 sec := { d.sec with prots := e.sec.prots }, fld := { d.fld with loops := e.fld.loops } }

theorem Die.armedBy (w : Tab.wf {} d.ctx.slots = true) (runs : W32) :
    d.ArmedBy (((d.updSlot s fun x => { x with overrun := false }).armNow s (wbits runs 15 0) ((d.slot s).runCtrl.getLsbD 0)).ctxDone s stOk) s runs := by
  have hruns : BitVec.ofNat 16 (wbits runs 15 0) = runs.setWidth 16 := by
    apply BitVec.eq_of_toNat_eq
    simp [wbits, bitsOf]
  obtain ⟨iss, channels, prots, loops, h, hi⟩ := Die.armNow_eq (d.updSlot s fun x => { x with overrun := false }) s (wbits runs 15 0)
    ((d.slot s).runCtrl.getLsbD 0)
  rw [Die.slot_overrun w] at hi
  have slots : ((((d.updSlot s fun x => { x with overrun := false }).armNow s (wbits runs 15 0) ((d.slot s).runCtrl.getLsbD 0)).ctxDone s stOk)).ctx.slots =
      Tab.upd {} d.ctx.slots s fun x => { x with
        overrun := false, state := .armed, conf := (d.slot s).runCtrl.getLsbD 0, runsLeft := runs.setWidth 16, cause := 0,
        armTick := d.boot.sinceRst + 1, busy := .idle, status := 0 } := by
    rw [h, ← hruns]
    unfold Die.ctxDone Die.updSlot
    dsimp only
    rw [Tab.upd_upd s _ _ w, Tab.upd_upd s _ _ w]; rfl
  refine ⟨?_, fun j hj => ?_, ?_⟩
  · rw [Die.slot, slots, Tab.read_upd_self s _ w]; rfl
  · rw [Die.slot, slots, Tab.read_upd_ne _ w hj]; rfl
  · rw [h]
    unfold Die.ctxDone Die.updSlot
    dsimp only
    split
    · next hl => rw [hi (by rw [hl]; exact fun h => by cases h)]; rfl
    · rfl

/-! ### UNLOAD_RELEASE_DONE -/

theorem Die.cleanCheck_eq (d : Die) : ∃ b, d.cleanCheck = { d with boot := { d.boot with clean := b } } := by
  unfold Die.cleanCheck
  split
  · exact ⟨_, rfl⟩
  · exact ⟨_, rfl⟩

theorem Die.retireIfFree_queue (d : Die) (q : Nat) : ∃ l, d.retireIfFree q = { d with kvp := { d.kvp with queue := l } } :=
  (ite_eq_or_eq _ _ _ : d.retireIfFree q = { d with kvp := { d.kvp with queue := d.kvp.queue ++ [.retire q] } } ∨ d.retireIfFree q = d).elim
    (fun h => ⟨_, h⟩) (fun h => ⟨_, h⟩)

theorem Die.closePass_keeps (d : Die) (t : Nat) :
    (d.closePass t).ctx = d.ctx ∧ (d.closePass t).sec = d.sec ∧ (d.closePass t).kvp.chains = d.kvp.chains := by
  cases h : (d.thread t).pass with
  | none => rw [Die.closePass_none h]; exact ⟨rfl, rfl, rfl⟩
  | some p =>
    obtain ⟨q, hq⟩ := ((d.updSeq p.seq p.unhold).updThread t fun y => { y with pass := none }).retireIfFree_queue p.seq
    rw [Die.closePass_some h, hq]
    exact ⟨rfl, rfl, rfl⟩

theorem Die.closePasses_keeps (d : Die) (s : Nat) :
    (d.closePasses s).ctx = d.ctx ∧ (d.closePasses s).sec = d.sec ∧ (d.closePasses s).kvp.chains = d.kvp.chains :=
  foldl_pred (P := fun e : Die => e.ctx = d.ctx ∧ e.sec = d.sec ∧ e.kvp.chains = d.kvp.chains) ⟨rfl, rfl, rfl⟩
    fun b c _ ⟨hc, hs, hk⟩ =>
      have ⟨kc, ks, kk⟩ := b.closePass_keeps c.1
      ⟨kc.trans hc, ks.trans hs, kk.trans hk⟩

/-- The slot that step 4 of R440 leaves. -/
def Slot.freed (x : Slot) : Slot := { x with seg := none, state := .granted, conf := false, runsLeft := 0, cause := 0 }

theorem Die.freeSegment_slots (d : Die) (s : Nat) : (d.freeSegment s).ctx.slots = Tab.upd {} d.ctx.slots s Slot.freed := by
  unfold Die.freeSegment Die.updSlot
  dsimp only
  rw [(d.closePasses_keeps s).1]; rfl

theorem Die.freeSegment_sec (d : Die) (s : Nat) : (d.freeSegment s).sec = d.sec := (d.closePasses_keeps s).2.1
theorem Die.freeSegment_chains (d : Die) (s : Nat) : (d.freeSegment s).kvp.chains = d.kvp.chains := (d.closePasses_keeps s).2.2

theorem Die.freeSegment_slot (w : Tab.wf {} d.ctx.slots = true) : (d.freeSegment s).slot s = (d.slot s).freed := by
  rw [Die.slot, Die.freeSegment_slots, Tab.read_upd_self s _ w]; rfl

theorem Die.freeSegment_slot_ne (w : Tab.wf {} d.ctx.slots = true) {j : Nat} (hj : j ≠ s) : (d.freeSegment s).slot j = d.slot j := by
  rw [Die.slot, Die.freeSegment_slots, Tab.read_upd_ne _ w hj]; rfl

theorem Die.wf_freeSegment (w : Tab.wf {} d.ctx.slots = true) : Tab.wf {} (d.freeSegment s).ctx.slots = true := by
  rw [Die.freeSegment_slots]; exact Tab.wf_upd s _ w

/-- The scrub of a slot's ranges begun. -/
theorem Die.freeSegment_scrub (w : Tab.wf {} d.ctx.slots = true) (release : Bool) :
    ((d.freeSegment s).addScrub s 0 false release).sec.scrubs = d.sec.scrubs ++ [(d.slot s).scrub s 0 false release] := by
  unfold Die.addScrub
  dsimp only
  rw [Die.freeSegment_sec, Die.freeSegment_slot w]; rfl

/-- The slot is FREE, its command complete. -/
theorem Die.freeSlot_done_slot (w : Tab.wf {} d.ctx.slots = true) {release : Bool} :
    (((d.addScrub s 0 false release).freeSlot s).ctxDone s stOk).slot s = { d.slot s with state := .free, busy := .idle, status := 0 } :=
  Die.updSlot_ctxDone_slot (d := (((d.addScrub s 0 false release).kvRelease s).channelsRelease s)) w _ stOk

theorem Die.freeSlot_done_slot_ne (w : Tab.wf {} d.ctx.slots = true) {release : Bool} {j : Nat} (hj : j ≠ s) :
    (((d.addScrub s 0 false release).freeSlot s).ctxDone s stOk).slot j = d.slot j :=
  Die.updSlot_ctxDone_slot_ne (d := (((d.addScrub s 0 false release).kvRelease s).channelsRelease s)) w _ stOk hj

theorem Die.freeSlot_done_sec (release : Bool) :
    (((d.addScrub s 0 false release).freeSlot s).ctxDone s stOk).sec = (d.addScrub s 0 false release).sec := by
  simp only [Die.ctxDone, Die.freeSlot, Die.updSlot_sec, Die.channelsRelease, Die.kvRelease]

theorem Die.freeSlot_done_chain (w : Tab.wf [] d.kvp.chains = true) (release : Bool) :
    Tab.read [] (((d.addScrub s 0 false release).freeSlot s).ctxDone s stOk).kvp.chains s = [] := by
  simp only [Die.ctxDone, Die.freeSlot, Die.updSlot_kvp, Die.channelsRelease, Die.kvRelease, Kvp.setChain, Kvp.resetPages, Kvp.resetSeqs,
    Die.addScrub]
  exact Tab.read_write_self s [] w

/-- How an UNLOAD, or a RELEASE of a slot that was not confidential, or of one that was, comes to its end. -/
theorem Die.unloadEnd_unload (hq : (d.prot s).departing = false) (hb : (d.slot s).busy = .unload false) :
    d.unloadEnd s = (d.freeSegment s).ctxDone s stOk := by
  unfold Die.unloadEnd
  dsimp only
  rw [hq, if_neg Bool.false_ne_true, hb]

theorem Die.unloadEnd_release (hq : (d.prot s).departing = false) (hb : (d.slot s).busy = .unload true)
    (hs : (d.sec.scrubs.any fun c => decide (c.slot = s) && c.release) = false) :
    d.unloadEnd s = if (d.prot s).lastConf then (d.freeSegment s).addScrub s 0 false (d.prot s).lastConf
      else (((d.freeSegment s).addScrub s 0 false (d.prot s).lastConf).freeSlot s).ctxDone s stOk := by
  unfold Die.unloadEnd
  dsimp only
  rw [hq, if_neg Bool.false_ne_true, hb]
  dsimp only
  rw [hs, if_neg Bool.false_ne_true]

end

theorem answers_arm {s : State} {i : Fin 64} {runs : W32} {e : Die} (p : Prompt s i.val) (h : s.die.armSlot i.val i.val runs = e) :
    Answers (.arm i i runs) s e :=
  answers_of_hostMsg (m := .wr i.val (offSlot i.val 0x44) 4 runs) p (exec_arm i i runs s) h

/-- UNLOAD_RELEASE_DONE beside CLEAN, which its last check may set. -/
theorem answers_unloadDone {s : State} {i : Fin 64} {b : Bool} {u : Die} (hq : s.die.slotQuiet i.val = true)
    (hb : (s.die.slot i.val).busy = .unload b) (h : s.die.unloadEnd i.val = u) :
    ∃ e : Die, Answers (.unloadReleaseDone i) s e ∧ (∀ j, e.slot j = u.slot j) ∧ e.sec = u.sec ∧ e.kvp = u.kvp := by
  have unloading : (s.die.slot i.val).unloading = true := by unfold Slot.unloading; rw [hb]
  obtain ⟨c, hc⟩ := u.cleanCheck_eq
  exact ⟨_, answers_of_act (exec_unloadReleaseDone i s) ((if_pos (by rw [unloading, hq]; rfl)).trans ((congrArg Die.cleanCheck h).trans hc)),
    fun j => rfl, rfl, rfl⟩

/-- Settles O43: each clause is one end of the loader, of ARM, or of step 4 of R440. -/
theorem slotWorkCompletes : Obligations.SlotWorkCompletes := by
  unfold Obligations.SlotWorkCompletes
  intro s i w wc d x
  refine ⟨fun p m g hb hp hq hf hbar => ⟨fun hr => ?_, fun hr => ?_⟩, fun runs hpr ho hb hq => ⟨fun hs hm => ?_, fun hm hs => ?_, fun hm hs ht => ?_⟩,
    fun hn => ?_, fun ht hq hb => ?_, fun ht hq hb hl hs => ?_, fun ht hq hb hl hs => ?_⟩
  · have load := Die.loadEnd_read hp hq hf hbar hr
    refine ⟨_, answers_of_act (exec_loadComplete i .ok s) ((if_pos hb).trans load), ?_, fun j hj => ?_, ?_⟩
    · exact Die.updSlot_ctxDone_slot (d := d.installImage i.val m g) w _ stOk
    · exact Die.updSlot_ctxDone_slot_ne (d := d.installImage i.val m g) w _ stOk hj
    · rfl
  · have load := Die.loadEnd_read hp hq hf hbar hr
    exact answers_of_act (exec_loadComplete i .ok s) ((if_pos hb).trans (load.trans (Die.loadFailed_updSlot w _ stLoad)))
  · have refused : ((x.runCtrl.getLsbD 0 && !d.confReady i.val) || (!x.runCtrl.getLsbD 0 && (d.prot i.val).protected_)) = true :=
      Bool.of_not_eq_false fun h => hm ((Die.arm_meets d i.val _).1 h)
    exact answers_arm hpr ((Die.armSlot_own w ho hb hq hs runs).trans ((if_pos refused).trans (Die.ctxDone_overrun w stConf)))
  · have met := (Die.arm_meets d i.val _).2 hm
    have still : ¬ ((d.slot i.val).state = .aborted ∧ d.slotRunning i.val = true) := fun ⟨ha, hr⟩ => by
      rcases hs with hl | ⟨_, hn⟩
      · rw [hl] at ha; cases ha
      · rw [hn] at hr; cases hr
    have armed := (Die.armSlot_own w ho hb hq (hs.imp_right And.left) runs).trans
      ((if_neg (by rw [met]; exact Bool.false_ne_true)).trans (if_neg still))
    exact ⟨_, answers_arm hpr armed, Die.armedBy w runs⟩
  · have met := (Die.arm_meets d i.val _).2 hm
    have busy := (Die.armSlot_own w ho hb hq (.inr hs) runs).trans ((if_neg (by rw [met]; exact Bool.false_ne_true)).trans (if_pos ⟨hs, ht⟩))
    exact answers_arm hpr (busy.trans (Die.ctxDone_overrun w stBusy))
  · refine answers_of_act (exec_unloadReleaseDone i s) (if_neg fun h => ?_)
    obtain ⟨hw, ht⟩ := (Bool.and_eq_true _ _).mp h
    rcases hn with hn | ⟨hu, hd⟩
    · exact Bool.false_ne_true (hn.symm.trans ht)
    · rw [hu, hd] at hw; cases hw
  · obtain ⟨e, ha, slot, -, -⟩ := answers_unloadDone ht hb (Die.unloadEnd_unload hq hb)
    refine ⟨e, ha, ?_, fun j hj => ?_⟩
    · rw [slot, Die.ctxDone, Die.updSlot_slot_self _ _ _ (Die.wf_freeSegment w), Die.freeSegment_slot w]; rfl
    · rw [slot, Die.ctxDone, Die.updSlot_slot_ne _ _ _ (Die.wf_freeSegment w) hj, Die.freeSegment_slot_ne w hj]
  · obtain ⟨e, ha, slot, sec, kvp⟩ := answers_unloadDone ht hb
      ((Die.unloadEnd_release hq hb hs).trans (if_neg (by rw [hl]; exact Bool.false_ne_true)))
    rw [hl] at slot sec kvp
    have wf := Die.wf_freeSegment (s := i.val) w
    have wc : Tab.wf [] (d.freeSegment i.val).kvp.chains = true := by rw [Die.freeSegment_chains]; exact wc
    refine ⟨e, ha, ?_, fun j hj => ?_, ?_, ?_⟩
    · rw [slot, Die.freeSlot_done_slot wf, Die.freeSegment_slot w]; rfl
    · rw [slot, Die.freeSlot_done_slot_ne wf hj, Die.freeSegment_slot_ne w hj]
    · rw [sec, Die.freeSlot_done_sec]; exact Die.freeSegment_scrub w false
    · rw [kvp]; exact Die.freeSlot_done_chain wc false
  · obtain ⟨e, ha, slot, sec, -⟩ := answers_unloadDone ht hb ((Die.unloadEnd_release hq hb hs).trans (if_pos hl))
    rw [hl] at slot sec
    refine ⟨e, ha, (slot _).trans (Die.freeSegment_slot w), fun j hj => (slot j).trans (Die.freeSegment_slot_ne w hj), ?_⟩
    rw [sec]; exact Die.freeSegment_scrub w true

end Sys2Proof.Machine
end

section
/-! FACTS. What leaves the stores as they are: one frame rule per function of the model. -/

namespace Sys2Proof.Machine

@[simp] theorem foldl_st {α : Type} {f : Die → α → Die} (h : ∀ d x, (f d x).st = d.st) (l : List α) (d : Die) : (l.foldl f d).st = d.st :=
  foldl_pred (P := fun e : Die => e.st = d.st) rfl fun e x _ he => (h e x).trans he

@[simp] theorem forUpto_st {f : Nat → Die → Die} (h : ∀ k d, (f k d).st = d.st) (n : Nat) (d : Die) : (forUpto n f d).st = d.st :=
  foldl_st (fun d x => h x d) _ d

@[simp] theorem forIn'_st {α : Type} {f : α → Die → Die} (h : ∀ x d, (f x d).st = d.st) (l : List α) (d : Die) : (forIn' l f d).st = d.st :=
  foldl_st (fun d x => h x d) l d

theorem ite_st {c : Prop} [Decidable c] {a b : Die} {st : Stores} (ha : a.st = st) (hb : b.st = st) : (if c then a else b).st = st := by
  split
  · exact ha
  · exact hb

theorem Die.setPst_st (d : Die) (p : Post) : ({ d with pst := p } : Die).st = d.st := rfl

@[simp] theorem Die.updTe_st (d : Die) (n : Nat) (f : Engine → Engine) : (d.updTe n f).st = d.st := by unfold Die.updTe; split <;> rfl

/-! ### Messages of the host -/

theorem Die.hostMsg_st {d : Die} {m : HostMsg} {f : Die → Die} (h : (f d).st = d.st) : (d.hostMsg m f).st = d.st :=
  Die.hostMsg_ind (P := fun st => st = d.st) rfl h
theorem Die.hostWr_st {d : Die} {fn off : Nat} {val : W32} {f : Die → Die} (h : (f d).st = d.st) : (d.hostWr fn off val f).st = d.st := by
  unfold Die.hostWr
  apply Die.hostMsg_st
  split
  · exact h
  · rfl
theorem Die.pfWr_st {d : Die} {fn off : Nat} {val : W32} {f : Die → Die} (h : (f d).st = d.st) : (d.pfWr fn off val f).st = d.st := by
  unfold Die.pfWr
  apply Die.hostWr_st
  split
  · exact h
  · rfl

/-! ### Field loops and ports -/

@[simp] theorem Die.loopCount_st (d : Die) (n : Nat) (f : Loop → Loop) : (d.loopCount n f).st = d.st := by
  unfold Die.loopCount; split <;> rfl
@[simp] theorem Die.loopLate_st (d : Die) (n : Nat) : (d.loopLate n).st = d.st := by simp [Die.loopLate]
@[simp] theorem Die.queueGuard_st (d : Die) (l : Loop) (f : TxFrame) : (d.queueGuard l f).st = d.st := by
  unfold Die.queueGuard; split <;> rfl
@[simp] theorem Die.queueCmd_st (d : Die) (l : Loop) (f : TxFrame) : (d.queueCmd l f).st = d.st := by unfold Die.queueCmd; split <;> rfl
@[simp] theorem Die.dropCommands_st (d : Die) (p : Nat → Bool) : (d.dropCommands p).st = d.st := rfl
@[simp] theorem Die.dropFrames_st (d : Die) (n : Nat) : (d.dropFrames n).st = d.st := rfl
@[simp] theorem Die.serveDeadline_st (d : Die) (n : Nat) : (d.serveDeadline n).st = d.st := by simp [Die.serveDeadline, apply_ite Die.st]
@[simp] theorem Die.loopStepped_st (d : Die) (n : Nat) (backward : Bool) : (d.loopStepped n backward).st = d.st := by
  unfold Die.loopStepped
  dsimp only
  repeat' split
  all_goals simp
@[simp] theorem Die.loopOff_st (d : Die) (n : Nat) : (d.loopOff n).st = d.st := rfl
@[simp] theorem Die.loopOn_st (d : Die) (n : Nat) : (d.loopOn n).st = d.st := by simp [Die.loopOn, apply_ite Die.st]
@[simp] theorem Die.bindWrite_st (d : Die) (n : Nat) (v : W32) : (d.bindWrite n v).st = d.st := by simp [Die.bindWrite, apply_ite Die.st]
@[simp] theorem Die.portCtrlWrite_st (d : Die) (p : Nat) (v : W32) : (d.portCtrlWrite p v).st = d.st := by
  simp [Die.portCtrlWrite, apply_ite Die.st]
@[simp] theorem Die.hbPeriodWrite_st (d : Die) (v : W32) : (d.hbPeriodWrite v).st = d.st :=
  forUpto_st (fun p e => e.updFport_st p _) 4 _
@[simp] theorem Die.rxErr_st (d : Die) (p : Nat) : (d.rxErr p).st = d.st := rfl
@[simp] theorem Die.takeSensor_st (d : Die) (n : Nat) (f : List Byte) : (d.takeSensor n f).st = d.st := by
  simp [Die.takeSensor, apply_ite Die.st]
@[simp] theorem Die.takeStatus_st (d : Die) (n : Nat) (f : List Byte) : (d.takeStatus n f).st = d.st := rfl
@[simp] theorem Die.portRx_st {d : Die} {p : Nat} {type : Byte} {x : List Byte} {f : Nat → Die → Die} (hf : ∀ n e, (f n e).st = e.st) : (d.portRx p type x f).st = d.st := by
  unfold Die.portRx
  repeat' split
  all_goals simp [hf]
@[simp] theorem Die.loopSent_st (d : Die) (f : TxFrame) : (d.loopSent f).st = d.st := by simp [Die.loopSent, apply_ite Die.st]
@[simp] theorem Die.portTx_st (d : Die) (p : Nat) (bytes : List Byte) : (d.portTx p bytes).st = d.st := rfl
@[simp] theorem Die.portStart_st (d : Die) (p : Nat) : (d.portStart p).st = d.st := by
  unfold Die.portStart
  dsimp only
  repeat' split
  all_goals simp
@[simp] theorem Die.msgTx_st (d : Die) (f : TxFrame) : (d.msgTx f).st = d.st := by simp [Die.msgTx]
@[simp] theorem Die.msgStart_st (d : Die) : d.msgStart.st = d.st := by
  unfold Die.msgStart
  repeat' split
  all_goals simp
@[simp] theorem Die.msgCreditsBack_st (d : Die) (n : Nat) : (d.msgCreditsBack n).st = d.st := rfl
@[simp] theorem Die.foreign_st (d : Die) : d.foreign.st = d.st := rfl
@[simp] theorem Die.arrive_st (d : Die) (n slot : Nat) (block : List Byte) : (d.arrive n slot block).st = d.st := by
  simp [Die.arrive, apply_ite Die.st]

/-! ### The cycle of a bundle -/

@[simp] theorem Die.dawnRun_st (d : Die) : d.dawnRun.st = d.st := by unfold Die.dawnRun; dsimp only; split <;> simp
@[simp] theorem Die.markRefused_st (d : Die) (b : Bool) : (d.markRefused b).st = d.st := by
  unfold Die.markRefused
  repeat' split
  all_goals rfl
@[simp] theorem Die.setCursor_st (d : Die) (unit p n : Nat) : (d.setCursor unit p n).st = d.st := rfl
@[simp] theorem Die.advance_st (d : Die) (s unit idx n : Nat) : (d.advance s unit idx n).st = d.st := by
  unfold Die.advance; split <;> simp [apply_ite Die.st]
@[simp] theorem Die.markEmpty_st (d : Die) (s b : Nat) : (d.markEmpty s b).st = d.st := by unfold Die.markEmpty; split <;> rfl

/-! ### Slots 0 to 2 and 4 -/

@[simp] theorem Die.scaleSkew_st (d : Die) (s idx addr : Nat) (k : Skew) : (d.scaleSkew s idx addr k).st = d.st := by simp [Die.scaleSkew]
@[simp] theorem Die.setRun_st (d : Die) (f : Run → Run) : (d.setRun f).st = d.st := by unfold Die.setRun; split <;> rfl
@[simp] theorem Die.aclk_st (d : Die) (n : Nat) : (d.aclk n).st = d.st := rfl
@[simp] theorem Die.passCycles_st (d : Die) (n : Nat) : (d.passCycles n).st = d.st := by simp [Die.passCycles]
@[simp] theorem Die.stopRun_st (d : Die) (s : Nat) : (d.stopRun s).st = d.st := by simp [Die.stopRun]
@[simp] theorem Die.cycleEnd_st (d : Die) (left : Nat) : (d.cycleEnd left).st = d.st := by
  unfold Die.cycleEnd; split <;> simp [apply_ite Die.st]
@[simp] theorem Die.slotDone_st (d : Die) (k : Nat) : (d.slotDone k).st = d.st := by
  unfold Die.slotDone
  repeat' split
  all_goals simp [apply_ite Die.st]
@[simp] theorem Die.countUnless_st {d : Die} {s : Nat} {f : Die → Die} (hf : ∀ e, (f e).st = e.st) : (d.countUnless s f).st = d.st := by
  unfold Die.countUnless
  repeat' split
  all_goals simp [hf]
@[simp] theorem Die.wloadFirst_st (d : Die) (r : Run) (te w : Nat) (f : Fmt) (p : Prog) : (d.wloadFirst r te w f p).st = d.st := by
  simp [Die.wloadFirst, apply_ite Die.st]
@[simp] theorem Die.wloadRow_st (d : Die) (r : Run) (te w : Nat) (f : Fmt) (p : Prog) (pl : Plane) : (d.wloadRow r te w f p pl).st = d.st := by
  unfold Die.wloadRow; dsimp only; split <;> simp
@[simp] theorem Die.wload_st (d : Die) (te : Nat) (r : Run) (w : Nat) : (d.wload te r w).st = d.st := by
  unfold Die.wload; split <;> simp [apply_ite Die.st]
@[simp] theorem Die.countEntry_st (d : Die) (s te : Nat) : (d.countEntry s te).st = d.st := by simp [Die.countEntry]
@[simp] theorem Die.enterRow_st (d : Die) (r : Run) (te w : Nat) (f : Fmt) (force : Bool) (act : List Byte) (scales : List Nat) (blocked : Bool) (drow : Nat) : (d.enterRow r te w f force act scales blocked drow).st = d.st := by
  simp [Die.enterRow]
@[simp] theorem Die.advanceDst_st (d : Die) (s te w n : Nat) : (d.advanceDst s te w n).st = d.st := by
  simp [Die.advanceDst, apply_ite Die.st]
@[simp] theorem Die.streamInt16_st (d : Die) (r : Run) (te w : Nat) (force : Bool) (p : Prog) : (d.streamInt16 r te w force p).st = d.st := by
  simp [Die.streamInt16, apply_ite Die.st]
@[simp] theorem Die.streamRow_st (d : Die) (r : Run) (te w : Nat) (f : Fmt) (force : Bool) (p : Prog) : (d.streamRow r te w f force p).st = d.st := by
  unfold Die.streamRow; dsimp only; split <;> simp
@[simp] theorem Die.elasticAdd_st (d : Die) (r : Run) (te w : Nat) (f : Fmt) (p : Prog) (left : Nat) : (d.elasticAdd r te w f p left).1.st = d.st := by
  unfold Die.elasticAdd; dsimp only; split <;> simp
@[simp] theorem Die.elasticReport_st (d : Die) (r : Run) (te w : Nat) : (d.elasticReport r te w).st = d.st := by
  unfold Die.elasticReport
  dsimp only
  repeat' split
  all_goals simp
@[simp] theorem Die.streamElastic_st (d : Die) (r : Run) (te w : Nat) (f : Fmt) (force : Bool) (p : Prog) : (d.streamElastic r te w f force p).st = d.st := by
  unfold Die.streamElastic
  repeat' split
  all_goals simp [apply_ite Die.st]
@[simp] theorem Die.streamSlot_st (d : Die) (te : Nat) (r : Run) (w : Nat) : (d.stream_ te r w).st = d.st := by
  unfold Die.stream_; split <;> simp [apply_ite Die.st]
@[simp] theorem Die.readDue_st (d : Die) (m : Nat) : (d.readDue m).st = d.st := rfl
@[simp] theorem Die.fwload_st (d : Die) (r : Run) (w : Nat) : (d.fwload r w).st = d.st := by
  unfold Die.fwload; split <;> simp [apply_ite Die.st]
@[simp] theorem Die.readColrec_st (d : Die) (r : Run) (w : Nat) : (d.readColrec r w).st = d.st := by simp [Die.readColrec, apply_ite Die.st]
@[simp] theorem Die.fstream_st (d : Die) (r : Run) (w : Nat) : (d.fstream r w).st = d.st := by
  unfold Die.fstream; split <;> simp [apply_ite Die.st]
@[simp] theorem Die.vland_st (d : Die) (s op space : Nat) (a : Int) (data : List Byte) : (d.vland s op space a data).st = d.st := by
  simp [Die.vland, apply_ite Die.st]
@[simp] theorem Die.vfold_st (d : Die) (s op space : Nat) (a : Int) (m : FVal) : (d.vfold s op space a m).st = d.st := by
  simp [Die.vfold, apply_ite Die.st]
@[simp] theorem Die.landRowOf_st (d : Die) (s op dst g bits : Nat) (codes : List Nat) : (d.landRowOf s op dst g bits codes).st = d.st := by
  simp [Die.landRowOf, apply_ite Die.st]
@[simp] theorem Die.landElem_st (d : Die) (s op dst g bits code : Nat) : (d.landElem s op dst g bits code).st = d.st := by
  simp [Die.landElem, apply_ite Die.st]
@[simp] theorem Die.countVecSat_st (d : Die) (s side n : Nat) : (d.countVecSat s side n).st = d.st := by simp [Die.countVecSat]
@[simp] theorem Die.countCvt_st (d : Die) (s side n : Nat) (nan : Bool) : (d.countCvt s side n nan).st = d.st := by simp [Die.countCvt]
@[simp] theorem Die.vectorCycle_st {d : Die} {r : Run} {op w : Nat} {f : Nat → Die → Die} (hf : ∀ n e, (f n e).st = e.st) : (d.vectorCycle r op w f).st = d.st := by
  unfold Die.vectorCycle
  dsimp only
  refine (foldl_st (fun e i => Die.advance_st e _ _ _ _) _ _).trans ?_
  repeat' split
  all_goals simp [hf]
@[simp] theorem Die.vElem_st (r : Run) (op w : Nat) (f : Fmt) (g : Nat) (d : Die) : (d.vElem r op w f g).st = d.st := by
  simp [Die.vElem, apply_ite Die.st]
@[simp] theorem Die.vUnary_st (r : Run) (op w : Nat) (f : Fmt) (g : Nat) (d : Die) : (d.vUnary r op w f g).st = d.st := by
  simp [Die.vUnary, apply_ite Die.st]
@[simp] theorem Die.vReduce_st (r : Run) (op w : Nat) (f : Fmt) (g : Nat) (d : Die) : (d.vReduce r op w f g).st = d.st := by
  simp [Die.vReduce]
@[simp] theorem Die.vAmax_st (r : Run) (w : Nat) (f : Fmt) (g : Nat) (d : Die) : (d.vAmax r w f g).st = d.st := by
  simp [Die.vAmax, apply_ite Die.st]
@[simp] theorem Die.cvtBlocks_st (d : Die) (r : Run) (w g : Nat) (f : Fmt) (pd : Prog) (vs : List FVal) : (d.cvtBlocks r w g f pd vs).st = d.st := by
  simp [Die.cvtBlocks]
@[simp] theorem Die.cvtSkews_st (d : Die) (r : Run) (k0 k1 : Option Skew) : (d.cvtSkews r k0 k1).st = d.st := by
  unfold Die.cvtSkews
  dsimp only
  repeat' split
  all_goals simp
@[simp] theorem Die.vCvt_st (r : Run) (w : Nat) (scale : Option Nat) (g : Nat) (d : Die) : (d.vCvt r w scale g).st = d.st := by
  unfold Die.vCvt; dsimp only; split <;> simp [apply_ite Die.st]
@[simp] theorem Die.vHad_st (r : Run) (w : Nat) (f : Fmt) (g : Nat) (d : Die) : (d.vHad r w f g).st = d.st := by simp [Die.vHad]
@[simp] theorem Die.vMerge_st (r : Run) (w : Nat) (f : Fmt) (g : Nat) (d : Die) : (d.vMerge r w f g).st = d.st := by
  simp [Die.vMerge, apply_ite Die.st]
@[simp] theorem Die.micaAdvance_st (d : Die) (s op w : Nat) : (d.micaAdvance s op w).st = d.st := by simp [Die.micaAdvance]
@[simp] theorem Die.micaCycle_st (d : Die) (r : Run) (op w : Nat) : (d.micaCycle r op w).st = d.st := by
  simp [Die.micaCycle, apply_ite Die.st]

/-! ### Slot 5 -/

@[simp] theorem Die.addPostJob_st (d : Die) (s w : Nat) (j : PostJob) : (d.addPostJob s w j).st = d.st := by simp [Die.addPostJob]
@[simp] theorem Die.postAction_st (d : Die) (s op : Nat) : (d.postAction s op).st = d.st := rfl
@[simp] theorem Die.postCount_st (d : Die) (s : Nat) : (d.postCount s).st = d.st := by unfold Die.postCount; split <;> rfl
@[simp] theorem Die.poolCycle_st (d : Die) (r : Run) (op w : Nat) : (d.poolCycle r op w).st = d.st := by
  unfold Die.poolCycle
  refine ite_st (Die.markEmpty_st _ _ _) (ite_st ((Die.setPst_st _ _).trans ((Die.markRefused_st _ _).trans (Die.postCount_st _ _))) ?_)
  -- `whnf` brings the last `match` to the front and leaves what it is about alone; reducing further there is costly to check
  conv =>
    lhs
    arg 1
    whnf
  split
  · exact (Die.setCursor_st _ _ _ _).trans ((Die.addPostJob_st _ _ _ _).trans ((Die.setPst_st _ _).trans ((Die.markRefused_st _ _).trans (Die.postCount_st _ _))))
  · exact (Die.addPostJob_st _ _ _ _).trans ((Die.setPst_st _ _).trans ((Die.markRefused_st _ _).trans (Die.postCount_st _ _)))
@[simp] theorem Die.cropBegin_st (d : Die) (r : Run) (w : Nat) (q : Desc) : (d.cropBegin r w q).st = d.st := by
  simp [Die.cropBegin, apply_ite Die.st]
@[simp] theorem Die.cropSample_st (d : Die) (s op w : Nat) (q : Desc) (p : Prog) (y x : FVal) (inside : Bool) : (d.cropSample s op w q p y x inside).st = d.st := by
  simp [Die.cropSample]
@[simp] theorem Die.boxEnd_st (d : Die) (s op : Nat) (w : Nat) (q : Desc) : (d.boxEnd s op w q).st = d.st := rfl
@[simp] theorem Die.cropCycle_st (d : Die) (r : Run) (op w : Nat) : (d.cropCycle r op w).st = d.st := by
  simp [Die.cropCycle, apply_ite Die.st]
@[simp] theorem Die.argmaxCycle_st (d : Die) (r : Run) (w : Nat) : (d.argmaxCycle r w).st = d.st := by
  simp [Die.argmaxCycle, apply_ite Die.st]

/-! ### Waits and loop control -/

@[simp] theorem Die.tallyReadable_st (d : Die) : d.tallyReadable.st = d.st := by simp [Die.tallyReadable]
@[simp] theorem Die.waitRelease_st (d : Die) (r : Run) : (d.waitRelease r).st = d.st := by
  unfold Die.waitRelease; split <;> simp [apply_ite Die.st]
@[simp] theorem Die.stallCycles_st (d : Die) (n : Nat) : (d.stallCycles n).st = d.st := by unfold Die.stallCycles; split <;> rfl
@[simp] theorem Die.enterBundle_st (d : Die) : d.enterBundle.st = d.st := by
  unfold Die.enterBundle
  repeat' split
  all_goals simp
@[simp] theorem Die.tryWait_st {d : Die} {r : Run} {f : Die → Die} (hf : ∀ e, (f e).st = e.st) : (d.tryWait r f).st = d.st := by
  unfold Die.tryWait
  repeat' split
  all_goals simp [hf]
@[simp] theorem Die.loopControl_st (d : Die) (op : Nat) (f : Run → Run) : (d.loopControl op f).st = d.st := by
  unfold Die.loopControl; split <;> simp [apply_ite Die.st]

/-! ### Keys -/

@[simp] theorem Die.bootKeys_st (d : Die) : d.bootKeys.st = d.st := rfl
theorem Die.newKey_st {d : Die} {k : Die × Nat} (h : d.newKey = some k) : k.1.st = d.st := by
  unfold Die.newKey at h
  split at h
  · cases h; rfl
  · cases h

/-! ### The fabric -/

@[simp] theorem Die.fabCount_st (d : Die) (s : Option Nat) (f : Fab → Fab) : (d.fabCount s f).st = d.st := by
  unfold Die.fabCount; split <;> rfl
@[simp] theorem Die.missCount_st (d : Die) (s : Option Nat) : (d.missCount s).st = d.st := by simp [Die.missCount]
@[simp] theorem Die.sendOn_st (d : Die) (p : Nat) (c : List Byte) : (d.sendOn p c).st = d.st := rfl
@[simp] theorem Die.sendLink_st (d : Die) (p : Nat) (nak sleep : Bool) : (d.sendLink p nak sleep).st = d.st := rfl
@[simp] theorem Die.sendCell_st (d : Die) (p kind ttl : Nat) (body : List Byte) : (d.sendCell p kind ttl body).st = d.st := rfl
@[simp] theorem Die.replay_st (d : Die) (p : Nat) : (d.replay p).st = d.st := by
  unfold Die.replay
  refine (foldl_st (fun e c => ?_) _ _).trans (Die.updTport_st d p _)
  simp
@[simp] theorem Die.wakePeer_st (d : Die) (p : Nat) : (d.wakePeer p).st = d.st := by unfold Die.wakePeer; split <;> rfl
@[simp] theorem Die.creditBack_st (d : Die) (p : Nat) (vc1 : Bool) : (d.creditBack p vc1).st = d.st := rfl
@[simp] theorem Die.takeAck_st (d : Die) (p : Nat) (c : List Byte) : (d.takeAck p c).st = d.st := by simp [Die.takeAck, apply_ite Die.st]
@[simp] theorem Die.acceptCell_st (d : Die) (p : Nat) (c : List Byte) : (d.acceptCell p c).1.st = d.st := by
  unfold Die.acceptCell
  dsimp only
  repeat' split
  all_goals simp
@[simp] theorem Die.rxCount_st (d : Die) (p : Nat) : (d.rxCount p).st = d.st := rfl
@[simp] theorem Die.updChannel_st (d : Die) (c : Nat) (f : Channel → Channel) : (d.updChannel c f).st = d.st := rfl
@[simp] theorem Die.channelsArm_st (d : Die) (s : Nat) : (d.channelsArm s).st = d.st := rfl
@[simp] theorem Die.channelsRelease_st (d : Die) (s : Nat) : (d.channelsRelease s).st = d.st := rfl
@[simp] theorem Die.updJob_st (d : Die) (j : W32) (f : JobKeys → JobKeys) : (d.updJob j f).st = d.st := rfl
@[simp] theorem Die.originMiss_st (d : Die) (s : Nat) (code fch : Nat) (dst : W32) : (d.originMiss s code fch dst).st = d.st := by
  simp [Die.originMiss]
@[simp] theorem Die.buildCell_st (d : Die) (s c : Nat) (offset : Nat) (data : List Byte) : (d.buildCell s c offset data).1.st = d.st := by
  unfold Die.buildCell; dsimp only; split <;> simp
@[simp] theorem Die.rxDiscard_st (d : Die) (s : Option Nat) (code : Nat) : (d.rxDiscard s code).st = d.st := by simp [Die.rxDiscard]
@[simp] theorem Die.authFail_st (d : Die) (c : Nat) (cell : List Byte) : (d.authFail c cell).st = d.st := by simp [Die.authFail]
@[simp] theorem Die.transitMiss_st (d : Die) (p code : Nat) (cell : List Byte) : (d.transitMiss p code cell).st = d.st := by
  simp [Die.transitMiss, apply_ite Die.st]
@[simp] theorem Die.dataOut_st (d : Die) (p q ttl : Nat) (body : List Byte) : (d.dataOut p q ttl body).st = d.st := by
  rw [Die.dataOut, Die.updTport_st, Die.sendCell_st]
@[simp] theorem Die.takeIn_st (d : Die) (q e : Nat) (vc1 : Bool) : (d.takeIn q e vc1).st = d.st := by
  rw [Die.takeIn, Die.creditBack_st, Die.updTport_st]
@[simp] theorem Die.forwardData_st (d : Die) (e : Nat) : (d.forwardData e).st = d.st := by
  unfold Die.forwardData; split <;> simp [apply_ite Die.st]
@[simp] theorem Die.forwardCell_st (d : Die) (e : Nat) : (d.forwardCell e).st = d.st := by
  unfold Die.forwardCell; split <;> simp [apply_ite Die.st]
@[simp] theorem Die.helloOut_st (d : Die) (p : Nat) (nonce : W64) : (d.helloOut p nonce).st = d.st := by
  simp [Die.helloOut, apply_ite Die.st]
@[simp] theorem Die.helloIn_st (d : Die) (p : Nat) (cell : List Byte) : (d.helloIn p cell).st = d.st := by
  simp [Die.helloIn, apply_ite Die.st]
@[simp] theorem Die.topoOn_st (d : Die) (p e : Nat) (cell body : List Byte) : (d.topoOn p e cell body).st = d.st := by
  simp [Die.topoOn, apply_ite Die.st]
@[simp] theorem Die.topoIn_st (d : Die) (p : Nat) (cell : List Byte) : (d.topoIn p cell).st = d.st := by simp [Die.topoIn, apply_ite Die.st]
@[simp] theorem Die.failPort_st (d : Die) (p : Nat) : (d.failPort p).st = d.st := rfl
@[simp] theorem Die.portReset_st (d : Die) (p : Nat) : (d.portReset p).st = d.st := rfl
@[simp] theorem Die.sendPeerFail_st (d : Die) (e : PeerFail) (final : Bool) : (d.sendPeerFail e final).st = d.st := by
  unfold Die.sendPeerFail
  exact foldl_st (fun e _ => Die.send_st e _) _ d
@[simp] theorem Die.peerReport_st (d : Die) (job peer : W32) (cause : Nat) : (d.peerReport job peer cause).st = d.st := by
  simp [Die.peerReport, apply_ite Die.st]
@[simp] theorem Die.cutOnward_st (d : Die) (p : Nat) (cell : List Byte) : (d.cutOnward p cell).st = d.st := by
  unfold Die.cutOnward
  repeat' split
  all_goals rfl
@[simp] theorem Die.onCell_st {d : Die} {p kind : Nat} {cell : List Byte} {f : Die → Die} (hf : ∀ e, (f e).st = e.st) : (d.onCell p kind cell f).st = d.st := by
  simp [Die.onCell, apply_ite Die.st, hf]

/-! ### Key/value pages and tables -/

@[simp] theorem Die.kvGrant_st (d : Die) (s : Nat) : (d.kvGrant s).st = d.st := rfl
@[simp] theorem Die.kvRelease_st (d : Die) (s : Nat) : (d.kvRelease s).st = d.st := rfl
@[simp] theorem Die.pageReturn_st (d : Die) (p : Nat) : (d.pageReturn p).st = d.st := by
  unfold Die.pageReturn
  dsimp only
  repeat' split
  all_goals simp
@[simp] theorem Die.refUnderflow_st (d : Die) (p which op : Nat) : (d.refUnderflow p which op).st = d.st := by
  unfold Die.refUnderflow; dsimp only; split <;> simp
@[simp] theorem Die.refsSub_st (d : Die) (p op : Nat) : (d.refsSub p op).st = d.st := by simp [Die.refsSub, apply_ite Die.st]
@[simp] theorem Die.pinsSub_st (d : Die) (p : Nat) : (d.pinsSub p).st = d.st := by simp [Die.pinsSub, apply_ite Die.st]
@[simp] theorem Die.kvEnter_st (d : Die) (fn s op : Nat) (arg2 : W32) : (d.kvEnter fn s op arg2).st = d.st := by
  simp [Die.kvEnter, apply_ite Die.st]
@[simp] theorem Die.kvGo_st (d : Die) (fn s op : Nat) : (d.kvGo fn s op).st = d.st := by simp [Die.kvGo, apply_ite Die.st]
@[simp] theorem Die.kvPublishWrite_st (d : Die) (fn s : Nat) (len : W32) : (d.kvPublishWrite fn s len).st = d.st := by
  simp [Die.kvPublishWrite, apply_ite Die.st]
@[simp] theorem Die.retireIfFree_st (d : Die) (q : Nat) : (d.retireIfFree q).st = d.st := by simp [Die.retireIfFree, apply_ite Die.st]
@[simp] theorem Die.kvPublish_st (d : Die) (q gen len : Nat) : (d.kvPublish q gen len).st = d.st := by
  unfold Die.kvPublish
  rw [Die.retireIfFree_st, Die.updSeq_st]
  exact foldl_st (fun e (x : Nat × Nat) => Die.updPage_st e x.2 _) _ d
@[simp] theorem Die.takePage_st (d : Die) (s p : Nat) (rest : List Nat) : (d.takePage s p rest).st = d.st := rfl
@[simp] theorem Die.mapEntry_st (d : Die) (q : Nat) (h : Bool) (i : Nat) (p : Option Nat) : (d.mapEntry q h i p).st = d.st := rfl
@[simp] theorem Die.ptProtect_st (d : Die) (s seq gen idx op : Nat) : (d.ptProtect s seq gen idx op).st = d.st := by simp [Die.ptProtect]

/-! ### Transfer threads -/

@[simp] theorem Die.openPass_st (d : Die) (t q : Nat) : (d.openPass t q).st = d.st := rfl
@[simp] theorem Die.closePass_st (d : Die) (t : Nat) : (d.closePass t).st = d.st := by unfold Die.closePass; split <;> simp
@[simp] theorem Die.failThread_st (d : Die) (t cause : Nat) : (d.failThread t cause).st = d.st := rfl
@[simp] theorem Die.toStep_st (d : Die) (t pc : Nat) : (d.toStep t pc).st = d.st := rfl
@[simp] theorem Die.stepOver_st (d : Die) (t : Nat) : (d.stepOver t).st = d.st := by simp [Die.stepOver, apply_ite Die.st]
@[simp] theorem Die.kvCount_st (d : Die) (s : Nat) (f : Kvp → Kvp) : (d.kvCount s f).st = d.st := by unfold Die.kvCount; split <;> rfl
@[simp] theorem Die.stepFetch_st (d : Die) (t : Nat) (e : Ecc) : (d.stepFetch t e).1.st = d.st := by unfold Die.stepFetch; split <;> simp
@[simp] theorem Die.runStep_st {d : Die} {t kind : Nat} {e : Ecc} {f : Die → Die} (hf : ∀ e, (f e).st = e.st) : (d.runStep t kind e f).st = d.st := by
  simp [Die.runStep, apply_ite Die.st, hf]
@[simp] theorem Die.absentStep_st (d : Die) (t : Nat) : (d.absentStep t).st = d.st := by simp [Die.absentStep]
@[simp] theorem Die.xfrCount_st (d : Die) (s : Nat) (f : Xfr → Xfr) : (d.xfrCount s f).st = d.st := by unfold Die.xfrCount; split <;> rfl
@[simp] theorem Die.countRead_st (d : Die) (s : Nat) (r : Req) : (d.countRead s r).st = d.st := by simp [Die.countRead, apply_ite Die.st]
@[simp] theorem Die.takeOut_st (d : Die) (t i : Nat) : (d.takeOut t i).st = d.st := rfl
@[simp] theorem Die.requestError_st (d : Die) (t i cause : Nat) : (d.requestError t i cause).st = d.st := rfl
@[simp] theorem Die.portWaited_st (d : Die) (s n : Nat) : (d.portWaited s n).st = d.st := by simp [Die.portWaited]
@[simp] theorem Die.threadRelease_st (d : Die) (t : Nat) : (d.threadRelease t).st = d.st := by
  unfold Die.threadRelease; split <;> simp [apply_ite Die.st]
@[simp] theorem Die.failNow_st (d : Die) (t cause : Nat) : (d.failNow t cause).st = d.st := by
  unfold Die.failNow
  rw [Die.abortSlot_st, Die.updThread_st]
  refine foldl_st (fun e l => ?_) _ d
  split <;> simp
@[simp] theorem Die.portCause_st (d : Die) (p cause : Nat) : (d.portCause p cause).st = d.st := rfl
@[simp] theorem Die.portFail_st (d : Die) (p cause : Nat) : (d.portFail p cause).st = d.st := by simp [Die.portFail]
@[simp] theorem Die.fabTimeout_st (d : Die) (cause p chan t : Nat) : (d.fabTimeout cause p chan t).st = d.st := by
  have late (l : List Nat) : (l.foldl (fun (d : Die) t => d.failThread t 0x09) (d.portFail p 5)).st = d.st :=
    (foldl_st (fun e t => Die.failThread_st e t 0x09) l _).trans (Die.portFail_st d p 5)
  unfold Die.fabTimeout
  dsimp only
  repeat' split
  all_goals simp [late]

/-! ### Slots of a context and their commands -/

@[simp] theorem Die.ctxDone_st (d : Die) (s status : Nat) : (d.ctxDone s status).st = d.st := rfl
@[simp] theorem Die.cleanCheck_st (d : Die) : d.cleanCheck.st = d.st := by unfold Die.cleanCheck; split <;> rfl
@[simp] theorem Die.grantDone_st (d : Die) (s : Nat) : (d.grantDone s).st = d.st := by simp [Die.grantDone, apply_ite Die.st]
@[simp] theorem Die.grantsDone_st (d : Die) : d.grantsDone.st = d.st := by simp [Die.grantsDone]
@[simp] theorem Die.grantSlot_st (d : Die) (s : Nat) : (d.grantSlot s).st = d.st := by simp [Die.grantSlot, apply_ite Die.st]
@[simp] theorem Die.loadSlot_st (d : Die) (s : Nat) : (d.loadSlot s).st = d.st := by simp [Die.loadSlot, apply_ite Die.st]
@[simp] theorem Die.loadFailed_st (d : Die) (s status : Nat) : (d.loadFailed s status).st = d.st := rfl
@[simp] theorem Die.disarmSlot_st (d : Die) (s : Nat) : (d.disarmSlot s).st = d.st := rfl
@[simp] theorem Die.unloadSlot_st (d : Die) (fn s : Nat) (release : Bool) : (d.unloadSlot fn s release).st = d.st := by
  unfold Die.unloadSlot; dsimp only; split <;> simp
@[simp] theorem Die.closePasses_st (d : Die) (s : Nat) : (d.closePasses s).st = d.st := by simp [Die.closePasses]
@[simp] theorem Die.freeSegment_st (d : Die) (s : Nat) : (d.freeSegment s).st = d.st := by simp [Die.freeSegment]
@[simp] theorem Die.freeSlot_st (d : Die) (s : Nat) : (d.freeSlot s).st = d.st := by
  rw [Die.freeSlot, Die.updSlot_st, Die.channelsRelease_st, Die.kvRelease_st]
@[simp] theorem Die.addScrub_st (d : Die) (s initKey : Nat) (depart release : Bool) : (d.addScrub s initKey depart release).st = d.st := rfl
@[simp] theorem Die.unloadEnd_st (d : Die) (s : Nat) : (d.unloadEnd s).st = d.st := by
  unfold Die.unloadEnd
  dsimp only
  split
  · split
    · rfl
    · split <;> simp
  · split
    · simp
    · split
      · rfl
      · split <;> simp
    · rfl
@[simp] theorem Die.ctxAct_st (d : Die) (fn s op : Nat) : (d.ctxAct fn s op).st = d.st := by simp [Die.ctxAct, apply_ite Die.st]
@[simp] theorem Die.ctxCmd_st (d : Die) (fn s op : Nat) : (d.ctxCmd fn s op).st = d.st := by simp [Die.ctxCmd, apply_ite Die.st]
@[simp] theorem Die.armNow_st (d : Die) (s runs : Nat) (conf : Bool) : (d.armNow s runs conf).st = d.st := by
  unfold Die.armNow; dsimp only; split <;> simp [apply_ite Die.st]
@[simp] theorem Die.armSlot_st (d : Die) (fn s : Nat) (runs : W32) : (d.armSlot fn s runs).st = d.st := by
  simp [Die.armSlot, apply_ite Die.st]

/-! ### The calendar -/

@[simp] theorem Die.calCtrlWrite_st (d : Die) (v : W32) : (d.calCtrlWrite v).st = d.st := rfl
@[simp] theorem Die.calSwapWrite_st (d : Die) (v : W32) : (d.calSwapWrite v).st = d.st := by unfold Die.calSwapWrite; split <;> rfl
@[simp] theorem Die.entryDue_st (d : Die) (s : Nat) : (d.entryDue s).st = d.st := by
  unfold Die.entryDue
  repeat' split
  all_goals rfl
@[simp] theorem Die.startRun_st (d : Die) (s : Nat) : (d.startRun s).st = d.st := by unfold Die.startRun; split <;> rfl
@[simp] theorem Die.dispatch_st (d : Die) : d.dispatch.st = d.st := by unfold Die.dispatch; split <;> simp [apply_ite Die.st]
@[simp] theorem Die.forecast_st (d : Die) (s : Nat) : (d.forecast s).st = d.st := rfl
@[simp] theorem Die.endRun_st (d₀ : Die) : d₀.endRun.st = d₀.st := by unfold Die.endRun; dsimp only; split <;> simp [apply_ite Die.st]

/-! ### Nightwatch -/

@[simp] theorem Die.nwtSkipped_st (d : Die) : d.nwtSkipped.st = d.st := rfl
@[simp] theorem Die.nwtTake_st (d : Die) (sof : Nat) (luma : List Byte) : (d.nwtTake sof luma).st = d.st := by
  unfold Die.nwtTake; dsimp only; split <;> simp [apply_ite Die.st]
@[simp] theorem Die.nwtIngress_st (d : Die) (fmt w h : Nat) : (d.nwtIngress fmt w h).st = d.st := by
  unfold Die.nwtIngress
  dsimp only
  repeat' split
  all_goals simp
@[simp] theorem Die.nwtDropped_st (d : Die) : d.nwtDropped.st = d.st := by simp [Die.nwtDropped, apply_ite Die.st]
@[simp] theorem Die.nwtSof_st (d : Die) : d.nwtSof.st = d.st := by simp [Die.nwtSof, apply_ite Die.st]
@[simp] theorem Die.nwtRow_st (d : Die) (luma : List Nat) : (d.nwtRow luma).st = d.st := by unfold Die.nwtRow; split <;> rfl
@[simp] theorem Die.nwtCtrlWrite_st (d : Die) (v : W32) : (d.nwtCtrlWrite v).st = d.st := by simp [Die.nwtCtrlWrite]
@[simp] theorem Die.watchBad_st (d : Die) (more : Bool) : (d.watchBad more).st = d.st := rfl
@[simp] theorem Die.watchMsg_st {d : Die} {sof eof : Bool} {f : Die → Die} (hf : ∀ e, (f e).st = e.st) : (d.watchMsg sof eof f).st = d.st := by
  simp [Die.watchMsg, apply_ite Die.st, hf]

/-! ### Ingress -/

@[simp] theorem Die.unclaimed_st (d : Die) : d.unclaimed.st = d.st := rfl
@[simp] theorem Die.dropFrame_st (d : Die) (m cause : Nat) (more : Bool) : (d.dropFrame m cause more).st = d.st := by
  unfold Die.dropFrame
  dsimp only
  repeat' split
  all_goals simp
@[simp] theorem Die.openFrame_st (d : Die) (m : Nat) (frame : W32) (sensorTs : W64) : (d.openFrame m frame sensorTs).st = d.st := by
  unfold Die.openFrame; dsimp only; split <;> simp
@[simp] theorem Die.sof_st (d : Die) (m : Nat) (frame : W32) (sensorTs : W64) (w h fmt : Nat) (fifoFull : Bool) : (d.sof m frame sensorTs w h fmt fifoFull).st = d.st := by
  simp [Die.sof, apply_ite Die.st]
@[simp] theorem Die.framePacket_st {d : Die} {m : Nat} {f : Die → Die} (hf : ∀ e, (f e).st = e.st) : (d.framePacket m f).st = d.st := by
  simp [Die.framePacket, apply_ite Die.st, hf]
@[simp] theorem Die.eofIn_st (d : Die) (m : Nat) : (d.eofIn m).st = d.st := by
  unfold Die.eofIn
  dsimp only
  repeat' split
  all_goals simp
@[simp] theorem Die.freeStripe_st (d : Die) (m : Nat) : (d.freeStripe m).st = d.st := by
  unfold Die.freeStripe; dsimp only; split <;> simp [apply_ite Die.st]
@[simp] theorem Die.streamCtrlWrite_st (d : Die) (m : Nat) (v : W32) : (d.streamCtrlWrite m v).st = d.st := by
  simp [Die.streamCtrlWrite, apply_ite Die.st]
@[simp] theorem Die.timeStep_st (d : Die) (off : Int) : (d.timeStep off).st = d.st := by simp [Die.timeStep]
@[simp] theorem Die.timeSync_st (d : Die) (timeNs : W64) : (d.timeSync timeNs).st = d.st := by simp [Die.timeSync, apply_ite Die.st]
@[simp] theorem Die.packet_st {d : Die} {f : Die → Die} (hf : ∀ e, (f e).st = e.st) : (d.packet f).st = d.st := by
  unfold Die.packet
  repeat' split
  all_goals simp [hf]

/-! ### Levels and sleep -/

@[simp] theorem Die.vid_st (d : Die) (l : Nat) : (d.vid l).st = d.st := rfl
@[simp] theorem Die.levelSet_st (d : Die) (l : Nat) : (d.levelSet l).st = d.st := by unfold Die.levelSet; split <;> rfl
@[simp] theorem Die.levelCheck_st (d : Die) : d.levelCheck.st = d.st := by simp [Die.levelCheck, apply_ite Die.st]
@[simp] theorem Die.levelDone_st (d : Die) : d.levelDone.st = d.st := by unfold Die.levelDone; split <;> simp [apply_ite Die.st]
@[simp] theorem Die.vcore_st (d : Die) (high : Bool) : (d.vcore high).st = d.st := by unfold Die.vcore; split <;> rfl
@[simp] theorem Die.xfrOff_st (d : Die) : d.xfrOff.st = d.st := rfl
@[simp] theorem Die.fabOff_st (d : Die) : d.fabOff.st = d.st := rfl
@[simp] theorem Die.entryEnd_st (d : Die) : d.entryEnd.st = d.st := by unfold Die.entryEnd; split <;> rfl
@[simp] theorem Die.thermalTrip_st (d : Die) (sensor : Nat) (t : Int) : (d.thermalTrip sensor t).st = d.st := by simp [Die.thermalTrip]
@[simp] theorem Die.thermalSample_st (d : Die) (temps : List Int) : (d.thermalSample temps).st = d.st := by
  unfold Die.thermalSample; split <;> simp [apply_ite Die.st]
@[simp] theorem Die.dieState_st (d : Die) (s : Sleep) (entering module1 : Bool) : (d.dieState s entering module1).st = d.st := rfl
@[simp] theorem Die.entryStart_st (d : Die) : d.entryStart.st = d.st := by unfold Die.entryStart; split <;> rfl
@[simp] theorem Die.streamSleep_st (d : Die) (m : Nat) : (d.streamSleep m).st = d.st := by simp [Die.streamSleep, apply_ite Die.st]
@[simp] theorem Die.windowClose_st (d : Die) : d.windowClose.st = d.st := by unfold Die.windowClose; split <;> simp [apply_ite Die.st]
@[simp] theorem Die.refreshSelf_st (d : Die) (on : Bool) : (d.refreshSelf on).st = d.st := rfl
@[simp] theorem Die.levelBack_st (d : Die) : d.levelBack.st = d.st := by simp [Die.levelBack]
@[simp] theorem Die.exitStep_st (d : Die) (n : Nat) : (d.exitStep n).st = d.st := by simp [Die.exitStep, apply_ite Die.st]
@[simp] theorem Die.exitStart_st (d : Die) : d.exitStart.st = d.st := by simp [Die.exitStart, apply_ite Die.st]
@[simp] theorem Die.plevelWrite_st (d : Die) (v : W32) : (d.plevelWrite v).st = d.st := by simp [Die.plevelWrite]
@[simp] theorem Die.voteSet_st (d : Die) (v : W32) : (d.voteSet v).st = d.st := rfl
@[simp] theorem Die.voteClr_st (d : Die) (v : W32) : (d.voteClr v).st = d.st := rfl

/-! ### Interfaces, rotation and key commands -/

@[simp] theorem Die.tdisp_st (d : Die) (p : Path) (s : Nat) (ok : Bool) : (d.tdisp p s ok).st = d.st := rfl
@[simp] theorem Die.tdispReq_st {d : Die} {p : Path} {f : Die → Die} (hf : ∀ e, (f e).st = e.st) : (d.tdispReq p f).st = d.st := by
  unfold Die.tdispReq
  repeat' split
  all_goals simp [hf]
@[simp] theorem Die.lockTdi_st (d : Die) (p : Path) (s : Nat) : (d.lockTdi p s).st = d.st := by
  unfold Die.lockTdi
  split
  · next k hk =>
    split at hk
    · exact Die.newKey_st (k := k) hk
    · cases hk
  · rfl
@[simp] theorem Die.startTdi_st (d : Die) (p : Path) (s : Nat) : (d.startTdi p s).st = d.st := by simp [Die.startTdi, apply_ite Die.st]
@[simp] theorem Die.stopTdi_st (d : Die) (p : Path) (s : Nat) : (d.stopTdi p s).st = d.st := by simp [Die.stopTdi, apply_ite Die.st]
@[simp] theorem Die.departEnd_st (d : Die) (s : Nat) : (d.departEnd s).st = d.st := by
  unfold Die.departEnd
  dsimp only
  repeat' split
  all_goals simp
@[simp] theorem Die.zeroCount_st (d : Die) (s c n : Nat) : (d.zeroCount s c n).st = d.st := rfl
@[simp] theorem Die.rotateBusy_st (d : Die) (s : Nat) (mgmt : Bool) : (d.rotateBusy s mgmt).st = d.st := by simp [Die.rotateBusy]
@[simp] theorem Die.rotate_st (d : Die) (s : Nat) (mgmt : Bool) : (d.rotate s mgmt).1.st = d.st := by
  unfold Die.rotate
  dsimp only
  split
  · split <;> simp
  · split
    · rfl
    · next k hk => exact Die.newKey_st (k := k) hk
@[simp] theorem Die.sweepEnd_st (d : Die) (s : Nat) : (d.sweepEnd s).st = d.st := by simp [Die.sweepEnd, apply_ite Die.st]
@[simp] theorem Die.secDone_st (d : Die) (s status : Nat) : (d.secDone s status).st = d.st := rfl
@[simp] theorem Die.secCmd_st (d : Die) (fn s op : Nat) : (d.secCmd fn s op).st = d.st := by simp [Die.secCmd, apply_ite Die.st]

/-! ### Boot -/

@[simp] theorem Die.updFlash_st (d : Die) (f : Flash → Flash) : (d.updFlash f).st = d.st := rfl
@[simp] theorem Die.writeCtl_st (d : Die) (f : BootCtl → BootCtl) : (d.writeCtl f).st = d.st := rfl
@[simp] theorem Die.fwFail_st (d : Die) (what : Nat) (v : Verdict) : (d.fwFail what v).st = d.st := by simp [Die.fwFail, apply_ite Die.st]
@[simp] theorem Die.trySlot_st (d : Die) (b : Bool) : (d.trySlot b).1.st = d.st := by
  unfold Die.trySlot
  dsimp only
  repeat' split
  all_goals simp
@[simp] theorem Die.chooseSlot_st (d : Die) : d.chooseSlot.st = d.st := by simp [Die.chooseSlot, apply_ite Die.st]
@[simp] theorem Die.newTableKey_st (d : Die) : d.newTableKey.st = d.st := by
  unfold Die.newTableKey
  split
  · next k hk => exact Die.newKey_st (k := k) hk
  · rfl
@[simp] theorem Die.bootRom_st (d : Die) (straps : BitVec 3) (certs certsPq : Verdict) : (d.bootRom straps certs certsPq).st = d.st := by
  simp [Die.bootRom, apply_ite Die.st]
@[simp] theorem Die.dawnLoop_st (d : Die) (c : BoardConf) (x : LoopConf) : (d.dawnLoop c x).st = d.st := by
  simp [Die.dawnLoop, apply_ite Die.st]
@[simp] theorem Die.loadNwt_st (d : Die) (v : Verdict) : (d.loadNwt v).st = d.st := by unfold Die.loadNwt; split <;> simp [apply_ite Die.st]
@[simp] theorem Die.dawnStart_st (d : Die) (board nwt : Verdict) : (d.dawnStart board nwt).st = d.st := by
  unfold Die.dawnStart
  dsimp only
  repeat' split
  all_goals simp [apply_ite Die.st]
@[simp] theorem Die.noteExcluded_st (d : Die) : d.noteExcluded.st = d.st := by unfold Die.noteExcluded; split <;> rfl
@[simp] theorem Die.placeAreas_st (d : Die) : d.placeAreas.st = d.st := by simp [Die.placeAreas, apply_ite Die.st]
@[simp] theorem Die.train_st (d : Die) (at80 at64 : BitVec 4) : (d.train at80 at64).st = d.st := by simp [Die.train]
@[simp] theorem Die.trainingDone_st (d : Die) (at80 at64 : BitVec 4) : (d.trainingDone at80 at64).st = d.st := by
  simp [Die.trainingDone, apply_ite Die.st]
@[simp] theorem Die.arbCheck_st (d : Die) : d.arbCheck.st = d.st := by unfold Die.arbCheck; split <;> rfl
@[simp] theorem Die.confirmWrite_st (d : Die) (v : W32) : (d.confirmWrite v).st = d.st := by simp [Die.confirmWrite, apply_ite Die.st]
@[simp] theorem Die.loopsWarm_st (d : Die) : d.loopsWarm.st = d.st := rfl
@[simp] theorem Die.engineReset_st (d : Die) (n : Nat) : (d.engineReset n).st = d.st := by simp [Die.engineReset, apply_ite Die.st]

/-! ### Management -/

@[simp] theorem Die.mctp_st {d : Die} {p : Path} {f : Die → Die} (hf : ∀ e, (f e).st = e.st) : (d.mctp p f).st = d.st := by
  unfold Die.mctp
  repeat' split
  all_goals simp [hf]
@[simp] theorem Die.mctpReply_st (d : Die) (p : Path) (data : List Byte) : (d.mctpReply p data).st = d.st := rfl
@[simp] theorem Die.spdmError_st (d : Die) (p : Path) (code : Byte) : (d.spdmError p code).st = d.st := rfl
@[simp] theorem Die.spdm_st (d : Die) (p : Path) (req : Byte) (data : List Byte) : (d.spdm p req data).st = d.st := rfl
@[simp] theorem Die.spdmLong_st (d : Die) (p : Path) (req : Byte) (data : List Byte) : (d.spdmLong p req data).st = d.st := by
  simp [Die.spdmLong, apply_ite Die.st]
@[simp] theorem Die.setVca_st (d : Die) (p : Path) (n : Nat) : (d.setVca p n).st = d.st := rfl
@[simp] theorem Die.spdmReq_st {d : Die} {p : Path} {f : Die → Die} (hf : ∀ e, (f e).st = e.st) : (d.spdmReq p f).st = d.st := by
  unfold Die.spdmReq
  repeat' split
  all_goals simp [hf]
@[simp] theorem Die.spdmSess_st {d : Die} {p : Path} {f : Die → Die} (hf : ∀ e, (f e).st = e.st) : (d.spdmSess p f).st = d.st := by
  simp [Die.spdmSess, apply_ite Die.st, hf]
@[simp] theorem Die.updSession_st (d : Die) (sid : Nat) (f : Session → Session) : (d.updSession sid f).st = d.st := rfl
@[simp] theorem Die.dropSession_st (d : Die) (sid : Nat) : (d.dropSession sid).st = d.st := rfl
@[simp] theorem Die.inSession_st {d : Die} {p : Path} {sid : Nat} {f : Die → Die} (hf : ∀ e, (f e).st = e.st) : (d.inSession p sid f).st = d.st := by
  refine Die.spdmSess_st fun e => ?_
  repeat' split
  all_goals simp [hf]
@[simp] theorem Die.signed_st (d : Die) (p : Path) (asked : List Byte) : (d.signed p asked).st = d.st := rfl
@[simp] theorem Die.keyExchange_st (d : Die) (p : Path) (slot : Byte) (pub : BitVec 768) : (d.keyExchange p slot pub).st = d.st := by
  unfold Die.keyExchange
  split
  · rfl
  · split
    · rfl
    · split
      · rfl
      · next e k hk => simpa using Die.newKey_st (k := (e, k)) hk
@[simp] theorem Die.finish_st (d : Die) (p : Path) (sid : Nat) (macOk : Bool) : (d.finish p sid macOk).st = d.st := by
  unfold Die.finish; split <;> simp [apply_ite Die.st]
@[simp] theorem Die.deliverChain_st (d : Die) (p : Path) (sid : Nat) (chain : List (BitVec 384)) (selfSigned sigOk validNow : Bool) : (d.deliverChain p sid chain selfSigned sigOk validNow).st = d.st := by
  unfold Die.deliverChain; split <;> simp [apply_ite Die.st]
@[simp] theorem Die.measurements_st (d : Die) (p : Path) (index : Nat) (nonce : Option (BitVec 256)) : (d.measurements p index nonce).st = d.st := by
  unfold Die.measurements
  repeat' split
  all_goals simp
@[simp] theorem Die.mgmtReply_st (d : Die) (sid status : Nat) (data : List Byte) : (d.mgmtReply sid status data).st = d.st := rfl
@[simp] theorem Die.mgFabAddr_st (d : Die) (a : W32) : (d.mgFabAddr a).1.st = d.st := rfl
@[simp] theorem Die.mgRoute_st (d : Die) (i : Nat) (pfx ctl : W32) : (d.mgRoute i pfx ctl).1.st = d.st := by
  unfold Die.mgRoute; dsimp only; split <;> simp
@[simp] theorem Die.mgChannel_st (d : Die) (i : Nat) (w : List W32) : (d.mgChannel i w).1.st = d.st := by
  unfold Die.mgChannel
  dsimp only
  repeat' split
  all_goals simp
@[simp] theorem Die.forgetCseq_st (d : Die) (job : W32) (slot1 : Bool) : (d.forgetCseq job slot1).st = d.st := rfl
@[simp] theorem Die.mgJobKey_st (d : Die) (job : W32) (slot1 : Bool) (op : JobKeyOp) : (d.mgJobKey job slot1 op).1.st = d.st := by
  unfold Die.mgJobKey
  dsimp only
  repeat' split
  all_goals simp
@[simp] theorem Die.mgPort_st (d : Die) (p : Nat) (enable : Bool) (timeout : W32) : (d.mgPort p enable timeout).1.st = d.st := by
  unfold Die.mgPort
  dsimp only
  repeat' split
  all_goals simp
@[simp] theorem Die.mgRotate_st (d : Die) (s : Nat) : (d.mgRotate s).1.st = d.st := by unfold Die.mgRotate; split <;> simp
@[simp] theorem Die.mgNwt_st (d : Die) (b : List Byte) (sigOk flashOk : Bool) : (d.mgNwt b sigOk flashOk).1.st = d.st := by
  unfold Die.mgNwt
  dsimp only
  repeat' split
  all_goals simp
@[simp] theorem Die.mgBoard_st (d : Die) (c : BoardConf) (flashOk : Bool) : (d.mgBoard c flashOk).1.st = d.st := by
  unfold Die.mgBoard
  repeat' split
  all_goals rfl
@[simp] theorem Die.mgHold_st (d : Die) (sid : Nat) : (d.mgHold sid).st = d.st := rfl
@[simp] theorem Die.mgBurn_st (d : Die) (sid : Nat) (row : Nat × Nat × BitVec 384) : (d.mgBurn sid row).st = d.st := rfl
@[simp] theorem Die.presCommitted_st (d : Die) : d.presCommitted.st = d.st := rfl
@[simp] theorem Die.debugUnlock_st (d : Die) : d.debugUnlock.st = d.st := by simp [Die.debugUnlock]
@[simp] theorem Die.rollbackSet_st (d : Die) (flashOk : Bool) : (d.rollbackSet flashOk).1.st = d.st := by
  unfold Die.rollbackSet; split <;> rfl
@[simp] theorem Die.stageStart_st (d : Die) (sid : Nat) (m : Manifest) : (d.stageStart sid m).st = d.st := rfl
@[simp] theorem Die.mgReplyOf_st (sid : Nat) (r : Die × Nat) : (Die.mgReplyOf sid r).st = r.1.st := rfl
@[simp] theorem Die.mgmtDo_st (d : Die) (sid : Nat) (c : MgmtCmd) : (d.mgmtDo sid c).st = d.st := by
  cases c <;> simp only [Die.mgmtDo] <;> (repeat' split) <;> simp
@[simp] theorem Die.mgmtRun_st (d : Die) (sid st : Nat) (c : MgmtCmd) : (d.mgmtRun sid st c).st = d.st := by
  simp [Die.mgmtRun, apply_ite Die.st]
@[simp] theorem Die.mgmtCommand_st (d : Die) (sid : Nat) (c : MgmtCmd) : (d.mgmt_ sid c).st = d.st := by simp [Die.mgmt_, apply_ite Die.st]
@[simp] theorem Die.mgmtEnd_st (d : Die) (status : Nat) : (d.mgmtEnd status).st = d.st := by unfold Die.mgmtEnd; split <;> simp
@[simp] theorem Die.stageEnd_st (d : Die) (ok : Bool) : (d.stageEnd ok).st = d.st := by
  unfold Die.stageEnd; split <;> simp [apply_ite Die.st]
@[simp] theorem Die.keysErased_st (d : Die) : d.keysErased.st = d.st := rfl
@[simp] theorem Die.rowCommitted_st (d : Die) (r : Nat × Nat × BitVec 384) : (d.rowCommitted r).st = d.st := by
  unfold Die.rowCommitted; split <;> rfl
@[simp] theorem Die.fuseCommit_st (d : Die) (ok : Bool) : (d.fuseCommit ok).st = d.st := by
  unfold Die.fuseCommit; split <;> simp [apply_ite Die.st]
@[simp] theorem Die.presenceOff_st (d : Die) : d.presenceOff.st = d.st := by simp [Die.presenceOff, apply_ite Die.st]
@[simp] theorem Die.kemMix_st (d : Die) (p : Path) (sid : Nat) (ct : BitVec 12544) : (d.kemMix p sid ct).st = d.st := by
  refine Die.inSession_st fun e => ?_
  split <;> rfl
@[simp] theorem Die.mgmtForeign_st (d : Die) (p : Path) (sid : Nat) : (d.mgmtForeign p sid).st = d.st :=
  Die.spdmSess_st fun _ => rfl
@[simp] theorem Die.largeReq_st (d : Die) (p : Path) (r : LargeReq) : (d.largeReq p r).st = d.st := by
  unfold Die.largeReq; split <;> simp [apply_ite Die.st]

/-! ### Registers -/

@[simp] theorem Die.readEffect_st (d : Die) (off : Nat) : (d.readEffect off).st = d.st := by simp [Die.readEffect, apply_ite Die.st]
@[simp] theorem Die.regTake_st (d : Die) (fn off : Nat) : (d.regTake fn off).1.st = d.st := by
  unfold Die.regTake
  repeat' split
  all_goals simp
@[simp] theorem Die.wrGlb_st (d : Die) (o : Nat) (v : W32) : (d.wrGlb o v).st = d.st := by simp [Die.wrGlb, apply_ite Die.st]
@[simp] theorem Die.wrCtx_st (d : Die) (fn o : Nat) (v : W32) : (d.wrCtx fn o v).st = d.st := by simp [Die.wrCtx, apply_ite Die.st]
@[simp] theorem Die.wrXfr_st (d : Die) (o : Nat) (v : W32) : (d.wrXfr o v).st = d.st := by simp [Die.wrXfr, apply_ite Die.st]
@[simp] theorem Die.wrAux_st (d : Die) (o : Nat) (v : W32) : (d.wrAux o v).st = d.st := by simp [Die.wrAux, apply_ite Die.st]
@[simp] theorem Die.wrPst_st (d : Die) (o : Nat) (v : W32) : (d.wrPst o v).st = d.st := by simp [Die.wrPst, apply_ite Die.st]
@[simp] theorem Die.wrKvp_st (d : Die) (fn o : Nat) (v : W32) : (d.wrKvp fn o v).st = d.st := by simp [Die.wrKvp, apply_ite Die.st]
@[simp] theorem Die.wrIng_st (d : Die) (o : Nat) (v : W32) : (d.wrIng o v).st = d.st := by simp [Die.wrIng, apply_ite Die.st]
@[simp] theorem Die.wrFld_st (d : Die) (o : Nat) (v : W32) : (d.wrFld o v).st = d.st := by simp [Die.wrFld, apply_ite Die.st]
@[simp] theorem Die.wrNwt_st (d : Die) (o : Nat) (v : W32) : (d.wrNwt o v).st = d.st := by simp [Die.wrNwt, apply_ite Die.st]
@[simp] theorem Die.wrFab_st (d : Die) (o : Nat) (v : W32) : (d.wrFab o v).st = d.st := by simp [Die.wrFab, apply_ite Die.st]
@[simp] theorem Die.wrPwr_st (d : Die) (o : Nat) (v : W32) : (d.wrPwr o v).st = d.st := by simp [Die.wrPwr, apply_ite Die.st]
@[simp] theorem Die.recClear_st (d : Die) (i : Nat) (v : W32) : (d.recClear i v).st = d.st := by simp [Die.recClear, apply_ite Die.st]
@[simp] theorem Die.wrErr_st (d : Die) (o : Nat) (v : W32) : (d.wrErr o v).st = d.st := by simp [Die.wrErr, apply_ite Die.st]
@[simp] theorem Die.memRefused_st (d : Die) : d.memRefused.st = d.st := rfl
@[simp] theorem Die.reservedMsg_st (d : Die) (kind : Nat) : (d.reservedMsg kind).st = d.st := by unfold Die.reservedMsg; split <;> rfl
@[simp] theorem Die.fatalWrite_st (d : Die) (i : Nat) (flashOk : Bool) : (d.fatalWrite i flashOk).st = d.st := by
  simp [Die.fatalWrite, apply_ite Die.st]

/-! ### Slots 3 and 6 -/

@[simp] theorem Die.launchDrop_st (d : Die) (s n : Nat) : (d.launchDrop s n).st = d.st := by unfold Die.launchDrop; split <;> rfl
@[simp] theorem Die.slot3_st (d : Die) (stop : Bool) (r : Run) (w : Nat) : (d.slot3 stop r w).st = d.st := by
  simp [Die.slot3, apply_ite Die.st]
@[simp] theorem Die.launchOne_st (d : Die) (e : LaunchEntry) (k : Nat) : (d.launchOne e k).st = d.st := by
  unfold Die.launchOne; split <;> simp [apply_ite Die.st]
@[simp] theorem Die.stopOne_st (d : Die) (e : LaunchEntry) (k : Nat) : (d.stopOne e k).st = d.st := by
  unfold Die.stopOne; split <;> simp [apply_ite Die.st]
@[simp] theorem Die.arriveLaunch_st (d : Die) (stop : Bool) : (d.arriveLaunch stop).st = d.st := by
  unfold Die.arriveLaunch; split <;> simp [apply_ite Die.st]
@[simp] theorem Die.cmd_st (d : Die) (r : Run) (w : Nat) : (d.cmd r w).st = d.st := by simp [Die.cmd, apply_ite Die.st]
@[simp] theorem Die.mark_st (d : Die) (r : Run) (w : Nat) : (d.mark r w).st = d.st := by unfold Die.mark; split <;> rfl

end Sys2Proof.Machine
end

section
/-! FACTS. The nine memories stay in canonical form where results land and bundles act. -/

namespace Sys2Proof.Machine

/-! ### Bytes that land in the stores -/

section
variable {st : Stores}

theorem StoresForm.land (h : StoresForm st) (l : Landing) : StoresForm (st.land l) := by
  unfold Stores.land
  repeat' split
  all_goals exact h.write _ _ _

theorem StoresForm.landAll (h : StoresForm st) (l : List Landing) : StoresForm (st.landAll l) :=
  foldl_pred (P := StoresForm) h fun _ x _ hb => hb.land x

theorem StoresForm.ite {c : Prop} [Decidable c] {x y : Stores} (hx : StoresForm x) (hy : StoresForm y) : StoresForm (if c then x else y) := by
  split
  · exact hx
  · exact hy

theorem StoresForm.landMica (h : StoresForm st) (e : Ecc) (j : MicaJob) : StoresForm (Stores.landMica e st j) := by
  unfold Stores.landMica
  exact .ite h (foldl_pred (P := StoresForm) h fun _ x _ hb => hb.write _ _ _)

theorem StoresForm.putByte (h : StoresForm st) (store a : Nat) (b : Byte) : StoresForm (st.putByte store a b) := by
  obtain ⟨h0, h1, h2, h3, h4, h5, h6, h7, h8⟩ := h
  unfold Stores.putByte
  repeat' split
  · exact ⟨h0, h1, h2, h3, Tab.wf_write _ _ h4, h5, h6, h7, h8⟩
  · exact ⟨h0, h1, h2, h3, h4, Tab.wf_write _ _ h5, h6, h7, h8⟩
  · exact ⟨h0, h1, h2, h3, h4, h5, Tab.wf_write _ _ h6, h7, h8⟩
  · exact ⟨h0, h1, h2, h3, h4, h5, h6, Tab.wf_write _ _ h7, h8⟩
  · exact ⟨h0, h1, h2, h3, h4, h5, h6, h7, Tab.wf_write _ _ h8⟩
end

section
variable {d : Die}

theorem Die.ite_form {c : Prop} [Decidable c] {x y : Die} (hx : StoresForm x.st) (hy : StoresForm y.st) : StoresForm (if c then x else y).st := by
  split
  · exact hx
  · exact hy

theorem Die.storeNow_form (h : StoresForm d.st) (space a : Nat) (bs : List Byte) : StoresForm (d.storeNow space a bs).st :=
  h.write space a bs

theorem Die.landRow_form (h : StoresForm d.st) (te : Nat) (r : RowFlight) : StoresForm (d.landRow te r).st := by
  unfold Die.landRow
  dsimp only
  repeat' split
  all_goals simp [h, h.write, StoresForm.write]

theorem Die.rowComplete_form (h : StoresForm d.st) (te : Nat) (e : Ecc) : StoresForm (d.rowComplete te e).st := by
  unfold Die.rowComplete
  repeat' split
  all_goals simp [h, Die.landRow_form]

theorem Die.flintLand_form (h : StoresForm d.st) (r : RowFlight) : StoresForm (d.flintLand r).st := by
  unfold Die.flintLand
  dsimp only
  repeat' split
  all_goals simp [h, h.write]

theorem Die.flintComplete_form (h : StoresForm d.st) (e : Ecc) : StoresForm (d.flintComplete e).st := by
  unfold Die.flintComplete
  repeat' split
  all_goals simp [h, Die.flintLand_form]

theorem Die.vectorLand_form (h : StoresForm d.st) (e : Ecc) : StoresForm (d.vectorLand e).st := by
  unfold Die.vectorLand
  dsimp only
  split
  · exact h
  · simp [h.landAll]

theorem Die.micaLand_form (h : StoresForm d.st) (e : Ecc) : StoresForm (d.micaLand e).st := by
  unfold Die.micaLand
  split
  · exact h
  · rw [Die.ecc_st]
    exact foldl_pred (P := StoresForm) h fun _ j _ hb => hb.landMica e j

theorem Die.landPost_form (h : StoresForm d.st) (bad : List Nat) (j : PostJob) : StoresForm (Die.landPost bad d j).st := by
  unfold Die.landPost
  dsimp only
  repeat' split
  all_goals simp [h, h.write]

theorem Die.postLand_form (h : StoresForm d.st) (e : Ecc) : StoresForm (d.postLand e).st := by
  unfold Die.postLand
  dsimp only
  repeat' split
  · rw [Die.ecc_st]
    exact foldl_pred (P := fun x : Die => StoresForm x.st) h fun _ j _ hb => Die.landPost_form hb _ j
  · exact h
  · exact h

theorem Die.landFirst_form (h : StoresForm d.st) : StoresForm d.landFirst.st := by
  unfold Die.landFirst
  dsimp only
  repeat' split
  all_goals simp [h, Die.rowComplete_form, Die.flintComplete_form, Die.vectorLand_form, Die.micaLand_form, Die.postLand_form]

theorem forUpto_form {f : Nat → Die → Die} (hf : ∀ k {e : Die}, StoresForm e.st → StoresForm (f k e).st) (h : StoresForm d.st) (n : Nat) :
    StoresForm (forUpto n f d).st :=
  foldl_pred (P := fun e : Die => StoresForm e.st) h fun _ k _ he => hf k he

theorem Die.landReadable_form (h : StoresForm d.st) : StoresForm d.landReadable.st := by
  unfold Die.landReadable
  rw [Die.tallyReadable_st]
  exact forUpto_form (fun _ _ he => Die.landFirst_form he) h _

/-- What a slot action leaves in form, when the action does. -/
theorem Die.slotAction_form (h : StoresForm d.st) {k op : Nat} {mica : Bool} {e : Ecc} {f : Run → Nat → Die → Die}
    (hf : ∀ r w {x : Die}, StoresForm x.st → StoresForm (f r w x).st) : StoresForm (d.slotAction k op mica e f).st := by
  unfold Die.slotAction
  dsimp only
  repeat' split
  all_goals simp [h, hf, Die.landReadable_form]

theorem Die.settled_form (h : StoresForm d.st) (off : Nat) : StoresForm (d.settled off).st := by
  unfold Die.settled
  split
  · exact Die.landReadable_form h
  · exact h

theorem Die.storeWrite_form (h : StoresForm d.st) (space a : Nat) (b : List Byte) : StoresForm (d.storeWrite space a b).st :=
  (Die.landReadable_form h).write space a b

theorem Die.issueStep_form (h : StoresForm d.st) {f : Run → Die → Die} (hf : ∀ r {x : Die}, StoresForm x.st → StoresForm (f r x).st) :
    StoresForm (d.issueStep f).st := by
  unfold Die.issueStep
  repeat' split
  all_goals simp [h, hf, Die.landReadable_form]

theorem Die.issueBundle_form (h : StoresForm d.st) (fetch : Ecc) : StoresForm (d.issueBundle fetch).st :=
  Die.issueStep_form h fun r x hx => by
    repeat' split
    all_goals simp [hx, apply_ite Die.st]

theorem Die.rollFor_form (h : StoresForm d.st) (r : Run) (w : Nat) (p : Prog) : StoresForm (d.rollFor r w p).1.st := by
  unfold Die.rollFor
  dsimp only
  split
  all_goals simp [h, Die.storeNow_form]

theorem Die.cvtScale_form (h : StoresForm d.st) (r : Run) (w : Nat) (pd : Prog) : StoresForm (d.cvtScale r w pd).1.st := by
  unfold Die.cvtScale
  dsimp only
  repeat' split
  all_goals simp [h, Die.rollFor_form]

theorem Die.vectorOp_form (h : StoresForm d.st) {op : Nat} {e : Ecc} {f : Run → Nat → Fmt → Nat → Die → Die}
    (hf : ∀ r w x g (y : Die), (f r w x g y).st = y.st) : StoresForm (d.vectorOp op e f).st :=
  Die.slotAction_form h fun r w y hy => by
    split
    · rw [Die.vectorCycle_st (hf r w _)]; exact hy
    · exact hy

theorem Die.sense_form (h : StoresForm d.st) (r : Run) (w : Nat) : StoresForm (d.sense r w).st := by
  unfold Die.sense
  refine foldl_pred (P := fun x : Die × Nat => StoresForm x.1.st) h fun x n _ hx => ?_
  have hb : StoresForm (if (x.1.senseBlock r.slot n).2 then x.1.foreign else x.1).st := Die.ite_form hx hx
  exact Die.ite_form (Die.storeNow_form hb _ _ _) (by rw [Die.markRefused_st]; exact hb)
end

end Sys2Proof.Machine
end

section
/-! FACTS. The nine memories stay in form where pages, cells and requests move bytes. -/

namespace Sys2Proof.Machine

section
variable {st : Stores}

theorem StoresForm.writeHbm (h : StoresForm st) (a : Nat) (bs : List Byte) : StoresForm { st with hbm := Mem.write st.hbm a bs } :=
  have ⟨_, _, _, w, _⟩ := h
  h.hbm (Mem.wf_write bs a w)

theorem StoresForm.writeLb (h : StoresForm st) (a : Nat) (bs : List Byte) : StoresForm { st with lb := Mem.write st.lb a bs } :=
  have ⟨_, _, w, _⟩ := h
  h.lb (Mem.wf_write bs a w)
end

section
variable {d : Die}

/-! ### HBM4 -/

/-- A block taken from the stacks is written to the page tables, to HBM4, or not at all. `takeBlock` is unfolded as a function and
under an opaque `P`: compared at its arguments, the kernel would evaluate the key that its `match` asks for. -/
theorem Die.takeBlock_ind {P : Die → Prop} (h : P d) (n : Nat) (cipher : List Byte)
    (ht : ∀ t, P { d with kvp := { d.kvp with tables := t } })
    (hm : ∀ bs, P { d with st := { d.st with hbm := Mem.write d.st.hbm (256 * n) bs } }) : P (d.takeBlock n cipher) := by
  have key : ∀ f : Die → Nat → List Byte → Die, f = Die.takeBlock → P (f d n cipher) := by
    intro f hf
    delta Die.takeBlock at hf
    subst hf
    beta_reduce
    generalize d.blockKey (256 * n) = k
    cases k with
    | none => exact h
    | some k => exact iteInduction (fun _ => h) fun _ => iteInduction (fun _ => ht _) fun _ => hm _
  exact key _ rfl

theorem Die.takeBlock_form (h : StoresForm d.st) (n : Nat) (cipher : List Byte) : StoresForm (d.takeBlock n cipher).st :=
  Die.takeBlock_ind (P := fun e => StoresForm e.st) h n cipher (fun _ => h) fun _ => h.writeHbm _ _

theorem Die.accessedBy_form (h : StoresForm d.st) (acc : Access) (rs ws : List (Nat × Nat)) (owner : Option Nat) (r : Reader) :
    StoresForm (d.accessedBy acc rs ws owner r).1.st := by
  unfold Die.accessedBy
  dsimp only
  repeat' split
  all_goals simp [h, Die.takeBlock_form]

theorem Die.accessed_form (h : StoresForm d.st) (acc : Access) (rs ws : List (Nat × Nat)) (owner : Option Nat) :
    StoresForm (d.accessed acc rs ws owner).1.st :=
  Die.accessedBy_form h acc rs ws owner otherReader

theorem Die.landBytes_form (h : StoresForm d.st) (s space a : Nat) (bytes : List Byte) : StoresForm (d.landBytes s space a bytes).st := by
  unfold Die.landBytes
  repeat' split
  · exact h.writeHbm _ _
  · simp [h]
  · exact Die.storeWrite_form h _ _ _
  · simp [h]

theorem Die.receiveCell_form (h : StoresForm d.st) (cell : List Byte) : StoresForm (d.receiveCell cell).st := by
  have landed (c : Nat) (x : Channel) (s space a : Nat) (bytes : List Byte) :
      StoresForm ((d.updChannel c fun _ => x).landBytes s space a bytes).st := Die.landBytes_form (d := d.updChannel c fun _ => x) h s space a bytes
  unfold Die.receiveCell
  dsimp only
  repeat' split
  all_goals simp [h, landed]

theorem Die.routeCell_form (h : StoresForm d.st) (p : Nat) (cell : List Byte) : StoresForm (d.routeCell p cell).st := by
  unfold Die.routeCell
  repeat' split
  all_goals simp [h, Die.receiveCell_form, apply_ite Die.st]

theorem Die.kvRetire_form (h : StoresForm d.st) (q : Nat) (acc : Access) : StoresForm (d.kvRetire q acc).st := by
  have access := Die.accessed_form (d := d.updSeq q fun x => { x with shadow := .copying }) (h := h) acc [(d.entryAddr q false 0, 32768)] []
    (d.seqOwner q)
  unfold Die.kvRetire
  dsimp only
  split
  · exact access
  · exact foldl_pred (P := fun e : Die => StoresForm e.st) access fun e x _ he => by rw [Die.pinsSub_st]; exact he

/-! ### The steps of a thread -/

theorem Die.fetchEntry_form (h : StoresForm d.st) (t q : Nat) (b : Bool) (i : Nat) (walk : Access) :
    StoresForm (d.fetchEntry t q b i walk).1.st := by
  unfold Die.fetchEntry
  dsimp only
  split
  all_goals simp [h, Die.accessedBy_form]

theorem Die.resolvePage_form (h : StoresForm d.st) (t : Nat) (walk : Access) : StoresForm (d.resolvePage t walk).1.st := by
  unfold Die.resolvePage
  dsimp only
  repeat' split
  all_goals simp [h, Die.fetchEntry_form]

theorem Die.settle_form (t : Nat) : ∀ (n : Nat) {d : Die} (walk : Access), StoresForm d.st → StoresForm (d.settle t n walk).st
  | 0, _, _, h => h
  | n + 1, d, walk, h => by
    have page := Die.resolvePage_form h t walk
    unfold Die.settle
    dsimp only
    repeat' split
    · exact h
    · exact h
    · rw [Die.stepOver_st]; exact h
    · exact h
    · exact page
    · exact Die.settle_form t n _ page

theorem Die.requestTaken_form (h : StoresForm d.st) (t n : Nat) (walk : Access) : StoresForm (d.requestTaken t n walk).st := by
  have next (f : Thread → Thread) : StoresForm ((d.updThread t f).settle t 4097 walk).st := Die.settle_form t 4097 (d := d.updThread t f) walk h
  unfold Die.requestTaken
  dsimp only
  repeat' split
  all_goals simp [h, next]

theorem Die.moveStep_form (h : StoresForm d.st) (t : Nat) : StoresForm (d.moveStep t).st := by
  unfold Die.moveStep
  exact Die.ite_form (by rw [Die.absentStep_st]; exact h) (Die.settle_form t 1 (d := d.updThread t _) .ok h)

theorem Die.walkStep_form (h : StoresForm d.st) (t : Nat) (walk : Access) : StoresForm (d.walkStep t walk).st := by
  have next {e : Die} (f : Thread → Thread) (he : e.st = d.st) : StoresForm ((e.updThread t f).settle t 4097 walk).st :=
    Die.settle_form t 4097 (d := e.updThread t f) walk (he ▸ h)
  have opened (q : Nat) (f g : Thread → Thread) : StoresForm ((((d.openPass t q).updThread t f).updThread t g).settle t 4097 walk).st :=
    next g rfl
  unfold Die.walkStep
  dsimp only
  repeat' split
  all_goals simp [h, next, opened]
end

end Sys2Proof.Machine
end

section
/-! FACTS. The nine memories stay in form where requests finish, images are installed and stripes change hands. -/

namespace Sys2Proof.Machine

section
variable {d : Die}

/-! ### Requests -/

theorem Die.putOut_form (h : StoresForm d.st) (t : Nat) (r : Req) (readNow : Bool) (walk : Access) :
    StoresForm (d.putOut t r readNow walk).st := by
  have seen {c : Prop} [Decidable c] (s : Nat) : StoresForm (if c then d else d.grantViol s).st :=
    Die.ite_form h (by rw [Die.grantViol_st]; exact h)
  have read {c : Prop} [Decidable c] {e : Die} (s : Nat) (q : Req) (he : StoresForm e.st) :
      StoresForm (if c then e.landReadable.countRead s q else e).st :=
    Die.ite_form (by rw [Die.countRead_st]; exact Die.landReadable_form he) he
  unfold Die.putOut
  refine Die.requestTaken_form (Die.ite_form ?_ ?_) t _ walk
  · rw [Die.xfrCount_st]
    exact read _ _ (seen _)
  · exact read _ _ (seen _)

theorem Die.issueRequest_form (h : StoresForm d.st) (t : Nat) (room readNow : Bool) (walk : Access) :
    StoresForm (d.issueRequest t room readNow walk).st := by
  unfold Die.issueRequest
  dsimp only
  repeat' split
  all_goals simp [h, Die.putOut_form]

theorem Die.sendRequest_form (h : StoresForm d.st) (t i : Nat) (r : Req) (bytes : List Byte) :
    StoresForm (d.sendRequest t i r bytes).st := by
  unfold Die.sendRequest
  dsimp only
  repeat' split
  all_goals simp [h, Die.receiveCell_form]

theorem Die.finishRequest_form (h : StoresForm d.st) (t i : Nat) (r : Req) (picks : List Nat) :
    StoresForm (d.finishRequest t i r picks).st := by
  have read : StoresForm (if r.data = none ∧ r.readPort.isSome = true then d.landReadable else d).st := Die.ite_form (Die.landReadable_form h) h
  unfold Die.finishRequest
  dsimp only
  generalize (if r.data = none ∧ r.readPort.isSome = true then d.landReadable else d) = e at read ⊢
  have counted : StoresForm (e.countRead (d.thread t).slot r).st := by rw [Die.countRead_st]; exact read
  have taken : StoresForm ((e.countRead (d.thread t).slot r).takeOut t i).st := counted
  repeat' split
  · exact Die.sendRequest_form counted _ _ _ _
  · exact taken
  · rw [Die.xfrCount_st]
    exact taken.writeHbm _ _
  · exact Die.storeWrite_form taken _ _ _

theorem Die.completeRequest_form (h : StoresForm d.st) (t i portWait : Nat) (picks : List Nat) (res : Access) :
    StoresForm (d.completeRequest t i portWait picks res).st := by
  have access (s : Nat) (rs ws) (o : Option Nat) (q : Reader) : StoresForm ((d.portWaited s portWait).accessedBy res rs ws o q).1.st :=
    Die.accessedBy_form (by rw [Die.portWaited_st]; exact h) _ _ _ _ _
  unfold Die.completeRequest
  dsimp only
  split
  · exact h
  · refine Die.ite_form h (Die.ite_form ?_ (Die.ite_form ?_ ?_))
    · rw [Die.requestError_st, Die.portWaited_st]; exact h
    · rw [Die.requestError_st]; exact access _ _ _ _ _
    · exact Die.finishRequest_form (access _ _ _ _ _) _ _ _ _

/-! ### The loader -/

theorem Die.installImage_form (h : StoresForm d.st) (s : Nat) (m : Image) (g : Segment) : StoresForm (d.installImage s m g).st := by
  obtain ⟨h0, h1, h2, h3, h4, h5, h6, h7, h8⟩ := h
  exact ⟨Mem.wf_write _ _ h0, Mem.wf_write _ _ h1, h2, h3, Mem.wf_write _ _ h4, Mem.wf_write _ _ h5,
    foldl_pred (P := fun a : Tab Byte => Memory.wf a = true) h6 fun a u _ ha => Mem.wf_write _ _ ha,
    Mem.wf_write _ _ (Mem.wf_zero _ _ h7), Mem.wf_write _ _ h8⟩

theorem Die.loadEnd_form (h : StoresForm d.st) (s : Nat) (acc : Access) : StoresForm (d.loadEnd s acc).st := by
  have access (rs) (o : Option Nat) : StoresForm (d.accessed acc rs [] o).1.st := Die.accessed_form h _ _ _ _
  have installed (rs) (o : Option Nat) (m) (g) : StoresForm ((d.accessed acc rs [] o).1.installImage s m g).st :=
    Die.installImage_form (access rs o) s m g
  unfold Die.loadEnd
  dsimp only
  repeat' split
  all_goals simp [h, access, installed]

/-! ### The line buffers -/

theorem Die.handOver_form (h : StoresForm d.st) (m : Nat) (i : StripeInfo) : StoresForm (d.handOver m i).st := by
  unfold Die.handOver
  rw [Die.logTallyAdd_st]
  exact h.writeLb _ _

theorem Die.rowDone_form (h : StoresForm d.st) (m : Nat) : StoresForm (d.rowDone m).st := by
  have row {c : Prop} [Decidable c] (a : Nat) (bs : List Byte) (l : List Nat) :
      StoresForm (if c then Die.nwtRow { d with st := { d.st with lb := Mem.write d.st.lb a bs } } l
        else { d with st := { d.st with lb := Mem.write d.st.lb a bs } }).st :=
    Die.ite_form (by rw [Die.nwtRow_st]; exact h.writeLb a bs) (h.writeLb a bs)
  unfold Die.rowDone
  dsimp only
  refine Die.ite_form ?_ ?_
  · rw [Die.updStream_st]
    refine Die.handOver_form ?_ _ _
    rw [Die.updStream_st]
    exact row _ _ _
  · rw [Die.updStream_st]
    exact row _ _ _

theorem Die.lineIn_form (h : StoresForm d.st) (m row off : Nat) (pay : List Byte) : StoresForm (d.lineIn m row off pay).st := by
  have done (f : Stream → Stream) : StoresForm ((d.updStream m f).rowDone m).st := Die.rowDone_form (d := d.updStream m f) h m
  unfold Die.lineIn
  dsimp only
  repeat' split
  all_goals simp [h, done]

theorem Die.voidStripe_form (h : StoresForm d.st) (m : Nat) : StoresForm (d.voidStripe m).st := by
  unfold Die.voidStripe
  dsimp only
  repeat' split
  all_goals simp [h, Die.handOver_form]
end

end Sys2Proof.Machine
end

section
/-! FACTS. The nine memories stay in form through power states, scrubs, sweeps and resets. -/

namespace Sys2Proof.Machine

section
variable {d : Die}

/-! ### Power states -/

theorem Die.enginesOff_form (h : StoresForm d.st) (t : Sleep) : StoresForm (d.enginesOff t).st := by
  obtain ⟨h0, h1, rest⟩ := h
  exact ⟨Tab.wf_filter _ h0, Tab.wf_filter _ h1, rest⟩

theorem Die.storesOff_form (h : StoresForm d.st) : StoresForm d.storesOff.st := by
  obtain ⟨h0, h1, h2, h3, rest⟩ := h
  exact ⟨h0, h1, rfl, h3, rfl, rfl, rfl, rfl, rfl⟩

theorem Die.entryStep_form (h : StoresForm d.st) (t : Sleep) (n : Nat) : StoresForm (d.entryStep t n).st := by
  unfold Die.entryStep
  repeat' split
  all_goals simp [h, Die.enginesOff_form, Die.storesOff_form]

theorem foldl_form {α : Type} {f : Die → α → Die} (hf : ∀ {e : Die} x, StoresForm e.st → StoresForm (f e x).st) (h : StoresForm d.st)
    (l : List α) : StoresForm (l.foldl f d).st :=
  foldl_pred (P := fun e : Die => StoresForm e.st) h fun _ x _ he => hf x he

theorem Die.seqRun_form (h : StoresForm d.st) : StoresForm d.seqRun.st := by
  have entry (t : Sleep) (l : List Nat) : StoresForm (l.foldl (fun (d : Die) c => d.entryStep t c) d).st :=
    foldl_form (fun c he => Die.entryStep_form he t c) h l
  unfold Die.seqRun
  dsimp only
  repeat' split
  all_goals simp [h, entry]

theorem Die.stateReached_form (h : StoresForm d.st) : StoresForm d.stateReached.st := by
  unfold Die.stateReached
  repeat' split
  all_goals simp [h, Die.seqRun_form]

theorem Die.wakeUp_form (h : StoresForm d.st) : StoresForm d.wakeUp.st := by
  simp [Die.wakeUp, Die.seqRun_form h]

/-! ### Scrubs and prologues -/

theorem Die.zeroRange_form (h : StoresForm d.st) (c : Scrub) : StoresForm (d.zeroRange c).st :=
  have ⟨_, _, _, w, _⟩ := h
  h.hbm (Mem.wf_zero _ _ (Mem.wf_zero _ _ w))

theorem Die.lockDone_form (h : StoresForm d.st) (s : Nat) : StoresForm (d.lockDone s).st := by
  have zeroed (l : List Scrub) : StoresForm (l.foldl Die.zeroRange d).st := foldl_form (fun c he => Die.zeroRange_form he c) h l
  unfold Die.lockDone
  split
  all_goals simp [h, zeroed]

theorem Die.scrubEnd_form (h : StoresForm d.st) (s : Nat) : StoresForm (d.scrubEnd s).st := by
  have zeroed (l : List Scrub) (c : Scrub) : StoresForm (Die.zeroRange { d with sec := { d.sec with scrubs := l } } c).st :=
    Die.zeroRange_form (d := { d with sec := { d.sec with scrubs := l } }) h c
  unfold Die.scrubEnd
  split
  · exact h
  · split
    · exact h
    · dsimp only
      rw [Die.cleanCheck_st, Die.grantsDone_st]
      refine Die.ite_form ?_ (Die.ite_form ?_ (zeroed _ _))
      · rw [Die.departEnd_st]
        exact zeroed _ _
      · rw [Die.ctxDone_st, Die.freeSlot_st]
        exact zeroed _ _

theorem StoresForm.zeroed {st : Stores} (h : StoresForm st) (a0 n0 a1 n1 a2 n2 : Nat) :
    StoresForm { st with ws0 := Mem.zero st.ws0 a0 n0, ws1 := Mem.zero st.ws1 a1 n1, lb := Mem.zero st.lb a2 n2 } := by
  obtain ⟨h0, h1, h2, rest⟩ := h
  exact ⟨Mem.wf_zero _ _ h0, Mem.wf_zero _ _ h1, Mem.wf_zero _ _ h2, rest⟩

theorem Die.zeroPart_form (h : StoresForm d.st) (s c n : Nat) : StoresForm (d.zeroPart s c n).st := h.zeroed _ _ _ _ _ _
theorem Die.zeroStores_form (h : StoresForm d.st) (s : Nat) : StoresForm (d.zeroStores s).st := h.zeroed _ _ _ _ _ _

theorem Die.zeroFetch_form (h : StoresForm d.st) (acc : Access) (s c : Nat) : StoresForm (d.zeroFetch acc s c).1.st := by
  unfold Die.zeroFetch
  split
  · exact Die.accessed_form h _ _ _ _
  · exact h

theorem Die.prologuePiece_form (h : StoresForm d.st) (acc : Access) : StoresForm (d.prologuePiece acc).st := by
  have fetched (s c n : Nat) : StoresForm ((d.zeroFetch acc s c).1.aclk n).st := Die.zeroFetch_form h acc s c
  have part (s c n : Nat) : StoresForm ((((d.zeroFetch acc s c).1.aclk n).zeroCount s c n).zeroPart s c n).st :=
    Die.zeroPart_form (by rw [Die.zeroCount_st]; exact fetched s c n) s c n
  have zeroed (s c n : Nat) (l : List Prologue) : StoresForm (Die.zeroStores
      { ((d.zeroFetch acc s c).1.aclk n).zeroCount s c n with
        sec := { (((d.zeroFetch acc s c).1.aclk n).zeroCount s c n).sec with prologues := l } } s).st :=
    Die.zeroStores_form (by dsimp only; rw [Die.zeroCount_st]; exact fetched s c n) s
  unfold Die.prologuePiece
  split
  · exact h
  · split
    · exact h
    · refine Die.ite_form (fetched _ _ _) (Die.ite_form (Die.ite_form ?_ ?_) ?_)
      · exact zeroed _ _ _ _
      · rw [Die.grantDone_st]
        exact zeroed _ _ _ _
      · exact part _ _ _

theorem Die.sweepBlock_form (h : StoresForm d.st) (s : Nat) (acc : Access) : StoresForm (d.sweepBlock s acc).st := by
  have access (rs) (o : Option Nat) : StoresForm (d.accessed acc rs [] o).1.st := Die.accessed_form h _ _ _ _
  unfold Die.sweepBlock
  dsimp only
  repeat' split
  all_goals simp [h, access]

theorem Die.nfpWrite_form (h : StoresForm d.st) (s b : Nat) (acc : Access) (r : Nat × Option (List Byte)) :
    StoresForm (d.nfpWrite s b acc r).st := by
  have access (ws) (o : Option Nat) : StoresForm (d.accessed (accessAfterRead acc) [] ws o).1.st := Die.accessed_form h _ _ _ _
  unfold Die.nfpWrite
  dsimp only
  split
  · exact h
  · exact Die.ite_form (access _ _) ((access _ _).writeHbm _ _)

theorem Die.nfpEnd_form (h : StoresForm d.st) (s : Nat) (acc : Access) : StoresForm (d.nfpEnd s acc).st := by
  have access (rs) (o : Option Nat) : StoresForm (d.accessed acc rs [] o).1.st := Die.accessed_form h _ _ _ _
  unfold Die.nfpEnd
  dsimp only
  repeat' split
  all_goals simp [h, access, Die.nfpWrite_form]

/-! ### Resets and the stages of service -/

theorem Die.powerOn_form : StoresForm d.powerOn.st := .empty
theorem Die.coldReset_form : StoresForm d.coldReset.st := .empty
theorem Die.powerDown_form : StoresForm d.powerDown.st := .empty

theorem Die.dawnWeights_form (h : StoresForm d.st) (v : Verdict) : StoresForm (d.dawnWeights v).st := by
  unfold Die.dawnWeights
  repeat' split
  · exact h
  · obtain ⟨h0, rest⟩ := h
    exact ⟨Mem.wf_write _ _ h0, rest⟩
  · rw [Die.fwFail_st]; exact h
  · exact h

theorem Die.mainChecked_form (h : StoresForm d.st) (v : Verdict) : StoresForm (d.mainChecked v).st := by
  unfold Die.mainChecked
  dsimp only
  repeat' split
  all_goals simp [h, Die.coldReset_form]

theorem Die.bootScrub_form (h : StoresForm d.st) : StoresForm d.bootScrub.st := h.hbm rfl

theorem Die.fullStart_form (h : StoresForm d.st) : StoresForm d.fullStart.st := by
  unfold Die.fullStart
  split
  · rw [Die.levelCheck_st, Die.arbCheck_st]
    exact Die.bootScrub_form h
  · exact h

theorem Die.warmStart_form (h : StoresForm d.st) : StoresForm d.warmStart.st := by
  unfold Die.warmStart
  rw [Die.nwtSync_st]
  dsimp only
  rw [Die.newTableKey_st]
  exact StoresForm.hbm .empty h.2.2.2.1

theorem Die.warmRequest_form (h : StoresForm d.st) : StoresForm d.warmRequest.st := by
  unfold Die.warmRequest
  repeat' split
  · exact h
  · exact Die.warmStart_form h
  · exact h

theorem Die.warmEnd_form (h : StoresForm d.st) (at80 at64 : BitVec 4) : StoresForm (d.warmEnd at80 at64).st := by
  have trained : StoresForm (d.train at80 at64).st := by rw [Die.train_st]; exact h
  unfold Die.warmEnd
  split
  · rw [Die.levelCheck_st, Die.arbCheck_st]
    exact Die.ite_form (Die.bootScrub_form trained) (Die.ite_form h (Die.bootScrub_form h))
  · exact h

theorem Die.resetCtrlWrite_form (h : StoresForm d.st) (v : W32) : StoresForm (d.resetCtrlWrite v).st := by
  unfold Die.resetCtrlWrite
  repeat' split
  all_goals simp [h, Die.warmRequest_form]

theorem Die.heldReset_form (h : StoresForm d.st) : StoresForm d.heldReset.st := by
  unfold Die.heldReset
  dsimp only
  repeat' split
  all_goals simp [h, Die.coldReset_form, Die.warmRequest_form]
end

end Sys2Proof.Machine
end

section
/-! FACTS. The nine memories stay in form through register and memory messages and the debug port. -/

namespace Sys2Proof.Machine

section
variable {d : Die}

/-! ### Registers -/

theorem Die.regRead_form (h : StoresForm d.st) (fn off : Nat) : StoresForm (d.regRead fn off).1.st := by
  unfold Die.regRead
  split
  · rw [Die.regTake_st]
    exact Die.settled_form h off
  · exact h

theorem Die.wrSec_form (h : StoresForm d.st) (fn o : Nat) (v : W32) : StoresForm (d.wrSec fn o v).st := by
  unfold Die.wrSec
  dsimp only
  repeat' split
  all_goals simp [h, Die.resetCtrlWrite_form]

theorem Die.wrRegion_form (h : StoresForm d.st) (fn off : Nat) (v : W32) : StoresForm (d.wrRegion fn off v).st := by
  have settled := Die.settled_form h off
  have same {e : Die} (he : e.st = (d.settled off).st) : StoresForm e.st := he ▸ settled
  unfold Die.wrRegion
  exact Die.ite_form (same (Die.wrCtx_st _ _ _ _)) <| Die.ite_form (same (Die.wrXfr_st _ _ _)) <| Die.ite_form settled <|
    Die.ite_form (Die.ite_form settled settled) <| Die.ite_form (same (Die.wrAux_st _ _ _)) <| Die.ite_form (same (Die.wrPst_st _ _ _)) <|
    Die.ite_form (same (Die.wrKvp_st _ _ _ _)) <| Die.ite_form (same (Die.wrIng_st _ _ _)) <| Die.ite_form (same (Die.wrFld_st _ _ _)) <|
    Die.ite_form (same (Die.wrNwt_st _ _ _)) <| Die.ite_form (same (Die.wrFab_st _ _ _)) <| Die.ite_form (Die.wrSec_form settled _ _ _) <|
    Die.ite_form (same (Die.wrPwr_st _ _ _)) <| Die.ite_form (same (Die.wrErr_st _ _ _)) settled

theorem Die.regWrite_form (h : StoresForm d.st) (fn off : Nat) (v : W32) : StoresForm (d.regWrite fn off v).st := by
  unfold Die.regWrite
  repeat' split
  all_goals simp [h, Die.wrRegion_form]

/-! ### The debug port -/

theorem Die.debugPut_form (h : StoresForm d.st) (store a : Nat) (b : Byte) : StoresForm (d.debugPut store a b).st := by
  unfold Die.debugPut
  repeat' split
  · exact Die.storeWrite_form h _ _ _
  · exact h
  · exact h.putByte _ _ _
  · exact h

theorem Die.debugOp_form (h : StoresForm d.st) (op : DebugOp) : StoresForm (d.debugOp op).st := by
  cases op with
  | readReg off =>
    refine Die.ite_form (Die.ite_form ?_ h) h
    show StoresForm ((d.settled off.toNat).regTake 0 off.toNat).1.st
    rw [Die.regTake_st]
    exact Die.settled_form h _
  | writeReg off v => exact Die.ite_form (Die.wrRegion_form h _ _ _) h
  | readStore i a => exact Die.landReadable_form h
  | writeStore i a b => exact Die.debugPut_form h _ _ _

theorem Die.jtag_form (h : StoresForm d.st) (i : DebugInstr) : StoresForm (d.jtag i).st := by
  cases i with
  | bypass => exact h
  | idcode => exact h
  | samplePreload => exact h
  | extest pins => exact Die.ite_form h h
  | creholt op => exact Die.ite_form (Die.debugOp_form (d := { d with mgmt := { d.mgmt with jtagIr := .creholt op } }) h op) h
  | unknown n => exact h

/-! ### Messages -/

theorem Die.rdMsg_form (h : StoresForm d.st) (fn : Nat) (tag : BitVec 16) (off bytes : Nat) : StoresForm (d.rdMsg fn tag off bytes).st :=
  Die.ite_form (Die.regRead_form h fn off) h

theorem Die.wrMsg_form (h : StoresForm d.st) (fn off bytes : Nat) (v : W32) : StoresForm (d.wrMsg fn off bytes v).st :=
  Die.ite_form (Die.regWrite_form h fn off v) h

theorem Die.memMsg_form (h : StoresForm d.st) {m : HostMsg} {fn addr len : Nat} {res : Access} {write : Bool} {fail : Die → Die}
    {ok : Die → Nat → Die} (hf : ∀ {e : Die}, StoresForm e.st → StoresForm (fail e).st)
    (ho : ∀ {e : Die} p, StoresForm e.st → StoresForm (ok e p).st) : StoresForm (d.memMsg m fn addr len res write fail ok).st := by
  unfold Die.memMsg
  split
  · exact hf h
  · exact Die.ite_form h (Die.ite_form (hf (Die.accessed_form h _ _ _ _)) (ho _ (Die.accessed_form h _ _ _ _)))

theorem Die.memRdMsg_form (h : StoresForm d.st) (fn : Nat) (tag : BitVec 16) (addr len : Nat) (res : Access) :
    StoresForm (d.memRdMsg fn tag addr len res).st :=
  Die.memMsg_form h (fun he => he) fun _ he => he

theorem Die.memWrMsg_form (h : StoresForm d.st) (fn addr : Nat) (data : List Byte) (res : Access) :
    StoresForm (d.memWrMsg fn addr data res).st :=
  Die.memMsg_form h (fun he => he) fun p he => he.writeHbm p data

theorem Die.message_form (h : StoresForm d.st) (m : HostMsg) : StoresForm (d.message m).st := by
  cases m with
  | rd fn tag off bytes => exact Die.rdMsg_form h _ _ _ _
  | wr fn off bytes v => exact Die.wrMsg_form h _ _ _ _
  | memRd fn tag addr len res => exact Die.memRdMsg_form h _ _ _ _ _
  | memWr fn addr data res => exact Die.memWrMsg_form h _ _ _ _
  | reserved kind => rw [Die.message, Die.reservedMsg_st]; exact h

theorem Die.messages_form (h : StoresForm d.st) (ms : List HostMsg) : StoresForm (d.messages ms).st :=
  foldl_form (f := fun (d : Die) m => d.inOrder m fun d => d.message m) (fun m he => Die.ite_form he (Die.message_form he m)) h ms

theorem Die.releaseHeld_form (h : StoresForm d.st) : StoresForm d.releaseHeld.st :=
  Die.messages_form (d := { d with ctx := { d.ctx with held := [] } }) h _

theorem Die.exitEnd_form (h : StoresForm d.st) : StoresForm d.exitEnd.st :=
  Die.ite_form (Die.heldReset_form (Die.messages_form (d := { d.wakeUp with pwr := { d.wakeUp.pwr with held := [] } }) (Die.wakeUp_form h) _)) h
end

end Sys2Proof.Machine
end

section
/-! RULES. The commands that do not write the memories. -/

namespace Sys2Proof.Machine

/-- A command keeps the nine memories in form, on every die (the rule for one that writes them, and for one that does not). -/
def KeepsForm (c : Instr) : Prop := ∀ s t, MemoryForm s → exec c s = .next t → MemoryForm t

theorem keepsForm_of_act {c : Instr} {f : Die → Die} (hc : ∀ s, exec c s = s.act f)
    (hf : ∀ {d : Die}, StoresForm d.st → StoresForm (f d).st) : KeepsForm c :=
  fun s _ hm h => memoryForm_act ((hc s).symm.trans h) (hf ((memoryForm_iff s).1 hm))

theorem keepsForm_of_st {c : Instr} {f : Die → Die} (hc : ∀ s, exec c s = s.act f) (hf : ∀ d : Die, (f d).st = d.st) : KeepsForm c :=
  keepsForm_of_act hc fun {d} h => (hf d).symm ▸ h

theorem keepsForm_loopBegin : KeepsForm .loopBegin :=
  keepsForm_of_st exec_loopBegin fun d => by simp
theorem keepsForm_loopEnd : KeepsForm .loopEnd :=
  keepsForm_of_st exec_loopEnd fun d => by simp
theorem keepsForm_exit : KeepsForm .exit :=
  keepsForm_of_st exec_exit fun d => by simp
theorem keepsForm_enop (te : Fin 2) : KeepsForm (.enop te) :=
  keepsForm_of_st (exec_enop te) fun _ => rfl
theorem keepsForm_vnop : KeepsForm .vnop :=
  keepsForm_of_st exec_vnop fun _ => rfl
theorem keepsForm_threadLaunchArrive : KeepsForm .threadLaunchArrive :=
  keepsForm_of_st exec_threadLaunchArrive fun d => by simp
theorem keepsForm_threadStopArrive : KeepsForm .threadStopArrive :=
  keepsForm_of_st exec_threadStopArrive fun d => by simp
theorem keepsForm_pnop : KeepsForm .pnop :=
  keepsForm_of_st exec_pnop fun _ => rfl
theorem keepsForm_snop : KeepsForm .snop :=
  keepsForm_of_st exec_snop fun _ => rfl
theorem keepsForm_hbmPhyLockLoss (channel : Fin 128) : KeepsForm (.hbmPhyLockLoss channel) :=
  keepsForm_of_st (exec_hbmPhyLockLoss channel) fun d => by simp [apply_ite Die.st]
theorem keepsForm_patrolRead (found : Ecc) : KeepsForm (.patrolRead found) :=
  keepsForm_of_st (exec_patrolRead found) fun d => by simp [apply_ite Die.st]
theorem keepsForm_hbmRefresh (site : Fin 4) : KeepsForm (.hbmRefresh site) :=
  keepsForm_of_st (exec_hbmRefresh site) fun d => by simp [apply_ite Die.st]
theorem keepsForm_signal (t : Fin 4096) (ecc : Ecc) : KeepsForm (.signal t ecc) :=
  keepsForm_of_st (exec_signal t ecc) fun d => by simp [apply_ite Die.st]
theorem keepsForm_wait (t : Fin 4096) (ecc : Ecc) : KeepsForm (.wait t ecc) :=
  keepsForm_of_st (exec_wait t ecc) fun _ => Die.runStep_st fun _ => rfl
theorem keepsForm_loop (t : Fin 4096) (ecc : Ecc) : KeepsForm (.loop t ecc) :=
  keepsForm_of_st (exec_loop t ecc) fun _ => Die.runStep_st fun _ => rfl
theorem keepsForm_endStep (t : Fin 4096) (ecc : Ecc) : KeepsForm (.endStep t ecc) :=
  keepsForm_of_st (exec_endStep t ecc) fun _ =>
    ite_st (Die.runStep_st fun _ => rfl) rfl
theorem keepsForm_threadFail (t : Fin 4096) : KeepsForm (.threadFail t) :=
  keepsForm_of_st (exec_threadFail t) fun d => by
    dsimp only
    repeat' split
    all_goals simp
theorem keepsForm_passClose (t : Fin 4096) : KeepsForm (.passClose t) :=
  keepsForm_of_st (exec_passClose t) fun d => by
    dsimp only
    repeat' split
    all_goals simp
theorem keepsForm_reservedClassMessage (cls : BitVec 4) : KeepsForm (.reservedClassMessage cls) :=
  keepsForm_of_st (exec_reservedClassMessage cls) fun d => by simp [apply_ite Die.st]
theorem keepsForm_sof (m : Fin 16) (frame : W32) (sensorTs : W64) (width height : BitVec 16) (fmt : Byte) (fifoFull : Bool) : KeepsForm (.sof m frame sensorTs width height fmt fifoFull) :=
  keepsForm_of_st (exec_sof m frame sensorTs width height fmt fifoFull) fun d => Die.packet_st fun e => by simp
theorem keepsForm_eof (m : Fin 16) (fifoFull : Bool) : KeepsForm (.eof m fifoFull) :=
  keepsForm_of_st (exec_eof m fifoFull) fun d => Die.packet_st fun e => by simp [apply_ite Die.st]
theorem keepsForm_timesync (timeNs : W64) : KeepsForm (.timesync timeNs) :=
  keepsForm_of_st (exec_timesync timeNs) fun d => Die.packet_st fun e => by simp
theorem keepsForm_slewEnd : KeepsForm .slewEnd :=
  keepsForm_of_st exec_slewEnd fun d => by simp [apply_ite Die.st]
theorem keepsForm_stripeFree (m : Fin 16) : KeepsForm (.stripeFree m) :=
  keepsForm_of_st (exec_stripeFree m) fun d => Die.packet_st fun e => by simp
theorem keepsForm_ingStreamEnable (fn : Fin 64) (m : Fin 16) (val : W32) : KeepsForm (.ingStreamEnable fn m val) :=
  keepsForm_of_st (exec_ingStreamEnable fn m val) fun d => ite_st (Die.pfWr_st (by simp)) rfl
theorem keepsForm_ingStreamDisable (fn : Fin 64) (m : Fin 16) (val : W32) : KeepsForm (.ingStreamDisable fn m val) :=
  keepsForm_of_st (exec_ingStreamDisable fn m val) fun d => ite_st rfl (Die.pfWr_st (by simp))
theorem keepsForm_allocate (fn sl : Fin 64) : KeepsForm (.allocate fn sl) :=
  keepsForm_of_st (exec_allocate fn sl) fun d => Die.hostMsg_st (by simp)
theorem keepsForm_share (fn sl : Fin 64) : KeepsForm (.share fn sl) :=
  keepsForm_of_st (exec_share fn sl) fun d => Die.hostMsg_st (by simp)
theorem keepsForm_cow (fn sl : Fin 64) : KeepsForm (.cow fn sl) :=
  keepsForm_of_st (exec_cow fn sl) fun d => Die.hostMsg_st (by simp)
theorem keepsForm_free (fn sl : Fin 64) : KeepsForm (.free fn sl) :=
  keepsForm_of_st (exec_free fn sl) fun d => Die.hostMsg_st (by simp)
theorem keepsForm_publish (fn sl : Fin 64) (len : BitVec 17) : KeepsForm (.publish fn sl len) :=
  keepsForm_of_st (exec_publish fn sl len) fun d => Die.hostMsg_st (by simp)
theorem keepsForm_query (fn sl : Fin 64) : KeepsForm (.query fn sl) :=
  keepsForm_of_st (exec_query fn sl) fun d => Die.hostMsg_st (by simp)
theorem keepsForm_sensor (p : Fin 4) (frame : List Byte) : KeepsForm (.sensor p frame) :=
  keepsForm_of_st (exec_sensor p frame) fun d => Die.portRx_st fun n e => by simp
theorem keepsForm_status (p : Fin 4) (frame : List Byte) : KeepsForm (.status p frame) :=
  keepsForm_of_st (exec_status p frame) fun _ => Die.portRx_st fun _ _ => rfl
theorem keepsForm_loopMessage (mch : Byte) (frame : List Byte) : KeepsForm (.loopMessage mch frame) :=
  keepsForm_of_st (exec_loopMessage mch frame) fun d => by
    repeat' split
    all_goals simp
theorem keepsForm_frameAbort (p : Fin 4) : KeepsForm (.frameAbort p) :=
  keepsForm_of_st (exec_frameAbort p) fun d => by simp [apply_ite Die.st]
theorem keepsForm_alignGain (p : Fin 4) : KeepsForm (.alignGain p) :=
  keepsForm_of_st (exec_alignGain p) fun d => by simp [apply_ite Die.st]
theorem keepsForm_alignLoss (p : Fin 4) (inFrame : Bool) : KeepsForm (.alignLoss p inFrame) :=
  keepsForm_of_st (exec_alignLoss p inFrame) fun d => by simp [apply_ite Die.st]
theorem keepsForm_fldPortEnable (fn : Fin 64) (p : Fin 4) (val : W32) : KeepsForm (.fldPortEnable fn p val) :=
  keepsForm_of_st (exec_fldPortEnable fn p val) fun d => ite_st (Die.pfWr_st (by simp)) rfl
theorem keepsForm_fldPortDisable (fn : Fin 64) (p : Fin 4) (val : W32) : KeepsForm (.fldPortDisable fn p val) :=
  keepsForm_of_st (exec_fldPortDisable fn p val) fun d => ite_st rfl (Die.pfWr_st (by simp))
theorem keepsForm_loopEnable (fn : Fin 64) (n : Fin 8) (val : W32) : KeepsForm (.loopEnable fn n val) :=
  keepsForm_of_st (exec_loopEnable fn n val) fun d => ite_st (Die.pfWr_st (by simp)) rfl
theorem keepsForm_loopDisable (fn : Fin 64) (n : Fin 8) (val : W32) : KeepsForm (.loopDisable fn n val) :=
  keepsForm_of_st (exec_loopDisable fn n val) fun d => ite_st rfl (Die.pfWr_st (by simp))
theorem keepsForm_commandArrival (n : Fin 8) : KeepsForm (.commandArrival n) :=
  keepsForm_of_st (exec_commandArrival n) fun d => by
    repeat' split
    all_goals simp
theorem keepsForm_periodStart (n : Fin 8) : KeepsForm (.periodStart n) :=
  keepsForm_of_st (exec_periodStart n) fun d => by simp [apply_ite Die.st]
theorem keepsForm_deadline (n : Fin 8) : KeepsForm (.deadline n) :=
  keepsForm_of_st (exec_deadline n) fun d => by simp [apply_ite Die.st]
theorem keepsForm_txFrameStart (p : TxPort) (credits : Nat) : KeepsForm (.txFrameStart p credits) :=
  keepsForm_of_st (exec_txFrameStart p credits) fun d => by simp [apply_ite Die.st]
theorem keepsForm_heartbeatDue (p : Fin 4) : KeepsForm (.heartbeatDue p) :=
  keepsForm_of_st (exec_heartbeatDue p) fun d => by
    repeat' split
    all_goals simp
theorem keepsForm_hbPeriodWrite (fn : Fin 64) (val : W32) : KeepsForm (.hbPeriodWrite fn val) :=
  keepsForm_of_st (exec_hbPeriodWrite fn val) fun d => Die.pfWr_st (d.hbPeriodWrite_st val)
theorem keepsForm_watchSof (number : W32) : KeepsForm (.watchSof number) :=
  keepsForm_of_st (exec_watchSof number) fun d => Die.watchMsg_st fun e => by simp [apply_ite Die.st]
theorem keepsForm_watchData (info : BitVec 16) (data : W64) : KeepsForm (.watchData info data) :=
  keepsForm_of_st (exec_watchData info data) fun d => Die.watchMsg_st fun e => by simp [apply_ite Die.st]
theorem keepsForm_watchEof : KeepsForm .watchEof :=
  keepsForm_of_st exec_watchEof fun d => Die.watchMsg_st fun e => by simp [apply_ite Die.st]
theorem keepsForm_nwtEnable (fn : Fin 64) (val : W32) : KeepsForm (.nwtEnable fn val) :=
  keepsForm_of_st (exec_nwtEnable fn val) fun d => ite_st (Die.pfWr_st (by simp)) rfl
theorem keepsForm_nwtFrameResult (ecc : Ecc) : KeepsForm (.nwtFrameResult ecc) :=
  keepsForm_of_st (exec_nwtFrameResult ecc) fun d => by
    dsimp only
    repeat' split
    all_goals simp
theorem keepsForm_reservedHostKind (kind : BitVec 4) : KeepsForm (.reservedHostKind kind) :=
  keepsForm_of_st (exec_reservedHostKind kind) fun d => Die.hostMsg_st (by simp)
theorem keepsForm_grant (fn sl : Fin 64) : KeepsForm (.grant fn sl) :=
  keepsForm_of_st (exec_grant fn sl) fun d => Die.hostMsg_st (by simp)
theorem keepsForm_load (fn sl : Fin 64) : KeepsForm (.load fn sl) :=
  keepsForm_of_st (exec_load fn sl) fun d => Die.hostMsg_st (by simp)
theorem keepsForm_arm (fn sl : Fin 64) (runs : W32) : KeepsForm (.arm fn sl runs) :=
  keepsForm_of_st (exec_arm fn sl runs) fun d => Die.hostMsg_st (by simp)
theorem keepsForm_disarm (fn sl : Fin 64) : KeepsForm (.disarm fn sl) :=
  keepsForm_of_st (exec_disarm fn sl) fun d => Die.hostMsg_st (by simp)
theorem keepsForm_abort (fn sl : Fin 64) : KeepsForm (.abort fn sl) :=
  keepsForm_of_st (exec_abort fn sl) fun d => Die.hostMsg_st (by simp)
theorem keepsForm_unload (fn sl : Fin 64) : KeepsForm (.unload fn sl) :=
  keepsForm_of_st (exec_unload fn sl) fun d => Die.hostMsg_st (by simp)
theorem keepsForm_release (fn sl : Fin 64) : KeepsForm (.release fn sl) :=
  keepsForm_of_st (exec_release fn sl) fun d => Die.hostMsg_st (by simp)
theorem keepsForm_unloadReleaseDone (sl : Fin 64) : KeepsForm (.unloadReleaseDone sl) :=
  keepsForm_of_st (exec_unloadReleaseDone sl) fun d => by simp [apply_ite Die.st]
theorem keepsForm_calEntryDue : KeepsForm .calEntryDue :=
  keepsForm_of_st exec_calEntryDue fun d => by
    dsimp only
    repeat' split
    all_goals simp
theorem keepsForm_dispatchStart : KeepsForm .dispatchStart :=
  keepsForm_of_st exec_dispatchStart fun d => by simp
theorem keepsForm_runEnd : KeepsForm .runEnd :=
  keepsForm_of_st exec_runEnd fun d => by simp
theorem keepsForm_calSwap (fn : Fin 64) (val : W32) : KeepsForm (.calSwap fn val) :=
  keepsForm_of_st (exec_calSwap fn val) fun d => Die.pfWr_st (by simp)
theorem keepsForm_calSwapEffect : KeepsForm .calSwapEffect :=
  keepsForm_of_st exec_calSwapEffect fun d => by simp [apply_ite Die.st]
theorem keepsForm_calEnable (fn : Fin 64) (val : W32) : KeepsForm (.calEnable fn val) :=
  keepsForm_of_st (exec_calEnable fn val) fun d => ite_st (Die.pfWr_st (by simp)) rfl
theorem keepsForm_calDisable (fn : Fin 64) (val : W32) : KeepsForm (.calDisable fn val) :=
  keepsForm_of_st (exec_calDisable fn val) fun d => ite_st rfl (Die.pfWr_st (by simp))
theorem keepsForm_cellForward (p : Fin 8) : KeepsForm (.cellForward p) :=
  keepsForm_of_st (exec_cellForward p) fun d => by simp [apply_ite Die.st]
theorem keepsForm_linkCell (p : Fin 8) (cell : List Byte) : KeepsForm (.linkCell p cell) :=
  keepsForm_of_st (exec_linkCell p cell) fun d => by simp [apply_ite Die.st]
theorem keepsForm_helloCell (p : Fin 8) (cell : List Byte) : KeepsForm (.helloCell p cell) :=
  keepsForm_of_st (exec_helloCell p cell) fun d => Die.onCell_st fun e => by simp
theorem keepsForm_topoCell (p : Fin 8) (cell : List Byte) : KeepsForm (.topoCell p cell) :=
  keepsForm_of_st (exec_topoCell p cell) fun d => Die.onCell_st fun e => by simp
theorem keepsForm_helloSend (p : Fin 8) (nonce : W64) : KeepsForm (.helloSend p nonce) :=
  keepsForm_of_st (exec_helloSend p nonce) fun d => by simp [apply_ite Die.st]
theorem keepsForm_linkAck (p : Fin 8) : KeepsForm (.linkAck p) :=
  keepsForm_of_st (exec_linkAck p) fun d => by simp [apply_ite Die.st]
theorem keepsForm_replayTimer (p : Fin 8) : KeepsForm (.replayTimer p) :=
  keepsForm_of_st (exec_replayTimer p) fun d => by simp [apply_ite Die.st]
theorem keepsForm_fabTimeout (cause : BitVec 4) (p : Fin 8) (chan : Fin 4096) (t : Fin 4096) : KeepsForm (.fabTimeout cause p chan t) :=
  keepsForm_of_st (exec_fabTimeout cause p chan t) fun d => by simp [apply_ite Die.st]
theorem keepsForm_portSleep (p : Fin 8) : KeepsForm (.portSleep p) :=
  keepsForm_of_st (exec_portSleep p) fun d => by simp [apply_ite Die.st]
theorem keepsForm_fabWake (p : Fin 8) : KeepsForm (.fabWake p) :=
  keepsForm_of_st (exec_fabWake p) fun d => by simp [apply_ite Die.st]
theorem keepsForm_wakeResend (p : Fin 8) : KeepsForm (.wakeResend p) :=
  keepsForm_of_st (exec_wakeResend p) fun d => by simp [apply_ite Die.st]
theorem keepsForm_lockInterfaceRequest (sl : Fin 64) (path : Path) : KeepsForm (.lockInterfaceRequest sl path) :=
  keepsForm_of_st (exec_lockInterfaceRequest sl path) fun d => Die.tdispReq_st fun e => by simp
theorem keepsForm_startInterfaceRequest (sl : Fin 64) (path : Path) : KeepsForm (.startInterfaceRequest sl path) :=
  keepsForm_of_st (exec_startInterfaceRequest sl path) fun d => Die.tdispReq_st fun e => by simp
theorem keepsForm_stopInterfaceRequest (sl : Fin 64) (path : Path) : KeepsForm (.stopInterfaceRequest sl path) :=
  keepsForm_of_st (exec_stopInterfaceRequest sl path) fun d => Die.tdispReq_st fun e => by simp
theorem keepsForm_ideStreamInsecure (sl : Fin 64) : KeepsForm (.ideStreamInsecure sl) :=
  keepsForm_of_st (exec_ideStreamInsecure sl) fun d => by simp
theorem keepsForm_rotate (fn sl : Fin 64) : KeepsForm (.rotate fn sl) :=
  keepsForm_of_st (exec_rotate fn sl) fun d => Die.hostMsg_st (by simp)
theorem keepsForm_sweepComplete (sl : Fin 64) : KeepsForm (.sweepComplete sl) :=
  keepsForm_of_st (exec_sweepComplete sl) fun d => by simp
theorem keepsForm_nfpOpen (fn sl : Fin 64) : KeepsForm (.nfpOpen fn sl) :=
  keepsForm_of_st (exec_nfpOpen fn sl) fun d => Die.hostMsg_st (by simp)
theorem keepsForm_setEndpointId (path : Path) (eid : Byte) : KeepsForm (.setEndpointId path eid) :=
  keepsForm_of_st (exec_setEndpointId path eid) fun _ => Die.mctp_st fun _ => rfl
theorem keepsForm_getEndpointId (path : Path) : KeepsForm (.getEndpointId path) :=
  keepsForm_of_st (exec_getEndpointId path) fun _ => Die.mctp_st fun _ => rfl
theorem keepsForm_getMctpVersionSupport (path : Path) (mtype : Byte) : KeepsForm (.getMctpVersionSupport path mtype) :=
  keepsForm_of_st (exec_getMctpVersionSupport path mtype) fun _ => Die.mctp_st fun _ => rfl
theorem keepsForm_getMessageTypeSupport (path : Path) : KeepsForm (.getMessageTypeSupport path) :=
  keepsForm_of_st (exec_getMessageTypeSupport path) fun _ => Die.mctp_st fun _ => rfl
theorem keepsForm_getVendorDefinedMessageSupport (path : Path) (sel : Byte) : KeepsForm (.getVendorDefinedMessageSupport path sel) :=
  keepsForm_of_st (exec_getVendorDefinedMessageSupport path sel) fun _ => Die.mctp_st fun _ => rfl
theorem keepsForm_unsupportedMctpCommand (path : Path) (code : Byte) : KeepsForm (.unsupportedMctpCommand path code) :=
  keepsForm_of_st (exec_unsupportedMctpCommand path code) fun _ => Die.mctp_st fun _ => rfl
theorem keepsForm_icmpv6Message (kind : Frame520) : KeepsForm (.icmpv6Message kind) :=
  keepsForm_of_st (exec_icmpv6Message kind) fun d => by simp [apply_ite Die.st]
theorem keepsForm_getVersion (path : Path) : KeepsForm (.getVersion path) :=
  keepsForm_of_st (exec_getVersion path) fun d => by simp [apply_ite Die.st]
theorem keepsForm_getCapabilities (path : Path) (flags : W32) (transferSize : Nat) : KeepsForm (.getCapabilities path flags transferSize) :=
  keepsForm_of_st (exec_getCapabilities path flags transferSize) fun d => by simp [apply_ite Die.st]
theorem keepsForm_negotiateAlgorithms (path : Path) (offersAll : Bool) : KeepsForm (.negotiateAlgorithms path offersAll) :=
  keepsForm_of_st (exec_negotiateAlgorithms path offersAll) fun d => by simp [apply_ite Die.st]
theorem keepsForm_getDigests (path : Path) : KeepsForm (.getDigests path) :=
  keepsForm_of_st (exec_getDigests path) fun d => Die.spdmReq_st fun e => by simp
theorem keepsForm_getCertificate (path : Path) (slot : Byte) (off len : Nat) : KeepsForm (.getCertificate path slot off len) :=
  keepsForm_of_st (exec_getCertificate path slot off len) fun d => Die.spdmReq_st fun e => by simp [apply_ite Die.st]
theorem keepsForm_challenge (path : Path) (slot : Byte) (nonce : BitVec 256) : KeepsForm (.challenge path slot nonce) :=
  keepsForm_of_st (exec_challenge path slot nonce) fun d => Die.spdmReq_st fun e => by simp [apply_ite Die.st]
theorem keepsForm_getMeasurements (path : Path) (index : Byte) (nonce : Option (BitVec 256)) : KeepsForm (.getMeasurements path index nonce) :=
  keepsForm_of_st (exec_getMeasurements path index nonce) fun d => Die.spdmReq_st fun e => by simp
theorem keepsForm_keyExchange (path : Path) (slot : Byte) (pub : BitVec 768) : KeepsForm (.keyExchange path slot pub) :=
  keepsForm_of_st (exec_keyExchange path slot pub) fun d => Die.spdmSess_st fun e => by simp
theorem keepsForm_finish (path : Path) (sid : Nat) (macOk : Bool) : KeepsForm (.finish path sid macOk) :=
  keepsForm_of_st (exec_finish path sid macOk) fun d => Die.spdmSess_st fun e => by simp
theorem keepsForm_getEncapsulatedRequest (path : Path) (sid : Nat) : KeepsForm (.getEncapsulatedRequest path sid) :=
  keepsForm_of_st (exec_getEncapsulatedRequest path sid) fun d => Die.spdmSess_st fun e => by simp [apply_ite Die.st]
theorem keepsForm_deliverEncapsulatedResponse (path : Path) (sid : Nat) (chain : List (BitVec 384)) (sigOk validNow : Bool) (selfSigned : Bool) : KeepsForm (.deliverEncapsulatedResponse path sid chain sigOk validNow selfSigned) :=
  keepsForm_of_st (exec_deliverEncapsulatedResponse path sid chain sigOk validNow selfSigned) fun d => Die.spdmSess_st fun e => by simp
theorem keepsForm_heartbeat (path : Path) (sid : Nat) : KeepsForm (.heartbeat path sid) :=
  keepsForm_of_st (exec_heartbeat path sid) fun _ => Die.inSession_st fun _ => rfl
theorem keepsForm_keyUpdate (path : Path) (sid : Nat) : KeepsForm (.keyUpdate path sid) :=
  keepsForm_of_st (exec_keyUpdate path sid) fun _ => Die.inSession_st fun _ => rfl
theorem keepsForm_endSession (path : Path) (sid : Nat) : KeepsForm (.endSession path sid) :=
  keepsForm_of_st (exec_endSession path sid) fun _ => Die.inSession_st fun _ => rfl
theorem keepsForm_chunkSend (path : Path) (handle : Byte) (seqno : BitVec 16) (last : Option LargeReq) (data : List Byte) : KeepsForm (.chunkSend path handle seqno last data) :=
  keepsForm_of_st (exec_chunkSend path handle seqno last data) fun d => Die.spdmSess_st fun e => by
    repeat' split
    all_goals simp
theorem keepsForm_chunkGet (path : Path) (handle : Byte) (seqno : BitVec 16) : KeepsForm (.chunkGet path handle seqno) :=
  keepsForm_of_st (exec_chunkGet path handle seqno) fun d => Die.spdmSess_st fun e => by simp [apply_ite Die.st]
theorem keepsForm_hybridSig (path : Path) : KeepsForm (.hybridSig path) :=
  keepsForm_of_st (exec_hybridSig path) fun d => Die.spdmReq_st fun e => by simp [apply_ite Die.st]
theorem keepsForm_kemMix (path : Path) (sid : Nat) (ct : BitVec 12544) : KeepsForm (.kemMix path sid ct) :=
  keepsForm_of_st (exec_kemMix path sid ct) fun d => by simp
theorem keepsForm_unsupportedSpdmRequest (path : Path) (code : Byte) : KeepsForm (.unsupportedSpdmRequest path code) :=
  keepsForm_of_st (exec_unsupportedSpdmRequest path code) fun d => by simp [apply_ite Die.st]
theorem keepsForm_setFabAddr (sid : Nat) (addr : W32) : KeepsForm (.setFabAddr sid addr) :=
  keepsForm_of_st (exec_setFabAddr sid addr) fun d => by simp
theorem keepsForm_setRoute (sid : Nat) (index : Nat) (pfx ctl : W32) : KeepsForm (.setRoute sid index pfx ctl) :=
  keepsForm_of_st (exec_setRoute sid index pfx ctl) fun d => by simp
theorem keepsForm_setChannel (sid : Nat) (index : Nat) (words : List W32) : KeepsForm (.setChannel sid index words) :=
  keepsForm_of_st (exec_setChannel sid index words) fun d => by simp
theorem keepsForm_setJobKey (sid : Nat) (job : W32) (epoch : Bool) (op : JobKeyOp) : KeepsForm (.setJobKey sid job epoch op) :=
  keepsForm_of_st (exec_setJobKey sid job epoch op) fun d => by simp
theorem keepsForm_setPort (sid : Nat) (p : Nat) (enable : Bool) (timeout : W32) : KeepsForm (.setPort sid p enable timeout) :=
  keepsForm_of_st (exec_setPort sid p enable timeout) fun d => by simp
theorem keepsForm_rotateSlot (sid : Nat) (sl : Fin 64) : KeepsForm (.rotateSlot sid sl) :=
  keepsForm_of_st (exec_rotateSlot sid sl) fun d => by simp
theorem keepsForm_stageFirmware (sid : Nat) (img : Manifest) : KeepsForm (.stageFirmware sid img) :=
  keepsForm_of_st (exec_stageFirmware sid img) fun d => by simp
theorem keepsForm_setNwtPackage (sid : Nat) (bytes : List Byte) (sigOk : Bool) (flashOk : Bool) : KeepsForm (.setNwtPackage sid bytes sigOk flashOk) :=
  keepsForm_of_st (exec_setNwtPackage sid bytes sigOk flashOk) fun d => by simp
theorem keepsForm_setBoardConfig (sid : Nat) (conf : BoardConf) (flashOk : Bool) : KeepsForm (.setBoardConfig sid conf flashOk) :=
  keepsForm_of_st (exec_setBoardConfig sid conf flashOk) fun d => by simp
theorem keepsForm_readFaults (sid : Nat) : KeepsForm (.readFaults sid) :=
  keepsForm_of_st (exec_readFaults sid) fun d => by simp
theorem keepsForm_burnFuse (sid : Nat) (lifecycleRow : Bool) (row : Nat) (value : BitVec 384) : KeepsForm (.burnFuse sid lifecycleRow row value) :=
  keepsForm_of_st (exec_burnFuse sid lifecycleRow row value) fun d => by simp
theorem keepsForm_unlockDebug (sid : Nat) : KeepsForm (.unlockDebug sid) :=
  keepsForm_of_st (exec_unlockDebug sid) fun d => by simp
theorem keepsForm_rollbackFirmware (sid : Nat) (flashOk : Bool) : KeepsForm (.rollbackFirmware sid flashOk) :=
  keepsForm_of_st (exec_rollbackFirmware sid flashOk) fun d => by simp
theorem keepsForm_eraseKeys (sid : Nat) : KeepsForm (.eraseKeys sid) :=
  keepsForm_of_st (exec_eraseKeys sid) fun d => by simp
theorem keepsForm_presenceAssert : KeepsForm .presenceAssert :=
  keepsForm_of_st exec_presenceAssert fun _ => rfl
theorem keepsForm_presenceRelease : KeepsForm .presenceRelease :=
  keepsForm_of_st exec_presenceRelease fun d => by simp
theorem keepsForm_sealSample (sealIn : Bool) : KeepsForm (.sealSample sealIn) :=
  keepsForm_of_st (exec_sealSample sealIn) fun d => by simp [apply_ite Die.st]
theorem keepsForm_plevelWrite (fn : Fin 64) (val : W32) : KeepsForm (.plevelWrite fn val) :=
  keepsForm_of_st (exec_plevelWrite fn val) fun d => Die.pfWr_st (by simp)
theorem keepsForm_thermalSample (temps : List Int) : KeepsForm (.thermalSample temps) :=
  keepsForm_of_st (exec_thermalSample temps) fun d => by simp
theorem keepsForm_voteSet (fn : Fin 64) (val : W32) : KeepsForm (.voteSet fn val) :=
  keepsForm_of_st (exec_voteSet fn val) fun _ => Die.pfWr_st rfl
theorem keepsForm_voteClr (fn : Fin 64) (val : W32) : KeepsForm (.voteClr fn val) :=
  keepsForm_of_st (exec_voteClr fn val) fun _ => Die.pfWr_st rfl
theorem keepsForm_sleepEntryStart : KeepsForm .sleepEntryStart :=
  keepsForm_of_st exec_sleepEntryStart fun d => by simp
theorem keepsForm_entryWindowClose : KeepsForm .entryWindowClose :=
  keepsForm_of_st exec_entryWindowClose fun d => by simp
theorem keepsForm_hostWake : KeepsForm .hostWake :=
  keepsForm_of_st exec_hostWake fun d => by simp [apply_ite Die.st]
theorem keepsForm_wakeNAssert : KeepsForm .wakeNAssert :=
  keepsForm_of_st exec_wakeNAssert fun d => by simp [apply_ite Die.st]
theorem keepsForm_pwrTimerMatch : KeepsForm .pwrTimerMatch :=
  keepsForm_of_st exec_pwrTimerMatch fun d => by simp [apply_ite Die.st]
theorem keepsForm_sleepExitStart : KeepsForm .sleepExitStart :=
  keepsForm_of_st exec_sleepExitStart fun d => by simp
theorem keepsForm_resetNRise (straps : BitVec 3) (certs : Verdict) (certsPq : Verdict) : KeepsForm (.resetNRise straps certs certsPq) :=
  keepsForm_of_st (exec_resetNRise straps certs certsPq) fun d => by simp [apply_ite Die.st]
theorem keepsForm_dawnServiceStart (board nwt : Verdict) : KeepsForm (.dawnServiceStart board nwt) :=
  keepsForm_of_st (exec_dawnServiceStart board nwt) fun d => by simp
theorem keepsForm_hbmTrainingDone (at80 at64 : BitVec 4) : KeepsForm (.hbmTrainingDone at80 at64) :=
  keepsForm_of_st (exec_hbmTrainingDone at80 at64) fun d => by simp
theorem keepsForm_engineResetDone (n : Fin 2) : KeepsForm (.engineResetDone n) :=
  keepsForm_of_st (exec_engineResetDone n) fun d => by simp
theorem keepsForm_fwConfirm (fn : Fin 64) (val : W32) : KeepsForm (.fwConfirm fn val) :=
  keepsForm_of_st (exec_fwConfirm fn val) fun d => Die.pfWr_st (by simp)
theorem keepsForm_errRecordClear (fn : Fin 64) (i : Fin 73) : KeepsForm (.errRecordClear fn i) :=
  keepsForm_of_st (exec_errRecordClear fn i) fun d => Die.pfWr_st (by simp)
theorem keepsForm_fatalFlashWrite (i : Fin 73) (flashOk : Bool) : KeepsForm (.fatalFlashWrite i flashOk) :=
  keepsForm_of_st (exec_fatalFlashWrite i flashOk) fun d => by simp
theorem keepsForm_peerFailWindowEnd (job peer : W32) : KeepsForm (.peerFailWindowEnd job peer) :=
  keepsForm_of_st (exec_peerFailWindowEnd job peer) fun d => by
    repeat' split
    all_goals simp
theorem keepsForm_fieldFrameDiscard (p : Fin 4) (frame : List Byte) : KeepsForm (.fieldFrameDiscard p frame) :=
  keepsForm_of_st (exec_fieldFrameDiscard p frame) fun d => by simp [apply_ite Die.st]
theorem keepsForm_levelTransitionComplete : KeepsForm .levelTransitionComplete :=
  keepsForm_of_st exec_levelTransitionComplete fun d => by simp
theorem keepsForm_wakeNRise : KeepsForm .wakeNRise :=
  keepsForm_of_st exec_wakeNRise fun _ => rfl
theorem keepsForm_referenceClockStop : KeepsForm .referenceClockStop :=
  keepsForm_of_st exec_referenceClockStop fun _ => rfl
theorem keepsForm_updateStaged (ok : Bool) : KeepsForm (.updateStaged ok) :=
  keepsForm_of_st (exec_updateStaged ok) fun d => by simp
theorem keepsForm_fuseRowCommit (ok : Bool) : KeepsForm (.fuseRowCommit ok) :=
  keepsForm_of_st (exec_fuseRowCommit ok) fun d => by simp
theorem keepsForm_ideKm (path : Path) (sid : Nat) : KeepsForm (.ideKm path sid) :=
  keepsForm_of_st (exec_ideKm path sid) fun _ => Die.spdmSess_st fun _ => rfl
theorem keepsForm_mctpOtherMessageType (path : Path) (mtype : Byte) : KeepsForm (.mctpOtherMessageType path mtype) :=
  keepsForm_of_st (exec_mctpOtherMessageType path mtype) fun _ => rfl
theorem keepsForm_managementPortLink (up : Bool) : KeepsForm (.managementPortLink up) :=
  keepsForm_of_st (exec_managementPortLink up) fun _ => rfl
theorem keepsForm_dynamicAddressAssign (addr : BitVec 7) : KeepsForm (.dynamicAddressAssign addr) :=
  keepsForm_of_st (exec_dynamicAddressAssign addr) fun _ => rfl
theorem keepsForm_entropyHealthTestFail : KeepsForm .entropyHealthTestFail :=
  keepsForm_of_st exec_entropyHealthTestFail fun _ => rfl

end Sys2Proof.Machine
end

section
/-! RULES. The commands that write the memories. -/

namespace Sys2Proof.Machine

/-! ### Rules for what commands call -/

section
variable {d : Die}

/-- A step that leaves the stores leaves them in form. -/
theorem StoresForm.of_st {e : Die} (he : e.st = d.st) (h : StoresForm d.st) : StoresForm e.st := he ▸ h

theorem Die.hostMsg_form {m : HostMsg} {f : Die → Die} (h : StoresForm d.st) (hf : StoresForm (f d).st) : StoresForm (d.hostMsg m f).st :=
  Die.hostMsg_ind h hf

theorem Die.pfWr_form {fn off : Nat} {val : W32} {f : Die → Die} (h : StoresForm d.st) (hf : StoresForm (f d).st) :
    StoresForm (d.pfWr fn off val f).st :=
  Die.hostMsg_form h (Die.ite_form (Die.ite_form hf h) h)

theorem Die.runStep_form (h : StoresForm d.st) {t kind : Nat} {e : Ecc} {f : Die → Die}
    (hf : ∀ {x : Die}, StoresForm x.st → StoresForm (f x).st) : StoresForm (d.runStep t kind e f).st := by
  have hr : StoresForm (d.stepFetch t e).1.st := .of_st (d.stepFetch_st t e) h
  exact Die.ite_form (Die.ite_form hr (hf hr)) h

theorem Die.packet_form (h : StoresForm d.st) {f : Die → Die} (hf : ∀ {x : Die}, StoresForm x.st → StoresForm (f x).st) :
    StoresForm (d.packet f).st :=
  Die.ite_form (hf h) h

theorem Die.framePacket_form (h : StoresForm d.st) {m : Nat} {f : Die → Die} (hf : ∀ {x : Die}, StoresForm x.st → StoresForm (f x).st) :
    StoresForm (d.framePacket m f).st :=
  Die.ite_form (.of_st d.unclaimed_st h) (Die.ite_form (hf h) (Die.ite_form h (.of_st d.unclaimed_st h)))

theorem Die.onCell_form (h : StoresForm d.st) {p kind : Nat} {cell : List Byte} {f : Die → Die}
    (hf : ∀ {x : Die}, StoresForm x.st → StoresForm (f x).st) : StoresForm (d.onCell p kind cell f).st := by
  have ha : StoresForm ((if kind = 0 then d.cutOnward p cell else d).acceptCell p cell).1.st :=
    .of_st (Die.acceptCell_st _ p cell) (Die.ite_form (.of_st (d.cutOnward_st p cell) h) h)
  exact Die.ite_form (Die.ite_form (hf (.of_st (Die.rxCount_st _ p) ha)) ha) h

theorem KvRes.ite_form {c : Prop} [Decidable c] {x y : KvRes} (hx : StoresForm x.die.st) (hy : StoresForm y.die.st) :
    StoresForm (if c then x else y).die.st := by
  split
  · exact hx
  · exact hy

/-- COW alone writes the memories: the page's copy in HBM4 (R356). -/
theorem Die.kvEdit_form (h : StoresForm d.st) (s op q : Nat) (b : Bool) (idx srcQ srcIdx gen len : Nat) :
    StoresForm (d.kvEdit s op q b idx srcQ srcIdx gen len).die.st := by
  unfold Die.kvEdit
  cases d.kvp.entry q b idx with
  | none =>
    refine KvRes.ite_form ?_ (KvRes.ite_form ?_ (KvRes.ite_form h (KvRes.ite_form h (.of_st (d.kvPublish_st q gen len) h))))
    · split <;> exact h
    · split <;> exact h
  | some p =>
    have hsub : StoresForm ((d.mapEntry q b idx none).refsSub p 4).st := .of_st (Die.refsSub_st _ p 4) h
    refine KvRes.ite_form h (KvRes.ite_form h (KvRes.ite_form (KvRes.ite_form h ?_) (KvRes.ite_form hsub (.of_st (d.kvPublish_st q gen len) h))))
    dsimp only
    split
    · exact h
    · have hc {n : Nat} : StoresForm { d.st with hbm := Mem.copy d.st.hbm (d.poolBase + p * pageBytes) (d.poolBase + n * pageBytes) pageBytes } :=
        h.hbm (Mem.wf_copy _ _ _ h.2.2.2.1)
      exact .of_st (Die.refsSub_st _ p 3) (Die.ite_form hc hc)

theorem Die.kvRun_form (h : StoresForm d.st) (s op : Nat) (a0 a1 a2 : W32) (acc : Access) : StoresForm (d.kvRun s op a0 a1 a2 acc).die.st :=
  KvRes.ite_form h <| KvRes.ite_form h <| KvRes.ite_form (.of_st (Die.ptProtect_st ..) h) <|
    KvRes.ite_form (KvRes.ite_form h <| KvRes.ite_form (Die.kvEdit_form h ..) <|
      KvRes.ite_form (Die.accessed_form h ..) (Die.kvEdit_form (Die.accessed_form h ..) ..)) h

@[simp] theorem KvRes.complete_st (r : KvRes) (s : Nat) (a0 : W32) : (r.complete s a0).st = r.die.st := rfl
end

/-! ### The commands -/

theorem keepsForm_bundleIssue (fetch : Ecc) : KeepsForm (.bundleIssue fetch) :=
  keepsForm_of_act (exec_bundleIssue fetch) fun h => Die.issueBundle_form h fetch
theorem keepsForm_tallyWaitRelease : KeepsForm .tallyWaitRelease :=
  keepsForm_of_act exec_tallyWaitRelease fun h => Die.issueStep_form h fun r x hx => .of_st (by
    split
    · exact Die.tryWait_st fun e => by simp [apply_ite Die.st]
    · rfl) hx
theorem keepsForm_tallyTimeout : KeepsForm .tallyTimeout :=
  keepsForm_of_act exec_tallyTimeout fun h => Die.issueStep_form h fun r x hx => .of_st (by
    split
    · exact ite_st rfl (Die.tryWait_st fun e => by simp)
    · rfl) hx
theorem keepsForm_wload (te : Fin 2) (ecc : Ecc) : KeepsForm (.wload te ecc) :=
  keepsForm_of_act (exec_wload te ecc) fun h => Die.slotAction_form h fun r w {x} hx => .of_st (x.wload_st te.val r w) hx
theorem keepsForm_stream (te : Fin 2) (ecc : Ecc) : KeepsForm (.stream te ecc) :=
  keepsForm_of_act (exec_stream te ecc) fun h => Die.slotAction_form h fun r w {x} hx => .of_st (x.streamSlot_st te.val r w) hx
theorem keepsForm_streamRowComplete (te : Fin 2) (ecc : Ecc) : KeepsForm (.streamRowComplete te ecc) :=
  keepsForm_of_act (exec_streamRowComplete te ecc) fun h => Die.rowComplete_form h te.val ecc
theorem keepsForm_vadd (ecc : Ecc) : KeepsForm (.vadd ecc) :=
  keepsForm_of_act (exec_vadd ecc) fun h => Die.vectorOp_form h fun r w f g y => Die.vElem_st r 1 w f g y
theorem keepsForm_vmul (ecc : Ecc) : KeepsForm (.vmul ecc) :=
  keepsForm_of_act (exec_vmul ecc) fun h => Die.vectorOp_form h fun r w f g y => Die.vElem_st r 2 w f g y
theorem keepsForm_vfma (ecc : Ecc) : KeepsForm (.vfma ecc) :=
  keepsForm_of_act (exec_vfma ecc) fun h => Die.vectorOp_form h fun r w f g y => Die.vElem_st r 3 w f g y
theorem keepsForm_vmax (ecc : Ecc) : KeepsForm (.vmax ecc) :=
  keepsForm_of_act (exec_vmax ecc) fun h => Die.vectorOp_form h fun r w f g y => Die.vElem_st r 4 w f g y
theorem keepsForm_vmin (ecc : Ecc) : KeepsForm (.vmin ecc) :=
  keepsForm_of_act (exec_vmin ecc) fun h => Die.vectorOp_form h fun r w f g y => Die.vElem_st r 5 w f g y
theorem keepsForm_vcmpgt (ecc : Ecc) : KeepsForm (.vcmpgt ecc) :=
  keepsForm_of_act (exec_vcmpgt ecc) fun h => Die.vectorOp_form h fun r w f g y => Die.vElem_st r 6 w f g y
theorem keepsForm_vexp (ecc : Ecc) : KeepsForm (.vexp ecc) :=
  keepsForm_of_act (exec_vexp ecc) fun h => Die.vectorOp_form h fun r w f g y => Die.vUnary_st r 7 w f g y
theorem keepsForm_vrecip (ecc : Ecc) : KeepsForm (.vrecip ecc) :=
  keepsForm_of_act (exec_vrecip ecc) fun h => Die.vectorOp_form h fun r w f g y => Die.vUnary_st r 8 w f g y
theorem keepsForm_vrsqrt (ecc : Ecc) : KeepsForm (.vrsqrt ecc) :=
  keepsForm_of_act (exec_vrsqrt ecc) fun h => Die.vectorOp_form h fun r w f g y => Die.vUnary_st r 9 w f g y
theorem keepsForm_vcvt (ecc : Ecc) : KeepsForm (.vcvt ecc) :=
  keepsForm_of_act (exec_vcvt ecc) fun h => Die.slotAction_form h fun r w {_} hx =>
    .of_st ((Die.cvtSkews_st _ r _ _).trans (Die.vectorCycle_st fun g y => Die.vCvt_st r w _ g y)) (Die.cvtScale_form hx r w _)
theorem keepsForm_vrmax (ecc : Ecc) : KeepsForm (.vrmax ecc) :=
  keepsForm_of_act (exec_vrmax ecc) fun h => Die.vectorOp_form h fun r w f g y => Die.vReduce_st r 11 w f g y
theorem keepsForm_vrsum (ecc : Ecc) : KeepsForm (.vrsum ecc) :=
  keepsForm_of_act (exec_vrsum ecc) fun h => Die.vectorOp_form h fun r w f g y => Die.vReduce_st r 12 w f g y
theorem keepsForm_vamax (ecc : Ecc) : KeepsForm (.vamax ecc) :=
  keepsForm_of_act (exec_vamax ecc) fun h => Die.slotAction_form h fun r w {x} hx => by
    split
    · exact .of_st (Die.vectorCycle_st fun g y => Die.vAmax_st r w _ g y) (Die.ite_form (Die.rollFor_form hx r w _) hx)
    · exact hx
theorem keepsForm_vmerge (ecc : Ecc) : KeepsForm (.vmerge ecc) :=
  keepsForm_of_act (exec_vmerge ecc) fun h => Die.vectorOp_form h fun r w f g y => Die.vMerge_st r w f g y
theorem keepsForm_vhad (ecc : Ecc) : KeepsForm (.vhad ecc) :=
  keepsForm_of_act (exec_vhad ecc) fun h => Die.vectorOp_form h fun r w f g y => Die.vHad_st r w f g y
theorem keepsForm_vectorResult (ecc : Ecc) : KeepsForm (.vectorResult ecc) :=
  keepsForm_of_act (exec_vectorResult ecc) fun h => Die.vectorLand_form h ecc
theorem keepsForm_launch : KeepsForm .launch :=
  keepsForm_of_act exec_launch fun h => Die.slotAction_form h fun r w {x} hx => .of_st (x.slot3_st false r w) hx
theorem keepsForm_stop : KeepsForm .stop :=
  keepsForm_of_act exec_stop fun h => Die.slotAction_form h fun r w {x} hx => .of_st (x.slot3_st true r w) hx
theorem keepsForm_fwload (ecc : Ecc) : KeepsForm (.fwload ecc) :=
  keepsForm_of_act (exec_fwload ecc) fun h => Die.slotAction_form h fun r w {x} hx => .of_st (x.fwload_st r w) hx
theorem keepsForm_fstream (ecc : Ecc) : KeepsForm (.fstream ecc) :=
  keepsForm_of_act (exec_fstream ecc) fun h => Die.slotAction_form h fun r w {x} hx => .of_st (x.fstream_st r w) hx
theorem keepsForm_flintRowComplete (ecc : Ecc) : KeepsForm (.flintRowComplete ecc) :=
  keepsForm_of_act (exec_flintRowComplete ecc) fun h => Die.flintComplete_form h ecc
theorem keepsForm_fft (ecc : Ecc) : KeepsForm (.fft ecc) :=
  keepsForm_of_act (exec_fft ecc) fun h => Die.slotAction_form h fun r w {x} hx => .of_st (x.micaCycle_st r 1 w) hx
theorem keepsForm_ifft (ecc : Ecc) : KeepsForm (.ifft ecc) :=
  keepsForm_of_act (exec_ifft ecc) fun h => Die.slotAction_form h fun r w {x} hx => .of_st (x.micaCycle_st r 2 w) hx
theorem keepsForm_cmul (ecc : Ecc) : KeepsForm (.cmul ecc) :=
  keepsForm_of_act (exec_cmul ecc) fun h => Die.slotAction_form h fun r w {x} hx => .of_st (x.micaCycle_st r 3 w) hx
theorem keepsForm_wht (ecc : Ecc) : KeepsForm (.wht ecc) :=
  keepsForm_of_act (exec_wht ecc) fun h => Die.slotAction_form h fun r w {x} hx => .of_st (x.micaCycle_st r 4 w) hx
theorem keepsForm_micaResult (ecc : Ecc) : KeepsForm (.micaResult ecc) :=
  keepsForm_of_act (exec_micaResult ecc) fun h => Die.micaLand_form h ecc
theorem keepsForm_maxpool (ecc : Ecc) : KeepsForm (.maxpool ecc) :=
  keepsForm_of_act (exec_maxpool ecc) fun h => Die.slotAction_form h fun r w {_} hx => .of_st (Die.poolCycle_st _ r 1 w) hx
theorem keepsForm_avgpoolInc (ecc : Ecc) : KeepsForm (.avgpoolInc ecc) :=
  keepsForm_of_act (exec_avgpoolInc ecc) fun h => Die.slotAction_form h fun r w {_} hx => .of_st (Die.poolCycle_st _ r 2 w) hx
theorem keepsForm_avgpoolExc (ecc : Ecc) : KeepsForm (.avgpoolExc ecc) :=
  keepsForm_of_act (exec_avgpoolExc ecc) fun h => Die.slotAction_form h fun r w {_} hx => .of_st (Die.poolCycle_st _ r 3 w) hx
theorem keepsForm_cropBilinear (ecc : Ecc) : KeepsForm (.cropBilinear ecc) :=
  keepsForm_of_act (exec_cropBilinear ecc) fun h => Die.slotAction_form h fun r w {_} hx => .of_st (Die.cropCycle_st _ r 4 w) hx
theorem keepsForm_cropNearest (ecc : Ecc) : KeepsForm (.cropNearest ecc) :=
  keepsForm_of_act (exec_cropNearest ecc) fun h => Die.slotAction_form h fun r w {_} hx => .of_st (Die.cropCycle_st _ r 5 w) hx
theorem keepsForm_argmax (ecc : Ecc) : KeepsForm (.argmax ecc) :=
  keepsForm_of_act (exec_argmax ecc) fun h => Die.slotAction_form h fun r w {_} hx => .of_st (Die.argmaxCycle_st _ r w) hx
theorem keepsForm_postResult (ecc : Ecc) : KeepsForm (.postResult ecc) :=
  keepsForm_of_act (exec_postResult ecc) fun h => Die.postLand_form h ecc
theorem keepsForm_tinc : KeepsForm .tinc :=
  keepsForm_of_act exec_tinc fun h => Die.slotAction_form h fun r w {x} hx => .of_st (by simp) hx
theorem keepsForm_cmd (ecc : Ecc) : KeepsForm (.cmd ecc) :=
  keepsForm_of_act (exec_cmd ecc) fun h => Die.slotAction_form h fun r w {x} hx => .of_st (x.cmd_st r w) hx
theorem keepsForm_sense (ecc : Ecc) : KeepsForm (.sense ecc) :=
  keepsForm_of_act (exec_sense ecc) fun h => Die.slotAction_form h fun r w {_} hx => Die.sense_form hx r w
theorem keepsForm_mark : KeepsForm .mark :=
  keepsForm_of_act exec_mark fun h => Die.slotAction_form h fun r w {x} hx => .of_st (x.mark_st r w) hx
theorem keepsForm_requestIssue (t : Fin 4096) (room readNow : Bool) (walk : Access) : KeepsForm (.requestIssue t room readNow walk) :=
  keepsForm_of_act (exec_requestIssue t room readNow walk) fun h => Die.issueRequest_form h t.val room readNow walk
theorem keepsForm_requestComplete (t : Fin 4096) (which portWait : Nat) (res : Access) (picks : List Nat) : KeepsForm (.requestComplete t which portWait res picks) :=
  keepsForm_of_act (exec_requestComplete t which portWait res picks) fun h => Die.completeRequest_form h t.val which portWait picks res
theorem keepsForm_move (t : Fin 4096) (ecc : Ecc) : KeepsForm (.move t ecc) :=
  keepsForm_of_act (exec_move t ecc) fun h => Die.runStep_form h fun {_} hx => Die.moveStep_form hx t.val
theorem keepsForm_stride (t : Fin 4096) (ecc : Ecc) : KeepsForm (.stride t ecc) :=
  keepsForm_of_act (exec_stride t ecc) fun h => Die.runStep_form h fun {_} hx => Die.moveStep_form hx t.val
theorem keepsForm_gather (t : Fin 4096) (ecc : Ecc) (walk : Access) : KeepsForm (.gather t ecc walk) :=
  keepsForm_of_act (exec_gather t ecc walk) fun h => Die.runStep_form h fun {_} hx => Die.walkStep_form hx t.val walk
theorem keepsForm_scatter (t : Fin 4096) (ecc : Ecc) (walk : Access) : KeepsForm (.scatter t ecc walk) :=
  keepsForm_of_act (exec_scatter t ecc walk) fun h => Die.runStep_form h fun {_} hx => Die.walkStep_form hx t.val walk
theorem keepsForm_threadWaitRelease (t : Fin 4096) : KeepsForm (.threadWaitRelease t) :=
  keepsForm_of_act (exec_threadWaitRelease t) fun h => Die.ite_form (.of_st (Die.threadRelease_st _ _) (Die.landReadable_form h)) h
theorem keepsForm_line (m : Fin 16) (row offset : Nat) (payload : List Byte) (fifoFull : Bool) : KeepsForm (.line m row offset payload fifoFull) :=
  keepsForm_of_act (exec_line m row offset payload fifoFull) fun h => Die.packet_form h fun {_} hx => Die.framePacket_form hx fun {y} hy =>
    Die.ite_form (.of_st (Die.dropFrame_st y _ _ _) hy) (Die.lineIn_form hy m.val row offset payload)
theorem keepsForm_voidStripeHandover (m : Fin 16) : KeepsForm (.voidStripeHandover m) :=
  keepsForm_of_act (exec_voidStripeHandover m) fun h => Die.packet_form h fun {_} hx => Die.voidStripe_form hx m.val
theorem keepsForm_kvpQueueHead (acc : Access) : KeepsForm (.kvpQueueHead acc) :=
  keepsForm_of_act (exec_kvpQueueHead acc) fun h => by
    split
    · refine Die.ite_form h (.of_st (KvRes.complete_st _ _ _) (Die.kvRun_form ?_ _ _ _ _ _ acc))
      exact h
    · exact h
theorem keepsForm_retire (acc : Access) : KeepsForm (.retire acc) :=
  keepsForm_of_act (exec_retire acc) fun h => by
    split
    · refine Die.ite_form (Die.kvRetire_form ?_ _ acc) h
      exact h
    · exact h
theorem keepsForm_rxstat0Read (fn : Fin 64) (tag : BitVec 16) (n : Fin 8) : KeepsForm (.rxstat0Read fn tag n) :=
  keepsForm_of_act (exec_rxstat0Read fn tag n) fun h => Die.hostMsg_form h (Die.rdMsg_form h fn.val tag (offRxstat n.val 0) 4)
theorem keepsForm_regRd (fn : Fin 64) (tag : BitVec 16) (off : BitVec 24) (bytes : Nat) : KeepsForm (.regRd fn tag off bytes) :=
  keepsForm_of_act (exec_regRd fn tag off bytes) fun h => Die.hostMsg_form h (Die.rdMsg_form h fn.val tag off.toNat bytes)
theorem keepsForm_regWr (fn : Fin 64) (off : BitVec 24) (bytes : Nat) (val : W32) : KeepsForm (.regWr fn off bytes val) :=
  keepsForm_of_act (exec_regWr fn off bytes val) fun h => Die.hostMsg_form h (Die.wrMsg_form h fn.val off.toNat bytes val)
theorem keepsForm_memRd (fn : Fin 64) (tag : BitVec 16) (addr : BitVec 40) (len : BitVec 8) (res : Access) : KeepsForm (.memRd fn tag addr len res) :=
  keepsForm_of_act (exec_memRd fn tag addr len res) fun h => Die.hostMsg_form h (Die.memRdMsg_form h fn.val tag addr.toNat (len.toNat + 1) res)
theorem keepsForm_memWr (fn : Fin 64) (addr : BitVec 40) (data : List Byte) (res : Access) : KeepsForm (.memWr fn addr data res) :=
  keepsForm_of_act (exec_memWr fn addr data res) fun h => Die.hostMsg_form h (Die.memWrMsg_form h fn.val addr.toNat data res)
theorem keepsForm_loadComplete (sl : Fin 64) (acc : Access) : KeepsForm (.loadComplete sl acc) :=
  keepsForm_of_act (exec_loadComplete sl acc) fun h => Die.ite_form (Die.loadEnd_form h sl.val acc) h
theorem keepsForm_dataCell (p : Fin 8) (cell : List Byte) : KeepsForm (.dataCell p cell) :=
  keepsForm_of_act (exec_dataCell p cell) fun h => Die.ite_form h (Die.onCell_form h fun {_} hx => Die.routeCell_form hx p.val cell)
theorem keepsForm_lockInitDone (sl : Fin 64) : KeepsForm (.lockInitDone sl) :=
  keepsForm_of_act (exec_lockInitDone sl) fun h => Die.releaseHeld_form (Die.lockDone_form h sl.val)
theorem keepsForm_scrubDone (sl : Fin 64) : KeepsForm (.scrubDone sl) :=
  keepsForm_of_act (exec_scrubDone sl) fun h => Die.releaseHeld_form (Die.scrubEnd_form h sl.val)
theorem keepsForm_prologuePiece (acc : Access) : KeepsForm (.prologuePiece acc) :=
  keepsForm_of_act (exec_prologuePiece acc) fun h => Die.prologuePiece_form h acc
theorem keepsForm_nfpOpenDone (sl : Fin 64) (acc : Access) : KeepsForm (.nfpOpenDone sl acc) :=
  keepsForm_of_act (exec_nfpOpenDone sl acc) fun h => Die.ite_form (Die.nfpEnd_form h sl.val acc) h
theorem keepsForm_sleepStateReached : KeepsForm .sleepStateReached :=
  keepsForm_of_act exec_sleepStateReached fun h => Die.stateReached_form h
theorem keepsForm_sleepExitDone : KeepsForm .sleepExitDone :=
  keepsForm_of_act exec_sleepExitDone fun h => Die.exitEnd_form h
theorem keepsForm_pwrgoodRise (straps : BitVec 3) : KeepsForm (.pwrgoodRise straps) :=
  keepsForm_of_act (exec_pwrgoodRise straps) fun {d} h => Die.ite_form h (Die.powerOn_form (d := d))
theorem keepsForm_pwrgoodFall : KeepsForm .pwrgoodFall :=
  keepsForm_of_act exec_pwrgoodFall fun _ => Die.powerDown_form
theorem keepsForm_resetNFall : KeepsForm .resetNFall :=
  keepsForm_of_act exec_resetNFall fun h => Die.ite_form h (Die.ite_form Die.coldReset_form h)
theorem keepsForm_fullService : KeepsForm .fullService :=
  keepsForm_of_act exec_fullService fun h => Die.fullStart_form h
theorem keepsForm_warmReset (fn : Fin 64) (val : W32) : KeepsForm (.warmReset fn val) :=
  keepsForm_of_act (exec_warmReset fn val) fun h => Die.ite_form (Die.pfWr_form h (Die.resetCtrlWrite_form h val)) h
theorem keepsForm_warmResetMsg : KeepsForm .warmResetMsg :=
  keepsForm_of_act exec_warmResetMsg fun h => Die.warmRequest_form h
theorem keepsForm_warmResetDone (at80 at64 : BitVec 4) : KeepsForm (.warmResetDone at80 at64) :=
  keepsForm_of_act (exec_warmResetDone at80 at64) fun h => Die.warmEnd_form h at80 at64
theorem keepsForm_engineReset (fn : Fin 64) (val : W32) : KeepsForm (.engineReset fn val) :=
  keepsForm_of_act (exec_engineReset fn val) fun h => Die.ite_form h (Die.pfWr_form h (Die.resetCtrlWrite_form h val))
theorem keepsForm_errHdrRead (fn : Fin 64) (tag : BitVec 16) (i : Fin 73) : KeepsForm (.errHdrRead fn tag i) :=
  keepsForm_of_act (exec_errHdrRead fn tag i) fun h => Die.hostMsg_form h (Die.rdMsg_form h fn.val tag (offRec i.val 0) 4)
theorem keepsForm_reg64LoRead (fn : Fin 64) (tag : BitVec 16) (off : BitVec 24) : KeepsForm (.reg64LoRead fn tag off) :=
  keepsForm_of_act (exec_reg64LoRead fn tag off) fun h => Die.ite_form (Die.hostMsg_form h (Die.rdMsg_form h fn.val tag off.toNat 4)) h
theorem keepsForm_regionLockSet (fn : Fin 64) (off : BitVec 24) (val : W32) : KeepsForm (.regionLockSet fn off val) :=
  keepsForm_of_act (exec_regionLockSet fn off val) fun h => Die.ite_form (Die.hostMsg_form h (Die.regWrite_form h fn.val off.toNat val)) h
theorem keepsForm_registerWrite (fn : Fin 64) (off : BitVec 24) (val : W32) : KeepsForm (.registerWrite fn off val) :=
  keepsForm_of_act (exec_registerWrite fn off val) fun h => Die.hostMsg_form h (Die.wrMsg_form h fn.val off.toNat 4 val)
theorem keepsForm_sweepBlockRewrite (sl : Fin 64) (acc : Access) : KeepsForm (.sweepBlockRewrite sl acc) :=
  keepsForm_of_act (exec_sweepBlockRewrite sl acc) fun h => Die.sweepBlock_form h sl.val acc
theorem keepsForm_powerLoss : KeepsForm .powerLoss :=
  keepsForm_of_act exec_powerLoss fun _ => Die.powerDown_form
theorem keepsForm_mainStageChecked (v : Verdict) : KeepsForm (.mainStageChecked v) :=
  keepsForm_of_act (exec_mainStageChecked v) fun h => Die.mainChecked_form h v
theorem keepsForm_dawnWeightsChecked (v : Verdict) : KeepsForm (.dawnWeightsChecked v) :=
  keepsForm_of_act (exec_dawnWeightsChecked v) fun h => Die.dawnWeights_form h v
theorem keepsForm_debugPortInstruction (i : DebugInstr) : KeepsForm (.debugPortInstruction i) :=
  keepsForm_of_act (exec_debugPortInstruction i) fun h => Die.jtag_form h i

end Sys2Proof.Machine
end

section
/-! O5. Every step keeps the nine byte memories in canonical form. -/

namespace Sys2Proof.Machine

/-! ### Every command, and the reference cycle -/

/-- No command takes the memories out of form: the rules of the commands together. -/
theorem keepsForm : ∀ c : Instr, KeepsForm c
  | .bundleIssue fetch => keepsForm_bundleIssue fetch
  | .loopBegin => keepsForm_loopBegin
  | .loopEnd => keepsForm_loopEnd
  | .exit => keepsForm_exit
  | .tallyWaitRelease => keepsForm_tallyWaitRelease
  | .tallyTimeout => keepsForm_tallyTimeout
  | .enop te => keepsForm_enop te
  | .wload te ecc => keepsForm_wload te ecc
  | .stream te ecc => keepsForm_stream te ecc
  | .streamRowComplete te ecc => keepsForm_streamRowComplete te ecc
  | .vnop => keepsForm_vnop
  | .vadd ecc => keepsForm_vadd ecc
  | .vmul ecc => keepsForm_vmul ecc
  | .vfma ecc => keepsForm_vfma ecc
  | .vmax ecc => keepsForm_vmax ecc
  | .vmin ecc => keepsForm_vmin ecc
  | .vcmpgt ecc => keepsForm_vcmpgt ecc
  | .vexp ecc => keepsForm_vexp ecc
  | .vrecip ecc => keepsForm_vrecip ecc
  | .vrsqrt ecc => keepsForm_vrsqrt ecc
  | .vcvt ecc => keepsForm_vcvt ecc
  | .vrmax ecc => keepsForm_vrmax ecc
  | .vrsum ecc => keepsForm_vrsum ecc
  | .vamax ecc => keepsForm_vamax ecc
  | .vmerge ecc => keepsForm_vmerge ecc
  | .vhad ecc => keepsForm_vhad ecc
  | .vectorResult ecc => keepsForm_vectorResult ecc
  | .launch => keepsForm_launch
  | .stop => keepsForm_stop
  | .threadLaunchArrive => keepsForm_threadLaunchArrive
  | .threadStopArrive => keepsForm_threadStopArrive
  | .fwload ecc => keepsForm_fwload ecc
  | .fstream ecc => keepsForm_fstream ecc
  | .flintRowComplete ecc => keepsForm_flintRowComplete ecc
  | .fft ecc => keepsForm_fft ecc
  | .ifft ecc => keepsForm_ifft ecc
  | .cmul ecc => keepsForm_cmul ecc
  | .wht ecc => keepsForm_wht ecc
  | .micaResult ecc => keepsForm_micaResult ecc
  | .pnop => keepsForm_pnop
  | .maxpool ecc => keepsForm_maxpool ecc
  | .avgpoolInc ecc => keepsForm_avgpoolInc ecc
  | .avgpoolExc ecc => keepsForm_avgpoolExc ecc
  | .cropBilinear ecc => keepsForm_cropBilinear ecc
  | .cropNearest ecc => keepsForm_cropNearest ecc
  | .argmax ecc => keepsForm_argmax ecc
  | .postResult ecc => keepsForm_postResult ecc
  | .snop => keepsForm_snop
  | .tinc => keepsForm_tinc
  | .cmd ecc => keepsForm_cmd ecc
  | .sense ecc => keepsForm_sense ecc
  | .mark => keepsForm_mark
  | .requestIssue t room readNow walk => keepsForm_requestIssue t room readNow walk
  | .requestComplete t which portWait res picks => keepsForm_requestComplete t which portWait res picks
  | .hbmPhyLockLoss channel => keepsForm_hbmPhyLockLoss channel
  | .patrolRead found => keepsForm_patrolRead found
  | .hbmRefresh site => keepsForm_hbmRefresh site
  | .move t ecc => keepsForm_move t ecc
  | .stride t ecc => keepsForm_stride t ecc
  | .gather t ecc walk => keepsForm_gather t ecc walk
  | .scatter t ecc walk => keepsForm_scatter t ecc walk
  | .signal t ecc => keepsForm_signal t ecc
  | .wait t ecc => keepsForm_wait t ecc
  | .threadWaitRelease t => keepsForm_threadWaitRelease t
  | .loop t ecc => keepsForm_loop t ecc
  | .endStep t ecc => keepsForm_endStep t ecc
  | .threadFail t => keepsForm_threadFail t
  | .passClose t => keepsForm_passClose t
  | .reservedClassMessage cls => keepsForm_reservedClassMessage cls
  | .sof m frame sensorTs width height fmt fifoFull => keepsForm_sof m frame sensorTs width height fmt fifoFull
  | .line m row offset payload fifoFull => keepsForm_line m row offset payload fifoFull
  | .eof m fifoFull => keepsForm_eof m fifoFull
  | .timesync timeNs => keepsForm_timesync timeNs
  | .slewEnd => keepsForm_slewEnd
  | .voidStripeHandover m => keepsForm_voidStripeHandover m
  | .stripeFree m => keepsForm_stripeFree m
  | .ingStreamEnable fn m val => keepsForm_ingStreamEnable fn m val
  | .ingStreamDisable fn m val => keepsForm_ingStreamDisable fn m val
  | .allocate fn sl => keepsForm_allocate fn sl
  | .share fn sl => keepsForm_share fn sl
  | .cow fn sl => keepsForm_cow fn sl
  | .free fn sl => keepsForm_free fn sl
  | .publish fn sl len => keepsForm_publish fn sl len
  | .query fn sl => keepsForm_query fn sl
  | .kvpQueueHead acc => keepsForm_kvpQueueHead acc
  | .retire acc => keepsForm_retire acc
  | .sensor p frame => keepsForm_sensor p frame
  | .status p frame => keepsForm_status p frame
  | .loopMessage mch frame => keepsForm_loopMessage mch frame
  | .frameAbort p => keepsForm_frameAbort p
  | .alignGain p => keepsForm_alignGain p
  | .alignLoss p inFrame => keepsForm_alignLoss p inFrame
  | .fldPortEnable fn p val => keepsForm_fldPortEnable fn p val
  | .fldPortDisable fn p val => keepsForm_fldPortDisable fn p val
  | .loopEnable fn n val => keepsForm_loopEnable fn n val
  | .loopDisable fn n val => keepsForm_loopDisable fn n val
  | .commandArrival n => keepsForm_commandArrival n
  | .periodStart n => keepsForm_periodStart n
  | .deadline n => keepsForm_deadline n
  | .txFrameStart p credits => keepsForm_txFrameStart p credits
  | .heartbeatDue p => keepsForm_heartbeatDue p
  | .hbPeriodWrite fn val => keepsForm_hbPeriodWrite fn val
  | .rxstat0Read fn tag n => keepsForm_rxstat0Read fn tag n
  | .watchSof number => keepsForm_watchSof number
  | .watchData info data => keepsForm_watchData info data
  | .watchEof => keepsForm_watchEof
  | .nwtEnable fn val => keepsForm_nwtEnable fn val
  | .nwtFrameResult ecc => keepsForm_nwtFrameResult ecc
  | .regRd fn tag off bytes => keepsForm_regRd fn tag off bytes
  | .regWr fn off bytes val => keepsForm_regWr fn off bytes val
  | .memRd fn tag addr len res => keepsForm_memRd fn tag addr len res
  | .memWr fn addr data res => keepsForm_memWr fn addr data res
  | .reservedHostKind kind => keepsForm_reservedHostKind kind
  | .grant fn sl => keepsForm_grant fn sl
  | .load fn sl => keepsForm_load fn sl
  | .loadComplete sl acc => keepsForm_loadComplete sl acc
  | .arm fn sl runs => keepsForm_arm fn sl runs
  | .disarm fn sl => keepsForm_disarm fn sl
  | .abort fn sl => keepsForm_abort fn sl
  | .unload fn sl => keepsForm_unload fn sl
  | .release fn sl => keepsForm_release fn sl
  | .unloadReleaseDone sl => keepsForm_unloadReleaseDone sl
  | .calEntryDue => keepsForm_calEntryDue
  | .dispatchStart => keepsForm_dispatchStart
  | .runEnd => keepsForm_runEnd
  | .calSwap fn val => keepsForm_calSwap fn val
  | .calSwapEffect => keepsForm_calSwapEffect
  | .calEnable fn val => keepsForm_calEnable fn val
  | .calDisable fn val => keepsForm_calDisable fn val
  | .dataCell p cell => keepsForm_dataCell p cell
  | .cellForward p => keepsForm_cellForward p
  | .linkCell p cell => keepsForm_linkCell p cell
  | .helloCell p cell => keepsForm_helloCell p cell
  | .topoCell p cell => keepsForm_topoCell p cell
  | .helloSend p nonce => keepsForm_helloSend p nonce
  | .linkAck p => keepsForm_linkAck p
  | .replayTimer p => keepsForm_replayTimer p
  | .fabTimeout cause p chan t => keepsForm_fabTimeout cause p chan t
  | .portSleep p => keepsForm_portSleep p
  | .fabWake p => keepsForm_fabWake p
  | .wakeResend p => keepsForm_wakeResend p
  | .lockInterfaceRequest sl path => keepsForm_lockInterfaceRequest sl path
  | .lockInitDone sl => keepsForm_lockInitDone sl
  | .startInterfaceRequest sl path => keepsForm_startInterfaceRequest sl path
  | .stopInterfaceRequest sl path => keepsForm_stopInterfaceRequest sl path
  | .ideStreamInsecure sl => keepsForm_ideStreamInsecure sl
  | .scrubDone sl => keepsForm_scrubDone sl
  | .prologuePiece acc => keepsForm_prologuePiece acc
  | .rotate fn sl => keepsForm_rotate fn sl
  | .sweepComplete sl => keepsForm_sweepComplete sl
  | .nfpOpen fn sl => keepsForm_nfpOpen fn sl
  | .nfpOpenDone sl acc => keepsForm_nfpOpenDone sl acc
  | .setEndpointId path eid => keepsForm_setEndpointId path eid
  | .getEndpointId path => keepsForm_getEndpointId path
  | .getMctpVersionSupport path mtype => keepsForm_getMctpVersionSupport path mtype
  | .getMessageTypeSupport path => keepsForm_getMessageTypeSupport path
  | .getVendorDefinedMessageSupport path sel => keepsForm_getVendorDefinedMessageSupport path sel
  | .unsupportedMctpCommand path code => keepsForm_unsupportedMctpCommand path code
  | .icmpv6Message kind => keepsForm_icmpv6Message kind
  | .getVersion path => keepsForm_getVersion path
  | .getCapabilities path flags transferSize => keepsForm_getCapabilities path flags transferSize
  | .negotiateAlgorithms path offersAll => keepsForm_negotiateAlgorithms path offersAll
  | .getDigests path => keepsForm_getDigests path
  | .getCertificate path slot off len => keepsForm_getCertificate path slot off len
  | .challenge path slot nonce => keepsForm_challenge path slot nonce
  | .getMeasurements path index nonce => keepsForm_getMeasurements path index nonce
  | .keyExchange path slot pub => keepsForm_keyExchange path slot pub
  | .finish path sid macOk => keepsForm_finish path sid macOk
  | .getEncapsulatedRequest path sid => keepsForm_getEncapsulatedRequest path sid
  | .deliverEncapsulatedResponse path sid chain sigOk validNow selfSigned => keepsForm_deliverEncapsulatedResponse path sid chain sigOk validNow selfSigned
  | .heartbeat path sid => keepsForm_heartbeat path sid
  | .keyUpdate path sid => keepsForm_keyUpdate path sid
  | .endSession path sid => keepsForm_endSession path sid
  | .chunkSend path handle seqno last data => keepsForm_chunkSend path handle seqno last data
  | .chunkGet path handle seqno => keepsForm_chunkGet path handle seqno
  | .hybridSig path => keepsForm_hybridSig path
  | .kemMix path sid ct => keepsForm_kemMix path sid ct
  | .unsupportedSpdmRequest path code => keepsForm_unsupportedSpdmRequest path code
  | .setFabAddr sid addr => keepsForm_setFabAddr sid addr
  | .setRoute sid index pfx ctl => keepsForm_setRoute sid index pfx ctl
  | .setChannel sid index words => keepsForm_setChannel sid index words
  | .setJobKey sid job epoch op => keepsForm_setJobKey sid job epoch op
  | .setPort sid p enable timeout => keepsForm_setPort sid p enable timeout
  | .rotateSlot sid sl => keepsForm_rotateSlot sid sl
  | .stageFirmware sid img => keepsForm_stageFirmware sid img
  | .setNwtPackage sid bytes sigOk flashOk => keepsForm_setNwtPackage sid bytes sigOk flashOk
  | .setBoardConfig sid conf flashOk => keepsForm_setBoardConfig sid conf flashOk
  | .readFaults sid => keepsForm_readFaults sid
  | .burnFuse sid lifecycleRow row value => keepsForm_burnFuse sid lifecycleRow row value
  | .unlockDebug sid => keepsForm_unlockDebug sid
  | .rollbackFirmware sid flashOk => keepsForm_rollbackFirmware sid flashOk
  | .eraseKeys sid => keepsForm_eraseKeys sid
  | .presenceAssert => keepsForm_presenceAssert
  | .presenceRelease => keepsForm_presenceRelease
  | .sealSample sealIn => keepsForm_sealSample sealIn
  | .plevelWrite fn val => keepsForm_plevelWrite fn val
  | .thermalSample temps => keepsForm_thermalSample temps
  | .voteSet fn val => keepsForm_voteSet fn val
  | .voteClr fn val => keepsForm_voteClr fn val
  | .sleepEntryStart => keepsForm_sleepEntryStart
  | .entryWindowClose => keepsForm_entryWindowClose
  | .sleepStateReached => keepsForm_sleepStateReached
  | .hostWake => keepsForm_hostWake
  | .wakeNAssert => keepsForm_wakeNAssert
  | .pwrTimerMatch => keepsForm_pwrTimerMatch
  | .sleepExitStart => keepsForm_sleepExitStart
  | .sleepExitDone => keepsForm_sleepExitDone
  | .pwrgoodRise straps => keepsForm_pwrgoodRise straps
  | .pwrgoodFall => keepsForm_pwrgoodFall
  | .resetNFall => keepsForm_resetNFall
  | .resetNRise straps certs certsPq => keepsForm_resetNRise straps certs certsPq
  | .dawnServiceStart board nwt => keepsForm_dawnServiceStart board nwt
  | .hbmTrainingDone at80 at64 => keepsForm_hbmTrainingDone at80 at64
  | .fullService => keepsForm_fullService
  | .warmReset fn val => keepsForm_warmReset fn val
  | .warmResetMsg => keepsForm_warmResetMsg
  | .warmResetDone at80 at64 => keepsForm_warmResetDone at80 at64
  | .engineReset fn val => keepsForm_engineReset fn val
  | .engineResetDone n => keepsForm_engineResetDone n
  | .fwConfirm fn val => keepsForm_fwConfirm fn val
  | .errRecordClear fn i => keepsForm_errRecordClear fn i
  | .errHdrRead fn tag i => keepsForm_errHdrRead fn tag i
  | .fatalFlashWrite i flashOk => keepsForm_fatalFlashWrite i flashOk
  | .peerFailWindowEnd job peer => keepsForm_peerFailWindowEnd job peer
  | .reg64LoRead fn tag off => keepsForm_reg64LoRead fn tag off
  | .regionLockSet fn off val => keepsForm_regionLockSet fn off val
  | .registerWrite fn off val => keepsForm_registerWrite fn off val
  | .fieldFrameDiscard p frame => keepsForm_fieldFrameDiscard p frame
  | .sweepBlockRewrite sl acc => keepsForm_sweepBlockRewrite sl acc
  | .levelTransitionComplete => keepsForm_levelTransitionComplete
  | .wakeNRise => keepsForm_wakeNRise
  | .referenceClockStop => keepsForm_referenceClockStop
  | .powerLoss => keepsForm_powerLoss
  | .mainStageChecked v => keepsForm_mainStageChecked v
  | .dawnWeightsChecked v => keepsForm_dawnWeightsChecked v
  | .updateStaged ok => keepsForm_updateStaged ok
  | .fuseRowCommit ok => keepsForm_fuseRowCommit ok
  | .ideKm path sid => keepsForm_ideKm path sid
  | .mctpOtherMessageType path mtype => keepsForm_mctpOtherMessageType path mtype
  | .debugPortInstruction i => keepsForm_debugPortInstruction i
  | .managementPortLink up => keepsForm_managementPortLink up
  | .dynamicAddressAssign addr => keepsForm_dynamicAddressAssign addr
  | .entropyHealthTestFail => keepsForm_entropyHealthTestFail

section
variable {d : Die}

@[simp] theorem Die.refTime_st (d : Die) : d.refTime.st = d.st := rfl

@[simp] theorem Die.lapse_st (d : Die) : d.lapse.st = d.st := rfl

@[simp] theorem Die.issueTime_st (d : Die) : d.issueTime.st = d.st := by
  unfold Die.issueTime
  dsimp only
  split
  · simp
  · split
    · exact ite_st rfl (by simp)
    · simp
    · rfl

@[simp] theorem Die.aclkTick_st (d : Die) : d.aclkTick.st = d.st := ite_st (Die.issueTime_st _) rfl

@[simp] theorem Die.fclkTick_st (d : Die) : d.fclkTick.st = d.st :=
  ite_st ((forUpto_st (fun p e => ite_st (e.updTport_st p _) rfl) 8 _).trans (ite_st rfl rfl)) rfl

/-- The steps of a sleep entry that fall in the cycle may clear stores; the rest of an always-on cycle does not touch them. -/
theorem Die.aonTick_form (h : StoresForm d.st) : StoresForm d.aonTick.st := by
  refine Die.ite_form h (Die.seqRun_form ?_)
  exact h

theorem Die.tick_form (h : StoresForm d.st) : StoresForm d.tick.st := by
  have ha := Die.aonTick_form h
  exact Die.ite_form h (Die.ite_form (.of_st (by simp) ha) ha)
end

/-- Settles O5: the next state is that of the command at the front of the queue, or that of a reference cycle. -/
theorem everyStepKeepsMemoryForm : Obligations.EveryStepKeepsMemoryForm := by
  unfold Obligations.EveryStepKeepsMemoryForm step
  intro s t hm h
  split at h
  · exact memoryForm_act h (Die.tick_form ((memoryForm_iff s).1 hm))
  · next c rest _ => exact keepsForm c { s with pending := rest } t hm h

end Sys2Proof.Machine
end

section
/-! O15: the INT8 sum of a column. -/

namespace Sys2Proof.Machine

theorem byteAt_lt (l : List Byte) (i : Nat) : byteAt l i < 256 := (nth 0 l i).isLt

/-- The product of two integers as values is finite and counts their product. -/
theorem FVal.mul_ofInt (a b : Int) : ∃ n m, (FVal.ofInt a).mul (.ofInt b) = .fin n m 0 ∧ FVal.scaled n m 0 0 = a * b := by
  refine ⟨_, _, rfl, ?_⟩
  by_cases ha : a < 0 <;> by_cases hb : b < 0 <;>
    simp [FVal.scaled, ha, hb, abs_of_neg, abs_of_nonneg, not_lt.1]

/-- A fold that adds what each value counts adds the products of integers up. -/
theorem foldl_products {α : Type} {f : Int → FVal → Int} (hf : ∀ z n m, f z (.fin n m 0) = z + FVal.scaled n m 0 0) (a b : α → Int)
    (l : List α) : ∀ z, (l.map fun k => (FVal.ofInt (a k)).mul (.ofInt (b k))).foldl f z = z + (l.map fun k => a k * b k).sum := by
  induction l with
  | nil => exact fun z => (Int.add_zero z).symm
  | cons k l ih =>
    intro z
    obtain ⟨n, m, hv, hz⟩ := FVal.mul_ofInt (a k) (b k)
    rw [List.map_cons, List.foldl_cons, hv, hf, ih, List.map_cons, List.sum_cons, hz, Int.add_assoc]

theorem intSum_products {α : Type} (a b : α → Int) (l : List α) :
    intSum (l.map fun k => (FVal.ofInt (a k)).mul (.ofInt (b k))) = (l.map fun k => a k * b k).sum :=
  (foldl_products (fun _ _ _ => rfl) a b l 0).trans (Int.zero_add _)

/-- An INT8 code that is a byte has the byte's signed value. -/
theorem decode_int8 {c : Nat} (h : c < 256) : Fmt.decode .int8 c = .ofInt (sext 8 c) := by
  show FVal.ofInt (sext 8 (c % 256)) = _
  rw [Nat.mod_eq_of_lt h]

/-- The products of a column under INT8: each written row's activation byte times its weight byte. -/
theorem RowFlight.products_int8 (x : RowFlight) (c : Nat) (h : x.blocked = false) :
    x.products .int8 0 c = x.plane.rows.map fun k => (FVal.ofInt (sext 8 (byteAt x.act k.1))).mul (.ofInt (sext 8 (byteAt k.2 c))) := by
  unfold RowFlight.products
  rw [h, weightCodes, List.map_map]
  refine List.map_congr_left fun k _ => ?_
  show (Fmt.decode .int8 (byteAt x.act k.1)).mul (Fmt.decode .int8 (byteAt k.2 c)) = _
  rw [decode_int8 (byteAt_lt _ _), decode_int8 (byteAt_lt _ _)]

/-- Saturation to INT32 as a clamp. -/
theorem sat32_eq (z : Int) :
    sat32 z = (max (-2147483648) (min 2147483647 z), decide (z < -2147483648 ∨ 2147483647 < z)) := by
  unfold sat32
  split
  · next h => rw [min_eq_left h.le, decide_eq_true (.inr h)]; rfl
  · next h =>
    rw [min_eq_right (not_lt.1 h)]
    split
    · next h' => rw [max_eq_left h'.le, decide_eq_true (.inl h')]
    · next h' => rw [max_eq_right (not_lt.1 h'), decide_eq_false (not_or.2 ⟨h', h⟩)]

/-- Settles O15: the sum of the column's products, saturated once. -/
theorem int8ColumnSumIsExact : Obligations.Int8ColumnSumIsExact := by
  intro x c hb z
  show (if intChain .int8 x.blocked then _ else _) = _
  rw [hb, x.products_int8 c hb, intSum_products, sat32_eq]
  rfl

end Sys2Proof.Machine
end

section
/-! O18: the special cases of the lanes. -/

namespace Sys2Proof.Machine

/-- The strict order of values is asymmetric. -/
theorem FVal.lt_asymm {a b : FVal} (h : FVal.lt a b = true) : FVal.lt b a = false := by
  cases a <;> cases b
  case inf.inf a b => revert h; cases a <;> cases b <;> decide
  case inf.fin a _ _ _ => cases (show a = true from h); rfl
  case fin.inf _ _ _ b => exact (Bool.not_eq_true' b).mp h
  case fin.fin a m e b n f =>
    have h : FVal.scaled a m e (min e f) < FVal.scaled b n f (min e f) := of_decide_eq_true h
    exact decide_eq_false (by rw [min_comm f e]; exact not_lt.2 h.le)
  all_goals exact absurd h Bool.false_ne_true

theorem FVal.lt_nan_left {a b : FVal} (h : a.isNan = true) : FVal.lt a b = false := by
  cases a
  case nan => rfl
  all_goals exact absurd h Bool.false_ne_true

theorem FVal.lt_nan_right {a b : FVal} (h : b.isNan = true) : FVal.lt a b = false := by
  cases b
  case nan => cases a <;> rfl
  all_goals exact absurd h Bool.false_ne_true

/-- A zero counts no units. -/
theorem scaled_of_zero (n : Bool) (e q : Int) : FVal.scaled n 0 e q = 0 := by simp [FVal.scaled]

theorem FVal.eq_of_isZero {a : FVal} (h : a.isZero = true) : ∃ n e, a = .fin n 0 e := by
  cases a
  case fin n m e => exact ⟨n, e, by rw [(beq_iff_eq.1 h : m = 0)]⟩
  all_goals exact absurd h Bool.false_ne_true

/-- Zeros of either sign are equal. -/
theorem FVal.lt_zeros {a b : FVal} (ha : a.isZero = true) (hb : b.isZero = true) : FVal.lt a b = false := by
  obtain ⟨n, e, rfl⟩ := FVal.eq_of_isZero ha
  obtain ⟨k, f, rfl⟩ := FVal.eq_of_isZero hb
  exact decide_eq_false (by rw [scaled_of_zero, scaled_of_zero]; decide)

/-- A value below another: neither is NaN, and they are not both zero. -/
theorem FVal.numbers_of_lt {a b : FVal} (h : FVal.lt a b = true) :
    a.isNan = false ∧ b.isNan = false ∧ (a.isZero && b.isZero) = false := by
  refine ⟨Bool.eq_false_iff.2 fun n => ?_, Bool.eq_false_iff.2 fun n => ?_, Bool.eq_false_iff.2 fun z => ?_⟩
  · rw [FVal.lt_nan_left n] at h; cases h
  · rw [FVal.lt_nan_right n] at h; cases h
  · obtain ⟨ha, hb⟩ := (Bool.and_eq_true _ _).mp z
    rw [FVal.lt_zeros ha hb] at h; cases h

section
variable {a b : FVal}

theorem laneMax_of_ordered (ha : a.isNan = false) (hb : b.isNan = false) (hz : (a.isZero && b.isZero) = false) :
    laneMax a b = if FVal.lt a b then b else a := by simp [laneMax, ha, hb, hz]

theorem laneMin_of_ordered (ha : a.isNan = false) (hb : b.isNan = false) (hz : (a.isZero && b.isZero) = false) :
    laneMin a b = if FVal.lt b a then b else a := by simp [laneMin, ha, hb, hz]

theorem lanes_nan_left (h : a.isNan = true) : laneMax a b = b ∧ laneMin a b = b := ⟨if_pos h, if_pos h⟩

theorem lanes_nan_right (hb : b.isNan = true) (ha : a.isNan = false) : laneMax a b = a ∧ laneMin a b = a := by
  simp [laneMax, laneMin, ha, hb]

/-- Zeros of both signs: +0 is the maximum, −0 the minimum. -/
theorem lanes_zeros (ha : a.isZero = true) (hb : b.isZero = true) (h : a.sign ≠ b.sign) :
    laneMax a b = .zero ∧ laneMin a b = .fin true 0 0 := by
  obtain ⟨n, e, rfl⟩ := FVal.eq_of_isZero ha
  obtain ⟨k, f, rfl⟩ := FVal.eq_of_isZero hb
  change n ≠ k at h
  cases n <;> cases k
  case false.false | true.true => exact absurd rfl h
  all_goals exact ⟨rfl, rfl⟩

theorem lanes_lt (h : FVal.lt a b = true) : laneMax a b = b ∧ laneMin a b = a := by
  obtain ⟨na, nb, nz⟩ := FVal.numbers_of_lt h
  rw [laneMax_of_ordered na nb nz, laneMin_of_ordered na nb nz, h, FVal.lt_asymm h]
  exact ⟨rfl, rfl⟩

theorem lanes_gt (h : FVal.lt b a = true) : laneMax a b = a ∧ laneMin a b = b := by
  obtain ⟨nb, na, nz⟩ := FVal.numbers_of_lt h
  rw [Bool.and_comm] at nz
  rw [laneMax_of_ordered na nb nz, laneMin_of_ordered na nb nz, h, FVal.lt_asymm h]
  exact ⟨rfl, rfl⟩
end

/-- Settles O18: the two-operand cases by what the order of the values is, the others by the value's constructor. -/
theorem laneSpecialCases : Obligations.LaneSpecialCases := fun _ _ _ _ _ =>
  ⟨lanes_nan_left, lanes_nan_right, lanes_zeros, lanes_lt, lanes_gt, rfl, ⟨rfl, rfl, rfl⟩, ⟨rfl, rfl⟩, fun _ _ => ⟨rfl, rfl⟩,
    fun _ _ => rfl, fun _ _ hm => if_neg (Nat.pos_iff_ne_zero.1 hm), rfl⟩

end Sys2Proof.Machine
end

section
/-! O20: LAUNCH and STOP at the launch FIFO. -/

namespace Sys2Proof.Machine

section
variable {d : Die} {r : Run} {w : Nat}

/-- The entry that a slot-3 word of a loaded slot takes. -/
def launchEntry (stop : Bool) (r : Run) (g : Segment) (w : Nat) : LaunchEntry :=
  { stop := stop, slot := r.slot, first := bitsOf w 57 46, count := bitsOf w 45 34 + 1, entry := g.xBase + bitsOf w 33 18,
    arg := if bit w 17 then w32 (bundleExt r.bundle) else 0, dead := r.ended }

theorem Die.slot3_room {g : Segment} (stop : Bool) (hg : (d.slot r.slot).seg = some g) (h : d.iss.fifo.length < 64) :
    d.slot3 stop r w = { d with iss := { d.iss with fifo := d.iss.fifo ++ [launchEntry stop r g w] } } := by
  rw [Die.slot3, hg]
  exact if_pos h

theorem Die.slot3_full (stop : Bool) (h : 64 ≤ d.iss.fifo.length) :
    d.slot3 stop r w = { d with iss := { d.iss with
      launchDrop := if d.isConf r.slot then d.iss.launchDrop else satInc32 d.iss.launchDrop (bitsOf w 45 34 + 1) } } := by
  unfold Die.slot3 Die.launchDrop
  dsimp only
  rw [if_neg (Nat.not_lt.2 h)]
  split <;> rfl
end

/-- Settles O20: the two commands are `Die.slot3`, with an entry that starts or stops. -/
theorem launchAndStopTakeOneFifoEntry : Obligations.LaunchAndStopTakeOneFifoEntry := by
  intro s r left todo g c op ha d hg hc w ho
  have act {d1 : Die} (h : d.slot3 (decide (op = 2)) r w = d1) : Answers c s (d1.slotDone 3) := by
    rcases hc with ⟨rfl, rfl⟩ | ⟨rfl, rfl⟩
    · exact answers_of_act (exec_launch s) (h ▸ Die.slotAction_ok ha ho (fun h => absurd h (by decide)) _)
    · exact answers_of_act (exec_stop s) (h ▸ Die.slotAction_ok ha ho (fun h => absurd h (by decide)) _)
  exact ⟨fun h => act (Die.slot3_room _ hg h), fun h => act (Die.slot3_full _ h)⟩

end Sys2Proof.Machine
end

section
/-! FACTS. Operands of slot actions: what an action reads stands while it marks, counts and enters rows; and an engine's state under its
own updates. -/

namespace Sys2Proof.Machine

/-! ### One engine's state -/

section
variable (d : Die) (n : Nat) (f g : Engine → Engine)

@[simp] theorem Die.updTe_te_self : (d.updTe n f).te n = f (d.te n) := by
  unfold Die.updTe Die.te; split <;> rfl

@[simp] theorem Die.updTe_updTe : (d.updTe n f).updTe n g = d.updTe n fun e => g (f e) := by
  unfold Die.updTe; split <;> rfl

theorem Die.updTe_congr (h : f (d.te n) = g (d.te n)) : d.updTe n f = d.updTe n g := by
  unfold Die.updTe
  by_cases hn : n = 0
  · rw [Die.te, if_pos hn] at h
    rw [if_pos hn, if_pos hn, h]
  · rw [Die.te, if_neg hn] at h
    rw [if_neg hn, if_neg hn, h]

theorem Die.updTe_id (h : f (d.te n) = d.te n) : d.updTe n f = d :=
  (d.updTe_congr n f id h).trans (by unfold Die.updTe; split <;> rfl)

@[simp] theorem Die.updTe_ctx : (d.updTe n f).ctx = d.ctx := by unfold Die.updTe; split <;> rfl
@[simp] theorem Die.updTe_iss : (d.updTe n f).iss = d.iss := by unfold Die.updTe; split <;> rfl
end

section
variable (e : Engine) (k : Nat) (p q : Plane)

@[simp] theorem Engine.plane_setPlane : (e.setPlane k p).plane k = p := by
  unfold Engine.setPlane Engine.plane; split <;> rfl

@[simp] theorem Engine.setPlane_setPlane : (e.setPlane k p).setPlane k q = e.setPlane k q := by
  unfold Engine.setPlane; split <;> rfl

@[simp] theorem Engine.setPlane_plane : e.setPlane k (e.plane k) = e := by
  unfold Engine.setPlane Engine.plane; split <;> rfl

@[simp] theorem Engine.setPlane_wrows : (e.setPlane k p).wrows = e.wrows := by unfold Engine.setPlane; split <;> rfl
end

/-! ### The run of the cycle -/

section
variable (d : Die) (b c : Bool)

@[simp] theorem Die.markRefused_false : d.markRefused false = d := rfl

theorem Die.updTe_setRun (n : Nat) (f : Engine → Engine) (h : Run → Run) : (d.updTe n f).setRun h = (d.setRun h).updTe n f := by
  rw [Die.setRun_eq, Die.setRun_eq]
  unfold Die.updTe; split <;> rfl

theorem Die.updTe_markRefused (n : Nat) (f : Engine → Engine) : (d.updTe n f).markRefused b = (d.markRefused b).updTe n f := by
  rw [Die.markRefused_eq, Die.markRefused_eq, Die.updTe_setRun]

@[simp] theorem Die.setRun_te (f : Run → Run) (n : Nat) : (d.setRun f).te n = d.te n := by rw [Die.setRun_eq]; rfl
@[simp] theorem Die.markRefused_te (n : Nat) : (d.markRefused b).te n = d.te n := by rw [Die.markRefused_eq, Die.setRun_te]
end

/-! ### Operands -/

/-- In `e` a slot action finds the operands that it finds in `d`: slots, stores, cursors and the cycle are the same. -/
structure Die.SameOperands (d e : Die) : Prop where
  ctx : e.ctx = d.ctx
  st : e.st = d.st
  cursors : e.iss.cursors = d.iss.cursors
  cyc : e.iss.cyc = d.iss.cyc

namespace Die.SameOperands

theorem refl (d : Die) : d.SameOperands d := ⟨rfl, rfl, rfl, rfl⟩

variable {d e x : Die}

theorem trans (h : d.SameOperands e) (g : e.SameOperands x) : d.SameOperands x :=
  ⟨g.ctx.trans h.ctx, g.st.trans h.st, g.cursors.trans h.cursors, g.cyc.trans h.cyc⟩

theorem setRun (h : d.SameOperands e) (f : Run → Run) : d.SameOperands (e.setRun f) :=
  h.trans (by rw [Die.setRun_eq]; exact ⟨rfl, rfl, rfl, rfl⟩)

theorem markRefused (h : d.SameOperands e) (b : Bool) : d.SameOperands (e.markRefused b) := by
  rw [Die.markRefused_eq]; exact h.setRun _

theorem updTe (h : d.SameOperands e) (n : Nat) (f : Engine → Engine) : d.SameOperands (e.updTe n f) :=
  h.trans ⟨e.updTe_ctx n f, e.updTe_st n f, by rw [Die.updTe_iss], by rw [Die.updTe_iss]⟩

variable (h : d.SameOperands e) (s : Nat)
include h

theorem slot : e.slot s = d.slot s := by unfold Die.slot; rw [h.ctx]

theorem isConf : e.isConf s = d.isConf s := by unfold Die.isConf; rw [h.slot]

theorem prog (unit idx : Nat) : e.prog s unit idx = d.prog s unit idx := by unfold Die.prog; rw [h.slot, h.st]

theorem row (unit idx : Nat) : e.row s unit idx = d.row s unit idx := by
  unfold Die.row Die.cursor; rw [h.slot, h.cursors]

theorem granted (space : Nat) (a : Int) (n : Nat) : e.granted s space a n = d.granted s space a n := by
  unfold Die.granted; rw [h.slot]

theorem slotRead (space : Nat) (a : Int) (n : Nat) : e.slotRead s space a n = d.slotRead s space a n := by
  unfold Die.slotRead; rw [h.granted, h.st]

theorem takePiece (space : Nat) (shift : Int) : e.takePiece s space shift = d.takePiece s space shift := by
  funext p
  cases p with
  | run a n => unfold Die.takePiece; dsimp only; rw [h.slotRead]
  | fill bs => rfl

theorem fetchRow (space : Nat) (p : Prog) (i len : Nat) (shift : Int) :
    e.fetchRow s space p i len shift = d.fetchRow s space p i len shift := by
  unfold Die.fetchRow; rw [h.takePiece]

theorem physTally (l : Nat) : e.physTally s l = d.physTally s l := by unfold Die.physTally; rw [h.slot]

end Die.SameOperands

end Sys2Proof.Machine
end

section
/-! O12: a weight row enters a plane. -/

namespace Sys2Proof.Machine

section
variable (d : Die) (r : Run) (te w : Nat) (f : Fmt) (g : Segment)

/-- First byte and length of the statistics entry that a WLOAD names. -/
def statAddr : Nat := g.statBase te + 8192 * wlStat w
def statLen : Nat := if f.outputs = 512 then 16384 else 8192

/-- The plane that a WLOAD without block scales begins. -/
def Die.newPlane : Plane :=
  let ok := d.granted r.slot (te + 1) (statAddr te w g) (statLen f)
  { fmt := BitVec.ofNat 3 (bitsOf w 57 55), loaded := true, stats := if ok then [] else List.replicate (statLen f) 0,
    statRead := if ok then some { slot := r.slot, start := d.iss.cyc, space := te + 1, addr := statAddr te w g, len := statLen f } else none }

/-- The plane that a WLOAD writes in this cycle: a new one in the first. -/
def Die.loadedPlane : Plane := if r.firstCycle then d.newPlane r te w f g else (d.te te).plane (wlPlane w)

/-- The first cycle's access of the statistics entry is refused. -/
def Die.statRefused : Bool := r.firstCycle && !d.granted r.slot (te + 1) (statAddr te w g) (statLen f)

variable {d r te w f g} {p : Prog}

theorem Die.wloadFirst_eq (hg : (d.slot r.slot).seg = some g) (hs : p.swalk = false) :
    d.wloadFirst r te w f p =
      (d.updTe te fun e => e.setPlane (wlPlane w) (d.loadedPlane r te w f g)).markRefused (d.statRefused r te w f g) := by
  unfold Die.wloadFirst Die.loadedPlane Die.statRefused
  cases r.firstCycle with
  | true =>
    have start : d.statStart r.slot te (wlStat w) f
        { fmt := BitVec.ofNat 3 (bitsOf w 57 55), blocked := p.swalk && f.blockable, loaded := true } =
        (d.newPlane r te w f g, !d.granted r.slot (te + 1) (statAddr te w g) (statLen f)) := by
      rw [hs, Die.statStart, hg, Die.newPlane]
      show (if d.granted r.slot (te + 1) (statAddr te w g) (statLen f) then _ else _) = _
      cases d.granted r.slot (te + 1) (statAddr te w g) (statLen f) <;> rfl
    rw [if_pos rfl, if_pos rfl, start]
    rfl
  | false =>
    rw [if_neg Bool.false_ne_true, if_neg Bool.false_ne_true, Die.updTe_id _ _ _ (Engine.setPlane_plane _ _)]
    rfl

/-- The plane with one row more. -/
def Plane.withRow (pl : Plane) (bytes : List Byte) : Plane := { pl with rows := Tab.insert pl.rows pl.next bytes, next := pl.next + 1 }

/-- A written weight row is counted, unless its context is confidential. -/
def Engine.countWrow (conf : Bool) (e : Engine) : Engine := { e with wrows := if conf then e.wrows else inc64 e.wrows 1 }

/-- A walk row enters as the plane's next row. -/
theorem Die.wloadRow_eq (pl : Plane) (hs : p.swalk = false) {row : RowBytes × Bool}
    (hrow : d.fetchRow r.slot p.space p (d.row r.slot te (wlSrc w)) 256 0 = row) :
    d.wloadRow r te w f p pl = (d.markRefused row.2).updTe te fun e =>
      (e.setPlane (wlPlane w) (pl.withRow (row.1.map Prod.snd))).countWrow (d.isConf r.slot) := by
  let entered := (d.markRefused row.2).updTe te fun e => e.setPlane (wlPlane w) (pl.withRow (row.1.map Prod.snd))
  have conf : entered.isConf r.slot = d.isConf r.slot := (((Die.SameOperands.refl d).markRefused _).updTe te _).isConf r.slot
  have counted : d.wloadRow r te w f p pl =
      if entered.isConf r.slot then entered else entered.updTe te fun e => { e with wrows := inc64 e.wrows 1 } := by
    unfold Die.wloadRow; rw [hs]; subst hrow; rfl
  rw [counted, conf]
  cases d.isConf r.slot
  · exact (if_neg Bool.false_ne_true).trans (Die.updTe_updTe _ _ _ _)
  · rfl

/-- One cycle of a WLOAD without block scales, while rows are left. -/
theorem Die.wload_row (hf : wlFmt w = some f) (hg : (d.slot r.slot).seg = some g)
    (hp : (d.prog r.slot te (wlSrc w)).rows ≠ 0) (hs : (d.prog r.slot te (wlSrc w)).swalk = false)
    (hn : (d.loadedPlane r te w f g).next < 256) {row : RowBytes × Bool}
    (hrow : d.fetchRow r.slot (d.prog r.slot te (wlSrc w)).space (d.prog r.slot te (wlSrc w)) (d.row r.slot te (wlSrc w)) 256 0 = row) :
    d.wload te r w = (((d.markRefused (d.statRefused r te w f g)).markRefused row.2).updTe te fun e =>
        (e.setPlane (wlPlane w) ((d.loadedPlane r te w f g).withRow (row.1.map Prod.snd))).countWrow (d.isConf r.slot)).advance
          r.slot te (wlSrc w) 1 := by
  let first := (d.updTe te fun e => e.setPlane (wlPlane w) (d.loadedPlane r te w f g)).markRefused (d.statRefused r te w f g)
  have same : d.SameOperands first := ((Die.SameOperands.refl d).updTe te _).markRefused _
  have plane : (first.te te).plane (wlPlane w) = d.loadedPlane r te w f g := by simp [first]
  unfold Die.wload
  rw [hf]
  dsimp only
  rw [if_neg hp, Die.wloadFirst_eq hg hs, plane, if_pos hn, Die.wloadRow_eq _ hs (by rw [same.fetchRow, same.row, hrow]), same.isConf,
    Die.updTe_markRefused, Die.updTe_markRefused, Die.updTe_updTe]
  simp only [Engine.setPlane_setPlane]

/-- Past the last row of the array only the cursor moves. -/
theorem Die.wload_full (hf : wlFmt w = some f) (hp : (d.prog r.slot te (wlSrc w)).rows ≠ 0) (hc : r.firstCycle = false)
    (hn : 256 ≤ ((d.te te).plane (wlPlane w)).next) : d.wload te r w = d.advance r.slot te (wlSrc w) 1 := by
  have first : d.wloadFirst r te w f (d.prog r.slot te (wlSrc w)) = d := by
    unfold Die.wloadFirst; rw [hc, if_neg Bool.false_ne_true]
  unfold Die.wload
  rw [hf]
  dsimp only
  rw [if_neg hp, first, if_neg (Nat.not_lt.2 hn)]
end

/-! ### The statistics entry -/

section
variable {p : Plane} {q : StatRead}

theorem Plane.statDue_some (hq : p.statRead = some q) (st : Stores) (m : Nat) :
    p.statDue st m = { p with
      stats := p.stats ++ st.read q.space (q.addr + p.stats.length) (512 * min (q.len / 512) (m - q.start) - p.stats.length),
      statRead := if q.last < m then none else some q } := by
  rw [Plane.statDue, hq]

/-- The bytes read by a cycle, from the first on. -/
theorem Plane.statDue_first (hq : p.statRead = some q) (hs : p.stats = []) (st : Stores) (m : Nat) :
    (p.statDue st m).stats = st.read q.space q.addr (512 * min (q.len / 512) (m - q.start)) := by
  rw [Plane.statDue_some hq, hs]; rfl

/-- Until the last of the reads a later cycle adds the bytes of its own. -/
theorem Plane.statDue_next (hq : p.statRead = some q) (hs : p.stats = []) (st st' : Stores) {m m' : Nat} (hm : m ≤ q.last) :
    ((p.statDue st m).statDue st' m').stats =
      let k := 512 * min (q.len / 512) (m - q.start)
      st.read q.space q.addr k ++ st'.read q.space (q.addr + k) (512 * min (q.len / 512) (m' - q.start) - k) := by
  have still : (p.statDue st m).statRead = some q := by rw [Plane.statDue_some hq]; exact if_neg (Nat.not_lt.2 hm)
  rw [Plane.statDue_some still, Plane.statDue_first hq hs, Stores.length_read]
end

theorem statLen_eq (f : Fmt) :
    (if f = .int4 ∨ f = .fp4 ∨ f = .e4m3 ∨ f = .e5m2 then 16384 else 8192) = statLen f := by cases f <;> rfl

/-- Settles O12: a cycle of WLOAD by the plane that it writes, and the reads of its statistics entry. -/
theorem weightLoadWritesOneRow : Obligations.WeightLoadWritesOneRow := by
  constructor
  · intro s te e r left todo f g ha he w ho hf d hg p a n ok pl row d1 hp hs
    have act {d2 : Die} (h : d.wload te.val r w = d2) : Answers (.wload te e) s (d2.slotDone te.val) :=
      h ▸ (answers_slotAction (fun e => exec_wload te e s) ha ho fun h4 => absurd h4 (by omega)).1 he
    have len : n = statLen f := statLen_eq f
    have granted : ok = d.granted r.slot (te.val + 1) (statAddr te.val w g) (statLen f) := by
      show d.granted _ _ _ n = _; rw [len]; rfl
    have plane : pl = d.loadedPlane r te.val w f g := by
      show (if r.firstCycle then _ else _) = _
      rw [granted, len]; rfl
    have later (hc : r.firstCycle = false) : pl = (d.te te.val).plane (wlPlane w) := if_neg (by rw [hc]; exact Bool.false_ne_true)
    refine ⟨fun hn => act ?_, fun hn hc => act (Die.wload_full hf hp hc (later hc ▸ hn))⟩
    rw [Die.wload_row hf hg hp hs (plane ▸ hn) (show _ = row from rfl), ← plane, show d.statRefused r te.val w f g = (r.firstCycle && !ok) by rw [granted]; rfl]
    simp only [Engine.countWrow, Engine.setPlane_wrows]
    rfl
  · intro p q st st' m m' hq hs _ _ k k'
    exact ⟨Plane.statDue_first hq hs st m, Plane.statDue_next hq hs st st'⟩

end Sys2Proof.Machine
end

section
/-! O14: a row of an engine lands. -/

namespace Sys2Proof.Machine

/-! ### One byte of the stores after a write -/

theorem nth_eq_getD {α : Type} (x : α) : ∀ (l : List α) (i : Nat), nth x l i = l.getD i x
  | [], _ => rfl
  | _ :: _, 0 => rfl
  | _ :: l, i + 1 => nth_eq_getD x l i

theorem Mem.read_one (m : Tab Byte) (a : Nat) : Mem.read m a 1 = [Tab.read 0 m a] := rfl

theorem Mem.read_one_write {m : Tab Byte} (w : Memory.wf m = true) (bs : List Byte) (a k : Nat) :
    Mem.read (Mem.write m a bs) k 1 = if a ≤ k ∧ k < a + bs.length then [nth 0 bs (k - a)] else Mem.read m k 1 := by
  rw [Mem.read_one, Mem.read_one, Mem.read_write bs a k w, nth_eq_getD]
  split <;> rfl

section
variable (st : Stores) (space a : Nat) (bs : List Byte)

theorem Stores.write_ws0 : (st.write space a bs).ws0 = if space = 1 then Mem.write st.ws0 a bs else st.ws0 := by
  unfold Stores.write; repeat' split
  all_goals rfl

theorem Stores.write_ws1 : (st.write space a bs).ws1 = if space = 2 then Mem.write st.ws1 a bs else st.ws1 := by
  unfold Stores.write
  split
  · next h => subst h; rfl
  · split
    · rfl
    · split <;> rfl

theorem Stores.write_lb : (st.write space a bs).lb = if space = 3 then Mem.write st.lb a bs else st.lb := by
  unfold Stores.write
  split
  · next h => subst h; rfl
  · split
    · next h => subst h; rfl
    · split <;> rfl

/-- A write is of the two working stores or the line buffers. -/
theorem Stores.write_frame : st.write space a bs = { st with
    ws0 := (st.write space a bs).ws0, ws1 := (st.write space a bs).ws1, lb := (st.write space a bs).lb } := by
  unfold Stores.write; repeat' split
  all_goals rfl

/-- A write changes the bytes that it covers, of its own store. -/
theorem Stores.read_one_write (h : StoresForm st) (sp k : Nat) :
    (st.write space a bs).read sp k 1 =
      if sp = space ∧ a ≤ k ∧ k < a + bs.length ∧ 1 ≤ sp ∧ sp ≤ 3 then [nth 0 bs (k - a)] else st.read sp k 1 := by
  obtain ⟨h0, h1, h2, -⟩ := h
  unfold Stores.read
  rw [Stores.write_ws0, Stores.write_ws1, Stores.write_lb]
  rcases (show sp = 1 ∨ sp = 2 ∨ sp = 3 ∨ ¬ (1 ≤ sp ∧ sp ≤ 3) by omega) with rfl | rfl | rfl | hn
  · by_cases hs : space = 1 <;> simp [hs, @eq_comm _ 1, Mem.read_one_write h0]
  · by_cases hs : space = 2 <;> simp [hs, @eq_comm _ 2, Mem.read_one_write h1]
  · by_cases hs : space = 3 <;> simp [hs, @eq_comm _ 3, Mem.read_one_write h2]
  · rw [if_neg (by omega), if_neg (by omega), if_neg (by omega), if_neg (fun hc => hn hc.2.2.2),
      if_neg (by omega), if_neg (by omega), if_neg (by omega)]
end

/-! ### The row -/

section
variable (d : Die) (acc vals : RowFlight → Nat) (q : RowFlight)

/-- A row that has read holds what stood at its destination, or what it had read before. -/
theorem Die.readRow_eq : d.readRow acc vals q = { q with part := some (d.partialRead q (acc q) (vals q), d.sidecarRead q (acc q)) } := by
  unfold Die.readRow
  cases h : q.part with
  | none => rfl
  | some p =>
    rw [if_neg (by simp), Die.partialRead, Die.sidecarRead, h]
    exact congrArg (fun o => { q with part := o }) h

/-- When its write is due, the reads of an engine's row have been made. -/
theorem RowFlight.readBy_due {m : Nat} (h : q.entry + 512 ≤ m) :
    q.readBy d m = { q with
      plane := q.plane.statDue d.st m, part := some (d.partialRead q q.acc q.vals, d.sidecarRead q q.acc) } := by
  unfold RowFlight.readBy
  dsimp only
  rw [if_pos h, Die.readRow_eq]
  rfl

theorem Die.readRow_of_part (h : q.part ≠ none) : d.readRow acc vals q = q := if_neg h

theorem Die.readDue_te (m n : Nat) : (d.readDue m).te n = (d.te n).readDue d m := by
  unfold Die.te; split <;> rfl

theorem Engine.readDue_flight (e : Engine) (m : Nat) : (e.readDue d m).flight = e.flight.map (RowFlight.readBy d m) := rfl
end

/-- What a landing row's counters add, unless its context is confidential. -/
def Engine.landed (q : RowFlight) (o : RowOut) (e : Engine) : Engine := if q.conf then e else e.countRow o false

/-- A row without sidecar and completion tally writes its result, if it is inside the grant and ACC is not reserved, and counts. -/
theorem Die.landRow_plain (d : Die) (te : Nat) {q : RowFlight} {praw sraw : List Byte} (hs : q.sideAddr = none) (hc : q.ctally = none)
    (hp : q.part = some (praw, sraw)) :
    d.landRow te q = Die.updTe
      { d with st := if q.dstOk = true ∧ q.acc ≠ 3 then d.st.write q.dstSpace q.dstAddr (q.complete praw sraw).data else d.st }
      te (Engine.landed q (q.complete praw sraw)) := by
  have partials : d.partialRead q q.acc q.vals = praw := by unfold Die.partialRead; rw [hp]
  have sides : d.sidecarRead q q.acc = sraw := by unfold Die.sidecarRead; rw [hp]
  let o := q.complete praw sraw
  let stored : Die := if q.dstOk && decide (q.acc ≠ 3) then { d with st := d.st.write q.dstSpace q.dstAddr o.data } else d
  have written : stored = { d with st := if q.dstOk = true ∧ q.acc ≠ 3 then d.st.write q.dstSpace q.dstAddr o.data else d.st } := by
    show (if q.dstOk && decide (q.acc ≠ 3) then _ else _) = _
    by_cases h : q.dstOk = true ∧ q.acc ≠ 3
    · rw [if_pos h, if_pos (by simpa using h)]
    · rw [if_neg h, if_neg (by simpa using h)]
  have counted : d.landRow te q = if q.conf then stored else stored.updTe te fun e => e.countRow o false := by
    unfold Die.landRow; rw [hs, hc, partials, sides]; rfl
  rw [counted, ← written]
  unfold Engine.landed
  cases q.conf
  · rfl
  · exact (Die.updTe_id _ _ _ rfl).symm

/-- The oldest row of an engine, when it is due and nothing is wrong in the words that it reads. -/
theorem Die.rowComplete_due {d : Die} {te : Nat} {x : RowFlight} {rest : List RowFlight} (hf : (d.te te).flight = x :: rest)
    (hd : x.entry + 517 ≤ d.iss.cyc) :
    d.rowComplete te .ok =
      ((d.readDue (x.entry + 517)).updTe te fun e => { e with flight := e.flight.drop 1 }).landRow te (x.readBy d (x.entry + 517)) := by
  have head : ((d.readDue (x.entry + 517)).te te).flight.head? = some (x.readBy d (x.entry + 517)) := by
    rw [Die.readDue_te, Engine.readDue_flight, hf]; rfl
  have read := RowFlight.readBy_part d (x.entry + 517) x (by omega)
  unfold Die.rowComplete
  rw [hf]
  dsimp only
  rw [show engineLatency = 517 from rfl, if_pos hd, head, Option.getD_some, Die.readRow_of_part _ _ _ _ read, Die.ecc_nil]
  exact if_neg Bool.false_ne_true

/-- Before its write is due a row stays. -/
theorem Die.rowComplete_early {d : Die} {te : Nat} {x : RowFlight} {rest : List RowFlight} {e : Ecc} (hf : (d.te te).flight = x :: rest)
    (hd : d.iss.cyc < x.entry + 517) : d.rowComplete te e = d := by
  unfold Die.rowComplete
  rw [hf]
  exact if_neg (Nat.not_le.2 hd)

/-- What the oldest row gives when the statistics due by its write have been read. -/
def Die.landedRow (d : Die) (x : RowFlight) : RowOut :=
  RowFlight.complete { x with plane := x.plane.statDue d.st (x.entry + 517) } (d.partialRead x x.acc x.vals) (d.sidecarRead x x.acc)

/-- The stores when a row has landed. -/
def Die.landedStores (d : Die) (x : RowFlight) : Stores :=
  if x.dstOk = true ∧ x.acc ≠ 3 then d.st.write x.dstSpace x.dstAddr (d.landedRow x).data else d.st

/-- A row's result does not look at what the row has kept of its reads. -/
theorem RowFlight.complete_part (x : RowFlight) (p : Option (List Byte × List Byte)) (a b : List Byte) :
    RowFlight.complete { x with part := p } a b = x.complete a b := rfl

/-- Two updates of one engine, with the stores set between them. -/
theorem Die.updTe_updTe_st (d : Die) (te : Nat) (f g : Engine → Engine) (st : Stores) :
    Die.updTe { d.updTe te f with st := st } te g = Die.updTe { d with st := st } te (g ∘ f) := by
  unfold Die.updTe; by_cases h : te = 0 <;> simp [h]

/-- A row without sidecar and completion tally that is due: the reads, its write, and the engine without it. -/
theorem Die.rowComplete_lands {d : Die} {te : Nat} {x : RowFlight} {rest : List RowFlight} (hf : (d.te te).flight = x :: rest)
    (hd : x.entry + 517 ≤ d.iss.cyc) (hs : x.sideAddr = none) (hc : x.ctally = none) :
    d.rowComplete te .ok = Die.updTe { d.readDue (x.entry + 517) with st := d.landedStores x } te fun e =>
      Engine.landed x (d.landedRow x) { e with flight := e.flight.drop 1 } := by
  have row := RowFlight.readBy_due d x (m := x.entry + 517) (by omega)
  rw [Die.rowComplete_due hf hd, row]
  generalize hq : ({ x with plane := _, part := _ } : RowFlight) = q
  have out : q.complete (d.partialRead x x.acc x.vals) (d.sidecarRead x x.acc) = d.landedRow x := by
    subst hq; exact RowFlight.complete_part { x with plane := x.plane.statDue d.st (x.entry + 517) } _ _ _
  have same : q.dstOk = x.dstOk ∧ q.acc = x.acc ∧ q.dstSpace = x.dstSpace ∧ q.dstAddr = x.dstAddr ∧ q.conf = x.conf := by
    subst hq; exact ⟨rfl, rfl, rfl, rfl, rfl⟩
  obtain ⟨hok, hacc, hspace, haddr, hconf⟩ := same
  rw [Die.landRow_plain _ te (by subst hq; exact hs) (by subst hq; exact hc) (by subst hq; rfl), out, Die.updTe_st, Die.updTe_updTe_st,
    hok, hacc, hspace, haddr]
  unfold Die.landedStores Engine.landed
  rw [hconf]
  rfl

/-- An update of one engine leaves the other. -/
theorem Die.updTe_te_other (d : Die) (te : Fin 2) (f : Engine → Engine) : (d.updTe te.val f).te (1 - te.val) = d.te (1 - te.val) := by
  rcases (show te = 0 ∨ te = 1 by omega) with rfl | rfl <;> rfl

theorem Die.landedStores_read {d : Die} (h : StoresForm d.st) (x : RowFlight) (sp a : Nat) :
    (d.landedStores x).read sp a 1 =
      if x.dstOk = true ∧ x.acc ≠ 3 ∧ sp = x.dstSpace ∧ x.dstAddr ≤ a ∧ a < x.dstAddr + (d.landedRow x).data.length ∧ 1 ≤ sp ∧ sp ≤ 3 then
        [nth 0 (d.landedRow x).data (a - x.dstAddr)]
      else d.st.read sp a 1 := by
  unfold Die.landedStores
  by_cases hw : x.dstOk = true ∧ x.acc ≠ 3
  · rw [if_pos hw, Stores.read_one_write _ _ _ _ h]
    simp only [hw, true_and, ne_eq, not_false_eq_true]
  · rw [if_neg hw, if_neg fun hc => hw ⟨hc.1, hc.2.1⟩]

theorem Die.landedStores_frame (d : Die) (x : RowFlight) : d.landedStores x = { d.st with
    ws0 := (d.landedStores x).ws0, ws1 := (d.landedStores x).ws1, lb := (d.landedStores x).lb } := by
  unfold Die.landedStores
  split
  · exact Stores.write_frame _ _ _ _
  · rfl

theorem Engine.landed_frame (x : RowFlight) (o : RowOut) (e : Engine) : Engine.landed x o e = { e with
    accSat := (Engine.landed x o e).accSat, nanFinal := (Engine.landed x o e).nanFinal, eligible := (Engine.landed x o e).eligible,
    gated := (Engine.landed x o e).gated } := by
  unfold Engine.landed Engine.countRow; split <;> rfl

/-- Settles O14: the row's reads, its write and its counts, by the lemma of each. -/
theorem engineRowLandsAtItsDestination : Obligations.EngineRowLandsAtItsDestination := by
  intro s te x rest hm hf hs hc y out d0 later
  have act {d : Die} (h : s.die.rowComplete te.val .ok = d) : Answers (.streamRowComplete te .ok) s d :=
    answers_of_act (exec_streamRowComplete te .ok s) h
  refine ⟨fun h => act (Die.rowComplete_early hf h), fun h => ?_⟩
  have engine : (s.die.rowComplete te.val .ok).te te.val =
      Engine.landed x (s.die.landedRow x) { d0.te te.val with flight := later } := by
    rw [Die.rowComplete_lands hf h hs hc, Die.updTe_te_self]; rfl
  have stores : (s.die.rowComplete te.val .ok).st = s.die.landedStores x := by rw [Die.rowComplete_lands hf h hs hc, Die.updTe_st]
  refine ⟨_, act rfl, ?_, ?_, fun sp a => ?_, ?_, fun hx => ?_, ?_⟩
  · rw [Die.rowComplete_lands hf h hs hc, Die.updTe_te_other]; rfl
  · have flight : (d0.te te.val).flight = (x :: rest).map (RowFlight.readBy s.die (x.entry + 517)) := by
      rw [← hf]; exact congrArg Engine.flight (Die.readDue_te s.die (x.entry + 517) te.val)
    show ((d0.te te.val).flight.drop 1).length = rest.length
    rw [flight]; simp
  · rw [stores]; exact Die.landedStores_read ((memoryForm_iff s).1 hm) x sp a
  · rw [engine]; exact Engine.landed_frame x _ _
  · rw [engine]; exact if_pos hx
  · rw [stores, ← Die.landedStores_frame, Die.rowComplete_lands hf h hs hc]
    unfold Die.updTe
    split <;> rfl

end Sys2Proof.Machine
end

section
/-! FACTS. The parts of the issue unit that a slot action changes: its run and its cursors. -/

namespace Sys2Proof.Machine

/-- An advance moves cursors only. -/
theorem Die.advance_eq (d : Die) (s unit idx n : Nat) :
    ∃ c, d.advance s unit idx n = { d with iss := { d.iss with cursors := c } } := by
  unfold Die.advance
  split
  · dsimp only
    split
    · exact ⟨d.iss.cursors, rfl⟩
    · exact ⟨_, rfl⟩
  · exact ⟨d.iss.cursors, rfl⟩

/-- From `d` to `e` the issue unit only has changed. -/
def Die.IssueOnly (d e : Die) : Prop := e = { d with iss := e.iss }

namespace Die.IssueOnly
variable {d e x : Die}

theorem refl (d : Die) : d.IssueOnly d := rfl

theorem trans (h : d.IssueOnly e) (g : e.IssueOnly x) : d.IssueOnly x := by
  unfold Die.IssueOnly at *
  rw [g, h]

theorem markRefused (h : d.IssueOnly e) (b : Bool) : d.IssueOnly (e.markRefused b) :=
  h.trans (by rw [Die.markRefused_eq, Die.setRun_eq]; rfl)

theorem advance (h : d.IssueOnly e) (s unit idx n : Nat) : d.IssueOnly (e.advance s unit idx n) := by
  obtain ⟨c, hc⟩ := e.advance_eq s unit idx n
  exact h.trans (by rw [hc]; rfl)

theorem fln (h : d.IssueOnly e) : e.fln = d.fln := by rw [h]

end Die.IssueOnly

/-- What a slot action reads is not Flint's. -/
theorem Die.SameOperands.fln {d e : Die} (h : d.SameOperands e) (f : Flint) : d.SameOperands { e with fln := f } :=
  h.trans ⟨rfl, rfl, rfl, rfl⟩

end Sys2Proof.Machine
end

section
/-! O22: Flint. -/

namespace Sys2Proof.Machine

section
variable {d : Die} {r : Run} {w : Nat}

/-- A slot's word has 64 bits. -/
theorem slotWord_toNat (b : BitVec 512) (k : Nat) : (BitVec.ofNat 64 (slotWord b k)).toNat = slotWord b k := by
  rw [BitVec.toNat_ofNat]
  refine Nat.mod_eq_of_lt ?_
  have width : 32 + 64 * k + 63 + 1 - (32 + 64 * k) = 64 := by omega
  unfold slotWord bitsOf
  rw [width]
  exact Nat.mod_lt _ (Nat.two_pow_pos 64)

/-- Flint's array as a cycle of FWLOAD finds it: the first one empties it. -/
def Die.flintLoaded (d : Die) (r : Run) (w : Nat) : Flint :=
  if r.firstCycle then { d.fln with rows := [], next := 0, ffmt := BitVec.ofNat 2 (bitsOf w 56 55) } else d.fln

/-- One cycle of an FWLOAD that finds a row and room for it. -/
theorem Die.fwload_row (hf : (flFmt w).isSome = true) (hp : (d.prog r.slot 2 (flLoadSrc w)).rows ≠ 0)
    (hk : (d.flintLoaded r w).next < 64) {row : RowBytes}
    (hrow : d.fetchRow r.slot (d.prog r.slot 2 (flLoadSrc w)).space (d.prog r.slot 2 (flLoadSrc w))
      (d.row r.slot 2 (flLoadSrc w)) 64 0 = (row, false)) :
    d.fwload r w = Die.advance { d with fln := { d.flintLoaded r w with
      rows := Tab.insert (d.flintLoaded r w).rows (d.flintLoaded r w).next (row.map Prod.snd), next := (d.flintLoaded r w).next + 1,
      wrows := if d.isConf r.slot then d.fln.wrows else inc64 d.fln.wrows 1 } } r.slot 2 (flLoadSrc w) 1 := by
  obtain ⟨f, hf⟩ := Option.isSome_iff_exists.1 hf
  obtain ⟨d1, hd1⟩ : ∃ d1 : Die, d1 = { d with fln := d.flintLoaded r w } := ⟨_, rfl⟩
  have loaded : (if r.firstCycle then
      { d with fln := { d.fln with rows := [], next := 0, ffmt := BitVec.ofNat 2 (bitsOf w 56 55) } } else d) = d1 := by
    rw [hd1]; unfold Die.flintLoaded; split <;> rfl
  have same : d.SameOperands d1 := hd1 ▸ (Die.SameOperands.refl d).fln _
  have flint : d1.fln = d.flintLoaded r w := by rw [hd1]
  have wrows : (d.flintLoaded r w).wrows = d.fln.wrows := by unfold Die.flintLoaded; split <;> rfl
  unfold Die.fwload
  rw [hf]
  dsimp only [flintUnit]
  rw [loaded, if_neg hp, flint, if_pos (show _ < flintSize from hk), show flintSize = 64 from rfl, same.fetchRow, same.row, hrow, same.isConf, Die.markRefused_false, ← wrows, hd1]
  cases d.isConf r.slot <;> rfl

/-- Flint with one row more in flight. -/
def Flint.take (f : Flint) (x : RowFlight) (conf : Bool) : Flint :=
  { f with flight := f.flight ++ [x], rowsCnt := if conf then f.rowsCnt else inc64 f.rowsCnt 1 }

/-- The column records are Flint's, and all that their read changes besides is the mark of a refusal. -/
theorem Die.readColrec_eq (d : Die) (r : Run) (w : Nat) :
    ∃ c, Die.IssueOnly { d with fln := { d.fln with colrec := c } } (d.readColrec r w) ∧ d.SameOperands (d.readColrec r w) ∧
      (r.firstCycle = false → c = d.fln.colrec) := by
  unfold Die.readColrec
  split
  · next h =>
    refine ⟨_, (Die.IssueOnly.refl _).markRefused _, ((Die.SameOperands.refl d).fln _).markRefused _, fun hc => ?_⟩
    rw [hc] at h; exact absurd h Bool.false_ne_true
  · exact ⟨_, .refl d, .refl d, fun _ => rfl⟩

/-- One cycle of an FSTREAM that finds a row, up to the column records that its first cycle reads. -/
theorem Die.fstream_row (hf : (flFmt w).isSome = true) (hp : (d.prog r.slot 2 (flSrc w)).rows ≠ 0) {row : RowBytes × Bool}
    (hrow : d.fetchRow r.slot (d.prog r.slot 2 (flSrc w)).space (d.prog r.slot 2 (flSrc w)) (d.row r.slot 2 (flSrc w)) 64 0 = row)
    {d1 : Die} (h1 : d.readColrec r w = d1) (same : d.SameOperands d1) :
    Die.IssueOnly { d1 with fln := d1.fln.take (d1.flintRow r w (row.1.map Prod.snd)).1 (d.isConf r.slot) } (d.fstream r w) := by
  obtain ⟨f, hf⟩ := Option.isSome_iff_exists.1 hf
  have taken (x : RowFlight) (c : Bool) :
      (if c then { d1.fln with flight := d1.fln.flight ++ [x] }
        else { ({ d1.fln with flight := d1.fln.flight ++ [x] } : Flint) with rowsCnt := inc64 d1.fln.rowsCnt 1 }) = d1.fln.take x c := by
    cases c <;> rfl
  unfold Die.fstream
  rw [hf]
  dsimp only [flintUnit]
  rw [if_neg hp, h1, show flintSize = 64 from rfl, same.fetchRow, same.row, hrow, same.isConf, taken]
  have streamed := (((Die.IssueOnly.refl { d1 with fln := d1.fln.take (d1.flintRow r w (row.1.map Prod.snd)).1 (d.isConf r.slot) }).markRefused
    row.2).markRefused (d1.flintRow r w (row.1.map Prod.snd)).2).advance r.slot 2 (flSrc w) 1
  split
  · exact streamed
  · exact streamed.advance _ _ _ _

end

/-! ### A row of Flint lands -/

section
variable {d : Die} {x : RowFlight} {rest : List RowFlight} {e : Ecc}

/-- Before its write is due a row of Flint stays. -/
theorem Die.flintComplete_early (hf : d.fln.flight = x :: rest) (hd : d.iss.cyc < x.entry + 133) : d.flintComplete e = d := by
  unfold Die.flintComplete
  rw [hf]
  exact if_neg (Nat.not_le.2 hd)

/-- The oldest row of Flint, when it is due: the reads are made, it leaves, and what the check code found is dealt with. -/
theorem Die.flintComplete_due (hf : d.fln.flight = x :: rest) (hd : x.entry + 133 ≤ d.iss.cyc) :
    let d0 := d.readDue (x.entry + 133)
    let d2 := Die.ecc { d0 with fln := { d0.fln with flight := d0.fln.flight.drop 1 } } e (some x.slot) { code := 0 }
    d.flintComplete e = if eccBad e then d2 else d2.flintLand { x with
      part := some (d.partialRead x (flAcc x.word.toNat) x.ncol, d.sidecarRead x (flAcc x.word.toNat)) } := by
  unfold Die.flintComplete
  rw [hf]
  dsimp only
  rw [show flintLatency = 133 from rfl, if_pos hd, Die.readRow_eq]
  rfl

/-- A row of a reserved format lands nowhere. -/
theorem Die.flintLand_reserved (hf : flFmt x.word.toNat = none) : d.flintLand x = d := by unfold Die.flintLand; rw [hf]

/-- A row of Flint that has read its partial sums writes its result, if it is inside the grant and ACC is not reserved, and counts. -/
theorem Die.flintLand_row {f : Fmt} (hf : flFmt x.word.toNat = some f) {raw sraw : List Byte} (hp : x.part = some (raw, sraw)) :
    let acc := flAcc x.word.toNat
    let outs := (List.range x.ncol).map fun i =>
      x.flintOut f (x.col0 + i) (if acc = 0 then .zero else decodePartial f.isInt (le4 raw (4 * i)))
    d.flintLand x = { d with
      st := if x.dstOk = true ∧ acc ≠ 3 then
          d.st.write x.dstSpace x.dstAddr (packCodes (if acc = 2 then x.outFmt.bits else 32) (outs.map (·.1)))
        else d.st,
      fln := if x.conf then d.fln else { d.fln with
        accSat := satInc32 d.fln.accSat ((outs.map (·.2.1)).foldl (· + ·) 0), nan := d.fln.nan || outs.any (·.2.2) } } := by
  have partials : d.partialRead x (flAcc x.word.toNat) x.ncol = raw := by unfold Die.partialRead; rw [hp]
  unfold Die.flintLand
  rw [hf]
  dsimp only
  rw [partials]
  by_cases hw : x.dstOk = true ∧ flAcc x.word.toNat ≠ 3
  · have writes : (x.dstOk && decide (flAcc x.word.toNat ≠ 3)) = true := by simpa using hw
    rw [if_pos hw, writes]
    cases x.conf <;> rfl
  · have writes : (x.dstOk && decide (flAcc x.word.toNat ≠ 3)) = false := by simpa using hw
    rw [if_neg hw, writes]
    cases x.conf <;> rfl

/-- A column's result does not look at what the row has kept of its reads. -/
theorem RowFlight.flintOut_part (p : Option (List Byte × List Byte)) : RowFlight.flintOut { x with part := p } = x.flintOut := rfl
end

/-- Settles O22: a cycle of FWLOAD, a cycle of FSTREAM, and a row's landing. -/
theorem flintLoadsStreamsAndLands : Obligations.FlintLoadsStreamsAndLands := by
  intro s e r left todo w d
  refine ⟨?_, ?_, ?_⟩
  · intro he ha ho hm hf p row k old hp hk hg
    have act {d2 : Die} (h : d.fwload r w = d2) : Answers (.fwload e) s (d2.slotDone 4) :=
      h ▸ (answers_slotAction (fun e => exec_fwload e s) ha ho fun _ => hm).1 he
    have loaded : d.flintLoaded r w = { d.fln with
        rows := old, next := k, ffmt := if r.firstCycle then BitVec.ofNat 2 (bitsOf w 56 55) else d.fln.ffmt } := by
      unfold Die.flintLoaded; dsimp only [old, k]; cases r.firstCycle <;> rfl
    refine act ((Die.fwload_row hf hp (by rw [loaded]; exact hk) (Prod.ext rfl hg)).trans ?_)
    rw [loaded]
  · intro he ha ho hm hf p q row hp
    obtain ⟨c, colrec, same, later⟩ := d.readColrec_eq r w
    have taken := Die.fstream_row hf hp (row := row) rfl rfl same
    have flint : (d.readColrec r w).fln = { d.fln with colrec := c } := colrec.fln
    refine ⟨d.fstream r w, ((d.readColrec r w).flintRow r w (row.1.map Prod.snd)).1,
      (answers_slotAction (fun e => exec_fstream e s) ha ho fun _ => hm).1 he, same.cyc, rfl, slotWord_toNat _ _, rfl, ?_, ?_, ?_, ?_, ?_, ?_⟩
    · show (d.readColrec r w).fln.rows = d.fln.rows
      rw [flint]
    · show ((d.readColrec r w).prog r.slot 2 (flDst w)).space = _
      rw [same.prog]
    · show (((d.readColrec r w).prog r.slot 2 (flDst w)).rowAddr ((d.readColrec r w).row r.slot 2 (flDst w))).toNat = _
      rw [same.prog, same.row]
    · rw [taken.fln, flint]; rfl
    · intro hc; rw [taken.fln, flint, later hc]; rfl
    · rw [taken, colrec]
  · intro x rest hx d0 d1 d2 acc raw
    have act {d : Die} (h : s.die.flintComplete e = d) : Answers (.flintRowComplete e) s d :=
      answers_of_act (exec_flintRowComplete e s) h
    refine ⟨fun h => act (Die.flintComplete_early hx h), fun h he => act ((Die.flintComplete_due hx h).trans (if_pos he)),
      fun h he hf => act ?_, ?_⟩
    · rw [Die.flintComplete_due hx h, he]
      exact (if_neg Bool.false_ne_true).trans (Die.flintLand_reserved hf)
    · intro f h he hf out row
      refine act ?_
      rw [Die.flintComplete_due hx h, he]
      refine (if_neg Bool.false_ne_true).trans ?_
      generalize hq : ({ x with part := _ } : RowFlight) = q
      have same : q.word = x.word ∧ q.ncol = x.ncol ∧ q.col0 = x.col0 ∧ q.dstOk = x.dstOk ∧ q.dstSpace = x.dstSpace ∧
          q.dstAddr = x.dstAddr ∧ q.conf = x.conf ∧ q.outFmt = x.outFmt := by subst hq; exact ⟨rfl, rfl, rfl, rfl, rfl, rfl, rfl, rfl⟩
      obtain ⟨hword, hncol, hcol, hok, hspace, haddr, hconf, hfmt⟩ := same
      have results : q.flintOut = x.flintOut := by subst hq; exact RowFlight.flintOut_part _
      rw [Die.flintLand_row (f := f) (by rw [hword]; exact hf) (raw := raw) (by subst hq; rfl)]
      simp only [hword, hncol, hcol, hok, hspace, haddr, hconf, hfmt, results, List.map_map, List.any_map]
      rfl

end Sys2Proof.Machine
end

section
/-! O23: Mica takes its elements in. -/

namespace Sys2Proof.Machine

/-- Mica moves cursors only. -/
theorem Die.micaAdvance_eq (d : Die) (s op w : Nat) :
    ∃ c, d.micaAdvance s op w = { d with iss := { d.iss with cursors := c } } := by
  unfold Die.micaAdvance
  induction ([mcSrc w] ++ (if op = 3 then [mcSrc2 w] else []) ++ [mcDst w]).eraseDups generalizing d with
  | nil => exact ⟨d.iss.cursors, rfl⟩
  | cons i l ih =>
    obtain ⟨c, hc⟩ := d.advance_eq s micaUnit i (mcRows (d.prog s micaUnit i) op)
    obtain ⟨c', hc'⟩ := ih (d.advance s micaUnit i (mcRows (d.prog s micaUnit i) op))
    exact ⟨c', by rw [List.foldl_cons, hc', hc]⟩

/-- The second source's elements of an input cycle: CMUL has one. -/
def Die.micaSecond (d : Die) (s op w : Nat) : List Nat × Bool := if op = 3 then d.micaTake s (mcSrc2 w) op else ([], false)

/-- Mica when an input cycle's elements `a` and `b` and destination rows `rows` have been taken in. -/
def Die.micaTaken (d : Die) (s op w : Nat) (a b : List Nat) (rows : List (Nat × Nat × Nat × Bool)) : Mica :=
  let cnt := if d.isConf s then d.mca.inputCnt else inc64 d.mca.inputCnt 1
  if op = 3 then { d.mca with inputCnt := cnt, jobs := d.mca.jobs ++ [d.micaJob s op w d.iss.cyc a b rows] }
  else if 2 ^ mcLog w / 16 * mcComps op ≤ (d.mca.input ++ a).length then
    { d.mca with
      inputCnt := cnt, input := [], inRows := [],
      jobs := d.mca.jobs ++ [d.micaJob s op w (d.iss.cyc + 1 - 2 ^ mcLog w / 16) (d.mca.input ++ a) [] (d.mca.inRows ++ rows)] }
  else { d.mca with inputCnt := cnt, input := d.mca.input ++ a, inRows := d.mca.inRows ++ rows, inSlot := s }

theorem Die.micaTaken_inputCnt (d : Die) (s op w : Nat) (a b : List Nat) (rows : List (Nat × Nat × Nat × Bool)) :
    (d.micaTaken s op w a b rows).inputCnt = if d.isConf s then d.mca.inputCnt else inc64 d.mca.inputCnt 1 := by
  unfold Die.micaTaken
  simp only [apply_ite Mica.inputCnt, ite_self]

section
variable {d : Die} {r : Run} {op w : Nat}

theorem Die.micaCycle_illegal (hl : mcLegal op (mcLog w) = false) : d.micaCycle r op w = d := by
  unfold Die.micaCycle; rw [hl]; rfl

theorem Die.micaCycle_empty (hl : mcLegal op (mcLog w) = true)
    (he : (d.prog r.slot 3 (mcSrc w)).rows = 0 ∨ (op = 3 ∧ (d.prog r.slot 3 (mcSrc2 w)).rows = 0)) :
    d.micaCycle r op w = (d.markEmpty r.slot 5).micaAdvance r.slot op w := by
  unfold Die.micaCycle
  rw [hl]
  exact (if_neg Bool.false_ne_true).trans (if_pos he)

/-- An input cycle none of whose accesses is refused. -/
theorem Die.micaCycle_takes (hl : mcLegal op (mcLog w) = true)
    (he : ¬ ((d.prog r.slot 3 (mcSrc w)).rows = 0 ∨ (op = 3 ∧ (d.prog r.slot 3 (mcSrc2 w)).rows = 0)))
    {a b : List Nat} (ha : d.micaTake r.slot (mcSrc w) op = (a, false)) (hb : d.micaSecond r.slot op w = (b, false))
    (hr : ∀ x ∈ d.micaRows r.slot (mcDst w) op, x.2.2.2 = true) :
    d.micaCycle r op w = Die.micaAdvance { d with mca := d.micaTaken r.slot op w a b (d.micaRows r.slot (mcDst w) op) } r.slot op w := by
  have counted : (if d.isConf r.slot then d.mca else { d.mca with inputCnt := inc64 d.mca.inputCnt 1 }) =
      { d.mca with inputCnt := if d.isConf r.slot then d.mca.inputCnt else inc64 d.mca.inputCnt 1 } := by
    cases d.isConf r.slot <;> rfl
  have granted : ((d.micaRows r.slot (mcDst w) op).any fun x => !x.2.2.2) = false := by simpa using hr
  unfold Die.micaSecond at hb
  unfold Die.micaCycle
  rw [hl]
  refine (if_neg Bool.false_ne_true).trans ((if_neg he).trans ?_)
  dsimp only
  rw [ha, hb, granted, Die.markRefused_false, Die.markRefused_false, Die.markRefused_false, counted]
  rfl
end

/-- The four operations are one, with the code of each. -/
theorem exec_mica {c : Ecc → Instr} {op : Nat} (h : (c, op) ∈ [(Instr.fft, 1), (Instr.ifft, 2), (Instr.cmul, 3), (Instr.wht, 4)])
    (e : Ecc) (s : State) : exec (c e) s = s.act fun d => d.slotAction 4 op true e fun r w d => d.micaCycle r op w := by
  simp only [List.mem_cons, Prod.mk.injEq, List.not_mem_nil, or_false] at h
  rcases h with ⟨rfl, rfl⟩ | ⟨rfl, rfl⟩ | ⟨rfl, rfl⟩ | ⟨rfl, rfl⟩
  · exact exec_fft e s
  · exact exec_ifft e s
  · exact exec_cmul e s
  · exact exec_wht e s

/-- Settles O23: an operation of Mica by the elements that its input cycle takes in. -/
theorem micaTakesSixteenElementsACycle : Obligations.MicaTakesSixteenElementsACycle := by
  intro s e c op r left todo hacts he hc w ho hm d n legal empty a b full
  have act {d1 : Die} (h : d.micaCycle r op w = d1) : Answers (c e) s (d1.slotDone 4) :=
    h ▸ (answers_slotAction (fun e => exec_mica hc e s) hacts ho fun _ => hm).1 he
  refine ⟨fun hl => act (Die.micaCycle_illegal (decide_eq_false hl)), fun hl hemp => act ?_, fun hl hemp ha hb hr => ?_⟩
  · rw [Die.micaCycle_empty (decide_eq_true hl) hemp]
    unfold Die.markEmpty
    cases d.isConf r.slot <;> rfl
  · have second : d.micaSecond r.slot op w = (if op = 3 then b.1 else [], false) := by
      unfold Die.micaSecond
      by_cases h3 : op = 3
      · rw [if_pos h3, if_pos h3, h3]; exact Prod.ext rfl (hb h3)
      · rw [if_neg h3, if_neg h3]
    obtain ⟨cs, hcs⟩ := Die.micaAdvance_eq
      { d with mca := d.micaTaken r.slot op w a.1 (if op = 3 then b.1 else []) (d.micaRows r.slot (mcDst w) op) } r.slot op w
    refine ⟨_, act ((Die.micaCycle_takes (decide_eq_true hl) hemp (Prod.ext rfl ha) second hr).trans hcs), Die.micaTaken_inputCnt _ _ _ _ _ _ _,
      ?_, ?_, ?_, rfl⟩
    all_goals dsimp only; unfold Die.micaTaken
    · intro h3
      subst h3
      exact ⟨_, rfl, rfl, rfl, rfl, rfl, rfl⟩
    · intro h3 hf
      rw [if_neg h3, if_pos (show 2 ^ mcLog w / 16 * mcComps op ≤ (d.mca.input ++ a.1).length from hf)]
      exact ⟨_, rfl, rfl, rfl, rfl, congrArg (fun l => d.iss.cyc + 1 - 2 ^ n / 16 + l - 1) (if_neg h3), rfl, rfl, rfl⟩
    · intro h3 hf
      rw [if_neg h3, if_neg (show ¬ 2 ^ mcLog w / 16 * mcComps op ≤ (d.mca.input ++ a.1).length from hf)]
      exact ⟨rfl, rfl, rfl⟩

end Sys2Proof.Machine
end

section
/-! FACTS. The run of the cycle stands while results land and the check code's corrections are counted. -/

namespace Sys2Proof.Machine

section
variable (d : Die)

theorem Die.landRow_run (te : Nat) (q : RowFlight) : (d.landRow te q).iss.run = d.iss.run := by
  unfold Die.landRow
  dsimp only
  repeat' split
  all_goals simp

theorem Die.rowComplete_run (te : Nat) : (d.rowComplete te .ok).iss.run = d.iss.run := by
  unfold Die.rowComplete
  split
  · rfl
  · split
    · dsimp only
      rw [Die.ecc_nil, if_neg (show ¬ eccBad .ok = true from Bool.false_ne_true), Die.landRow_run, Die.updTe_iss]
      rfl
    · rfl

theorem Die.flintLand_run (x : RowFlight) : (d.flintLand x).iss.run = d.iss.run := by
  unfold Die.flintLand
  dsimp only
  repeat' split
  all_goals rfl

theorem Die.flintComplete_run : (d.flintComplete .ok).iss.run = d.iss.run := by
  unfold Die.flintComplete
  split
  · rfl
  · split
    · dsimp only
      rw [Die.ecc_nil, if_neg (show ¬ eccBad .ok = true from Bool.false_ne_true), Die.flintLand_run]
      rfl
    · rfl

theorem Die.vectorLand_run : (d.vectorLand .ok).iss.run = d.iss.run := by
  unfold Die.vectorLand
  dsimp only
  split <;> rfl

theorem Die.micaLand_run : (d.micaLand .ok).iss.run = d.iss.run := by
  unfold Die.micaLand
  split <;> rfl

theorem Die.landPost_run (bad : List Nat) (j : PostJob) : (Die.landPost bad d j).iss.run = d.iss.run := by
  unfold Die.landPost
  dsimp only
  repeat' split
  all_goals rfl

theorem Die.postLand_run : (d.postLand .ok).iss.run = d.iss.run := by
  rw [Die.postLand_eq]
  split
  · split
    · exact foldl_pred (P := fun x : Die => x.iss.run = d.iss.run) rfl fun x j _ hx => (x.landPost_run [] j).trans hx
    · rfl
  · rfl

theorem Die.landFirst_run : d.landFirst.iss.run = d.iss.run := by
  unfold Die.landFirst
  dsimp only
  repeat' split
  · rfl
  · exact d.rowComplete_run _
  · exact d.flintComplete_run
  · exact d.vectorLand_run
  · exact d.micaLand_run
  · exact d.postLand_run
  · rfl

theorem Die.tallyReadable_run : d.tallyReadable.iss.run = d.iss.run :=
  foldl_pred (P := fun x : Die => x.iss.run = d.iss.run) rfl fun x t _ hx => (by rw [Die.tallyAdd_eq] : (x.tallyAdd t.2 1).iss.run = _).trans hx

theorem Die.landReadable_run : d.landReadable.iss.run = d.iss.run :=
  (Die.tallyReadable_run _).trans (forUpto_keeps (fun x : Die => x.iss.run) (fun _ e => e.landFirst_run) _ d)

/-- Corrected words leave the issue unit alone. -/
theorem Die.ecc_iss {e : Ecc} (he : eccBad e = false) (sl : Option Nat) (rd : Reader) : (d.ecc e sl rd).iss = d.iss := by
  induction e generalizing d with
  | nil => rfl
  | cons w e ih =>
    obtain ⟨hw, he⟩ := Bool.or_eq_false_iff.1 (he : (w.uncorr || eccBad e) = false)
    rw [Die.ecc_cons, ih _ he, if_neg (show ¬ w.uncorr = true by rw [show w.uncorr = false from hw]; exact Bool.false_ne_true)]
    exact Die.eccCorr_iss _ _ _ _ _
end

/-- A slot action finds the run of its cycle. -/
theorem Checked_run {s : State} {e : Ecc} (he : eccBad e = false) (r : Run) : (Checked s e r).iss.run = s.die.iss.run := by
  unfold Checked
  rw [Die.ecc_iss _ he, Die.landReadable_run]

end Sys2Proof.Machine
end

section
/-! O13: STREAM takes rows into the engine. -/

namespace Sys2Proof.Machine

/-! ### What a cycle of a STREAM leaves alone -/

/-- From `d` to `e` the issue unit and engine `te` only have changed. -/
def Die.EngineOnly (te : Fin 2) (d e : Die) : Prop :=
  e.te (1 - te.val) = d.te (1 - te.val) ∧ e = { d with iss := e.iss, te0 := e.te0, te1 := e.te1 }

namespace Die.EngineOnly
variable {te : Fin 2} {d e x : Die}

theorem refl (d : Die) : d.EngineOnly te d := ⟨rfl, rfl⟩

theorem trans (h : d.EngineOnly te e) (g : e.EngineOnly te x) : d.EngineOnly te x :=
  ⟨g.1.trans h.1, g.2.trans (by rw [h.2])⟩

theorem iss (h : d.EngineOnly te e) (i : Issue) : d.EngineOnly te { e with iss := i } := h.trans ⟨rfl, rfl⟩

theorem setRun (h : d.EngineOnly te e) (f : Run → Run) : d.EngineOnly te (e.setRun f) := by
  rw [Die.setRun_eq]; exact h.iss _

theorem markRefused (h : d.EngineOnly te e) (b : Bool) : d.EngineOnly te (e.markRefused b) := by
  rw [Die.markRefused_eq]; exact h.setRun _

theorem advance (h : d.EngineOnly te e) (s unit idx n : Nat) : d.EngineOnly te (e.advance s unit idx n) := by
  obtain ⟨c, hc⟩ := e.advance_eq s unit idx n
  rw [hc]; exact h.iss _

theorem advanceDst (h : d.EngineOnly te e) (s unit w n : Nat) : d.EngineOnly te (e.advanceDst s unit w n) := by
  unfold Die.advanceDst; split
  · exact h
  · exact h.advance _ _ _ _

theorem updTe (h : d.EngineOnly te e) (f : Engine → Engine) : d.EngineOnly te (e.updTe te.val f) :=
  h.trans ⟨e.updTe_te_other te f, by unfold Die.updTe; split <;> rfl⟩

end Die.EngineOnly

/-! ### Counters, the run and cursors -/

section
variable (d : Die) (s te : Nat)

theorem Die.countUnless_updTe (f : Engine → Engine) :
    (d.countUnless s fun d => d.updTe te f) = d.updTe te fun e => if d.isConf s then e else f e := by
  unfold Die.countUnless
  cases d.isConf s
  · rfl
  · exact (d.updTe_id _ _ rfl).symm

/-- A row in the count of rows, unless the context is confidential. -/
def Engine.countRowIn (conf : Bool) (e : Engine) : Engine := { e with rows := if conf then e.rows else inc64 e.rows 1 }

theorem Die.countEntry_eq : d.countEntry s te = d.updTe te (Engine.countRowIn (d.isConf s)) := by
  unfold Die.countEntry
  rw [Die.countUnless_updTe]
  exact d.updTe_congr _ _ _ (by unfold Engine.countRowIn; cases d.isConf s <;> rfl)

@[simp] theorem Die.advance_te (unit idx n k : Nat) : (d.advance s unit idx n).te k = d.te k := by
  obtain ⟨c, hc⟩ := d.advance_eq s unit idx n; rw [hc]; rfl

@[simp] theorem Die.advanceDst_te (w n k : Nat) : (d.advanceDst s te w n).te k = d.te k := by
  unfold Die.advanceDst; split
  · rfl
  · exact Die.advance_te _ _ _ _ _ _

@[simp] theorem Die.advance_run (unit idx n : Nat) : (d.advance s unit idx n).iss.run = d.iss.run := by
  obtain ⟨c, hc⟩ := d.advance_eq s unit idx n; rw [hc]

@[simp] theorem Die.setRun_run (f : Run → Run) : (d.setRun f).iss.run = d.iss.run.map f := by rw [Die.setRun_eq]

@[simp] theorem Die.markRefused_run (b : Bool) : (d.markRefused b).iss.run = d.iss.run.map (Run.orRefused b) := by
  rw [Die.markRefused_eq, Die.setRun_run]
end

/-! ### A row enters -/

def Run.entered (te : Nat) (r : Run) : Bool := if te = 0 then r.entered0 else r.entered1
def Run.markEntered (te : Nat) (r : Run) : Run := if te = 0 then { r with entered0 := true } else { r with entered1 := true }

theorem Run.entered_markEntered (te : Nat) (r : Run) : (r.markEntered te).entered te = true := by
  unfold Run.markEntered Run.entered; split <;> rfl

section
variable (d : Die) (r : Run) (te w : Nat) (f : Fmt) (force : Bool) (act : List Byte) (scales : List Nat) (blocked : Bool) (drow : Nat)

theorem Die.enterRow_eq : d.enterRow r te w f force act scales blocked drow =
    Die.setRun (Die.markRefused (d.updTe te fun e => Engine.countRowIn (d.isConf r.slot)
        { e with flight := e.flight ++ [(d.makeRow r te w f force act scales blocked drow).1] })
      (d.makeRow r te w f force act scales blocked drow).2) (Run.markEntered te) := by
  have counted (x : RowFlight × Bool) :
      ((d.updTe te fun e => { e with flight := e.flight ++ [x.1] }).markRefused x.2).countEntry r.slot te =
        (d.updTe te fun e => Engine.countRowIn (d.isConf r.slot) { e with flight := e.flight ++ [x.1] }).markRefused x.2 := by
    rw [Die.countEntry_eq, (((Die.SameOperands.refl d).updTe te _).markRefused x.2).isConf, ← Die.updTe_markRefused, Die.updTe_updTe]
  exact congrArg (Die.setRun · (Run.markEntered te)) (counted _)

theorem Die.enterRow_te : (d.enterRow r te w f force act scales blocked drow).te te =
    Engine.countRowIn (d.isConf r.slot)
      { d.te te with flight := (d.te te).flight ++ [(d.makeRow r te w f force act scales blocked drow).1] } := by
  rw [Die.enterRow_eq, Die.setRun_te, Die.markRefused_te, Die.updTe_te_self]

theorem Die.enterRow_run : (d.enterRow r te w f force act scales blocked drow).iss.run =
    d.iss.run.map fun q => (q.orRefused (d.makeRow r te w f force act scales blocked drow).2).markEntered te := by
  rw [Die.enterRow_eq, Die.setRun_run, Die.markRefused_run, Die.updTe_iss, Option.map_map]; rfl

/-- The row that enters is made of the operands and of the engine's planes. -/
theorem Die.makeRow_same {d e : Die} (h : d.SameOperands e) (ht : e.te te = d.te te) :
    e.makeRow r te w f force act scales blocked drow = d.makeRow r te w f force act scales blocked drow := by
  have stats : e.readStats r.slot te 0 f = d.readStats r.slot te 0 f := by
    unfold Die.readStats; rw [h.slot]; split
    · exact h.slotRead _ _ _ _
    · rfl
  unfold Die.makeRow
  simp only [h.prog, h.granted, h.isConf, h.cyc, h.slotRead, ht, stats]
end

theorem Die.enterRow_only (d : Die) (r : Run) (te : Fin 2) (w : Nat) (f : Fmt) (force : Bool) (act : List Byte) (scales : List Nat)
    (blocked : Bool) (drow : Nat) : d.EngineOnly te (d.enterRow r te.val w f force act scales blocked drow) := by
  rw [Die.enterRow_eq]
  exact (((Die.EngineOnly.refl d).updTe _).markRefused _).setRun _

/-- From `d` to `e` row `x` of context `s` has entered engine `te`, and nothing but that engine and the issue unit has changed. -/
structure Die.Enters (te : Fin 2) (s : Nat) (x : RowFlight) (d e : Die) : Prop where
  flight : (e.te te.val).flight = (d.te te.val).flight ++ [x]
  rows : (e.te te.val).rows = if d.isConf s then (d.te te.val).rows else inc64 (d.te te.val).rows 1
  run : ∃ q, e.iss.run = some q ∧ q.entered te.val = true
  only : d.EngineOnly te e

section
variable {d e : Die} {s : Nat} {te : Fin 2} {x : RowFlight}

theorem Die.Enters.advance (h : d.Enters te s x e) (c unit idx n : Nat) : d.Enters te s x (e.advance c unit idx n) where
  flight := by rw [Die.advance_te]; exact h.flight
  rows := by rw [Die.advance_te]; exact h.rows
  run := by rw [Die.advance_run]; exact h.run
  only := h.only.advance _ _ _ _

theorem Die.Enters.advanceDst (h : d.Enters te s x e) (c unit w n : Nat) : d.Enters te s x (e.advanceDst c unit w n) := by
  unfold Die.advanceDst; split
  · exact h
  · exact h.advance _ _ _ _

theorem Die.Enters.setRun (h : d.Enters te s x e) {f : Run → Run} (hf : ∀ q, (f q).entered te.val = q.entered te.val) :
    d.Enters te s x (e.setRun f) where
  flight := by rw [Die.setRun_te]; exact h.flight
  rows := by rw [Die.setRun_te]; exact h.rows
  run := by
    obtain ⟨q, hq, he⟩ := h.run
    exact ⟨f q, by rw [Die.setRun_run, hq]; rfl, (hf q).trans he⟩
  only := h.only.setRun _

theorem Die.Enters.updTe (h : d.Enters te s x e) {f : Engine → Engine} (hf : ∀ g, (f g).flight = g.flight) (hr : ∀ g, (f g).rows = g.rows) :
    d.Enters te s x (e.updTe te.val f) where
  flight := by rw [Die.updTe_te_self, hf]; exact h.flight
  rows := by rw [Die.updTe_te_self, hr]; exact h.rows
  run := by rw [Die.updTe_iss]; exact h.run
  only := h.only.updTe _

/-- A row enters a die in which accesses of its cycle have been marked. -/
theorem Die.enterRow_enters (hs : d.SameOperands e) (ht : ∀ k, e.te k = d.te k) (ho : d.EngineOnly te e) (hr : e.iss.run.isSome) (r : Run)
    (w : Nat) (f : Fmt) (force : Bool) (act : List Byte) (scales : List Nat) (blocked : Bool) (drow : Nat) :
    d.Enters te r.slot (d.makeRow r te.val w f force act scales blocked drow).1
      (e.enterRow r te.val w f force act scales blocked drow) where
  flight := by rw [Die.enterRow_te, Die.makeRow_same _ _ _ _ _ _ _ _ _ hs (ht _), ht]; rfl
  rows := by rw [Die.enterRow_te, ht, hs.isConf]; rfl
  run := by
    obtain ⟨q, hq⟩ := Option.isSome_iff_exists.1 hr
    rw [Die.enterRow_run, hq]
    exact ⟨_, rfl, Run.entered_markEntered _ _⟩
  only := ho.trans (e.enterRow_only _ _ _ _ _ _ _ _ _)
end

/-! ### A cycle of a STREAM -/

section
variable (d : Die) (te : Fin 2) (r : Run) (w : Nat) (f : Fmt) (force : Bool) (p : Prog)

/-- The walk row that becomes token 0, and the one that becomes token 1 (R301). -/
def Die.token0 : RowBytes × Bool := d.fetchRow r.slot p.space p (d.row r.slot te.val (stSrc w)) f.tokenBytes 0
def Die.token1 : RowBytes × Bool :=
  if f.tokens = 2 ∧ ¬ (p.rows ≤ d.row r.slot te.val (stSrc w) + 1 ∧ p.rows % 2 = 1) then
    d.fetchRow r.slot p.space p ((d.row r.slot te.val (stSrc w) + 1) % p.rows) f.tokenBytes 0
  else (List.replicate f.tokenBytes (none, 0), false)

/-- The scale entries of a cycle's tokens. -/
def Die.tokenScales : List Nat × Option Skew × Bool :=
  d.actScales r.slot p f (if f.tokens = 2 then [(d.token0 te r w f p).1, (d.token1 te r w f p).1] else [(d.token0 te r w f p).1])

/-- The die in which the accesses of a cycle's tokens have been marked. -/
def Die.tokensMarked : Die :=
  ((d.markRefused (d.token0 te r w f p).2).markRefused (d.token1 te r w f p).2).markRefused (d.tokenScales te r w f p).2.2

/-- The row that a cycle's tokens make. -/
def Die.tokenRow : RowFlight :=
  (d.makeRow r te.val w f force (placeTokens f ((d.token0 te r w f p).1.map Prod.snd) ((d.token1 te r w f p).1.map Prod.snd))
    (d.tokenScales te r w f p).1 (p.swalk && f.blockable) (d.row r.slot te.val (stDst w))).1

theorem Die.streamRow_eq : d.streamRow r te.val w f force p =
    match (d.tokenScales te r w f p).2.1 with
    | some skew => (d.tokensMarked te r w f p).scaleSkew r.slot (25 + te.val) r.pc skew
    | none => (((d.tokensMarked te r w f p).enterRow r te.val w f force
          (placeTokens f ((d.token0 te r w f p).1.map Prod.snd) ((d.token1 te r w f p).1.map Prod.snd)) (d.tokenScales te r w f p).1
          (p.swalk && f.blockable) (d.row r.slot te.val (stDst w))).advance r.slot te.val (stSrc w)
        (if decide (f.tokens = 2) && !decide (p.rows ≤ d.row r.slot te.val (stSrc w) + 1 ∧ p.rows % 2 = 1) then 2 else 1)).advanceDst
          r.slot te.val w 1 := by
  have second (a b : RowBytes × Bool) :
      (if decide (f.tokens = 2) && !decide (p.rows ≤ d.row r.slot te.val (stSrc w) + 1 ∧ p.rows % 2 = 1) then a else b) =
        if f.tokens = 2 ∧ ¬ (p.rows ≤ d.row r.slot te.val (stSrc w) + 1 ∧ p.rows % 2 = 1) then a else b :=
    if_congr (by simp only [Bool.and_eq_true, Bool.not_eq_true', decide_eq_true_eq, decide_eq_false_iff_not]) rfl rfl
  have scales (a b : List RowBytes) : (if decide (f.tokens = 2) then a else b) = if f.tokens = 2 then a else b :=
    if_congr (by simp only [decide_eq_true_eq]) rfl rfl
  have marked : d.SameOperands (d.tokensMarked te r w f p) :=
    (((Die.SameOperands.refl d).markRefused _).markRefused _).markRefused _
  rw [← marked.row]
  unfold Die.streamRow Die.tokensMarked Die.tokenScales Die.token1
  rw [← second, ← scales]
  rfl

/-- One cycle of a STREAM whose scale entries match. -/
theorem Die.streamRow_enters (hr : d.iss.run.isSome) (hs : (d.tokenScales te r w f p).2.1 = none) :
    d.Enters te r.slot (d.tokenRow te r w f force p) (d.streamRow r te.val w f force p) := by
  rw [Die.streamRow_eq, hs]
  have marked : d.SameOperands (d.tokensMarked te r w f p) :=
    (((Die.SameOperands.refl d).markRefused _).markRefused _).markRefused _
  refine Die.Enters.advanceDst (Die.Enters.advance (Die.enterRow_enters marked (fun k => ?_) ?_ ?_ _ _ _ _ _ _ _ _) _ _ _ _) _ _ _ _
  · unfold Die.tokensMarked; simp
  · exact (((Die.EngineOnly.refl d).markRefused _).markRefused _).markRefused _
  · unfold Die.tokensMarked; simpa using hr
end

/-! ### INT16's two presentations -/

def Run.second (te : Nat) (r : Run) : Bool := if te = 0 then r.second0 else r.second1
def Run.markSecond (te : Nat) (b : Bool) (r : Run) : Run := if te = 0 then { r with second0 := b } else { r with second1 := b }

theorem Run.second_markSecond (te : Nat) (b : Bool) (r : Run) : (r.markSecond te b).second te = b := by
  unfold Run.markSecond Run.second; split <;> rfl

theorem Run.entered_markSecond (te : Nat) (b : Bool) (r : Run) : (r.markSecond te b).entered te = r.entered te := by
  unfold Run.markSecond Run.entered; split <;> rfl

section
variable (d : Die) (te : Fin 2) (r : Run) (w : Nat) (force : Bool) (p : Prog)

/-- The first presentation keeps the walk row. -/
theorem Die.streamInt16_keeps (hr : d.iss.run.isSome) (h : r.second te.val = false) :
    (∃ a, (d.streamInt16 r te.val w force p).iss.run = some a ∧ a.second te.val = true) ∧
      (d.streamInt16 r te.val w force p).te te.val = Engine.countRowIn (d.isConf r.slot) { d.te te.val with
        pend16 := (d.fetchRow r.slot p.space p (d.row r.slot te.val (stSrc w)) 256 0).1.map Prod.snd } ∧
      d.EngineOnly te (d.streamInt16 r te.val w force p) := by
  obtain ⟨q, hq⟩ := Option.isSome_iff_exists.1 hr
  generalize hrow : d.fetchRow r.slot p.space p (d.row r.slot te.val (stSrc w)) 256 0 = row
  have conf := (((Die.SameOperands.refl d).updTe te.val fun e => { e with pend16 := row.1.map Prod.snd }).markRefused row.2).isConf r.slot
  have cycle : d.streamInt16 r te.val w force p = ((((d.updTe te.val fun e => { e with pend16 := row.1.map Prod.snd }).markRefused
      row.2).updTe te.val (Engine.countRowIn (d.isConf r.slot))).setRun (Run.markSecond te.val true)) := by
    rw [← conf, ← Die.countEntry_eq]
    unfold Die.streamInt16
    rw [hrow]
    exact (if_neg (show ¬ r.second te.val = true by rw [h]; exact Bool.false_ne_true)).trans rfl
  rw [cycle]
  refine ⟨⟨_, ?_, Run.second_markSecond te.val true (q.orRefused row.2)⟩, ?_, ?_⟩
  · rw [Die.setRun_run, Die.updTe_iss, Die.markRefused_run, Die.updTe_iss, hq]; rfl
  · rw [Die.setRun_te, Die.updTe_te_self, Die.markRefused_te, Die.updTe_te_self]
  · exact ((((Die.EngineOnly.refl d).updTe _).markRefused _).updTe _).setRun _

/-- The second presentation has it enter. -/
theorem Die.streamInt16_enters (hr : d.iss.run.isSome) (h : r.second te.val = true) :
    (∃ a, (d.streamInt16 r te.val w force p).iss.run = some a ∧ a.second te.val = false) ∧
      d.Enters te r.slot (d.makeRow r te.val w .int16 force (placeTokens .int16 (d.te te.val).pend16 []) [] false
        (d.row r.slot te.val (stDst w))).1 (d.streamInt16 r te.val w force p) := by
  have entered := Die.enterRow_enters (.refl d) (fun _ => rfl) (.refl d) hr r w .int16 force (placeTokens .int16 (d.te te.val).pend16 [])
    [] false (d.row r.slot te.val (stDst w)) (te := te)
  have cleared := entered.updTe (f := fun e => { e with pend16 := [] }) (fun _ => rfl) fun _ => rfl
  have moved := (cleared.advance r.slot te.val (stSrc w) 1).advanceDst r.slot te.val w 1
  obtain ⟨e, cycle, moved⟩ : ∃ e, d.streamInt16 r te.val w force p = e.setRun (Run.markSecond te.val false) ∧ d.Enters te r.slot _ e := by
    refine ⟨_, ?_, moved⟩
    unfold Die.streamInt16
    exact (if_pos (show r.second te.val = true from h)).trans rfl
  rw [cycle]
  obtain ⟨a, ha, -⟩ := moved.run
  exact ⟨⟨_, by rw [Die.setRun_run, ha]; rfl, Run.second_markSecond te.val false a⟩, moved.setRun (Run.entered_markSecond te.val false)⟩
end

/-! ### Elastic ranges (R179, R180) -/

section
variable (d : Die) (te : Fin 2) (r : Run) (w : Nat) (f : Fmt) (p : Prog) (left : Nat)

/-- The bytes of the row `k` rows on from the source's cursor, as the engine takes them, and whether its read is refused. -/
def Die.elasticRow (k : Nat) : List Byte × Bool :=
  let x := d.fetchRow r.slot p.space p ((d.row r.slot te.val (stSrc w) + k) % p.rows) f.tokenBytes 0
  (placeTokens f (x.1.map Prod.snd) [], x.2)

/-- The rows read in a cycle of an elastic ADD. -/
def Die.elasticRows : List (List Byte × Bool) := (List.range (min 4 left)).map (d.elasticRow te r w f p)

/-- A row that is not zero. -/
def nonzero (bs : List Byte) : Bool := bs.any fun b => decide (b ≠ 0)

theorem nonzero_eq_false {bs : List Byte} : nonzero bs = false ↔ ∀ b ∈ bs, b = 0 := by simp [nonzero]

theorem nonzero_eq_true {bs : List Byte} : nonzero bs = true ↔ ¬ ∀ b ∈ bs, b = 0 := by
  rw [← nonzero_eq_false, Bool.not_eq_false]

theorem nth_map_range {α : Type} (x : α) (g : Nat → α) {n k : Nat} (h : k < n) : nth x ((List.range n).map g) k = g k := by
  rw [nth_eq_getD, List.getD_eq_getElem _ _ (by simpa using h)]; simp

/-- The first of the rows read that is not zero. -/
def Die.elasticHit : Option Nat := firstBelow (min 4 left) fun k => nonzero (nth ([], false) (d.elasticRows te r w f p left) k).1

theorem Die.elasticHit_some {k : Nat} (hk : k < min 4 left) (hz : nonzero (d.elasticRow te r w f p k).1 = true)
    (hm : ∀ m < k, nonzero (d.elasticRow te r w f p m).1 = false) : d.elasticHit te r w f p left = some k := by
  unfold Die.elasticHit firstBelow Die.elasticRows
  rw [List.find?_range_eq_some]
  refine ⟨by rw [nth_map_range _ _ hk]; exact hz, List.mem_range.2 hk, fun m hmk => ?_⟩
  rw [nth_map_range _ _ (hmk.trans hk), hm m hmk]; rfl

theorem Die.elasticHit_none (hm : ∀ m < min 4 left, nonzero (d.elasticRow te r w f p m).1 = false) :
    d.elasticHit te r w f p left = none := by
  unfold Die.elasticHit firstBelow Die.elasticRows
  rw [List.find?_range_eq_none]
  intro m hmk
  rw [nth_map_range _ _ hmk, hm m hmk]; rfl

/-- The die in which the reads of an elastic cycle have been marked. -/
def Die.elasticMarked : Die := d.markRefused ((d.elasticRows te r w f p left).any Prod.snd)

/-- Skipped rows are counted, unless the context is confidential. -/
def Engine.countSkips (conf : Bool) (n : Nat) (e : Engine) : Engine := if conf then e else { e with skipped := inc64 e.skipped n }

theorem Die.elasticAdd_hit {k : Nat} (h : d.elasticHit te r w f p left = some k) :
    d.elasticAdd r te.val w f p left = ((((((d.elasticMarked te r w f p left).enterRow r te.val w f false
        (nth ([], false) (d.elasticRows te r w f p left) k).1 [] false
        (if ((d.elasticMarked te r w f p left).prog r.slot te.val (stDst w)).rows = 0 then 0
          else ((d.elasticMarked te r w f p left).row r.slot te.val (stDst w) + k) %
            ((d.elasticMarked te r w f p left).prog r.slot te.val (stDst w)).rows)).advance r.slot te.val (stSrc w) (k + 1)).advanceDst
          r.slot te.val w (k + 1)).countUnless r.slot fun d => d.updTe te.val fun e => { e with skipped := inc64 e.skipped k }), k + 1) := by
  have hit : (firstBelow (min 4 left) fun j => ((nth ([], false) (d.elasticRows te r w f p left) j).1).any fun b => decide (b ≠ 0)) =
      some k := h
  unfold Die.elasticAdd
  dsimp only
  unfold Die.elasticRows Die.elasticRow at hit
  dsimp only at hit
  rw [hit]
  rfl

theorem Die.elasticAdd_zeros (h : d.elasticHit te r w f p left = none) :
    d.elasticAdd r te.val w f p left = ((((d.elasticMarked te r w f p left).advance r.slot te.val (stSrc w) (min 4 left)).advanceDst
          r.slot te.val w (min 4 left)).countUnless r.slot fun d => d.updTe te.val fun e => { e with
            skipped := inc64 e.skipped (min 4 left) }, min 4 left) := by
  have hit : (firstBelow (min 4 left) fun j => ((nth ([], false) (d.elasticRows te r w f p left) j).1).any fun b => decide (b ≠ 0)) =
      none := h
  unfold Die.elasticAdd
  dsimp only
  unfold Die.elasticRows Die.elasticRow at hit
  dsimp only at hit
  rw [hit]
  rfl
end

/-! ### The report -/

section
variable {d e : Die} {s : Nat} {te : Fin 2} {x : RowFlight}

theorem Die.EngineOnly.physTally (h : d.EngineOnly te e) (c l : Nat) : e.physTally c l = d.physTally c l := by rw [h.2]; rfl

theorem Die.EngineOnly.isConf (h : d.EngineOnly te e) (c : Nat) : e.isConf c = d.isConf c := by rw [h.2]; rfl

/-- The row that has entered last is exchanged for one with a completion tally. -/
theorem Die.Enters.retag (h : d.Enters te s x e) {x' : RowFlight} {fl : List RowFlight} (hf : fl = (d.te te.val).flight ++ [x']) :
    d.Enters te s x' (e.updTe te.val fun g => { g with flight := fl }) where
  flight := by rw [Die.updTe_te_self]; exact hf
  rows := by rw [Die.updTe_te_self]; exact h.rows
  run := by rw [Die.updTe_iss]; exact h.run
  only := h.only.updTe _

/-- The run when engine `te` has reported. -/
def Run.report (te : Nat) (r : Run) : Run := { r with reported := te :: r.reported }

theorem Run.entered_report (te : Nat) (q : Run) : (q.report te).entered te = q.entered te := rfl

theorem Die.elasticReport_eq (d : Die) (r : Run) (te w : Nat) : d.elasticReport r te w =
    if ((d.iss.run.map (Run.entered te)).getD false && !(d.te te).flight.isEmpty) = true then
      match d.physTally r.slot (stCtally w) with
      | some p => (d.setRun (Run.report te)).updTe te fun e => { e with
          flight := (d.te te).flight.take ((d.te te).flight.length - 1) ++
            ((d.te te).flight.drop ((d.te te).flight.length - 1)).map fun x => { x with ctally := some p } }
      | none => d.setRun (Run.report te)
    else
      match d.physTally r.slot (stCtally w) with
      | some p => { d.setRun (Run.report te) with iss := { (d.setRun (Run.report te)).iss with
          incs := (d.setRun (Run.report te)).iss.incs ++ [((d.setRun (Run.report te)).iss.cyc, p)] } }
      | none => d.setRun (Run.report te) := by
  have ran : (d.iss.run.map (Run.entered te)).getD false =
      match d.iss.run with | some r => if te = 0 then r.entered0 else r.entered1 | none => false := by cases d.iss.run <;> rfl
  have tally : (d.setRun (Run.report te)).physTally r.slot (stCtally w) = d.physTally r.slot (stCtally w) :=
    ((Die.SameOperands.refl d).setRun _).physTally _ _
  rw [ran, ← tally, ← Die.setRun_te d (Run.report te) te]
  rfl

/-- After an entry the report hangs the completion tally on the row that entered last. -/
theorem Die.Enters.elasticReport (h : d.Enters te s x e) (hx : x.ctally = none) (r : Run) (w : Nat) :
    d.Enters te s { x with ctally := d.physTally r.slot (stCtally w) } (e.elasticReport r te.val w) := by
  obtain ⟨q, hq, hent⟩ := h.run
  have reported := h.setRun (Run.entered_report te.val)
  rw [Die.elasticReport_eq, hq, h.flight, h.only.physTally, if_pos (by simpa using hent)]
  cases d.physTally r.slot (stCtally w) with
  | none =>
    have untagged : { x with ctally := none } = x := by rw [← hx]
    show d.Enters te s { x with ctally := none } _
    rw [untagged]
    exact reported
  | some t => exact reported.retag (by simp)

theorem Die.elasticReport_skipped (d : Die) (r : Run) (w : Nat) :
    ((d.elasticReport r te.val w).te te.val).skipped = (d.te te.val).skipped := by
  rw [Die.elasticReport_eq]
  repeat' split
  · rw [Die.updTe_te_self, Die.setRun_te]
  · rw [Die.setRun_te]
  · exact congrArg Engine.skipped (d.setRun_te (Run.report te.val) te.val)
  · rw [Die.setRun_te]

/-- The rows that a cycle has taken of an elastic range. -/
def Run.markConsumed (te n : Nat) (r : Run) : Run := if te = 0 then { r with consumed0 := n } else { r with consumed1 := n }

theorem Run.entered_markConsumed (te n : Nat) (q : Run) : (q.markConsumed te n).entered te = q.entered te := by
  unfold Run.markConsumed Run.entered; split <;> rfl
end

section
variable (d : Die) (te : Fin 2) (r : Run) (w : Nat) (f : Fmt) (force : Bool) (p : Prog)

def Run.consumed (te : Nat) (r : Run) : Nat := if te = 0 then r.consumed0 else r.consumed1

/-- A cycle of an elastic STREAM with a row in its source: it takes rows, and reports when none is left. -/
theorem Die.streamElastic_eq (hd : r.reported.contains te.val = false) (hp : p.rows ≠ 0) {y : Die × Nat}
    (hy : (if stAcc w = 1 && !force then
        d.elasticAdd r te.val w f p (bundleHold r.bundle + 1 - r.consumed te.val) else (d.streamRow r te.val w f force p, 1)) = y) :
    d.streamElastic r te.val w f force p =
      if bundleHold r.bundle + 1 - r.consumed te.val ≤ y.2 then
        (y.1.setRun (Run.markConsumed te.val (r.consumed te.val + y.2))).elasticReport r te.val w
      else y.1.setRun (Run.markConsumed te.val (r.consumed te.val + y.2)) := by
  subst hy
  unfold Die.streamElastic
  rw [hd]
  refine (if_neg Bool.false_ne_true).trans ?_
  dsimp only
  rw [if_neg hp]
  rfl

/-- When a cycle of an elastic STREAM has had a row enter, the last of the range carries the completion tally. -/
theorem Die.streamElastic_enters (hd : r.reported.contains te.val = false) (hp : p.rows ≠ 0) {y : Die × Nat}
    (hy : (if stAcc w = 1 && !force then
        d.elasticAdd r te.val w f p (bundleHold r.bundle + 1 - r.consumed te.val) else (d.streamRow r te.val w f force p, 1)) = y)
    {x : RowFlight} {c : Nat} (h : d.Enters te c x y.1) (hx : x.ctally = none) :
    d.Enters te c { x with
      ctally := if bundleHold r.bundle + 1 - r.consumed te.val ≤ y.2 then d.physTally r.slot (stCtally w) else none }
      (d.streamElastic r te.val w f force p) := by
  have consumed := h.setRun (Run.entered_markConsumed te.val (r.consumed te.val + y.2))
  rw [Die.streamElastic_eq _ _ _ _ _ _ _ hd hp hy]
  split
  · exact consumed.elasticReport hx _ _
  · rw [← hx]; exact consumed

theorem Die.streamElastic_skipped (hd : r.reported.contains te.val = false) (hp : p.rows ≠ 0) {y : Die × Nat}
    (hy : (if stAcc w = 1 && !force then
        d.elasticAdd r te.val w f p (bundleHold r.bundle + 1 - r.consumed te.val) else (d.streamRow r te.val w f force p, 1)) = y) :
    ((d.streamElastic r te.val w f force p).te te.val).skipped = (y.1.te te.val).skipped := by
  rw [Die.streamElastic_eq _ _ _ _ _ _ _ hd hp hy]
  split
  · rw [Die.elasticReport_skipped, Die.setRun_te]
  · rw [Die.setRun_te]
end

/-! ### The row that enters -/

section
variable (d : Die) (te : Fin 2) (r : Run) (f : Fmt) (force : Bool) (act : List Byte) (scales : List Nat) (blocked : Bool) (drow : Nat)

/-- A row's operands are those of its entry cycle. -/
theorem Die.makeRow_fields :
    let w := slotWord r.bundle te.val
    let x := (d.makeRow r te.val w f force act scales blocked drow).1
    let q := d.prog r.slot te.val (stDst w)
    let pl := (d.te te.val).plane (wlPlane w)
    (x.entry = d.iss.cyc ∧ x.slot = r.slot ∧ x.word.toNat = w ∧ x.act = act ∧ x.actScale = scales ∧ x.blocked = (blocked || pl.blocked) ∧
      x.plane = (if pl.loaded = true then pl else { pl with stats := (d.readStats r.slot te.val 0 f).1 }) ∧
      x.dstSpace = q.space ∧ x.dstAddr = (q.rowAddr drow).toNat ∧ x.dstFmt.toNat = q.efmt % 16) ∧ x.ctally = none := by
  intro w x q pl
  have blocks : (if pl.loaded = true then pl else { pl with stats := (d.readStats r.slot te.val 0 f).1 }).blocked = pl.blocked := by
    split <;> rfl
  exact ⟨⟨rfl, rfl, slotWord_toNat _ _, rfl, rfl, congrArg (blocked || ·) blocks, rfl, rfl, rfl, BitVec.toNat_ofNat _ _⟩, rfl⟩
end

/-! ### A cycle of an elastic ADD -/

section
variable (d : Die) (te : Fin 2) (r : Run) (w : Nat) (f : Fmt) (p : Prog) (left : Nat)

/-- The first row that is not zero enters; those before it are skipped. -/
theorem Die.elasticAdd_enters (hr : d.iss.run.isSome) {k : Nat} (hk : k < min 4 left) (hit : d.elasticHit te r w f p left = some k)
    (hq : (d.prog r.slot te.val (stDst w)).rows ≠ 0) :
    (d.elasticAdd r te.val w f p left).2 = k + 1 ∧
      d.Enters te r.slot (d.makeRow r te.val w f false (d.elasticRow te r w f p k).1 [] false
        ((d.row r.slot te.val (stDst w) + k) % (d.prog r.slot te.val (stDst w)).rows)).1 (d.elasticAdd r te.val w f p left).1 ∧
      ((d.elasticAdd r te.val w f p left).1.te te.val).skipped =
        if d.isConf r.slot then (d.te te.val).skipped else inc64 (d.te te.val).skipped k := by
  have same : d.SameOperands (d.elasticMarked te r w f p left) := (Die.SameOperands.refl d).markRefused _
  have marked (n : Nat) : (d.elasticMarked te r w f p left).te n = d.te n := d.markRefused_te _ n
  have only : d.EngineOnly te (d.elasticMarked te r w f p left) := (Die.EngineOnly.refl d).markRefused _
  have runs : (d.elasticMarked te r w f p left).iss.run.isSome := by unfold Die.elasticMarked; simpa using hr
  rw [Die.elasticAdd_hit _ _ _ _ _ _ _ hit, same.prog, same.row, if_neg hq,
    show nth ([], false) (d.elasticRows te r w f p left) k = d.elasticRow te r w f p k from nth_map_range _ _ hk]
  dsimp only
  have entered := Die.enterRow_enters same marked only runs r w f false (d.elasticRow te r w f p k).1 [] false
    ((d.row r.slot te.val (stDst w) + k) % (d.prog r.slot te.val (stDst w)).rows)
  have moved := (entered.advance r.slot te.val (stSrc w) (k + 1)).advanceDst r.slot te.val w (k + 1)
  rw [Die.countUnless_updTe, moved.only.isConf]
  refine ⟨rfl, moved.updTe (fun g => ?_) (fun g => ?_), ?_⟩
  · cases d.isConf r.slot <;> rfl
  · cases d.isConf r.slot <;> rfl
  · have kept : ((((d.elasticMarked te r w f p left).enterRow r te.val w f false (d.elasticRow te r w f p k).1 [] false
        ((d.row r.slot te.val (stDst w) + k) % (d.prog r.slot te.val (stDst w)).rows)).advance r.slot te.val (stSrc w) (k + 1)).advanceDst
          r.slot te.val w (k + 1)).te te.val =
        ((d.elasticMarked te r w f p left).enterRow r te.val w f false (d.elasticRow te r w f p k).1 [] false
          ((d.row r.slot te.val (stDst w) + k) % (d.prog r.slot te.val (stDst w)).rows)).te te.val := by
      rw [Die.advanceDst_te, Die.advance_te]
    rw [Die.updTe_te_self, kept, Die.enterRow_te, marked]
    cases d.isConf r.slot <;> rfl

/-- When every row read is zero none enters, and all of them are skipped. -/
theorem Die.elasticAdd_skips (hit : d.elasticHit te r w f p left = none) :
    (d.elasticAdd r te.val w f p left).2 = min 4 left ∧ d.EngineOnly te (d.elasticAdd r te.val w f p left).1 ∧
      (d.elasticAdd r te.val w f p left).1.te te.val = Engine.countSkips (d.isConf r.slot) (min 4 left) (d.te te.val) := by
  have only : d.EngineOnly te (d.elasticMarked te r w f p left) := (Die.EngineOnly.refl d).markRefused _
  have moved := (only.advance r.slot te.val (stSrc w) (min 4 left)).advanceDst r.slot te.val w (min 4 left)
  rw [Die.elasticAdd_zeros _ _ _ _ _ _ _ hit]
  dsimp only
  rw [Die.countUnless_updTe, moved.isConf]
  refine ⟨rfl, moved.updTe _, ?_⟩
  rw [Die.updTe_te_self, Die.advanceDst_te, Die.advance_te]
  exact congrArg (Engine.countSkips (d.isConf r.slot) (min 4 left)) (d.markRefused_te _ te.val)
end

/-- Settles O13: a cycle of STREAM by the row that enters, in each of its kinds. -/
theorem streamRowEntersTheEngine : Obligations.StreamRowEntersTheEngine := by
  intro s te e r left todo f ha he w ho hf d t p q i j pl force remain elastic done x0 x1 sc entered only counted skips row zero
  have act {d1 : Die} (h : d.stream_ te.val r w = d1) : Answers (.stream te e) s (d1.slotDone te.val) :=
    h ▸ (answers_slotAction (fun e => exec_stream te e s) ha ho fun h4 => absurd h4 (by omega)).1 he
  have run : d.iss.run.isSome := by rw [show d.iss.run = s.die.iss.run from Checked_run he r, ha.1]; rfl
  have plain (he : elastic = false) : d.stream_ te.val r w =
      if p.rows = 0 then d.markEmpty r.slot te.val
      else if f = .int16 then d.streamInt16 r te.val w force p else d.streamRow r te.val w f force p := by
    unfold Die.stream_
    rw [hf]
    exact if_neg (of_decide_eq_false he)
  have ranged (he : elastic = true) : d.stream_ te.val r w = d.streamElastic r te.val w f force p := by
    unfold Die.stream_
    rw [hf]
    exact if_pos (of_decide_eq_true he)
  have fields (force : Bool) (bs : List Byte) (at_ : Nat) (scales : List Nat) (blocked : Bool) (c : Option Nat) :
      entered { (d.makeRow r te.val w f force bs scales blocked at_).1 with ctally := c } bs at_ scales blocked :=
    (d.makeRow_fields te r f force bs scales blocked at_).1
  refine ⟨?_, ?_, ?_, ?_, ?_, ?_, ?_, ?_⟩
  · intro hp hel
    exact act ((plain hel).trans (if_pos hp))
  · intro hel hd
    refine act ((ranged hel).trans ?_)
    unfold Die.streamElastic
    exact if_pos hd
  · intro hp hi hmode hsc
    have enters : d.Enters te r.slot (d.tokenRow te r w f force p) (d.streamRow r te.val w f force p) :=
      d.streamRow_enters te r w f force p run hsc
    have untagged : (d.tokenRow te r w f force p).ctally = none := (d.makeRow_fields te r f force _ _ _ _).2
    cases hel : elastic with
    | false =>
      exact ⟨_, _, act ((plain hel).trans ((if_neg hp).trans (if_neg hi))), (d.makeRow_fields te r f force _ _ _ _).1,
        untagged.trans (if_neg fun h => Bool.false_ne_true h.1).symm, enters.flight, enters.rows, enters.only⟩
    | true =>
      obtain ⟨hd, hacc⟩ := hmode.resolve_left (by rw [hel]; exact Bool.true_eq_false_eq_False)
      have mode : (if stAcc w = 1 && !force then
          d.elasticAdd r te.val w f p (bundleHold r.bundle + 1 - r.consumed te.val) else (d.streamRow r te.val w f force p, 1)) =
            (d.streamRow r te.val w f force p, 1) := if_neg fun h => by
        obtain ⟨h1, h2⟩ := Bool.and_eq_true_iff.1 h
        rcases hacc with hadd | hforce
        · exact hadd (of_decide_eq_true h1)
        · rw [hforce] at h2; exact Bool.false_ne_true h2
      have tagged := d.streamElastic_enters te r w f force p hd hp mode enters untagged
      exact ⟨_, _, act (ranged hel), fields force _ _ _ _ _,
        if_congr ⟨fun h => ⟨rfl, h⟩, And.right⟩ rfl rfl, tagged.flight, tagged.rows, tagged.only⟩
  · intro k hp hi hel hsc
    refine act ((plain hel).trans ((if_neg hp).trans ((if_neg hi).trans ?_)))
    rw [Die.streamRow_eq, show (d.tokenScales te r w f p).2.1 = some k from hsc]
    rfl
  · intro hp hi hel hsec
    subst hi
    obtain ⟨⟨a, hrun, hsecond⟩, engine, kept⟩ := d.streamInt16_keeps te r w force p run hsec
    exact ⟨_, a, act ((plain hel).trans ((if_neg hp).trans (if_pos rfl))), hrun, hsecond, by rw [engine]; rfl,
      by rw [engine]; rfl, by show (Die.te _ te.val).rows = _; rw [engine]; rfl, kept⟩
  · intro hp hi hel hsec
    subst hi
    obtain ⟨⟨a, hrun, hsecond⟩, enters⟩ := d.streamInt16_enters te r w force p run hsec
    obtain ⟨operands, untagged⟩ := d.makeRow_fields te r .int16 force (placeTokens .int16 t.pend16 []) [] false j
    exact ⟨_, a, _, act ((plain hel).trans ((if_neg hp).trans (if_pos rfl))), hrun, hsecond, operands, untagged, enters.flight,
      enters.rows, enters.only⟩
  · intro k hp hel hd hacc hforce hq hk hz hm
    have mode : (if stAcc w = 1 && !force then d.elasticAdd r te.val w f p remain else (d.streamRow r te.val w f force p, 1)) =
        d.elasticAdd r te.val w f p remain := if_pos (by rw [show stAcc w = 1 from hacc, hforce]; rfl)
    have hit := d.elasticHit_some te r w f p remain hk (nonzero_eq_true.2 hz) fun m h => nonzero_eq_false.2 (hm m h)
    obtain ⟨used, enters, skipped⟩ := d.elasticAdd_enters te r w f p remain run hk hit hq
    have tagged := d.streamElastic_enters te r w f force p hd hp mode enters (d.makeRow_fields te r f false _ _ _ _).2
    refine ⟨_, _, act (ranged hel), fields false _ _ _ _ _, if_congr ?_ rfl rfl, tagged.flight, tagged.rows,
      (d.streamElastic_skipped te r w f force p hd hp mode).trans skipped, tagged.only⟩
    rw [used]
    show remain ≤ k + 1 ↔ remain = k + 1
    omega
  · intro hp hel hd hacc hforce hrem hz
    have mode : (if stAcc w = 1 && !force then d.elasticAdd r te.val w f p remain else (d.streamRow r te.val w f force p, 1)) =
        d.elasticAdd r te.val w f p remain := if_pos (by rw [show stAcc w = 1 from hacc, hforce]; rfl)
    have four : min 4 remain = 4 := Nat.min_eq_left (by omega)
    have none := d.elasticHit_none te r w f p remain fun m h => nonzero_eq_false.2 (hz m (four ▸ h))
    obtain ⟨used, only, engine⟩ := d.elasticAdd_skips te r w f p remain none
    rw [four] at used engine
    have kept := (d.streamElastic_eq te r w f force p hd hp mode).trans (if_neg (by rw [used]; exact Nat.not_le.2 hrem))
    refine ⟨_, act ((ranged hel).trans kept), ?_, ?_, ?_, only.setRun _⟩
    · rw [Die.setRun_te, engine]; unfold Engine.countSkips; split <;> rfl
    · rw [Die.setRun_te, engine]; unfold Engine.countSkips; split <;> rfl
    · show (Die.te _ te.val).skipped = _
      rw [Die.setRun_te, engine]; unfold Engine.countSkips; split <;> rfl

end Sys2Proof.Machine
end

section
/-! O37: periods, commands, deadlines and guards of a loop. -/

namespace Sys2Proof.Machine

/-! ### A period begins (R395, R402) -/

section
variable (d : Die) (n : Nat)

/-- A loop that the Dawn loop's controller serves. -/
def Die.dawnOf (i : Nat) : Bool := (d.loop i).enable && d.dawnServes (d.loop i)

/-- The lowest of the loops that the controller serves has it run. -/
theorem Die.dawnLead_iff (hn : n < 8) (hs : d.dawnOf n = true) : d.dawnLead n = true ↔ ∀ j, j < n → ¬ d.dawnOf j = true := by
  have first : d.dawnFrames.head? = ((List.range 8).find? d.dawnOf).map fun i => (i, (d.loop i).sensor) := by
    rw [← List.head?_filter, ← List.head?_map]; rfl
  have lead : d.dawnLead n = true ↔ (List.range 8).find? d.dawnOf = some n := by
    have head : d.dawnLead n = (d.dawnFrames.head?.map fun f => decide (f.1 = n)).getD false := by
      unfold Die.dawnLead
      cases d.dawnFrames <;> rfl
    rw [head, first]
    cases (List.range 8).find? d.dawnOf <;> simp
  rw [lead, List.find?_range_eq_some]
  simp [hs, hn]

/-- The run of the controller is Flint's. -/
theorem Die.dawnRun_eq : d.dawnRun = { d with fln := d.dawnRun.fln } := by
  unfold Die.dawnRun; dsimp only; split <;> rfl

/-- One run of the controller counts Flint's rows, eight activations and 64 weights for each tile. -/
theorem Die.dawnRun_counts :
    d.dawnRun.fln.rowsCnt = inc64 d.fln.rowsCnt (8 * ceilDiv d.dawnWeightBytes.length 2048) ∧
      d.dawnRun.fln.wrows = inc64 d.fln.wrows (64 * ceilDiv d.dawnWeightBytes.length 2048) := by
  unfold Die.dawnRun
  dsimp only
  split
  · next h => rw [h]; simp [inc64]
  · exact ⟨rfl, rfl⟩

variable {d} (f : Loop → Loop)

theorem Die.dawnRun_updLoop : (d.updLoop n f).dawnRun.fln = d.dawnRun.fln := by
  unfold Die.dawnRun
  dsimp only
  rw [show (d.updLoop n f).dawnWeightBytes = d.dawnWeightBytes from rfl]
  split <;> rfl

/-- What the controller finds of the loops, when an update leaves their binding and their frames alone. -/
theorem Die.dawn_updLoop (w : Tab.wf {} d.fld.loops = true)
    (hf : (f (d.loop n)).enable = (d.loop n).enable ∧ (f (d.loop n)).dawn = (d.loop n).dawn ∧ (f (d.loop n)).slot = (d.loop n).slot ∧
      (f (d.loop n)).sensor = (d.loop n).sensor) :
    (d.updLoop n f).dawnOf = d.dawnOf ∧ (d.updLoop n f).dawnFrames = d.dawnFrames := by
  obtain ⟨henable, hdawn, hslot, hsensor⟩ := hf
  have each (i : Nat) : ((d.updLoop n f).loop i).enable = (d.loop i).enable ∧
      (d.updLoop n f).dawnServes ((d.updLoop n f).loop i) = d.dawnServes (d.loop i) ∧
      ((d.updLoop n f).loop i).sensor = (d.loop i).sensor := by
    by_cases h : i = n
    · subst h
      rw [Die.updLoop_loop_self _ _ _ w]
      refine ⟨henable, ?_, hsensor⟩
      unfold Die.dawnServes Loop.unbound
      rw [hdawn, hslot]; rfl
    · rw [Die.updLoop_loop_ne _ _ _ w h]; exact ⟨rfl, rfl, rfl⟩
  constructor
  · funext i; unfold Die.dawnOf; rw [(each i).1, (each i).2.1]
  · unfold Die.dawnFrames
    simp only [fun i => (each i).1, fun i => (each i).2.1, fun i => (each i).2.2]

theorem Loop.beginPeriod_kept (l : Loop) (k : Int) (b : Bool) :
    (l.beginPeriod k b).enable = l.enable ∧ (l.beginPeriod k b).dawn = l.dawn ∧ (l.beginPeriod k b).slot = l.slot ∧
      (l.beginPeriod k b).sensor = l.sensor ∧ (l.beginPeriod k b).fifo = l.fifo := by
  cases b <;> exact ⟨rfl, rfl, rfl, rfl, rfl⟩
end

/-- A loop as its next period begins: a served one has the controller's block in its hand-off FIFO. -/
def Loop.nextPeriod (l : Loop) (k : Int) (blocks : List (Nat × List Byte)) : Loop :=
  { l.beginPeriod k l.inPeriod with fifo := (l.beginPeriod k l.inPeriod).fifo ++ blocks }

/-- The block that the controller hands over in a period of loop `n`. -/
def Die.dawnBlocks (d : Die) (n : Nat) : List (Nat × List Byte) :=
  if d.dawnServes (d.loop n) then [(0x40, Config.dawnBlock d.dawnWeightBytes d.dawnFrames n)] else []

/-- A period begins: the loop's, and the controller's with that of the lowest loop that it serves. -/
theorem periodStart_answers {s : State} {n : Fin 8} (w : Tab.wf {} s.die.fld.loops = true) (he : (s.die.loop n.val).enable = true)
    (hr : s.die.fldRuns = true) (hs : (s.die.loop n.val).inPeriod = false ∨ (s.die.loop n.val).served = true) {k : Int}
    (hk : k = if (s.die.loop n.val).inPeriod then (s.die.loop n.val).k + 1 else (s.die.loop n.val).k)
    (hb : (s.die.loop n.val).start k ≤ s.die.baseNow (s.die.loop n.val).ptp) :
    Answers (.periodStart n) s { s.die.updLoop n.val fun l => l.nextPeriod k (s.die.dawnBlocks n.val) with
      fln := if s.die.dawnServes (s.die.loop n.val) = true ∧ ∀ j, j < n.val → ¬ s.die.dawnOf j = true then s.die.dawnRun.fln
        else s.die.fln } := by
  refine answers_of_act (exec_periodStart n s) ?_
  generalize s.die = d at *
  dsimp only
  rw [← hk, if_pos (by simp [he, hr, hb, hs])]
  obtain ⟨henable, hdawn, hslot, hsensor, hfifo⟩ := (d.loop n.val).beginPeriod_kept k (d.loop n.val).inPeriod
  obtain ⟨same, frames⟩ := Die.dawn_updLoop (d := d) n.val (fun l => l.beginPeriod k l.inPeriod) w ⟨henable, hdawn, hslot, hsensor⟩
  have next (blocks : List (Nat × List Byte)) :
      (d.updLoop n.val fun l => l.beginPeriod k l.inPeriod).updLoop n.val (fun l => { l with fifo := l.fifo ++ blocks }) =
        d.updLoop n.val fun l => l.nextPeriod k blocks := Die.updLoop_updLoop _ _ _ _ w
  have begun : (d.updLoop n.val fun l => l.beginPeriod k l.inPeriod) = d.updLoop n.val fun l => l.nextPeriod k [] := by
    simp only [Loop.nextPeriod, List.append_nil]
  have blocks : d.dawnBlocks n.val = if d.dawnServes (d.loop n.val) then
      [(0x40, Config.dawnBlock d.dawnWeightBytes d.dawnFrames n.val)] else [] := rfl
  have flint : (d.updLoop n.val fun l => l.beginPeriod k l.inPeriod).dawnRun.fln = d.dawnRun.fln := Die.dawnRun_updLoop _ _
  have weights : (d.updLoop n.val fun l => l.beginPeriod k l.inPeriod).dawnWeightBytes = d.dawnWeightBytes := rfl
  have serves : (d.updLoop n.val fun l => l.beginPeriod k l.inPeriod).dawnServes (d.loop n.val) = d.dawnServes (d.loop n.val) := rfl
  rw [frames, weights, serves, blocks]
  cases hserves : d.dawnServes (d.loop n.val) with
  | false =>
    rw [if_neg Bool.false_ne_true, if_neg Bool.false_ne_true, if_neg fun h => Bool.false_ne_true h.1, begun]
    rfl
  | true =>
    have lead : (d.updLoop n.val fun l => l.beginPeriod k l.inPeriod).dawnLead n.val = true ↔ ∀ j, j < n.val → ¬ d.dawnOf j = true :=
      same ▸ Die.dawnLead_iff _ n.val n.isLt (by rw [same]; unfold Die.dawnOf; rw [he, hserves]; rfl)
    rw [if_pos rfl, if_pos rfl, ← next]
    have kept : (d.updLoop n.val fun l => l.beginPeriod k l.inPeriod).fln = d.fln := rfl
    generalize (d.updLoop n.val fun l => l.beginPeriod k l.inPeriod) = d1 at flint lead kept ⊢
    by_cases hl : ∀ j, j < n.val → ¬ d.dawnOf j = true
    · rw [if_pos (lead.2 hl), if_pos (And.intro rfl hl), ← flint, d1.dawnRun_eq]
      rfl
    · rw [if_neg fun h => hl (lead.1 h), if_neg fun h => hl h.2, ← kept]
      rfl

/-! ### A block arrives (R390, R396, R405) -/

section
variable (d : Die) (n : Nat)

/-- The block is of the context that loop `n` is bound to, or of the Dawn loop's controller when that serves it. -/
def Die.ownBlock (slot : Nat) : Prop :=
  (d.loop n).enable = true ∧ if slot = 0x40 then d.dawnServes (d.loop n) = true else slot ≠ 63 ∧ (d.loop n).slot.toNat = slot

/-- The period in progress may still take a COMMAND. -/
def Die.inTime : Prop :=
  (d.loop n).abortedCtx = false ∧ (d.loop n).inPeriod = true ∧ (d.loop n).haveSens = true ∧ (d.loop n).lost = false ∧
    (d.loop n).served = false ∧ (d.loop n).taken = false ∧ d.baseNow (d.loop n).ptp < (d.loop n).due (d.loop n).k

variable {d} {n}

theorem Loop.unbound_iff (l : Loop) : l.unbound = true ↔ l.slot.toNat = 63 := by
  unfold Loop.unbound
  rw [beq_iff_eq, ← BitVec.toNat_inj]; rfl

/-- The test of the hand-off is that of the block's context. -/
theorem Die.ownBlock_iff (slot : Nat) :
    ((d.loop n).enable && (if slot = 0x40 then d.dawnServes (d.loop n)
      else !(d.loop n).unbound && decide ((d.loop n).slot.toNat = slot))) = true ↔ d.ownBlock n slot := by
  unfold Die.ownBlock
  rw [Bool.and_eq_true]
  refine and_congr_right fun _ => ?_
  split
  · rfl
  · rw [Bool.and_eq_true, Bool.not_eq_true', ← Bool.not_eq_true, Loop.unbound_iff, decide_eq_true_eq]
    omega

theorem Die.arrive_foreign {slot : Nat} {block : List Byte} (h : ¬ d.ownBlock n slot) : d.arrive n slot block = d.foreign := by
  rw [← Die.ownBlock_iff, Bool.not_eq_true] at h
  unfold Die.arrive
  dsimp only
  rw [h]
  rfl

theorem Die.inTime_iff : ((d.loop n).abortedCtx || !(d.loop n).inPeriod || !(d.loop n).haveSens || (d.loop n).lost || (d.loop n).served ||
    (d.loop n).taken || decide ((d.loop n).due (d.loop n).k ≤ d.baseNow (d.loop n).ptp)) = false ↔ d.inTime n := by
  unfold Die.inTime
  simp only [Bool.or_eq_false_iff, Bool.not_eq_false', decide_eq_false_iff_not, Int.not_le, and_assoc]

theorem Die.arrive_late {slot : Nat} {block : List Byte} (h : d.ownBlock n slot) (ht : ¬ d.inTime n) :
    d.arrive n slot block = d.loopLate n := by
  rw [← Die.inTime_iff, Bool.not_eq_false] at ht
  unfold Die.arrive
  dsimp only
  rw [(Die.ownBlock_iff slot).2 h, ht]
  rfl

theorem Die.arrive_taken {slot : Nat} {block : List Byte} (h : d.ownBlock n slot) (ht : d.inTime n) :
    d.arrive n slot block = (d.updLoop n fun l => { l with taken := true, ready := true }).queueCmd (d.loop n)
      { loop := n, type := 0xC1, payload := (block.drop 12).take 48 } := by
  unfold Die.arrive
  dsimp only
  rw [(Die.ownBlock_iff slot).2 h, Die.inTime_iff.2 ht]
  rfl
end

/-- The oldest block of the hand-off FIFO arrives at the loop without it. -/
theorem commandArrival_answers {s : State} {n : Fin 8} {b : Nat × List Byte} {rest : List (Nat × List Byte)}
    (hf : (s.die.loop n.val).fifo = b :: rest) {d : Die}
    (h : (s.die.updLoop n.val fun l => { l with fifo := rest }).arrive n.val b.1 b.2 = d) : Answers (.commandArrival n) s d := by
  refine answers_of_act (exec_commandArrival n s) ?_
  rw [hf]
  exact h

theorem commandArrival_none {s : State} {n : Fin 8} (hf : (s.die.loop n.val).fifo = []) : Answers (.commandArrival n) s s.die := by
  refine answers_of_act (exec_commandArrival n s) ?_
  rw [hf]

/-! ### The deadline (R394, R397, R400, R405) -/

section
variable (d : Die) (n : Nat)

/-- The period whose deadline has been served. -/
def Die.deadlineServed (c : Nat) : Die :=
  d.updLoop n fun l => { l with served := true, lastServed := some ((d.loop n).due (d.loop n).k), consec := c }

/-- What a miss sends: SAFE, or HOLD while it is allowed (R397). -/
theorem Loop.missType_eq (l : Loop) (c : Nat) : l.missType c =
    if l.guardSafe = true ∨ l.sentCmd = false ∨ (l.holdMax ≠ 0 ∧ l.holdMax < c) then 0xC3 else 0xC2 := by
  unfold Loop.missType
  refine if_congr ?_ rfl rfl
  simp only [Bool.or_eq_true, Bool.not_eq_true', Bool.and_eq_true, decide_eq_true_eq, or_assoc]

variable {d n}

theorem Die.serveDeadline_safe (h : d.guardSilentSafe (d.loop n) = true) : d.serveDeadline n =
    (d.deadlineServed n (d.loop n).consec).queueGuard (d.loop n) { loop := n, type := 0xC3, payload := d.safePayload n } := by
  have served : d.deadlineServed n (d.loop n).consec = d.updLoop n fun l => { l with served := true, lastServed := some (l.due l.k) } :=
    Die.updLoop_congr _ _ _ _ rfl
  rw [served]
  exact if_pos h

variable (w : Tab.wf {} d.fld.loops = true)
include w

theorem Die.updLoop_served (f : Loop → Loop) (c : Nat)
    (hf : ∀ l : Loop, f { l with served := true, lastServed := some (l.due l.k) } =
      { l with served := true, lastServed := some (l.due l.k), consec := c }) :
    (d.updLoop n fun l => { l with served := true, lastServed := some (l.due l.k) }).updLoop n f = d.deadlineServed n c := by
  rw [Die.updLoop_updLoop _ _ _ _ w]
  exact Die.updLoop_congr _ _ _ _ (hf _)

theorem Die.serveDeadline_ready (h : d.guardSilentSafe (d.loop n) = false) (hr : (d.loop n).ready = true) :
    d.serveDeadline n = d.deadlineServed n 0 := by
  rw [← Die.updLoop_served w (fun l => { l with consec := 0 }) 0 fun _ => rfl]
  have guarded : ¬ d.guardSilentSafe (d.loop n) = true := by rw [h]; exact Bool.false_ne_true
  exact (if_neg guarded).trans (if_pos hr)

theorem Die.serveDeadline_miss (h : d.guardSilentSafe (d.loop n) = false) (hr : (d.loop n).ready = false) :
    d.serveDeadline n =
      let l := d.loop n
      let c := l.consec + 1
      ((d.deadlineServed n c).queueGuard l
        { loop := n, type := l.missType c, payload := if l.missType c = 0xC3 then d.safePayload n else l.lastCmd, miss := true }).record
        (45 + n) 0x0B (if l.unbound then none else some l.slot.toNat) (wrapNat 32 l.k) (l.missType c).toNat c 0 := by
  dsimp only
  rw [← Die.updLoop_served w (fun l => { l with consec := (d.loop n).consec + 1 }) ((d.loop n).consec + 1) fun _ => rfl]
  have guarded : ¬ d.guardSilentSafe (d.loop n) = true := by rw [h]; exact Bool.false_ne_true
  have unready : ¬ (d.loop n).ready = true := by rw [hr]; exact Bool.false_ne_true
  exact (if_neg guarded).trans (if_neg unready)
end

theorem deadline_answers {s : State} {n : Fin 8} (he : (s.die.loop n.val).enable = true) (hr : s.die.fldRuns = true)
    (hp : (s.die.loop n.val).inPeriod = true) (hs : (s.die.loop n.val).served = false)
    (hd : (s.die.loop n.val).due (s.die.loop n.val).k ≤ s.die.baseNow (s.die.loop n.val).ptp) {d : Die}
    (h : s.die.serveDeadline n.val = d) : Answers (.deadline n) s d := by
  refine answers_of_act (exec_deadline n s) ((if_pos ?_).trans h)
  simp [he, hr, hp, hs, hd]

theorem deadline_early {s : State} {n : Fin 8} (h : (s.die.loop n.val).served = true ∨
    s.die.baseNow (s.die.loop n.val).ptp < (s.die.loop n.val).due (s.die.loop n.val).k) : Answers (.deadline n) s s.die := by
  refine answers_of_act (exec_deadline n s) (if_neg ?_)
  rintro hc
  simp only [Bool.and_eq_true, Bool.not_eq_true', decide_eq_true_eq] at hc
  obtain ⟨⟨-, hs⟩, hd⟩ := hc
  rcases h with h | h
  · rw [h] at hs; exact Bool.false_ne_true hs.symm
  · omega

/-! ### Transmission (R388, R391, R393, R398) -/

section
variable (d : Die)

theorem Die.loopCount_eq (n : Nat) (f : Loop → Loop) (w : Tab.wf {} d.fld.loops = true) :
    d.loopCount n f = d.updLoop n fun l => if d.loopConf (d.loop n) then l else f l := by
  unfold Die.loopCount
  cases d.loopConf (d.loop n)
  · rfl
  · exact (Die.updLoop_id d n _ w rfl).symm

/-- A frame that starts changes its own loop, whose sequence number it takes. -/
theorem Die.loopSent_eq (f : TxFrame) (w : Tab.wf {} d.fld.loops = true) :
    ∃ g : Loop → Loop, d.loopSent f = d.updLoop f.loop g ∧ ∀ l, (g l).seq = l.seq + 1 := by
  have counted {e : Die} {g h : Loop → Loop} (he : e = d.updLoop f.loop g) (hg : ∀ l, (g l).seq = l.seq + 1)
      (hh : ∀ l, (h l).seq = l.seq) : ∃ g' : Loop → Loop, e.loopCount f.loop h = d.updLoop f.loop g' ∧ ∀ l, (g' l).seq = l.seq + 1 := by
    subst he
    refine ⟨_, (Die.loopCount_eq _ _ _ (Die.wf_updLoop d _ _ w)).trans (Die.updLoop_updLoop d _ _ _ w), fun l => ?_⟩
    split
    · exact hg l
    · exact (hh _).trans (hg l)
  have sent : ∃ g : Loop → Loop, (d.updLoop f.loop fun l => l.sent f) = d.updLoop f.loop g ∧ ∀ l, (g l).seq = l.seq + 1 :=
    ⟨_, rfl, fun _ => rfl⟩
  have commanded : ∃ g : Loop → Loop, (if f.type = frCommand then (d.updLoop f.loop fun l => l.sent f).loopCount f.loop fun l =>
      { l with commands := satInc32 l.commands 1 } else d.updLoop f.loop fun l => l.sent f) = d.updLoop f.loop g ∧
        ∀ l, (g l).seq = l.seq + 1 := by
    split
    · exact counted rfl (fun _ => rfl) fun _ => rfl
    · exact sent
  obtain ⟨g, hg, hseq⟩ := commanded
  unfold Die.loopSent
  dsimp only
  rw [hg]
  split
  · exact counted rfl hseq fun _ => rfl
  · exact ⟨g, rfl, hseq⟩

/-- A port whose wire a frame takes. -/
def FldPort.onWire (x : FldPort) (now : Nat) : FldPort :=
  { x with txFrames := satInc32 x.txFrames 1, wireFree := now + frameSlotNs x.rate.toNat }

theorem Die.portTx_eq (p : Nat) (bytes : List Byte) :
    d.portTx p bytes = { d.updFport p fun x => x.onWire d.fldNow with out := .field p bytes :: d.out } := by
  have taken :
      d.updFport p (fun x => { x with txFrames := satInc32 x.txFrames 1, wireFree := d.fldNow + frameSlotNs (d.fport p).rate.toNat }) =
        d.updFport p fun x => x.onWire d.fldNow := Die.updFport_congr d p _ _ rfl
  unfold Die.portTx
  dsimp only
  rw [taken]
  rfl

variable {d} {p : Nat} {f : TxFrame} {h : FldPort → FldPort} (w : Tab.wf {} d.fld.loops = true) (wp : Tab.wf {} d.fld.ports = true)
include w wp

/-- The frame at the head of a port's queue starts. -/
theorem Die.frameStarts (bytes : List Byte) :
    let e := ((d.updFport p h).loopSent f).portTx p bytes
    e.out = .field p bytes :: d.out ∧ e.fport p = (h (d.fport p)).onWire d.fldNow ∧ (∀ i, i ≠ p → e.fport i = d.fport i) ∧
      (e.loop f.loop).seq = (d.loop f.loop).seq + 1 ∧ (∀ i, i ≠ f.loop → e.loop i = d.loop i) ∧
      e = { d with out := e.out, fld := { d.fld with loops := e.fld.loops, ports := e.fld.ports } } := by
  obtain ⟨g, hg, hseq⟩ := (d.updFport p h).loopSent_eq f w
  dsimp only
  rw [hg]
  have port : ((d.updFport p h).updLoop f.loop g).fport p = h (d.fport p) := Die.updFport_fport_self d p h wp
  have ports (i : Nat) (hi : i ≠ p) : ((d.updFport p h).updLoop f.loop g).fport i = d.fport i := Die.updFport_fport_ne d p h wp hi
  have loop : (((d.updFport p h).updLoop f.loop g).loop f.loop).seq = (d.loop f.loop).seq + 1 :=
    (congrArg Loop.seq (Die.updLoop_loop_self (d.updFport p h) f.loop g w)).trans (hseq _)
  have loops (i : Nat) (hi : i ≠ f.loop) : ((d.updFport p h).updLoop f.loop g).loop i = d.loop i :=
    Die.updLoop_loop_ne (d.updFport p h) f.loop g w hi
  have wf : Tab.wf {} ((d.updFport p h).updLoop f.loop g).fld.ports = true := Die.wf_updFport d p h wp
  have only : (d.updFport p h).updLoop f.loop g = { d with fld := { d.fld with
      loops := ((d.updFport p h).updLoop f.loop g).fld.loops, ports := ((d.updFport p h).updLoop f.loop g).fld.ports } } := rfl
  generalize (d.updFport p h).updLoop f.loop g = d1 at *
  have now : d1.fldNow = d.fldNow := by rw [only]; rfl
  rw [Die.portTx_eq, now]
  refine ⟨?_, ?_, fun i hi => ?_, loop, loops, ?_⟩
  · rw [only]
  · exact (Die.updFport_fport_self d1 p _ wf).trans (congrArg (FldPort.onWire · d.fldNow) port)
  · exact (Die.updFport_fport_ne d1 p _ wf hi).trans (ports i hi)
  · rw [only]; rfl
end

section
variable (d : Die) (p : Nat)

/-- Every pending deadline of another loop of the port lies after the end of a frame that would start now. -/
def Die.wireClear (own : Option Nat) : Prop :=
  ∀ i, i < 8 → (d.loop i).enable = true → (d.loop i).msg = false → (d.loop i).port.toNat = p → own ≠ some i →
    d.baseNow (d.loop i).ptp + frameSlotNs (d.fport p).rate.toNat < d.pendingDue (d.loop i)

theorem Die.mayStart_iff (own : Option Nat) : d.mayStart p own = true ↔ d.wireClear p own := by
  unfold Die.mayStart Die.wireClear
  simp only [List.all_eq_true, List.mem_range, Bool.or_eq_true, Bool.not_eq_true', Bool.and_eq_false_iff, decide_eq_true_eq,
    decide_eq_false_iff_not]
  refine forall_congr' fun i => forall_congr' fun _ => ?_
  cases (d.loop i).enable <;> cases (d.loop i).msg <;> simp [imp_iff_not_or, or_assoc]

variable {d} {p}

theorem Die.portStart_off (h : (d.fport p).enable = false ∨ d.fldRuns = false ∨ d.fldNow < (d.fport p).wireFree) : d.portStart p = d := by
  refine if_neg fun hc => ?_
  obtain ⟨he, hr, hw⟩ := hc
  rcases h with h | h | h
  · rw [h] at he; exact Bool.false_ne_true he
  · rw [h] at hr; exact Bool.false_ne_true hr
  · omega

section
variable (he : (d.fport p).enable = true) (hr : d.fldRuns = true) (hw : (d.fport p).wireFree ≤ d.fldNow)
include he hr hw

theorem Die.portStart_guard {f : TxFrame} {rest : List TxFrame} (hg : (d.fport p).guards = f :: rest) :
    d.portStart p = ((d.updFport p fun x => { x with guards := rest }).loopSent f).portTx p ((d.loop f.loop).bytes f d.time.stamp) := by
  unfold Die.portStart
  dsimp only
  rw [if_pos ⟨he, hr, hw⟩, hg]

theorem Die.portStart_cmd {f : TxFrame} {rest : List TxFrame} (hg : (d.fport p).guards = []) (hc : (d.fport p).cmds = f :: rest) :
    d.portStart p = if d.mayStart p (some f.loop) then
      ((d.updFport p fun x => { x with cmds := rest }).loopSent f).portTx p ((d.loop f.loop).bytes f d.time.stamp) else d := by
  unfold Die.portStart
  dsimp only
  rw [if_pos ⟨he, hr, hw⟩, hg, hc]

theorem Die.portStart_heartbeat (hg : (d.fport p).guards = []) (hc : (d.fport p).cmds = []) :
    d.portStart p = if decide (0 < (d.fport p).hbDue) && d.mayStart p none then
      (d.updFport p fun x => { x with hbDue := x.hbDue - 1, hbSeq := x.hbSeq + 1 }).portTx p
        (buildFrame 0xC4 0xF false (d.fport p).hbSeq.toNat d.time.stamp (d.heartbeat p)) else d := by
  unfold Die.portStart
  dsimp only
  rw [if_pos ⟨he, hr, hw⟩, hg, hc]
  rfl
end

/-- A port's HEARTBEAT takes the wire. -/
theorem Die.portTx_updFport (wp : Tab.wf {} d.fld.ports = true) (h : FldPort → FldPort) (bytes : List Byte) :
    (d.updFport p h).portTx p bytes =
      { d.updFport p fun x => (h x).onWire d.fldNow with out := .field p bytes :: d.out } := by
  rw [Die.portTx_eq]
  have both : (d.updFport p h).updFport p (fun x => x.onWire d.fldNow) = d.updFport p fun x => (h x).onWire d.fldNow :=
    Die.updFport_updFport d p h _ wp
  exact congrArg (fun e : Die => { e with out := .field p bytes :: d.out }) both
end

/-- The transmitter of a port. -/
theorem txFrameStart_port {s : State} {p : Fin 5} {credits : Nat} (hp : p.val < 4) {d : Die} (h : s.die.portStart p.val = d) :
    Answers (.txFrameStart p credits) s d := answers_of_act (exec_txFrameStart p credits s) ((if_pos hp).trans h)

/-- The transmitter of the loop messages. -/
theorem txFrameStart_messages {s : State} {credits : Nat} {d : Die} (h : (s.die.msgCreditsBack credits).msgStart = d) :
    Answers (.txFrameStart 4 credits) s d := answers_of_act (exec_txFrameStart 4 credits s) ((if_neg (by decide)).trans h)

/-! ### Loop messages (R393) -/

section
variable {d : Die} {f : TxFrame}

theorem Die.msgStart_none (h : d.fld.msgCredits = 0) : d.msgStart = d := if_pos (Or.inl h)

theorem Die.msgStart_guard (hc : d.fld.msgCredits ≠ 0) (hr : d.fldRuns = true) (hm : d.mainline = true) {rest : List TxFrame}
    (hg : d.fld.msgGuards = f :: rest) : d.msgStart = Die.msgTx { d with fld := { d.fld with msgGuards := rest } } f := by
  unfold Die.msgStart
  rw [if_neg (by rw [hr, hm]; simpa using hc), hg]

theorem Die.msgStart_cmd (hc : d.fld.msgCredits ≠ 0) (hr : d.fldRuns = true) (hm : d.mainline = true) {rest : List TxFrame}
    (hg : d.fld.msgGuards = []) (hq : d.fld.msgCmds = f :: rest) :
    d.msgStart = Die.msgTx { d with fld := { d.fld with msgCmds := rest } } f := by
  unfold Die.msgStart
  rw [if_neg (by rw [hr, hm]; simpa using hc), hg, hq]

/-- A loop message takes one credit and its loop's sequence number. -/
theorem Die.msgTx_sends (w : Tab.wf {} d.fld.loops = true) :
    (d.msgTx f).fld.msgGuards = d.fld.msgGuards ∧ (d.msgTx f).fld.msgCmds = d.fld.msgCmds ∧
      (d.msgTx f).fld.msgCredits = d.fld.msgCredits - 1 ∧ ((d.msgTx f).loop f.loop).seq = (d.loop f.loop).seq + 1 ∧
      (d.msgTx f).out = .loopMsg (d.loop f.loop).mch ((d.loop f.loop).bytes f d.time.stamp) :: d.out := by
  obtain ⟨g, hg, hseq⟩ := Die.loopSent_eq { d with fld := { d.fld with msgCredits := d.fld.msgCredits - 1 } } f w
  unfold Die.msgTx
  dsimp only
  rw [hg]
  exact ⟨rfl, rfl, rfl, (congrArg Loop.seq (Die.updLoop_loop_self _ f.loop g w)).trans (hseq _), rfl⟩
end

/-- Settles O37: each command of a loop by what it does when its event is due. -/
theorem loopPeriodsCommandsAndGuards : Obligations.LoopPeriodsCommandsAndGuards := by
  intro s n w wp d l k now popped guarded served
  refine ⟨?_, ?_, ?_, ?_⟩
  · intro he hr hs hk
    have begun (P : Loop → Prop) (h : P (l.nextPeriod k (d.dawnBlocks n.val))) :
        P ((d.updLoop n.val fun l => l.nextPeriod k (d.dawnBlocks n.val)).loop n.val) := by
      rw [Die.updLoop_loop_self d _ _ w]; exact h
    have lowest : (∀ j, j < n.val → ¬ d.dawnOf j = true) ↔
        ∀ j, j < n.val → ¬ ((d.loop j).enable = true ∧ d.dawnServes (d.loop j) = true) :=
      forall_congr' fun j => forall_congr' fun _ => not_congr (by unfold Die.dawnOf; rw [Bool.and_eq_true])
    refine ⟨_, periodStart_answers w he hr hs rfl hk, begun (·.k = k) rfl, begun (·.inPeriod = true) rfl, begun (·.served = false) rfl,
      begun (·.ready = false) rfl, begun (·.taken = false) rfl, fun j hj => Die.updLoop_loop_ne d n.val _ w hj,
      begun (fun m => m.fifo = _) ?_, ?_, d.dawnRun_counts⟩
    · show (l.beginPeriod k l.inPeriod).fifo ++ d.dawnBlocks n.val = _
      obtain ⟨-, -, -, -, hfifo⟩ := l.beginPeriod_kept k l.inPeriod
      rw [hfifo]; rfl
    · have flint : (if d.dawnServes l = true ∧ ∀ j, j < n.val → ¬ d.dawnOf j = true then d.dawnRun.fln else d.fln) =
          if d.dawnServes l = true ∧ ∀ j, j < n.val → ¬ ((d.loop j).enable = true ∧ d.dawnServes (d.loop j) = true) then d.dawnRun.fln
          else d.fln := if_congr (and_congr_right fun _ => lowest) rfl rfl
      exact congrArg (fun x => { d.updLoop n.val fun l => l.nextPeriod k (d.dawnBlocks n.val) with fln := x }) flint
  · intro h
    refine answers_of_act (exec_periodStart n s) (if_neg fun hc => ?_)
    obtain ⟨-, hb⟩ := Bool.and_eq_true_iff.1 hc
    exact absurd (of_decide_eq_true hb) (Int.not_le.2 h)
  · exact commandArrival_none
  · intro own
    have ofPopped (rest : List (Nat × List Byte)) : (popped rest).loop n.val = { l with fifo := rest } := Die.updLoop_loop_self d _ _ w
    have owns (slot : Nat) (rest : List (Nat × List Byte)) : (popped rest).ownBlock n.val slot ↔ own slot := by
      unfold Die.ownBlock
      rw [ofPopped]
      rfl
    have takes (rest : List (Nat × List Byte)) : (popped rest).inTime n.val ↔ d.inTime n.val := by
      unfold Die.inTime
      rw [ofPopped]
      rfl
    refine ⟨fun slot block rest hf ho => ?_, ?_, ?_, ?_, ?_, ?_, ?_, ?_⟩
    · exact commandArrival_answers hf (Die.arrive_foreign fun h => ho ((owns slot rest).1 h))
    · intro slot block rest hf ho inTime f took
      have taken : (popped rest).updLoop n.val (fun l => { l with taken := true, ready := true }) = took := Die.updLoop_updLoop d _ _ _ w
      have arrives (ht : inTime) : (popped rest).arrive n.val slot block = took.queueCmd l f := by
        rw [Die.arrive_taken ((owns slot rest).2 ho) ((takes rest).2 ht), taken, ofPopped]
        rfl
      refine ⟨fun ht hm => commandArrival_answers hf ((arrives ht).trans (if_neg ?_)),
        fun ht hm => commandArrival_answers hf ((arrives ht).trans (if_pos hm)), fun ht => commandArrival_answers hf ?_⟩
      · rw [hm]; exact Bool.false_ne_true
      · rw [Die.arrive_late ((owns slot rest).2 ho) fun h => ht ((takes rest).1 h)]
        have late : (popped rest).loopLate n.val = if d.loopConf l then popped rest
            else (popped rest).updLoop n.val fun l => { l with late := satInc32 l.late 1 } := by
          unfold Die.loopLate Die.loopCount
          rw [ofPopped]
          rfl
        have confidential : d.loopConf l = true ↔ l.slot ≠ 0x3F ∧ d.isConf l.slot.toNat = true := by
          unfold Die.loopConf Loop.unbound
          simp only [Bool.and_eq_true, Bool.not_eq_true', beq_eq_false_iff_ne]
        rw [late, Die.updLoop_updLoop d _ _ _ w]
        exact if_congr confidential rfl rfl
    · intro he hr hp hs hd
      have act {e : Die} (h : d.serveDeadline n.val = e) : Answers (.deadline n) s e := deadline_answers he hr hp hs hd h
      refine ⟨fun h => act (Die.serveDeadline_safe h), fun h hready => act (Die.serveDeadline_ready w h hready), ?_⟩
      intro h hready c safe t
      refine act ((Die.serveDeadline_miss w h hready).trans ?_)
      have type : l.missType c = t := l.missType_eq c
      have payload : (if t = 0xC3 then d.safePayload n.val else l.lastCmd) = if safe then d.safePayload n.val else l.lastCmd :=
        if_congr (by by_cases hsafe : safe <;> simp [t, hsafe]) rfl rfl
      dsimp only
      rw [show (d.loop n.val).missType ((d.loop n.val).consec + 1) = t from type, payload]
      rfl
    · exact deadline_early
    · intro p credits hp x clear wire sends
      have act {e : Die} (h : d.portStart p.val = e) : Answers (.txFrameStart p credits) s e := txFrameStart_port hp h
      have starts (f : TxFrame) (h : FldPort → FldPort) (hx : (h x).onWire d.fldNow = wire (h x))
          (hs : d.portStart p.val = ((d.updFport p.val h).loopSent f).portTx p.val ((d.loop f.loop).bytes f d.time.stamp)) :
          sends f (h x) := by
        obtain ⟨out, port, ports, loop, loops, only⟩ := Die.frameStarts (p := p.val) (f := f) (h := h) w wp ((d.loop f.loop).bytes f d.time.stamp)
        exact ⟨_, act hs, out, port.trans hx, ports, loop, loops, only⟩
      refine ⟨fun h => act (Die.portStart_off h), fun he hr hw => ⟨fun f rest hg => ?_, fun f rest hg hc => ⟨fun hclear => ?_, fun hclear => ?_⟩,
        fun hg hc => ⟨fun hdue hclear => ?_, fun h => ?_⟩⟩⟩
      · exact starts f (fun x => { x with guards := rest }) rfl (Die.portStart_guard he hr hw hg)
      · exact starts f (fun x => { x with cmds := rest }) rfl
          ((Die.portStart_cmd he hr hw hg hc).trans (if_pos ((d.mayStart_iff p.val _).2 hclear)))
      · exact act ((Die.portStart_cmd he hr hw hg hc).trans (if_neg fun h => hclear ((d.mayStart_iff p.val _).1 h)))
      · have started : (decide (0 < x.hbDue) && d.mayStart p.val none) = true := by
          rw [(d.mayStart_iff p.val none).2 hclear, decide_eq_true hdue]; rfl
        refine act ((Die.portStart_heartbeat he hr hw hg hc).trans ((if_pos started).trans ((Die.portTx_updFport wp _ _).trans ?_)))
        have taken : d.updFport p.val (fun x => FldPort.onWire { x with hbDue := x.hbDue - 1, hbSeq := x.hbSeq + 1 } d.fldNow) =
            d.updFport p.val fun x => wire { x with hbDue := x.hbDue - 1, hbSeq := x.hbSeq + 1 } := Die.updFport_congr d p.val _ _ rfl
        rw [taken]
      · refine act ((Die.portStart_heartbeat he hr hw hg hc).trans (if_neg fun hc => ?_))
        obtain ⟨hdue, hmay⟩ := Bool.and_eq_true_iff.1 hc
        rcases h with h | h
        · exact Nat.ne_of_gt (of_decide_eq_true hdue) h
        · exact h ((d.mayStart_iff p.val none).1 hmay)
    · intro h
      have back : d.msgCreditsBack 0 = d := by
        unfold Die.msgCreditsBack
        rw [Nat.add_zero, h, Nat.min_eq_right (Nat.zero_le 4), ← h]
      exact txFrameStart_messages (back.symm ▸ Die.msgStart_none h)
    · intro f rest credits hcredits hr hm hq
      have held : (d.msgCreditsBack credits).fld.msgCredits = min 4 (d.fld.msgCredits + credits) := rfl
      have credit : (d.msgCreditsBack credits).fld.msgCredits ≠ 0 := by rw [held]; omega
      by_cases hg : d.fld.msgGuards = f :: rest
      · obtain ⟨guards, cmds, left, seq, out⟩ := Die.msgTx_sends
          (d := { d.msgCreditsBack credits with fld := { (d.msgCreditsBack credits).fld with msgGuards := rest } }) (f := f) w
        refine ⟨_, txFrameStart_messages (Die.msgStart_guard credit hr hm hg), fun _ => ⟨guards, cmds⟩, fun h => ?_, ?_, seq, out⟩
        · rw [hg] at h; exact absurd h (List.cons_ne_nil _ _)
        · rw [left]; show (d.msgCreditsBack credits).fld.msgCredits - 1 + 1 = _; omega
      · obtain ⟨hnone, hc⟩ := hq.resolve_left hg
        obtain ⟨guards, cmds, left, seq, out⟩ := Die.msgTx_sends
          (d := { d.msgCreditsBack credits with fld := { (d.msgCreditsBack credits).fld with msgCmds := rest } }) (f := f) w
        refine ⟨_, txFrameStart_messages (Die.msgStart_cmd credit hr hm hnone hc), fun h => absurd h hg,
          fun _ => ⟨guards.trans hnone, cmds⟩, ?_, seq, out⟩
        rw [left]; show (d.msgCreditsBack credits).fld.msgCredits - 1 + 1 = _; omega
    · intro p t ht
      refine answers_of_act (exec_heartbeatDue p s) ?_
      rw [show (s.die.fport p.val).hbNext = some t from ht]

end Sys2Proof.Machine
end

section
/-! FACTS. A cycle of the lane groups: results on their way, counters, cursors. -/

namespace Sys2Proof.Machine

/-! ### What the lane groups change -/

/-- From `d` to `e` only the lane groups' state, cursors and the lane groups' counters have changed. -/
def Die.LaneOnly (d e : Die) : Prop := e = { d with
  vec := e.vec, iss := { d.iss with cursors := e.iss.cursors },
  te0 := { d.te0 with vecCycles := e.te0.vecCycles, vecSat := e.te0.vecSat, cvtSat := e.te0.cvtSat, nanVcvt := e.te0.nanVcvt },
  te1 := { d.te1 with vecCycles := e.te1.vecCycles, vecSat := e.te1.vecSat, cvtSat := e.te1.cvtSat, nanVcvt := e.te1.nanVcvt } }

/-- An update of an engine that changes the lane groups' counters only. -/
def Engine.LaneCounts (f : Engine → Engine) : Prop := ∀ x, f x = { x with
  vecCycles := (f x).vecCycles, vecSat := (f x).vecSat, cvtSat := (f x).cvtSat, nanVcvt := (f x).nanVcvt }

theorem Engine.LaneCounts.unless {f : Engine → Engine} (h : Engine.LaneCounts f) (c : Bool) :
    Engine.LaneCounts fun e => if c then e else f e := by
  intro x; cases c
  · exact h x
  · rfl

namespace Die.LaneOnly
variable {d e x : Die}

theorem refl (d : Die) : d.LaneOnly d := rfl

theorem trans (h : d.LaneOnly e) (g : e.LaneOnly x) : d.LaneOnly x := by
  unfold Die.LaneOnly at *
  exact g.trans (by rw [h])

theorem vec (h : d.LaneOnly e) (v : VecState) : d.LaneOnly { e with vec := v } := h.trans rfl

theorem advance (h : d.LaneOnly e) (s unit idx n : Nat) : d.LaneOnly (e.advance s unit idx n) := by
  obtain ⟨c, hc⟩ := e.advance_eq s unit idx n
  rw [hc]; exact h.trans rfl

theorem updTe (h : d.LaneOnly e) (n : Nat) {f : Engine → Engine} (hf : Engine.LaneCounts f) : d.LaneOnly (e.updTe n f) := by
  refine h.trans ?_
  unfold Die.LaneOnly Die.updTe
  split
  · exact congrArg (fun x => { e with te0 := x }) (hf e.te0)
  · exact congrArg (fun x => { e with te1 := x }) (hf e.te1)

end Die.LaneOnly

/-- From `d` to `e` the lane groups have sent the results `l` on their way; the factors of VMERGE stand when `keep` holds. -/
structure Die.Lands (l : List Landing) (keep : Prop) (d e : Die) : Prop where
  only : d.LaneOnly e
  same : d.SameOperands e
  landings : e.vec.landings = d.vec.landings ++ l
  factors : keep → e.vec.factors = d.vec.factors

namespace Die.Lands
variable {d e x : Die} {l m : List Landing} {keep : Prop}

theorem refl (keep : Prop) (d : Die) : d.Lands [] keep d := ⟨.refl d, .refl d, (List.append_nil _).symm, fun _ => rfl⟩

theorem trans (h : d.Lands l keep e) (g : e.Lands m keep x) : d.Lands (l ++ m) keep x where
  only := h.only.trans g.only
  same := h.same.trans g.same
  landings := by rw [g.landings, h.landings, List.append_assoc]
  factors k := (g.factors k).trans (h.factors k)

theorem updTe (h : d.Lands l keep e) (n : Nat) {f : Engine → Engine} (hf : Engine.LaneCounts f) : d.Lands l keep (e.updTe n f) where
  only := h.only.updTe n hf
  same := h.same.updTe n f
  landings := (congrArg VecState.landings (by unfold Die.updTe; split <;> rfl)).trans h.landings
  factors k := (congrArg VecState.factors (by unfold Die.updTe; split <;> rfl)).trans (h.factors k)

theorem countUnless (h : d.Lands l keep e) (s n : Nat) {f : Engine → Engine} (hf : Engine.LaneCounts f) :
    d.Lands l keep (e.countUnless s fun d => d.updTe n f) := by
  rw [Die.countUnless_updTe]; exact h.updTe n (hf.unless _)

/-- The groups of a cycle one after the other: each finds the operands that the cycle found. -/
theorem groups {each : Nat → Die → Die} {land : Nat → List Landing} : ∀ {gs : List Nat} {e : Die} {l : List Landing}, d.Lands l keep e →
    (∀ g ∈ gs, ∀ x, d.SameOperands x → (keep → x.vec.factors = d.vec.factors) → x.Lands (land g) keep (each g x)) →
    d.Lands (l ++ gs.flatMap land) keep (forIn' gs each e)
  | [], e, l, h, _ => by rw [List.flatMap_nil, List.append_nil]; exact h
  | g :: gs, e, l, h, hg => by
    have first := h.trans (hg g List.mem_cons_self e h.same h.factors)
    rw [List.flatMap_cons, ← List.append_assoc]
    exact first.groups fun k hk => hg k (List.mem_cons_of_mem g hk)

end Die.Lands

/-! ### Results on their way -/

/-- A result that a slot-2 operation sends on its way in the present cycle. -/
def Die.landing (d : Die) (s op space : Nat) (a : Int) (data : List Byte) : Landing :=
  { ready := d.iss.cyc + vLatency op - 1, entry := d.iss.cyc, slot := s, space := space, addr := a.toNat, data := data }

section
variable {d e : Die} {keep : Prop} (same : d.SameOperands e) {s op : Nat}
include same

theorem Die.vland_lands {space : Nat} {a : Int} {data : List Byte} (hg : d.granted s space a data.length = true) :
    e.Lands [d.landing s op space a data] keep (e.vland s op space a data) := by
  unfold Die.vland
  rw [same.granted, hg, if_pos rfl, same.cyc]
  exact ⟨(Die.LaneOnly.refl e).vec _, ⟨rfl, rfl, rfl, rfl⟩, rfl, fun _ => rfl⟩

/-- A fold into AMAX_CUR. -/
theorem Die.vfold_lands {space : Nat} {a : Int} {m : FVal} (hg : d.granted s space a 4 = true) :
    e.Lands [d.landing s op (space + 16) a (leBytes 4 (enc32 m))] keep (e.vfold s op space a m) := by
  unfold Die.vfold
  rw [same.granted, hg, if_pos rfl, same.cyc]
  exact ⟨(Die.LaneOnly.refl e).vec _, ⟨rfl, rfl, rfl, rfl⟩, rfl, fun _ => rfl⟩

variable {dst g bits : Nat} (hr : (d.prog s 5 dst).rows ≠ 0)
include hr

theorem Die.landRowOf_lands {codes : List Nat}
    (hg : d.granted s (g / 8 + 1) ((d.prog s 5 dst).rowAddr (d.row s 5 dst) + groupShift (d.prog s 5 dst) g)
      ((packCodes bits codes).take (d.prog s 5 dst).rowb).length = true) :
    e.Lands [d.landing s op (g / 8 + 1) ((d.prog s 5 dst).rowAddr (d.row s 5 dst) + groupShift (d.prog s 5 dst) g)
      ((packCodes bits codes).take (d.prog s 5 dst).rowb)] keep (e.landRowOf s op dst g bits codes) := by
  unfold Die.landRowOf
  dsimp only
  rw [same.prog, same.row, if_neg hr]
  exact Die.vland_lands same hg

theorem Die.landElem_lands {code : Nat}
    (hg : d.granted s (g / 8 + 1) ((d.prog s 5 dst).rowAddr (d.row s 5 dst) + (g * (bits / 8) : Nat)) (packCodes bits [code]).length = true) :
    e.Lands [d.landing s op (g / 8 + 1) ((d.prog s 5 dst).rowAddr (d.row s 5 dst) + (g * (bits / 8) : Nat)) (packCodes bits [code])] keep
      (e.landElem s op dst g bits code) := by
  unfold Die.landElem
  dsimp only
  rw [same.prog, same.row, if_neg hr]
  exact Die.vland_lands same hg
end

theorem Die.countVecSat_lands {keep : Prop} (e : Die) (s side n : Nat) : e.Lands [] keep (e.countVecSat s side n) :=
  (Die.Lands.refl keep e).countUnless s side fun _ => rfl

theorem Die.countCvt_lands {keep : Prop} (e : Die) (s side n : Nat) (nan : Bool) : e.Lands [] keep (e.countCvt s side n nan) :=
  (Die.Lands.refl keep e).countUnless s side fun _ => rfl

/-! ### The operands of a group -/

namespace Die.SameOperands
variable {d e : Die} (h : d.SameOperands e)
include h

theorem groupRow (s idx g : Nat) : e.groupRow s idx g = d.groupRow s idx g := by
  unfold Die.groupRow; rw [h.prog, h.row, h.fetchRow]

theorem groupVals (s idx g : Nat) : e.groupVals s idx g = d.groupVals s idx g := by
  unfold Die.groupVals; rw [h.prog, h.groupRow]

theorem operandB (r : Run) (w : Nat) (f : Fmt) (g : Nat) : e.operandB r w f g = d.operandB r w f g := by
  unfold Die.operandB; rw [h.groupVals]

theorem blockScale (s space : Nat) (p : Prog) (a : Option Int) : e.blockScale s space p a = d.blockScale s space p a := by
  unfold Die.blockScale
  cases a with
  | none => rfl
  | some a => simp only [h.slotRead]

theorem cvtSource (r : Run) (w g : Nat) : e.cvtSource r w g = d.cvtSource r w g := by
  unfold Die.cvtSource Die.rowScales
  simp only [h.prog, h.groupRow, h.blockScale]

end Die.SameOperands

/-! ### A cycle -/

/-- A cycle of a slot-2 operation whose sources have rows. -/
theorem Die.vectorCycle_lands {d : Die} {r : Run} {op w : Nat} {each : Nat → Die → Die} {keep : Prop} {land : Nat → List Landing}
    (hs : ∀ i ∈ vSources op w (d.prog r.slot 5 (vA w)).hadStage, (d.prog r.slot 5 i).rows ≠ 0)
    (hg : ∀ g ∈ vSelected w, ∀ x, d.SameOperands x → (keep → x.vec.factors = d.vec.factors) → x.Lands (land g) keep (each g x)) :
    (d.vectorCycle r op w each).vec.landings = d.vec.landings ++ (vSelected w).flatMap land ∧
      (keep → (d.vectorCycle r op w each).vec.factors = d.vec.factors) ∧ d.LaneOnly (d.vectorCycle r op w each) := by
  have full : ((vSources op w (d.prog r.slot 5 (vA w)).hadStage).any fun i => decide ((d.prog r.slot 5 i).rows = 0)) = false := by
    simpa using hs
  have counts (k : Nat) {e : Die} (h : d.Lands [] keep e) (b : Bool) :
      d.Lands [] keep (if b then e.countUnless r.slot fun d => d.updTe k fun e => { e with vecCycles := inc64 e.vecCycles 1 } else e) := by
    cases b
    · exact h
    · exact h.countUnless r.slot k fun _ => rfl
  have moves (l : List Nat) (e : Die) : e.LaneOnly (l.foldl (fun d i => d.advance r.slot 5 i 1) e) ∧
      (l.foldl (fun d i => d.advance r.slot 5 i 1) e).vec = e.vec := by
    induction l generalizing e with
    | nil => exact ⟨.refl e, rfl⟩
    | cons i l ih =>
      obtain ⟨only, vec⟩ := ih (e.advance r.slot 5 i 1)
      obtain ⟨c, hc⟩ := e.advance_eq r.slot 5 i 1
      exact ⟨((Die.LaneOnly.refl e).advance _ _ _ _).trans only, vec.trans (by rw [hc])⟩
  unfold Die.vectorCycle
  dsimp only
  rw [full]
  simp only [Bool.and_false, Bool.false_eq_true, if_false]
  have sent := (counts 1 (counts 0 (.refl keep d) ((vSelected w).any fun g => decide (g / 8 = 0)))
    ((vSelected w).any fun g => decide (g / 8 = 1))).groups hg
  generalize forIn' (vSelected w) each _ = e at sent ⊢
  obtain ⟨only, vec⟩ := moves (vProgs op w (d.prog r.slot 5 (vA w)).hadStage) e
  exact ⟨(congrArg VecState.landings vec).trans sent.landings, fun k => (congrArg VecState.factors vec).trans (sent.factors k),
    sent.only.trans only⟩

end Sys2Proof.Machine
end

section
/-! O17: the element-wise operations of the lane groups. -/

namespace Sys2Proof.Machine

/-- The result row of group `g`: what its destination row holds of the lanes. -/
def Die.rowLanding (d : Die) (s op dst g bits : Nat) (codes : List Nat) : Landing :=
  d.landing s op (g / 8 + 1) ((d.prog s 5 dst).rowAddr (d.row s 5 dst) + groupShift (d.prog s 5 dst) g)
    ((packCodes bits codes).take (d.prog s 5 dst).rowb)

/-- Its result element, when the operation gives one. -/
def Die.elemLanding (d : Die) (s op dst g bits code : Nat) : Landing :=
  d.landing s op (g / 8 + 1) ((d.prog s 5 dst).rowAddr (d.row s 5 dst) + (g * (bits / 8) : Nat)) (packCodes bits [code])

/-- The result of group `g` lies in the grant. -/
def Die.rowGranted (d : Die) (s dst g bits : Nat) (codes : List Nat) : Prop :=
  d.granted s (g / 8 + 1) ((d.prog s 5 dst).rowAddr (d.row s 5 dst) + groupShift (d.prog s 5 dst) g)
    ((packCodes bits codes).take (d.prog s 5 dst).rowb).length = true

def Die.elemGranted (d : Die) (s dst g bits code : Nat) : Prop :=
  d.granted s (g / 8 + 1) ((d.prog s 5 dst).rowAddr (d.row s 5 dst) + (g * (bits / 8) : Nat)) (packCodes bits [code]).length = true

section
variable {d x : Die} (same : d.SameOperands x) {keep : Prop} {r : Run} {w : Nat} {f : Fmt} {g : Nat}
include same

/-- A count of saturated lanes, then the result row. -/
theorem Die.counted_lands {y : Die} (counted : x.Lands [] keep y) {op bits : Nat} {codes : List Nat}
    (hr : (d.prog r.slot 5 (vDst w)).rows ≠ 0) (hg : d.rowGranted r.slot (vDst w) g bits codes) :
    x.Lands [d.rowLanding r.slot op (vDst w) g bits codes] keep (y.landRowOf r.slot op (vDst w) g bits codes) :=
  counted.trans (Die.landRowOf_lands (same.trans counted.same) hr hg)

/-- The two-operand operations on one group. -/
theorem Die.vElem_lands {op : Nat} {a b dd : List FVal} (ha : d.groupVals r.slot (vA w) g = (a, false))
    (hb : d.operandB r w f g = (b, false)) (hd : (if op = 3 then d.groupVals r.slot (vDst w) g else ([], false)) = (dd, false))
    (hr : (d.prog r.slot 5 (vDst w)).rows ≠ 0)
    (hg : d.rowGranted r.slot (vDst w) g f.bits
      ((List.range lanes).map fun i => (lane2 op f (nth .zero a i) (nth .zero b i) (nth .zero dd i)).1)) :
    x.Lands [d.rowLanding r.slot op (vDst w) g f.bits
      ((List.range lanes).map fun i => (lane2 op f (nth .zero a i) (nth .zero b i) (nth .zero dd i)).1)] keep (Die.vElem r op w f g x) := by
  unfold Die.vElem
  simp only [same.groupVals, same.operandB, ha, hb, hd, Die.markRefused_false, List.map_map]
  refine Die.counted_lands same ?_ hr hg
  split
  · exact Die.countVecSat_lands x _ _ _
  · exact .refl keep x

/-- VRMAX and VRSUM on one group. -/
theorem Die.vReduce_lands {op : Nat} {a : List FVal} (ha : d.groupVals r.slot (vA w) g = (a, false))
    (hr : (d.prog r.slot 5 (vDst w)).rows ≠ 0)
    (hg : d.elemGranted r.slot (vDst w) g f.bits (narrow f (if op = 11 then rmax a else rsum f a)).code) :
    x.Lands [d.elemLanding r.slot op (vDst w) g f.bits (narrow f (if op = 11 then rmax a else rsum f a)).code] keep
      (Die.vReduce r op w f g x) := by
  unfold Die.vReduce
  simp only [same.groupVals, ha, Die.markRefused_false]
  exact Die.landElem_lands same hr hg

/-- VAMAX on one group gives an element, unless the destination names a record. -/
theorem Die.vAmax_lands {a : List FVal} (ha : d.groupVals r.slot (vA w) g = (a, false)) (hn : (d.prog r.slot 5 (vDst w)).record = false)
    (hr : (d.prog r.slot 5 (vDst w)).rows ≠ 0)
    (hg : d.elemGranted r.slot (vDst w) g f.bits (narrow f (rmax (a.map (laneAbs f)))).code) :
    x.Lands [d.elemLanding r.slot 13 (vDst w) g f.bits (narrow f (rmax (a.map (laneAbs f)))).code] keep (Die.vAmax r w f g x) := by
  unfold Die.vAmax
  simp only [same.groupVals, same.prog, ha, hn, Die.markRefused_false]
  exact Die.landElem_lands same hr hg

/-- With a record the magnitude is folded into AMAX_CUR, unless every lane is NaN. -/
theorem Die.vAmax_folds (ha : (d.groupVals r.slot (vA w) g).2 = false) (hn : (d.prog r.slot 5 (vDst w)).record = true)
    (hg : d.granted r.slot (vSide w + 1) ((d.prog r.slot 5 (vDst w)).sbase + 4 : Nat) 4 = true) :
    x.Lands (if (rmax ((d.groupVals r.slot (vA w) g).1.map (laneAbs f))).isNan then [] else
      [d.landing r.slot 13 (vSide w + 1 + 16) ((d.prog r.slot 5 (vDst w)).sbase + 4 : Nat)
        (leBytes 4 (enc32 (rmax ((d.groupVals r.slot (vA w) g).1.map (laneAbs f)))))]) keep (Die.vAmax r w f g x) := by
  unfold Die.vAmax
  simp only [same.groupVals, same.prog, ha, hn, Die.markRefused_false, if_true]
  split
  · exact .refl keep x
  · exact Die.vfold_lands same hg

/-- VCVT on one group, without record and block scales. -/
theorem Die.vCvt_lands {t : Fmt} {a : List FVal} (ht : cvtTarget w (d.prog r.slot 5 (vDst w)) = some t)
    (hb : ((d.prog r.slot 5 (vDst w)).swalk && t.blockable) = false) (ha : d.cvtSource r w g = (a, none, false))
    (hr : (d.prog r.slot 5 (vDst w)).rows ≠ 0)
    (hg : d.rowGranted r.slot (vDst w) g t.bits (a.map fun v => (narrow t v).code)) :
    x.Lands [d.rowLanding r.slot 10 (vDst w) g t.bits (a.map fun v => (narrow t v).code)] keep (Die.vCvt r w none g x) := by
  unfold Die.vCvt
  simp only [same.prog, ht, same.cvtSource, ha, hb, Die.markRefused_false, List.map_map]
  exact Die.counted_lands same (Die.countCvt_lands x _ _ _ _) hr hg

/-- VHAD on one group (R220): the sum with its partner, or its difference, within the row or with the row of SRC_B. -/
theorem Die.vHad_lands {a b : List FVal} (ha : d.groupVals r.slot (vA w) g = (a, false))
    (hb : 8 ≤ (d.prog r.slot 5 (vA w)).hadStage → d.groupVals r.slot (vB w) g = (b, false)) {lane : Nat → Nat}
    (hl : ∀ i, lane i = let s := (d.prog r.slot 5 (vA w)).hadStage
      if s < 8 then (laneResult f ((nth .zero a (i ^^^ 2 ^ s)).add (if bit i s then (nth .zero a i).neg else nth .zero a i))).1
      else (laneResult f ((nth .zero b i).add (if bit (d.row r.slot 5 (vA w)) (s - 8) then (nth .zero a i).neg else nth .zero a i))).1)
    (hr : (d.prog r.slot 5 (vDst w)).rows ≠ 0) (hg : d.rowGranted r.slot (vDst w) g f.bits ((List.range lanes).map lane)) :
    x.Lands [d.rowLanding r.slot 15 (vDst w) g f.bits ((List.range lanes).map lane)] keep (Die.vHad r w f g x) := by
  unfold Die.vHad
  simp only [same.prog, same.groupVals, ha]
  by_cases hs : (d.prog r.slot 5 (vA w)).hadStage < 8
  · simp only [hs, if_true, Die.markRefused_false, List.map_map]
    rw [show lane = _ from funext fun i => (hl i).trans (if_pos hs)] at hg ⊢
    exact Die.counted_lands same (Die.countVecSat_lands x _ _ _) hr hg
  · simp only [hs, if_false, hb (Nat.not_lt.1 hs), Die.markRefused_false, same.row, List.map_map]
    rw [show lane = _ from funext fun i => (hl i).trans (if_neg hs)] at hg ⊢
    exact Die.counted_lands same (Die.countVecSat_lands x _ _ _) hr hg

section
variable {a b : List FVal} (ha : d.groupVals r.slot (vA w) g = (a, false)) (hb : d.groupVals r.slot (vB w) g = (b, false))
  (hr : (d.prog r.slot 5 (vDst w)).rows ≠ 0)
include ha hb hr

/-- The first row of VMERGE on one group (R373): the greater of each pair, and the factors of the later rows. -/
theorem Die.vMerge_first (hc : r.firstCycle = true) (hk : ¬ keep)
    (hg : d.rowGranted r.slot (vDst w) g 32 ((List.range lanes).map fun i =>
      if (nth .zero a i).isNan || (nth .zero b i).isNan then 0x7FC00000 else enc32 (laneMax (nth .zero a i) (nth .zero b i)))) :
    x.Lands [d.rowLanding r.slot 14 (vDst w) g 32 ((List.range lanes).map fun i =>
      if (nth .zero a i).isNan || (nth .zero b i).isNan then 0x7FC00000 else enc32 (laneMax (nth .zero a i) (nth .zero b i)))] keep
      (Die.vMerge r w .fp32 g x) := by
  have factors (v : Nat → W32 × W32 × Bool) :
      x.Lands [] keep (forUpto lanes (fun i d => { d with vec := { d.vec with
        factors := Tab.write (0, 0, false) d.vec.factors (g * lanes + i) (v i) } }) x) :=
    foldl_pred (P := fun y => x.Lands [] keep y) (.refl keep x) fun y i _ hy =>
      hy.trans ⟨(Die.LaneOnly.refl y).vec _, ⟨rfl, rfl, rfl, rfl⟩, (List.append_nil _).symm, fun k => absurd k hk⟩
  unfold Die.vMerge
  simp only [same.groupVals, ha, hb, hc, if_true, Die.markRefused_false]
  exact Die.counted_lands same (factors _) hr hg

/-- A later row: the weighted sums by the factors that the first row has left. -/
theorem Die.vMerge_later (hc : r.firstCycle = false) (hx : x.vec.factors = d.vec.factors)
    (hg : d.rowGranted r.slot (vDst w) g 32 ((List.range lanes).map fun i =>
      let k := Tab.read (0, 0, false) d.vec.factors (g * lanes + i)
      if k.2.2 then 0x7FC00000 else if k.1 = 0x80000000 ∧ k.2.1 = 0x80000000 then 0
      else mergeRow k.1.toNat k.2.1.toNat (nth .zero a i) (nth .zero b i))) :
    x.Lands [d.rowLanding r.slot 14 (vDst w) g 32 ((List.range lanes).map fun i =>
      let k := Tab.read (0, 0, false) d.vec.factors (g * lanes + i)
      if k.2.2 then 0x7FC00000 else if k.1 = 0x80000000 ∧ k.2.1 = 0x80000000 then 0
      else mergeRow k.1.toNat k.2.1.toNat (nth .zero a i) (nth .zero b i))] keep (Die.vMerge r w .fp32 g x) := by
  unfold Die.vMerge
  simp only [same.groupVals, ha, hb, hc, hx, if_true, Die.markRefused_false]
  exact Die.counted_lands same (.refl keep x) hr hg
end

end

/-! ### The commands -/

/-- The element-wise operations but VCVT and VAMAX are one action, each with its group's. -/
theorem answers_vectorOp {s : State} {op : Nat} {c : Ecc → Instr} {each : Run → Nat → Fmt → Nat → Die → Die}
    (hc : ∀ e, exec (c e) s = s.act fun d => d.vectorOp op e each) {e : Ecc} {r : Run} {left : Nat} {todo : List Nat}
    (ha : Acting s 2 r left todo) (he : eccBad e = false) (ho : slotOp 2 (slotWord r.bundle 2) = op) {f : Fmt}
    (hf : vFmt (slotWord r.bundle 2) = some f) :
    Answers (c e) s (((Checked s e r).vectorCycle r op (slotWord r.bundle 2) (each r (slotWord r.bundle 2) f)).slotDone 2) := by
  have acts := (answers_slotAction (fun e => hc e) ha ho fun h4 => absurd h4 (by decide)).1 he
  rw [hf] at acts
  exact acts

/-- A cycle of VCVT without a record, none of whose blocks mismatches. -/
theorem answers_vcvt {s : State} {e : Ecc} {r : Run} {left : Nat} {todo : List Nat} (ha : Acting s 2 r left todo) (he : eccBad e = false)
    (ho : slotOp 2 (slotWord r.bundle 2) = 10)
    (hn : ((Checked s e r).prog r.slot 5 (vDst (slotWord r.bundle 2))).record = false)
    (hk : ∀ g ∈ vSelected (slotWord r.bundle 2), ((Checked s e r).cvtSource r (slotWord r.bundle 2) g).2.1 = none) :
    Answers (.vcvt e) s (((Checked s e r).vectorCycle r 10 (slotWord r.bundle 2) (Die.vCvt r (slotWord r.bundle 2) none)).slotDone 2) := by
  have acts := (answers_slotAction (fun e => exec_vcvt e s) ha ho fun h4 => absurd h4 (by decide)).1 he
  have scale : (Checked s e r).cvtScale r (slotWord r.bundle 2) ((Checked s e r).prog r.slot 5 (vDst (slotWord r.bundle 2))) =
      (Checked s e r, none) := if_neg (by rw [hn]; exact Bool.false_ne_true)
  have matched (side : Nat) : (Checked s e r).cvtSkew r (slotWord r.bundle 2) side = none := by
    unfold Die.cvtSkew
    split
    · rfl
    · exact List.findSome?_eq_none_iff.2 fun g hg => hk g (List.mem_filter.1 hg).1
  rw [scale, matched, matched] at acts
  exact acts

/-- A cycle of VAMAX; a record that the destination names is rolled first. -/
theorem answers_vamax {s : State} {e : Ecc} {r : Run} {left : Nat} {todo : List Nat} (ha : Acting s 2 r left todo) (he : eccBad e = false)
    (ho : slotOp 2 (slotWord r.bundle 2) = 13) {f : Fmt} (hf : vFmt (slotWord r.bundle 2) = some f) {d : Die}
    (hd : (if ((Checked s e r).prog r.slot 5 (vDst (slotWord r.bundle 2))).record then
      ((Checked s e r).rollFor r (slotWord r.bundle 2) ((Checked s e r).prog r.slot 5 (vDst (slotWord r.bundle 2)))).1
        else Checked s e r) = d) :
    Answers (.vamax e) s ((d.vectorCycle r 13 (slotWord r.bundle 2) (Die.vAmax r (slotWord r.bundle 2) f)).slotDone 2) := by
  have acts := (answers_slotAction (fun e => exec_vamax e s) ha ho fun h4 => absurd h4 (by decide)).1 he
  dsimp only at acts
  rw [hf] at acts
  dsimp only at acts
  rw [hd] at acts
  exact acts

/-- The latencies of R97, and the group's action of each operation. -/
theorem vector_ops {c : Ecc → Instr} {op lat : Nat} (h : (c, op, lat) ∈ [(Instr.vadd, 1, 4), (Instr.vmul, 2, 4), (Instr.vfma, 3, 4),
      (Instr.vmax, 4, 2), (Instr.vmin, 5, 2), (Instr.vcmpgt, 6, 2), (Instr.vcvt, 10, 6), (Instr.vrmax, 11, 8), (Instr.vrsum, 12, 8),
      (Instr.vamax, 13, 8), (Instr.vmerge, 14, 14), (Instr.vhad, 15, 4)]) (s : State) :
    lat = vLatency op ∧
      ((op ≤ 6 ∧ ∀ e, exec (c e) s = s.act fun d => d.vectorOp op e fun r w f => Die.vElem r op w f) ∨ (op = 10 ∧ c = .vcvt) ∨
        ((op = 11 ∨ op = 12) ∧ ∀ e, exec (c e) s = s.act fun d => d.vectorOp op e fun r w f => Die.vReduce r op w f) ∨
        (op = 13 ∧ c = .vamax) ∨ (op = 14 ∧ c = .vmerge) ∨ (op = 15 ∧ c = .vhad)) := by
  simp only [List.mem_cons, Prod.mk.injEq, List.not_mem_nil, or_false] at h
  rcases h with ⟨rfl, rfl, rfl⟩ | ⟨rfl, rfl, rfl⟩ | ⟨rfl, rfl, rfl⟩ | ⟨rfl, rfl, rfl⟩ | ⟨rfl, rfl, rfl⟩ | ⟨rfl, rfl, rfl⟩ | ⟨rfl, rfl, rfl⟩ |
    ⟨rfl, rfl, rfl⟩ | ⟨rfl, rfl, rfl⟩ | ⟨rfl, rfl, rfl⟩ | ⟨rfl, rfl, rfl⟩ | ⟨rfl, rfl, rfl⟩
  · exact ⟨rfl, .inl ⟨by decide, (exec_vadd · s)⟩⟩
  · exact ⟨rfl, .inl ⟨by decide, (exec_vmul · s)⟩⟩
  · exact ⟨rfl, .inl ⟨by decide, (exec_vfma · s)⟩⟩
  · exact ⟨rfl, .inl ⟨by decide, (exec_vmax · s)⟩⟩
  · exact ⟨rfl, .inl ⟨by decide, (exec_vmin · s)⟩⟩
  · exact ⟨rfl, .inl ⟨by decide, (exec_vcmpgt · s)⟩⟩
  · exact ⟨rfl, .inr (.inl ⟨rfl, rfl⟩)⟩
  · exact ⟨rfl, .inr (.inr (.inl ⟨.inl rfl, (exec_vrmax · s)⟩))⟩
  · exact ⟨rfl, .inr (.inr (.inl ⟨.inr rfl, (exec_vrsum · s)⟩))⟩
  · exact ⟨rfl, .inr (.inr (.inr (.inl ⟨rfl, rfl⟩)))⟩
  · exact ⟨rfl, .inr (.inr (.inr (.inr (.inl ⟨rfl, rfl⟩))))⟩
  · exact ⟨rfl, .inr (.inr (.inr (.inr (.inr ⟨rfl, rfl⟩))))⟩

/-- The roll of a record leaves programs, slots and the cycle alone. -/
theorem Die.rollFor_prog (d : Die) (r : Run) (w : Nat) (p : Prog) :
    (d.rollFor r w p).1.iss.cyc = d.iss.cyc ∧ ∀ s unit idx, (d.rollFor r w p).1.prog s unit idx = d.prog s unit idx := by
  have marked (b : Bool) : (d.markRefused b).ctx = d.ctx ∧ (d.markRefused b).st.ag = d.st.ag ∧ (d.markRefused b).iss.cyc = d.iss.cyc := by
    rw [Die.markRefused_eq, Die.setRun_eq]; exact ⟨rfl, rfl, rfl⟩
  have kept : (d.rollFor r w p).1.ctx = d.ctx ∧ (d.rollFor r w p).1.st.ag = d.st.ag ∧ (d.rollFor r w p).1.iss.cyc = d.iss.cyc := by
    unfold Die.rollFor
    dsimp only
    split
    · exact marked _
    · obtain ⟨ctx, ag, cyc⟩ := marked (d.slotRead r.slot (vSide w + 1) p.sbase 128).2
      refine ⟨ctx, Eq.trans ?_ ag, cyc⟩
      unfold Die.storeNow
      dsimp only
      rw [Stores.write_frame]
      rfl
  obtain ⟨ctx, ag, cyc⟩ := kept
  refine ⟨cyc, fun s unit idx => ?_⟩
  unfold Die.prog Die.slot Stores.prog
  rw [ctx, ag]

/-- Lists of at most one element each, one after the other. -/
theorem flatMap_unless {α β : Type} (p : α → Bool) (y : α → β) (l : List α) :
    (l.flatMap fun g => if p g then [] else [y g]) = (l.filter fun g => !p g).map y := by
  induction l with
  | nil => rfl
  | cons g l ih => cases hp : p g <;> simp [hp, ih]

theorem Die.cvtSource_length (d : Die) (r : Run) (w g : Nat) : (d.cvtSource r w g).1.length = 256 := by
  unfold Die.cvtSource
  dsimp only
  split <;> simp [rowCodes, lanes]

/-- The elements of a list, by their places. -/
theorem map_range_nth {α β : Type} (z : α) (l : List α) (f : α → β) : (List.range l.length).map (fun i => f (nth z l i)) = l.map f := by
  refine List.ext_getElem (by simp) fun i h _ => ?_
  have hi : i < l.length := by simpa using h
  simp [nth_eq_getD, hi]

/-- Settles O17: a cycle of the lane groups by the result that each group sends on its way. -/
theorem elementwiseVectorRowsLand : Obligations.ElementwiseVectorRowsLand := by
  intro s e c op lat r left todo f hacts he hc w ho hf hfp d pa q t two element as_ bs a b h k stage lane most bits data at_ shared hpa hb hq
    hops
  obtain ⟨rfl, ops⟩ := vector_ops hc s
  have sources : ∀ i ∈ vSources op w (d.prog r.slot 5 (vA w)).hadStage, (d.prog r.slot 5 i).rows ≠ 0 := by
    intro i hi
    unfold vSources at hi
    rcases List.mem_append.1 hi with hi | hi
    · rw [List.mem_singleton.1 hi]; exact hpa
    · split at hi
      · next htwo => rw [List.mem_singleton.1 hi]; exact hb htwo
      · exact absurd hi List.not_mem_nil
  refine ⟨fun hn hcvt hgrant => ?_, fun h13 hrec => ?_⟩
  · let X (g : Nat) : Landing :=
      { ready := d.iss.cyc + vLatency op - 1, entry := d.iss.cyc, slot := r.slot, space := g / 8 + 1, addr := (at_ g).toNat, data := data g }
    have sent (each : Nat → Die → Die) (hact : Answers (c e) s ((d.vectorCycle r op w each).slotDone 2))
        (hstep : ∀ g ∈ vSelected w, ∀ x, d.SameOperands x → (¬ (op = 14 ∧ r.firstCycle = true) → x.vec.factors = d.vec.factors) →
          x.Lands [X g] (¬ (op = 14 ∧ r.firstCycle = true)) (each g x)) :
        ∃ d1 : Die, Answers (c e) s (d1.slotDone 2) ∧ d1.vec.landings = d.vec.landings ++ (vSelected w).map X ∧
          (¬ (op = 14 ∧ r.firstCycle = true) → d1.vec.factors = d.vec.factors) ∧ shared d d1 := by
      obtain ⟨landings, factors, only⟩ := Die.vectorCycle_lands (keep := ¬ (op = 14 ∧ r.firstCycle = true)) sources hstep
      exact ⟨_, hact, landings.trans (by rw [List.map_eq_flatMap]), factors, only⟩
    have rowData (ho : op < 11 ∨ 13 < op) (g : Nat) : data g = (packCodes bits ((List.range 256).map (lane g))).take q.rowb :=
      (if_neg (by omega)).trans ((if_neg (by omega)).trans (if_neg (by omega)))
    have rowAt (ho : op < 11 ∨ 13 < op) (g : Nat) : at_ g = q.rowAddr (d.row r.slot 5 (vDst w)) + groupShift q g :=
      congrArg (q.rowAddr (d.row r.slot 5 (vDst w)) + ·) (if_neg (by simp [element]; omega))
    have elemAt (ho : 11 ≤ op ∧ op ≤ 13) (g : Nat) : at_ g = q.rowAddr (d.row r.slot 5 (vDst w)) + (g * (bits / 8) : Nat) :=
      congrArg (q.rowAddr (d.row r.slot 5 (vDst w)) + ·) (if_pos (decide_eq_true ho))
    have row (ho : op < 11 ∨ 13 < op) (g : Nat) : X g = d.rowLanding r.slot op (vDst w) g bits ((List.range 256).map (lane g)) := by
      show Landing.mk _ _ _ _ _ _ = _
      rw [rowData ho, rowAt ho]; rfl
    have rowOk (ho : op < 11 ∨ 13 < op) (g : Nat) (hg : g ∈ vSelected w) :
        d.rowGranted r.slot (vDst w) g bits ((List.range 256).map (lane g)) := by
      have ok := hgrant g hg
      rw [rowData ho, rowAt ho] at ok
      exact ok
    have granted (ho : op ≠ 10) (g : Nat) (hg : g ∈ vSelected w) : d.groupVals r.slot (vA w) g = (as_ g, false) := by
      obtain ⟨hA, -⟩ := hops g hg
      rw [if_neg ho] at hA
      exact Prod.ext (if_neg ho).symm hA
    have format (ho : op ≠ 10) : bits = f.bits := if_neg ho
    rcases ops with ⟨hop, hex⟩ | ⟨rfl, rfl⟩ | ⟨hop, hex⟩ | ⟨rfl, rfl⟩ | ⟨rfl, rfl⟩ | ⟨rfl, rfl⟩
    · -- VADD, VMUL, VFMA, VMAX, VMIN and VCMPGT
      refine sent _ (answers_vectorOp hex hacts he ho (hf (by omega))) fun g hg x same _ => ?_
      obtain ⟨-, hB, -, hD⟩ := hops g hg
      have third : (if op = 3 then d.groupVals r.slot (vDst w) g else ([], false)) =
          (if op = 3 then (d.groupVals r.slot (vDst w) g).1 else [], false) := by
        by_cases h3 : op = 3
        · rw [if_pos h3, if_pos h3]; exact Prod.ext rfl (hD h3)
        · rw [if_neg h3, if_neg h3]
      have lanes : lane g = fun i => (lane2 op f (nth .zero (as_ g) i) (nth .zero (d.operandB r w f g).1 i)
          (nth .zero (if op = 3 then (d.groupVals r.slot (vDst w) g).1 else []) i)).1 := by
        funext i
        refine (if_pos hop).trans ?_
        have second : b g i = nth .zero (d.operandB r w f g).1 i := congrArg (nth FVal.zero · i) (if_pos hop)
        have addend : h g i = nth .zero (if op = 3 then (d.groupVals r.slot (vDst w) g).1 else []) i := by
          show (if op = 3 then _ else _) = _
          split <;> rfl
        rw [second, addend]
      have ok := rowOk (.inl (by omega)) g hg
      rw [row (.inl (by omega)), format (by omega), lanes]
      rw [format (by omega), lanes] at ok
      exact Die.vElem_lands same (granted (by omega) g hg) (Prod.ext rfl (hB hop)) third hq ok
    · -- VCVT
      obtain ⟨target, plain⟩ := hcvt rfl
      obtain ⟨t', ht⟩ := Option.isSome_iff_exists.1 target
      have source (g : Nat) (hg : g ∈ vSelected w) : d.cvtSource r w g = (as_ g, none, false) := by
        obtain ⟨⟨hskew, hread⟩, -⟩ := hops g hg
        exact Prod.ext rfl (Prod.ext hskew hread)
      refine sent _ (answers_vcvt hacts he ho hn fun g hg => congrArg (·.2.1) (source g hg)) fun g hg x same _ => ?_
      have lanes : (List.range 256).map (lane g) = (as_ g).map fun v => (narrow t' v).code := by
        have length : (as_ g).length = 256 := d.cvtSource_length r w g
        rw [← map_range_nth .zero (as_ g), length]
        refine List.map_congr_left fun i _ => ?_
        show (narrow (t.getD f) (a g i)).code = _
        rw [ht]; rfl
      have width : bits = t'.bits := by show (t.getD f).bits = _; rw [ht]; rfl
      have ok := rowOk (.inl (by omega)) g hg
      rw [row (.inl (by omega)), width, lanes]
      rw [width, lanes] at ok
      rw [ht] at plain
      exact Die.vCvt_lands same ht plain (source g hg) hq ok
    · -- VRMAX and VRSUM
      refine sent _ (answers_vectorOp hex hacts he ho (hf (by omega))) fun g hg x same _ => ?_
      have value : data g = packCodes bits [(narrow f (if op = 11 then rmax (as_ g) else rsum f (as_ g))).code] := by
        rcases hop with rfl | rfl <;> rfl
      have ok := hgrant g hg
      rw [elemAt (by omega), value, format (by omega)] at ok
      have result : X g = d.elemLanding r.slot op (vDst w) g f.bits
          (narrow f (if op = 11 then rmax (as_ g) else rsum f (as_ g))).code := by
        show Landing.mk _ _ _ _ _ _ = _
        rw [elemAt (by omega), value, format (by omega)]; rfl
      rw [result]
      exact Die.vReduce_lands same (granted (by omega) g hg) hq ok
    · -- VAMAX without a record
      refine sent _ (answers_vamax hacts he ho (hf (by decide)) (if_neg (by rw [show _ = false from hn]; exact Bool.false_ne_true)))
        fun g hg x same _ => ?_
      exact Die.vAmax_lands same (granted (by decide) g hg) hn hq (hgrant g hg)
    · -- VMERGE
      obtain rfl := hfp rfl
      refine sent _ (answers_vectorOp (exec_vmerge · s) hacts he ho (hf (by decide))) fun g hg x same keep => ?_
      obtain ⟨-, -, hB, -⟩ := hops g hg
      have second : d.groupVals r.slot (vB w) g = (bs g, false) := Prod.ext rfl (hB (.inr (.inl rfl)))
      have ok := rowOk (.inr (by decide)) g hg
      rw [row (.inr (by decide))]
      cases hfirst : r.firstCycle with
      | true =>
        have lanes : lane g = fun i => if (nth .zero (as_ g) i).isNan || (nth .zero (bs g) i).isNan then 0x7FC00000
            else enc32 (laneMax (nth .zero (as_ g) i) (nth .zero (bs g) i)) := by
          funext i; exact if_pos hfirst
        rw [lanes] at ok ⊢
        exact Die.vMerge_first same (granted (by decide) g hg) second hq hfirst (fun k => k ⟨rfl, rfl⟩) ok
      | false =>
        have lanes : lane g = fun i =>
            let k := Tab.read (0, 0, false) d.vec.factors (g * 256 + i)
            if k.2.2 then 0x7FC00000 else if k.1 = 0x80000000 ∧ k.2.1 = 0x80000000 then 0
            else mergeRow k.1.toNat k.2.1.toNat (nth .zero (as_ g) i) (nth .zero (bs g) i) := by
          funext i; exact if_neg (show ¬ r.firstCycle = true by rw [hfirst]; exact Bool.false_ne_true)
        rw [lanes] at ok ⊢
        exact Die.vMerge_later same (granted (by decide) g hg) second hq hfirst
          (keep fun hc => Bool.false_ne_true (hfirst.symm.trans hc.2)) ok
    · -- VHAD
      refine sent _ (answers_vectorOp (exec_vhad · s) hacts he ho (hf (by decide))) fun g hg x same _ => ?_
      obtain ⟨-, -, hB, -⟩ := hops g hg
      have ok := rowOk (.inr (by decide)) g hg
      rw [row (.inr (by decide))]
      exact Die.vHad_lands same (granted (by decide) g hg) (fun hs => Prod.ext rfl (hB (.inr (.inr ⟨rfl, hs⟩)))) (fun i => rfl) hq ok
  · -- VAMAX with a record
    intro d2 m hread hgr
    subst h13
    have vamax : c = .vamax := by
      rcases ops with ⟨hop, -⟩ | ⟨hop, -⟩ | ⟨hop, -⟩ | ⟨-, hc⟩ | ⟨hop, -⟩ | ⟨hop, -⟩
      · omega
      · omega
      · omega
      · exact hc
      · omega
      · omega
    subst vamax
    obtain ⟨cyc, prog⟩ := d.rollFor_prog r w q
    have folds : d2.granted r.slot (vSide w + 1) ((d2.prog r.slot 5 (vDst w)).sbase + 4 : Nat) 4 = true := by
      rw [show d2.prog r.slot 5 (vDst w) = q from prog _ _ _]; exact hgr
    obtain ⟨landings, factors, only⟩ := Die.vectorCycle_lands (d := d2) (op := 13) (keep := True) (each := Die.vAmax r w f)
      (fun i hi => by
        rw [show d2.prog r.slot 5 i = d.prog r.slot 5 i from prog _ _ _]
        exact sources i (by rw [show d2.prog r.slot 5 (vA w) = pa from prog _ _ _] at hi; exact hi))
      (fun g hg x same _ => Die.vAmax_folds same (hread g hg) (by rw [show d2.prog r.slot 5 (vDst w) = q from prog _ _ _]; exact hrec) folds)
    refine ⟨_, answers_vamax hacts he ho (hf (by decide)) (if_pos hrec), landings.trans (congrArg (d2.vec.landings ++ ·) ?_), factors trivial,
      only⟩
    refine (flatMap_unless (fun g => (m g).isNan) _ _).trans ?_
    refine List.map_congr_left fun g _ => ?_
    show d2.landing r.slot 13 _ ((d2.prog r.slot 5 (vDst w)).sbase + 4 : Nat) _ = _
    rw [show d2.prog r.slot 5 (vDst w) = q from prog _ _ _]
    unfold Die.landing
    rw [show d2.iss.cyc = d.iss.cyc from cyc]
    rfl

end Sys2Proof.Machine
end

section
/-! FACTS. The end of a scrub, of a departure and of a RELEASE, and what it leaves as it was (R486, R504, R579). -/

namespace Sys2Proof.Machine

/-! ### CLEAN and the grants that wait -/

/-- An entry of a canonical table is what its key reads. -/
theorem Tab.read_of_mem {α : Type} [DecidableEq α] {dflt : α} : ∀ {t : List (Nat × α)} {n : Nat}, Tab.wfAbove dflt n t = true →
    ∀ c ∈ t, Tab.read dflt t c.1 = c.2
  | (j, v) :: t, n, w, c, h => by
    simp only [Tab.wfAbove, Bool.and_eq_true, decide_eq_true_eq] at w
    rcases List.mem_cons.1 h with rfl | h
    · exact Tab.read_head_ne
    · have above := Tab.wfAbove_key_ge w.2 c h
      rw [Tab.read, if_neg (by omega), if_neg (by omega)]
      exact Tab.read_of_mem w.2 c h

/-- CLEAN is set where every slot is FREE and nothing of the security block is under way (R579). -/
theorem Die.cleanCheck_clean {d : Die} (ws : Tab.wf {} d.ctx.slots = true) (wp : Tab.wf {} d.sec.prots = true) (hs : d.sec.scrubs = [])
    (free : ∀ j, (d.slot j).state = .free) (still : ∀ j, (d.prot j).sweeping = false) : d.cleanCheck.boot.clean = true := by
  have slots : (d.ctx.slots.all fun c => decide (c.2.state = .free)) = true := List.all_eq_true.2 fun c h => by
    rw [← Tab.read_of_mem ws c h]; exact decide_eq_true (free c.1)
  have prots : (d.sec.prots.any fun c => c.2.sweeping) = false := List.any_eq_false.2 fun c h => by
    rw [← Tab.read_of_mem wp c h]; exact Bool.eq_false_iff.1 (still c.1)
  unfold Die.cleanCheck
  rw [slots, prots, hs]
  rfl

/-- Where no GRANT waits, none completes. -/
theorem Die.grantsDone_none {d : Die} (h : ∀ j, (d.slot j).busy ≠ .grant) : d.grantsDone = d := by
  have each (j : Nat) : d.grantDone j = d := if_neg fun ⟨waits, _⟩ => h j waits
  rw [Die.grantsDone, forUpto_fixed each]

/-- Where no message is held, none is carried out. -/
theorem Die.releaseHeld_none {d : Die} (h : d.ctx.held = []) : d.releaseHeld = d := by
  have same : { d with ctx := { d.ctx with held := d.ctx.held } } = d := rfl
  unfold Die.releaseHeld
  rw [h] at same ⊢
  exact same

/-! ### What belongs to one slot -/

/-- From `d` to `e` nothing ends but what belongs to slot `s`: stores, scrubs and held messages are the same, the other slots too, and no
GRANT begins to wait. -/
structure Die.EndsOf (s : Nat) (d e : Die) : Prop where
  st : e.st = d.st
  scrubs : e.sec.scrubs = d.sec.scrubs
  held : e.ctx.held = d.ctx.held
  others : ∀ j, j ≠ s → e.prot j = d.prot j ∧ e.slot j = d.slot j
  grants : ∀ j, (e.slot j).busy = .grant → (d.slot j).busy = .grant
  slotsForm : Tab.wf {} e.ctx.slots = true
  protsForm : Tab.wf {} e.sec.prots = true

namespace Die.EndsOf
variable {s : Nat} {d e : Die}

theorem refl (ws : Tab.wf {} d.ctx.slots = true) (wp : Tab.wf {} d.sec.prots = true) : d.EndsOf s d :=
  ⟨rfl, rfl, rfl, fun _ _ => ⟨rfl, rfl⟩, fun _ h => h, ws, wp⟩

theorem updProt (h : d.EndsOf s e) (f : Prot → Prot) : d.EndsOf s (e.updProt s f) where
  st := h.st
  scrubs := h.scrubs
  held := h.held
  others j hj := ⟨(Die.updProt_prot_ne _ s f h.protsForm hj).trans (h.others j hj).1, (h.others j hj).2⟩
  grants := h.grants
  slotsForm := h.slotsForm
  protsForm := Die.wf_updProt _ s f h.protsForm

theorem updSlot (h : d.EndsOf s e) {f : Slot → Slot} (hf : ∀ x, (f x).busy = .grant → x.busy = .grant) : d.EndsOf s (e.updSlot s f) where
  st := h.st
  scrubs := h.scrubs
  held := h.held
  others j hj := ⟨(h.others j hj).1, (Die.updSlot_slot_ne _ s f h.slotsForm hj).trans (h.others j hj).2⟩
  grants j hb := h.grants j <| by
    rw [Die.updSlot_slot _ s f j h.slotsForm] at hb
    split at hb
    · next hj => rw [hj]; exact hf _ hb
    · exact hb
  slotsForm := Die.wf_updSlot _ s f h.slotsForm
  protsForm := h.protsForm

theorem tdisp (h : d.EndsOf s e) (p : Path) (ok : Bool) : d.EndsOf s (e.tdisp p s ok) :=
  ⟨h.st, h.scrubs, h.held, h.others, h.grants, h.slotsForm, h.protsForm⟩

theorem freeSlot (h : d.EndsOf s e) : d.EndsOf s (e.freeSlot s) :=
  updSlot (e := (e.kvRelease s).channelsRelease s) ⟨h.st, h.scrubs, h.held, h.others, h.grants, h.slotsForm, h.protsForm⟩ fun _ hb => hb

theorem ctxDone (h : d.EndsOf s e) (k : Nat) : d.EndsOf s (e.ctxDone s k) := h.updSlot fun _ hb => by cases hb

end Die.EndsOf

/-! ### The end of a departure -/

section
variable {d : Die} {s : Nat} {release : Bool}

/-- What a departure leaves of the slot's protection: no key, and nothing that waits for it. -/
def Prot.departed (q : Prot) : Prot :=
  { q with departing := false, depRelease := false, stopWaits := false, init := false, key0 := 0, key1 := 0, cur := false, epochs := [] }

/-- The RELEASE that the departure belongs to, or that waits for it, sets the slot FREE. -/
def Die.departFree (d : Die) (s : Nat) (release : Bool) : Die :=
  if (d.slot s).busy = .unload true then (d.freeSlot s).ctxDone s stOk else if release then d.freeSlot s else d

theorem Die.departEnd_eq (d : Die) (s : Nat) :
    d.departEnd s = if (d.prot s).stopWaits
      then ((d.updProt s Prot.departed).departFree s (d.prot s).depRelease).tdisp (d.prot s).stopPath s true
      else (d.updProt s Prot.departed).departFree s (d.prot s).depRelease := rfl

/-- A RELEASE that has ended: the slot FREE, its command complete. -/
theorem Die.freeSlot_ctxDone_slot (w : Tab.wf {} d.ctx.slots = true) :
    ((d.freeSlot s).ctxDone s stOk).slot s = { d.slot s with state := .free, busy := .idle, status := 0 } :=
  Die.updSlot_ctxDone_slot (d := (d.kvRelease s).channelsRelease s) w _ stOk

theorem Die.departFree_busy (w : Tab.wf {} d.ctx.slots = true) (hb : (d.slot s).busy = .unload true) :
    (d.departFree s release).slot s = { d.slot s with state := .free, busy := .idle, status := 0 } := by
  rw [Die.departFree, if_pos hb, Die.freeSlot_ctxDone_slot w]

theorem Die.departFree_free (w : Tab.wf {} d.ctx.slots = true) (h : release = true ∨ (d.slot s).busy = .unload true) :
    ((d.departFree s release).slot s).state = .free := by
  by_cases hb : (d.slot s).busy = .unload true
  · rw [Die.departFree_busy w hb]
  · rw [Die.departFree, if_neg hb, if_pos (h.resolve_right hb)]
    exact congrArg Slot.state (Die.updSlot_slot_self ((d.kvRelease s).channelsRelease s) s _ w)

theorem Die.freeSlot_keeps (d : Die) (s : Nat) : (d.freeSlot s).out = d.out ∧ (d.freeSlot s).sec = d.sec := by
  simp only [Die.freeSlot, Die.updSlot_out, Die.updSlot_sec, Die.channelsRelease, Die.kvRelease, and_self]

theorem Die.departFree_keeps : (d.departFree s release).out = d.out ∧ (d.departFree s release).sec = d.sec := by
  unfold Die.departFree
  split
  · exact d.freeSlot_keeps s
  · split
    · exact d.freeSlot_keeps s
    · exact ⟨rfl, rfl⟩

theorem Die.EndsOf.departFree {e : Die} (h : d.EndsOf s e) (release : Bool) : d.EndsOf s (e.departFree s release) := by
  unfold Die.departFree
  split
  · exact h.freeSlot.ctxDone stOk
  · split
    · exact h.freeSlot
    · exact h

theorem Die.EndsOf.departEnd {e : Die} (h : d.EndsOf s e) : d.EndsOf s (e.departEnd s) := by
  rw [Die.departEnd_eq]
  split
  · exact ((h.updProt _).departFree _).tdisp _ _
  · exact (h.updProt _).departFree _

theorem Die.departEnd_out : (d.departEnd s).out = if (d.prot s).stopWaits then .tdisp (d.prot s).stopPath s true :: d.out else d.out := by
  have out := (Die.departFree_keeps (d := d.updProt s Prot.departed) (s := s) (release := (d.prot s).depRelease)).1
  rw [Die.departEnd_eq]
  split
  · exact congrArg (Out.tdisp (d.prot s).stopPath s true :: ·) out
  · exact out

theorem Die.departEnd_prot (w : Tab.wf {} d.sec.prots = true) : (d.departEnd s).prot s = (d.prot s).departed := by
  have sec := (Die.departFree_keeps (d := d.updProt s Prot.departed) (s := s) (release := (d.prot s).depRelease)).2
  have prot : (d.departEnd s).sec = (d.updProt s Prot.departed).sec := by
    rw [Die.departEnd_eq]
    split
    · exact sec
    · exact sec
  rw [Die.prot, prot]
  exact Die.updProt_prot_self d s _ w

theorem Die.departEnd_slot : (d.departEnd s).slot s = ((d.updProt s Prot.departed).departFree s (d.prot s).depRelease).slot s := by
  rw [Die.departEnd_eq]
  split <;> rfl

/-! ### The end of a scrub -/

theorem Die.zeroRange_read (w : Memory.wf d.st.hbm = true) (c : Scrub) (a : Nat) :
    Tab.read 0 (d.zeroRange c).st.hbm a = if c.covers d.poolBase a 1 then 0 else Tab.read 0 d.st.hbm a := by
  unfold Die.zeroRange Scrub.covers
  have hit (b z : Nat) : (0 < 1 ∧ 0 < z ∧ a < b + z ∧ b < a + 1) ↔ (b ≤ a ∧ a < b + z) := by omega
  simp only [Mem.read_zero _ _ _ (Mem.wf_zero _ _ w), Mem.read_zero _ _ _ w, Bool.or_eq_true, decide_eq_true_eq, hit]
  rw [← ite_or]
  exact if_congr or_comm rfl rfl

/-- The die with the scrub's range zeroed and the scrub gone. -/
def Die.scrubZeroed (d : Die) (n : Nat) (c : Scrub) : Die :=
  Die.zeroRange { d with sec := { d.sec with scrubs := d.sec.scrubs.eraseIdx n } } c

/-- What a scrub's end leaves, before the grants that it let wait and CLEAN. -/
def Die.scrubbed (d : Die) (s n : Nat) (c : Scrub) : Die :=
  if c.depart then (d.scrubZeroed n c).departEnd s
  else if c.release ∧ (d.slot s).busy = .unload true then ((d.scrubZeroed n c).freeSlot s).ctxDone s stOk
  else d.scrubZeroed n c

theorem Die.scrubEnd_eq {n : Nat} {c : Scrub} (hn : d.sec.scrubs.findIdx? (fun c => decide (c.slot = s ∧ c.initKey = 0)) = some n)
    (hc : d.sec.scrubs[n]? = some c) : d.scrubEnd s = (d.scrubbed s n c).grantsDone.cleanCheck := by
  unfold Die.scrubEnd
  rw [hn]
  dsimp only
  rw [hc]
  rfl

theorem Die.EndsOf.scrubbed (ws : Tab.wf {} d.ctx.slots = true) (wp : Tab.wf {} d.sec.prots = true) (n : Nat) (c : Scrub) :
    (d.scrubZeroed n c).EndsOf s (d.scrubbed s n c) := by
  have zeroed : (d.scrubZeroed n c).EndsOf s (d.scrubZeroed n c) := .refl ws wp
  unfold Die.scrubbed
  split
  · exact zeroed.departEnd
  · split
    · exact zeroed.freeSlot.ctxDone stOk
    · exact zeroed

theorem Die.scrubbed_read (ws : Tab.wf {} d.ctx.slots = true) (wp : Tab.wf {} d.sec.prots = true) (wm : Memory.wf d.st.hbm = true)
    (n : Nat) (c : Scrub) (a : Nat) :
    Tab.read 0 (d.scrubbed s n c).st.hbm a = if c.covers d.poolBase a 1 then 0 else Tab.read 0 d.st.hbm a := by
  rw [(Die.EndsOf.scrubbed ws wp n c).st]
  exact Die.zeroRange_read (d := { d with sec := { d.sec with scrubs := d.sec.scrubs.eraseIdx n } }) wm c a

theorem Die.scrubbed_depart {c : Scrub} (n : Nat) (h : c.depart = true) : d.scrubbed s n c = (d.scrubZeroed n c).departEnd s := if_pos h

theorem Die.scrubbed_release {c : Scrub} (n : Nat) (h : c.depart = false) (hr : c.release = true) (hb : (d.slot s).busy = .unload true) :
    d.scrubbed s n c = ((d.scrubZeroed n c).freeSlot s).ctxDone s stOk := by
  rw [Die.scrubbed, h, if_neg Bool.false_ne_true, if_pos ⟨hr, hb⟩]

theorem Die.scrubbed_alone {c : Scrub} (n : Nat) (h : c.depart = false) (hn : c.release = false ∨ (d.slot s).busy ≠ .unload true) :
    d.scrubbed s n c = d.scrubZeroed n c := by
  rw [Die.scrubbed, h, if_neg Bool.false_ne_true, if_neg]
  rintro ⟨hr, hb⟩
  rcases hn with hn | hn
  · rw [hn] at hr; cases hr
  · exact hn hb

/-- A scrub that is no departure's leaves the protection of its slot, and sends nothing. -/
theorem Die.scrubbed_keeps {c : Scrub} (n : Nat) (h : c.depart = false) :
    (d.scrubbed s n c).prot s = d.prot s ∧ (d.scrubbed s n c).out = d.out := by
  rw [Die.scrubbed, h, if_neg Bool.false_ne_true]
  split
  · obtain ⟨out, sec⟩ := (d.scrubZeroed n c).freeSlot_keeps s
    have prots : ((d.scrubZeroed n c).freeSlot s).sec.prots = d.sec.prots := by rw [sec]; rfl
    exact ⟨congrArg (Tab.read ({} : Prot) · s) prots, out⟩
  · exact ⟨rfl, rfl⟩

/-- SCRUB_DONE beside CLEAN, where nothing waits for it. -/
theorem answers_scrubDone {s : State} {i : Fin 64} {n : Nat} {c : Scrub} (ws : Tab.wf {} s.die.ctx.slots = true)
    (wp : Tab.wf {} s.die.sec.prots = true)
    (hn : s.die.sec.scrubs.findIdx? (fun c => decide (c.slot = i.val ∧ c.initKey = 0)) = some n) (hc : s.die.sec.scrubs[n]? = some c)
    (held : s.die.ctx.held = []) (grants : ∀ j, (s.die.slot j).busy ≠ .grant) :
    Answers (.scrubDone i) s (s.die.scrubbed i.val n c).cleanCheck := by
  have ends : (s.die.scrubZeroed n c).EndsOf i.val (s.die.scrubbed i.val n c) := .scrubbed ws wp n c
  obtain ⟨b, hb⟩ := (s.die.scrubbed i.val n c).cleanCheck_eq
  have quiet : (s.die.scrubbed i.val n c).cleanCheck.ctx.held = [] := by rw [hb]; exact ends.held.trans held
  refine answers_of_act (exec_scrubDone i s) ?_
  rw [Die.scrubEnd_eq hn hc, Die.grantsDone_none fun j h => grants j (ends.grants j h), Die.releaseHeld_none quiet]
end

end Sys2Proof.Machine
end

section
/-! FACTS. The pieces of an entry prologue (R150, R263, R506).

What a piece counts and zeroes is stated for any number of cycles: only the lemma that runs a full piece speaks of 1,024. -/

namespace Sys2Proof.Machine

section
variable {d : Die} {p : Prologue} {rest : List Prologue} {acc : Access} {b : Nat}

/-- Issue idle, drained and clocked, with no entry pending: the piece runs where it stands, or where it finds room (R506). -/
theorem Die.prologueAt_idle (hr : d.iss.run = none) (hd : d.drained = true) (hc : d.ctx.cal.pending = none) (hi : d.issueRuns = true) :
    d.prologueAt p = p.place.or (d.placeBundles 1) := by
  unfold Die.prologueAt
  rw [hr, hd, hc, hi]
  cases p.place <;> rfl

/-- The issue cycles of the prologue that are over. -/
def Die.prologueDone (d : Die) (p : Prologue) : Nat := (d.slot p.slot).prologueCycles - p.left

/-- The die after `n` cycles of a prologue, with what they count. -/
def Die.prologueRan (d : Die) (p : Prologue) (n : Nat) : Die := (d.aclk n).zeroCount p.slot (d.prologueDone p) n

theorem Die.prologueRan_counts (d : Die) (p : Prologue) (n : Nat) :
    (d.prologueRan p n).te0 =
      { d.te0 with vecCycles := inc64 d.te0.vecCycles (min n (ceilDiv ((d.slot p.slot).range 1).2 8192 - d.prologueDone p)) } ∧
    (d.prologueRan p n).te1 =
      { d.te1 with vecCycles := inc64 d.te1.vecCycles (min n (ceilDiv ((d.slot p.slot).range 2).2 8192 - d.prologueDone p)) } ∧
    (d.prologueRan p n).xfr =
      { d.xfr with rdBytes := inc64 d.xfr.rdBytes (min (8192 * n) (((d.slot p.slot).range 3).2 - 8192 * d.prologueDone p)) } :=
  ⟨rfl, rfl, rfl⟩

/-- The die after a piece of `n` cycles that is not the last, standing at bundle `b`. -/
def Die.prologuePart (d : Die) (p : Prologue) (rest : List Prologue) (b n : Nat) : Die :=
  { (d.prologueRan p n).zeroPart p.slot (d.prologueDone p) n with
    sec := { d.sec with prologues := { p with left := p.left - n, place := some b } :: rest } }

theorem Die.prologuePart_frame (d : Die) (p : Prologue) (rest : List Prologue) (b n : Nat) :
    let e := d.prologuePart p rest b n
    e = { d with iss := e.iss, glb := e.glb, te0 := e.te0, te1 := e.te1, xfr := e.xfr, sec := e.sec,
                 st := { d.st with ws0 := e.st.ws0, ws1 := e.st.ws1, lb := e.st.lb } } := by
  simp only [Die.prologuePart, Die.prologueRan, Die.zeroPart, Die.zeroCount, Die.updTe, Die.aclk, if_true, Nat.one_ne_zero, if_false]

/-- The zeros of a piece whose cycles make `z` bytes of each range. -/
theorem Die.prologuePart_zeros {n z : Nat} (hz : 8192 * n = z) (w0 : Memory.wf d.st.ws0 = true) (w1 : Memory.wf d.st.ws1 = true)
    (wl : Memory.wf d.st.lb = true) :
    let e := d.prologuePart p rest b n
    let zeros (sp : Nat) (m m' : Tab Byte) : Prop := ∀ a, Tab.read 0 m' a =
      if ((d.slot p.slot).range sp).1 + 8192 * d.prologueDone p ≤ a ∧
          a < ((d.slot p.slot).range sp).1 + 8192 * d.prologueDone p + min z (((d.slot p.slot).range sp).2 - 8192 * d.prologueDone p) then 0
      else Tab.read 0 m a
    zeros 1 d.st.ws0 e.st.ws0 ∧ zeros 2 d.st.ws1 e.st.ws1 ∧ zeros 3 d.st.lb e.st.lb := by
  subst hz
  exact ⟨fun a => Mem.read_zero _ _ a w0, fun a => Mem.read_zero _ _ a w1, fun a => Mem.read_zero _ _ a wl⟩

theorem Die.prologuePiece_waits (hp : d.sec.prologues = p :: rest) (ha : d.prologueAt p = none) : d.prologuePiece acc = d := by
  unfold Die.prologuePiece
  rw [hp]
  dsimp only
  rw [ha]

/-- The last piece's die, before the GRANT that it let wait. -/
def Die.prologueOver (d : Die) (p : Prologue) (rest : List Prologue) : Die :=
  Die.zeroStores { d.prologueRan p p.left with sec := { d.sec with prologues := rest } } p.slot

/-- What a piece that has its place does, by whether its copies failed and whether it is the last. -/
theorem Die.prologuePiece_placed {failed : Bool} (hp : d.sec.prologues = p :: rest) (ha : d.prologueAt p = some b)
    (hf : d.zeroFetch acc p.slot (d.prologueDone p) = (d, failed)) :
    d.prologuePiece acc = if failed then d.aclk (min 1024 p.left)
      else if p.left ≤ 1024 then if p.lock then d.prologueOver p rest else (d.prologueOver p rest).grantDone p.slot
      else d.prologuePart p rest b 1024 := by
  unfold Die.prologuePiece
  rw [hp]
  dsimp only
  rw [ha]
  dsimp only
  rw [← Die.prologueDone, hf]
  dsimp only
  split
  · rfl
  · split
    · next hl => rw [Nat.min_eq_right hl]; rfl
    · next hl => rw [Nat.min_eq_left (by omega)]; rfl

/-- The GRANT that waited for a prologue changes its slot alone. -/
theorem Die.prologuePiece_last_frame (w : Tab.wf {} d.ctx.slots = true) (hp : d.sec.prologues = p :: rest) (ha : d.prologueAt p = some b)
    (hf : d.zeroFetch acc p.slot (d.prologueDone p) = (d, false)) (hl : p.left ≤ 1024) :
    ∃ slots, d.prologuePiece acc = { d.prologueOver p rest with ctx := { d.ctx with slots := slots } } ∧
      ∀ j, j ≠ p.slot → Tab.read {} slots j = d.slot j := by
  rw [Die.prologuePiece_placed hp ha hf, if_neg Bool.false_ne_true, if_pos hl]
  split
  · exact ⟨d.ctx.slots, rfl, fun _ _ => rfl⟩
  · exact ⟨_, Die.grantDone_frame _ _, fun _ hj => Die.grantDone_slot_ne (d := d.prologueOver p rest) w hj⟩

/-- The zero area of HBM4 on a failed channel: the copies of a piece fail (R236, R260). -/
theorem Die.zeroFetch_dead (hc : 8192 * d.prologueDone p < ((d.slot p.slot).range 3).2) (h : d.onDead [(d.zeroArea, 0x10000)] = true) :
    d.zeroFetch acc p.slot (d.prologueDone p) = (d, true) := by
  unfold Die.zeroFetch Die.accessed Die.accessedBy
  rw [if_pos hc, List.append_nil, if_pos h]

/-- A piece without a part of the line buffers copies nothing; one whose copies meet nothing takes its zeros. -/
theorem Die.zeroFetch_free
    (h : 8192 * d.prologueDone p < ((d.slot p.slot).range 3).2 → acc = .ok ∧ d.barred [(d.zeroArea, 0x10000)] [] = false) :
    d.zeroFetch acc p.slot (d.prologueDone p) = (d, false) := by
  unfold Die.zeroFetch
  split
  · next hc =>
    obtain ⟨rfl, hb⟩ := h hc
    exact Die.accessed_free hb none
  · rfl

end

end Sys2Proof.Machine
end

section
/-! O51: scrubs and the pieces of a prologue leave zeros. -/

namespace Sys2Proof.Machine

/-- Settles O51: a scrub ends as `Die.scrubbed` says, and each piece of a prologue as `Die.prologuePiece_placed`. -/
theorem scrubsAndProloguesWriteZeros : Obligations.ScrubsAndProloguesWriteZeros := by
  unfold Obligations.ScrubsAndProloguesWriteZeros
  constructor
  · intro s i n c ws wp wm d q hn hc held grants
    have ends : (d.scrubZeroed n c).EndsOf i.val (d.scrubbed i.val n c) := .scrubbed ws wp n c
    have answers := answers_scrubDone ws wp hn hc held grants
    obtain ⟨b, hb⟩ := (d.scrubbed i.val n c).cleanCheck_eq
    have clean := Die.cleanCheck_clean ends.slotsForm ends.protsForm
    rw [hb] at answers clean
    refine ⟨_, answers, d.scrubbed_read ws wp wm n c, ?_, ends.scrubs, fun h => ?_, fun h hw => ?_, fun h hw => ?_, fun h hr => ?_,
      fun h hb => ?_, d.scrubbed_keeps n, fun h hr hb => ?_, fun h hn => ?_, clean, ends.others⟩
    · have st : (d.scrubbed i.val n c).st = (d.scrubZeroed n c).st := ends.st
      show (d.scrubbed i.val n c).st = { d.st with hbm := (d.scrubbed i.val n c).st.hbm }
      rw [st]; rfl
    · show (d.scrubbed i.val n c).prot i.val = _
      rw [d.scrubbed_depart n h]
      exact Die.departEnd_prot (d := d.scrubZeroed n c) wp
    · show (d.scrubbed i.val n c).out = _
      rw [d.scrubbed_depart n h, Die.departEnd_out]
      exact if_pos hw
    · show (d.scrubbed i.val n c).out = _
      rw [d.scrubbed_depart n h, Die.departEnd_out]
      exact if_neg (Bool.eq_false_iff.1 hw)
    · show ((d.scrubbed i.val n c).slot i.val).state = _
      rw [d.scrubbed_depart n h, Die.departEnd_slot]
      exact Die.departFree_free (d := (d.scrubZeroed n c).updProt i.val Prot.departed) ws hr
    · show ((d.scrubbed i.val n c).slot i.val).busy = _ ∧ ((d.scrubbed i.val n c).slot i.val).status = _
      rw [d.scrubbed_depart n h, Die.departEnd_slot, Die.departFree_busy (d := (d.scrubZeroed n c).updProt i.val Prot.departed) ws hb]
      exact ⟨rfl, rfl⟩
    · show (d.scrubbed i.val n c).slot i.val = _
      rw [d.scrubbed_release n h hr hb]
      exact Die.freeSlot_ctxDone_slot (d := d.scrubZeroed n c) ws
    · show (d.scrubbed i.val n c).slot i.val = _
      rw [d.scrubbed_alone n h hn]; rfl
  · intro s p rest acc ws w0 w1 wl d x zeroed part cycles counts hp hr hd hcal hi copies zeros fetched
    have idle : d.prologueAt p = p.place.or (d.placeBundles 1) := Die.prologueAt_idle hr hd hcal hi
    have placed (h : p.place ≠ none ∨ d.placeBundles 1 ≠ none) : ∃ b, d.prologueAt p = some b := by
      rw [idle, ← Option.isSome_iff_exists, Option.isSome_or, Bool.or_eq_true]
      exact h.imp Option.isSome_iff_ne_none.2 Option.isSome_iff_ne_none.2
    have free (h : fetched) : d.zeroFetch acc p.slot (d.prologueDone p) = (d, false) := Die.zeroFetch_free h
    refine ⟨fun hn hm => ?_, fun h hc hdead => ?_, fun b hf hb hl => ?_, fun hf h hl => ?_⟩
    · exact answers_of_act (exec_prologuePiece acc s) (Die.prologuePiece_waits hp (by rw [idle, hn, hm]; rfl))
    · obtain ⟨b, hb⟩ := placed h
      exact ⟨_, answers_of_act (exec_prologuePiece acc s) (Die.prologuePiece_placed hp hb (Die.zeroFetch_dead hc hdead)), ⟨rfl, rfl⟩, rfl⟩
    · have place : d.prologueAt p = some b := by
        rw [idle]
        rcases hb with hb | ⟨hn, hb⟩
        · rw [hb]; rfl
        · rw [hn, hb]; rfl
      obtain ⟨zero0, zero1, zeroLb⟩ := Die.prologuePart_zeros (p := p) (rest := rest) (b := b) (show 8192 * 1024 = 8388608 from rfl) w0 w1 wl
      have piece : d.prologuePiece acc = d.prologuePart p rest b 1024 := by
        rw [Die.prologuePiece_placed hp place (free hf), if_neg Bool.false_ne_true, if_neg (by omega)]
      exact ⟨_, answers_of_act (exec_prologuePiece acc s) piece, ⟨rfl, rfl⟩,
        d.prologueRan_counts p 1024, rfl, zero0, zero1, zeroLb, d.prologuePart_frame p rest b 1024⟩
    · obtain ⟨b, hb⟩ := placed h
      obtain ⟨slots, last, others⟩ := Die.prologuePiece_last_frame ws hp hb (free hf) hl
      exact ⟨_, answers_of_act (exec_prologuePiece acc s) last, ⟨rfl, rfl⟩, d.prologueRan_counts p p.left, rfl,
        fun a => Mem.read_zero _ _ a w0, fun a => Mem.read_zero _ _ a w1, fun a => Mem.read_zero _ _ a wl, rfl, others⟩

end Sys2Proof.Machine
end

section
/-! FACTS. Values that count an integer: what the exact sums, products, shifts and maxima of such values count (R154, R155). -/

namespace Sys2Proof

/-- The value is the integer `z`, as a multiple of a unit no finer than 1. -/
def FVal.Counts (v : FVal) (z : Int) : Prop := ∃ n m e, v = .fin n m e ∧ 0 ≤ e ∧ FVal.scaled n m e 0 = z

namespace FVal

theorem scaled_eq_mul (n : Bool) (m : Nat) (e q : Int) : scaled n m e q = (if n then -(m : Int) else m) * 2 ^ (e - q).toNat := by
  cases n <;> simp [scaled]

/-- A count in units of 2^q as a count in units of 1. -/
theorem scaled_unit (n : Bool) (m : Nat) {e q : Int} (hq : 0 ≤ q) (he : q ≤ e) : scaled n m e 0 = scaled n m e q * 2 ^ q.toNat := by
  rw [scaled_eq_mul, scaled_eq_mul, mul_assoc, ← pow_add]
  congr 2
  omega

theorem scaled_natAbs (z : Int) (e : Int) : scaled (decide (z < 0)) z.natAbs e 0 = z * 2 ^ e.toNat := by
  rw [scaled_eq_mul, Int.sub_zero]
  congr 1
  by_cases h : z < 0
  · rw [decide_eq_true h, if_pos rfl]; omega
  · rw [decide_eq_false h, if_neg Bool.false_ne_true]; omega

variable {a b : FVal} {x y : Int}

theorem counts_ofInt (z : Int) : (ofInt z).Counts z :=
  ⟨_, _, _, rfl, le_refl 0, by rw [scaled_natAbs]; simp⟩

theorem counts_ofNat (k : Nat) : (ofNat k).Counts k := counts_ofInt k

theorem counts_zero : zero.Counts 0 := counts_ofInt 0

theorem Counts.toInt (h : a.Counts x) : a.toInt = x := by
  obtain ⟨n, m, e, rfl, _, hx⟩ := h
  exact hx

theorem Counts.mul (ha : a.Counts x) (hb : b.Counts y) : (a.mul b).Counts (x * y) := by
  obtain ⟨n, m, e, rfl, he, rfl⟩ := ha
  obtain ⟨n', m', e', rfl, he', rfl⟩ := hb
  refine ⟨_, _, _, rfl, Int.add_nonneg he he', ?_⟩
  rw [scaled_eq_mul, scaled_eq_mul, scaled_eq_mul, Int.sub_zero, Int.sub_zero, Int.sub_zero, Int.toNat_add he he', pow_add]
  cases n <;> cases n' <;> push_cast <;> simp <;> ring

theorem Counts.add (ha : a.Counts x) (hb : b.Counts y) : (a.add b).Counts (x + y) := by
  obtain ⟨n, m, e, rfl, he, rfl⟩ := ha
  obtain ⟨n', m', e', rfl, he', rfl⟩ := hb
  unfold FVal.add
  dsimp only
  split
  · next h => exact ⟨_, _, _, rfl, le_refl 0, by simp [scaled, h.1, h.2]⟩
  · split
    · next h => exact ⟨_, _, _, rfl, he', by simp [scaled, h]⟩
    · split
      · next h => exact ⟨_, _, _, rfl, he, by simp [scaled, h]⟩
      · have hq : 0 ≤ min e e' := le_min he he'
        refine ⟨_, _, _, rfl, by split <;> omega, ?_⟩
        rw [scaled_unit n m hq (min_le_left e e'), scaled_unit n' m' hq (min_le_right e e'), ← add_mul, scaled_natAbs]
        split
        · next h => rw [h, zero_mul, zero_mul]
        · rfl

theorem Counts.shift (h : a.Counts x) {k : Int} (hk : 0 ≤ k) : (a.shift k).Counts (x * 2 ^ k.toNat) := by
  obtain ⟨n, m, e, rfl, he, rfl⟩ := h
  refine ⟨_, _, _, rfl, by split <;> omega, ?_⟩
  split
  · next h => simp [scaled, h]
  · rw [scaled_eq_mul, scaled_eq_mul, Int.sub_zero, Int.sub_zero, Int.toNat_add he hk, pow_add, mul_assoc]

theorem Counts.abs (h : a.Counts x) : a.abs.Counts |x| := by
  obtain ⟨n, m, e, rfl, he, rfl⟩ := h
  refine ⟨_, _, _, rfl, he, ?_⟩
  rw [scaled_eq_mul, scaled_eq_mul, abs_mul, abs_of_nonneg (by positivity : (0 : Int) ≤ 2 ^ (e - 0).toNat)]
  cases n <;> simp

/-- The order of two values is the order of what they count. -/
theorem Counts.lt_iff (ha : a.Counts x) (hb : b.Counts y) : FVal.lt a b = true ↔ x < y := by
  obtain ⟨n, m, e, rfl, he, rfl⟩ := ha
  obtain ⟨n', m', e', rfl, he', rfl⟩ := hb
  have hq : 0 ≤ min e e' := le_min he he'
  rw [scaled_unit n m hq (min_le_left e e'), scaled_unit n' m' hq (min_le_right e e'), mul_lt_mul_iff_left₀ (by positivity)]
  exact decide_eq_true_iff

theorem Counts.max2 (ha : a.Counts x) (hb : b.Counts y) : (a.max2 b).Counts (max x y) := by
  unfold FVal.max2
  split
  · next h => rw [max_eq_right ((ha.lt_iff hb).1 h).le]; exact hb
  · next h => rw [max_eq_left (not_lt.1 fun l => h ((ha.lt_iff hb).2 l))]; exact ha

section
variable {α : Type} {g : α → FVal} {h : α → Int}

theorem Counts.foldl_add (hg : ∀ k, (g k).Counts (h k)) (l : List α) (ha : a.Counts x) :
    (l.foldl (fun s k => s.add (g k)) a).Counts (x + (l.map h).sum) := by
  induction l generalizing a x with
  | nil => simpa using ha
  | cons k l ih => simpa [add_assoc] using ih (ha.add (hg k))

/-- A maximum over a list counts an integer that no member's count exceeds. -/
theorem Counts.foldl_max2 (hg : ∀ k, (g k).Counts (h k)) (l : List α) (ha : a.Counts x) :
    ∃ z, (l.foldl (fun s k => s.max2 (g k)) a).Counts z ∧ x ≤ z ∧ ∀ k ∈ l, h k ≤ z := by
  induction l generalizing a x with
  | nil => exact ⟨x, ha, le_refl x, by simp⟩
  | cons k l ih =>
    obtain ⟨z, hz, hx, hl⟩ := ih (ha.max2 (hg k))
    exact ⟨z, hz, (le_max_left ..).trans hx, List.forall_mem_cons.2 ⟨(le_max_right ..).trans hx, hl⟩⟩

end

end FVal

end Sys2Proof
end

section
/-! O16: the margin bound of an INT8 column. -/

namespace Sys2Proof.Machine

/-! ### The estimate and the bound as integers (R154) -/

theorem highPart_int8_counts (c : Nat) : (highPart .int8 c).Counts (sext 8 c / 16) := FVal.counts_ofInt _

theorem lowPart_int8_counts (c : Nat) : (lowPart .int8 c).Counts (c % 16 : Nat) := FVal.counts_ofNat _

/-- A signed byte is sixteen times its high nibble, with the sign, and its low nibble. -/
theorem sext_nibbles (c : Nat) : sext 8 c = 16 * (sext 8 c / 16) + (c % 16 : Nat) := by
  unfold sext
  dsimp only
  split <;> omega

theorem RowFlight.estimate_int8 (x : RowFlight) (c : Nat) : (x.estimate .int8 c).toInt =
    256 * (x.plane.rows.map fun k => (sext 8 (byteAt x.act k.1) / 16) * (sext 8 (byteAt k.2 c) / 16)).sum := by
  have sum := FVal.Counts.foldl_add (fun e : Nat × Nat => (highPart_int8_counts (byteAt x.act e.1)).mul (highPart_int8_counts e.2))
    (weightCodes .int8 x.plane.rows c) FVal.counts_zero
  refine (FVal.Counts.toInt (sum.shift (k := 8) (by decide))).trans ?_
  rw [zero_add, weightCodes, List.map_map, mul_comm]
  rfl

/-- The codes of the row's one token, at every index of the reduction length. -/
def RowFlight.codes (x : RowFlight) (f : Fmt) : List Nat := (List.range f.kLen).map fun k => actCode f x.act 0 k

theorem RowFlight.codes_int8 (x : RowFlight) : x.codes .int8 = (List.range 256).map (byteAt x.act) := by
  unfold RowFlight.codes
  rw [show Fmt.kLen .int8 = 256 from rfl]
  rfl

theorem RowFlight.rowBound_sah (x : RowFlight) {f : Fmt} (hf : f ≠ .bf16) :
    (x.rowBound f).sah = (x.codes f).foldl (fun s c => s.add (highPart f c).abs) .zero := if_neg hf

theorem RowFlight.rowBound_mal (x : RowFlight) (f : Fmt) :
    (x.rowBound f).mal = (x.codes f).foldl (fun s c => s.max2 (lowPart f c)) .zero := rfl

/-- S_aH is the sum of the magnitudes of the row's high nibbles. -/
theorem RowFlight.rowBound_sah_int8 (x : RowFlight) :
    (x.rowBound .int8).sah.Counts ((List.range 256).map fun k => |sext 8 (byteAt x.act k) / 16|).sum := by
  have sum := FVal.Counts.foldl_add (fun c => (highPart_int8_counts c).abs) (x.codes .int8) FVal.counts_zero
  rw [← x.rowBound_sah (by decide), zero_add, x.codes_int8, List.map_map] at sum
  exact sum

/-- M_aL is at least each of the row's low nibbles. -/
theorem RowFlight.rowBound_mal_int8 (x : RowFlight) :
    ∃ z : Int, (x.rowBound .int8).mal.Counts z ∧ 0 ≤ z ∧ ∀ k < 256, (byteAt x.act k % 16 : Nat) ≤ z := by
  obtain ⟨z, hz, h0, hl⟩ := FVal.Counts.foldl_max2 lowPart_int8_counts (x.codes .int8) FVal.counts_zero
  rw [← x.rowBound_mal] at hz
  rw [x.codes_int8] at hl
  exact ⟨z, hz, h0, fun k hk => hl _ (List.mem_map_of_mem (List.mem_range.2 hk))⟩

theorem marginBound_int8 {q : RowBound} {s m : Int} (hs : q.sah.Counts s) (hm : q.mal.Counts m) (r : ColRec) (k : Nat) :
    (marginBound .int8 q r k).toInt = 16 * (s * r.mbl + m * r.sbh) + k * (m * r.mbl) := by
  have high := ((hs.mul (FVal.counts_ofNat r.mbl)).add (hm.mul (FVal.counts_ofNat r.sbh))).shift (k := 4) (by decide)
  refine (high.add ((FVal.counts_ofNat k).mul (hm.mul (FVal.counts_ofNat r.mbl)))).toInt.trans ?_
  rw [mul_comm (_ + _)]
  rfl

/-! ### The rows that are written -/

theorem Tab.keys_nodup {α : Type} [DecidableEq α] {dflt : α} :
    ∀ {t : List (Nat × α)} {n : Nat}, Tab.wfAbove dflt n t = true → (t.map Prod.fst).Nodup
  | [], _, _ => List.nodup_nil
  | (j, v) :: t, n, w => by
    simp only [Tab.wfAbove, Bool.and_eq_true] at w
    refine List.nodup_cons.2 ⟨fun h => ?_, keys_nodup w.2⟩
    obtain ⟨c, hc, e⟩ := List.mem_map.1 h
    have above := Tab.wfAbove_key_ge w.2 c hc
    omega

/-- Over rows below `n` that are listed once, a sum of what is not negative is at most the sum over all rows below `n`. -/
theorem sum_rows_le {α : Type} [DecidableEq α] {dflt : α} {t : List (Nat × α)} (w : Tab.wf dflt t = true) {n : Nat}
    (hn : ∀ k ∈ t, k.1 < n) {f : Nat → Int} (hf : ∀ k, 0 ≤ f k) : (t.map fun k => f k.1).sum ≤ ((List.range n).map f).sum := by
  obtain ⟨l, perm, sub⟩ : (t.map Prod.fst).Subperm (List.range n) :=
    List.subperm_of_subset (Tab.keys_nodup w) fun k hk => by
      obtain ⟨c, hc, rfl⟩ := List.mem_map.1 hk
      exact List.mem_range.2 (hn c hc)
  calc (t.map fun k => f k.1).sum = (l.map f).sum := by rw [(perm.map f).sum_eq, List.map_map]; rfl
    _ ≤ _ := (sub.map f).sum_le_sum (by simpa using fun k _ => hf k)

/-! ### The error of the high-high estimate -/

/-- The part of a product that the high-high product leaves out. -/
theorem product_error_le {a b ah al bh bl m w : Int} (ha : a = 16 * ah + al) (hb : b = 16 * bh + bl) (hal : 0 ≤ al) (hm : al ≤ m)
    (hbl : 0 ≤ bl) (hw : bl ≤ w) : |a * b - 256 * (ah * bh)| ≤ 16 * (|ah| * w + m * |bh|) + m * w := by
  have split : a * b - 256 * (ah * bh) = 16 * (ah * bl) + 16 * (al * bh) + al * bl := by rw [ha, hb]; ring
  have h1 : |ah * bl| ≤ |ah| * w := by
    rw [abs_mul, abs_of_nonneg hbl]; exact mul_le_mul_of_nonneg_left hw (abs_nonneg ah)
  have h2 : |al * bh| ≤ m * |bh| := by
    rw [abs_mul, abs_of_nonneg hal]; exact mul_le_mul_of_nonneg_right hm (abs_nonneg bh)
  have h3 : |al * bl| ≤ m * w := by
    rw [abs_mul, abs_of_nonneg hal, abs_of_nonneg hbl]; exact mul_le_mul hm hw hbl (hal.trans hm)
  rw [split]
  rw [abs_le] at h1 h2 h3 ⊢
  constructor <;> linarith

/-- The errors of the products of a column add up to at most the bound formed from the written rows alone. -/
theorem column_error_le {α : Type} {a b ah bh : α → Int} {m w : Int} {l : List α}
    (h : ∀ k ∈ l, |a k * b k - 256 * (ah k * bh k)| ≤ 16 * (|ah k| * w + m * |bh k|) + m * w) :
    |(l.map fun k => a k * b k).sum - 256 * (l.map fun k => ah k * bh k).sum| ≤
      16 * ((l.map fun k => |ah k|).sum * w + m * (l.map fun k => |bh k|).sum) + l.length * (m * w) := by
  induction l with
  | nil => simp
  | cons k l ih =>
    obtain ⟨hk, hl⟩ := List.forall_mem_cons.1 h
    have rest := ih hl
    simp only [List.map_cons, List.sum_cons, List.length_cons, Nat.cast_add, Nat.cast_one]
    rw [abs_le] at hk rest ⊢
    constructor <;> linarith

/-- Settles O16: each written row's error is within its share of the bound, and the written rows' high nibbles are among those that
S_aH adds up. -/
theorem marginBoundCoversInt8 : Obligations.MarginBoundCoversInt8 := by
  intro x c q _ wf below hsbh hmbl z b
  obtain ⟨m, hm, m0, hal⟩ := x.rowBound_mal_int8
  have error : |z - 256 * (x.plane.rows.map fun k => (sext 8 (byteAt x.act k.1) / 16) * (sext 8 (byteAt k.2 c) / 16)).sum| ≤
      16 * ((x.plane.rows.map fun k => |sext 8 (byteAt x.act k.1) / 16|).sum * q.mbl +
        m * (x.plane.rows.map fun k => |sext 8 (byteAt k.2 c) / 16|).sum) + x.plane.rows.length * (m * q.mbl) :=
    column_error_le fun k hk => product_error_le (sext_nibbles _) (sext_nibbles _) (Int.natCast_nonneg _) (hal _ (below k hk))
      (Int.natCast_nonneg _) (Int.ofNat_le.2 (hmbl k hk))
  have activations := sum_rows_le wf below fun k => abs_nonneg (sext 8 (byteAt x.act k) / 16)
  have weights : (x.plane.rows.map fun k => |sext 8 (byteAt k.2 c) / 16|).sum ≤ (q.sbh : Int) := by
    have sum := Int.ofNat_le.2 hsbh
    rw [Nat.cast_list_sum, List.map_map] at sum
    simp only [Int.abs_eq_natAbs]
    exact sum
  have bound : |z - (x.estimate .int8 c).toInt| ≤ b.toInt := by
    rw [x.estimate_int8, marginBound_int8 x.rowBound_sah_int8 hm]
    refine error.trans (Int.add_le_add_right (mul_le_mul_of_nonneg_left (Int.add_le_add ?_ ?_) (by decide)) _)
    · exact mul_le_mul_of_nonneg_right activations (Int.natCast_nonneg _)
    · exact mul_le_mul_of_nonneg_left weights m0
  rw [Int.abs_eq_natAbs] at bound
  omega

end Sys2Proof.Machine
end

section
/-! FACTS. The calendar's entries, the dispatcher and the end of a run, case by case (R442 to R444). -/

namespace Sys2Proof.Machine

variable {d : Die}

/-! ### An entry falls due (R441, R442) -/

theorem Die.armedBefore_iff {s : Nat} : d.armedBefore s = true ↔ (d.slot s).state = .armed ∧ (d.slot s).armTick ≠ d.boot.sinceRst + 1 :=
  decide_eq_true_iff

theorem Die.entryDue_unarmed {s : Nat} (h : d.armedBefore s = false) : d.entryDue s = d :=
  if_neg (Bool.eq_false_iff.1 h)

/-- The pending entry replaced. -/
def Die.withPending (d : Die) (p : Option Nat) : Die := { d with ctx := { d.ctx with cal := { d.ctx.cal with pending := p } } }

theorem Die.entryDue_none {s : Nat} (h : d.armedBefore s = true) (hp : d.ctx.cal.pending = none) : d.entryDue s = d.withPending (some s) := by
  unfold Die.entryDue
  rw [if_pos h, hp]
  rfl

theorem Die.entryDue_some {s p : Nat} (h : d.armedBefore s = true) (hp : d.ctx.cal.pending = some p) :
    d.entryDue s = (d.withPending (some s)).updSlot p fun x => { x with missed := satInc32 x.missed 1 } := by
  unfold Die.entryDue
  rw [if_pos h, hp]
  rfl

/-- Entry `n` of quantum `k` is taken: the calendar stands behind it. -/
def Die.entryTaken (d : Die) (k : Int) (n : Nat) : Die :=
  let c := d.ctx.cal
  { d with ctx := { d.ctx with cal := { c with quantumK := k, next := n + 1, lastDue := some (c.start k + c.offset c.active n) } } }

section
variable {s : State} {k : Int} {n : Nat} (hn : s.die.ctx.cal.nextEntry = some (k, n))
include hn

theorem answers_calEntryDue_early (early : s.die.baseNow s.die.ctx.cal.ptp < s.die.ctx.cal.start k + s.die.ctx.cal.offset s.die.ctx.cal.active n) :
    Answers .calEntryDue s s.die :=
  answers_of_act (exec_calEntryDue s) (by dsimp only; rw [hn]; exact if_neg (not_le.2 early))

theorem answers_calEntryDue_due {e : Die} (due : s.die.ctx.cal.start k + s.die.ctx.cal.offset s.die.ctx.cal.active n ≤ s.die.baseNow s.die.ctx.cal.ptp)
    (h : (s.die.entryTaken k n).entryDue (wbits (s.die.ctx.cal.entry s.die.ctx.cal.active n) 29 24) = e) : Answers .calEntryDue s e :=
  answers_of_act (exec_calEntryDue s) (by dsimp only; rw [hn]; exact (if_pos due).trans h)

end

/-! ### A run starts (R442, R443) -/

theorem Die.engineHeld_running (h0 : d.te0.inReset = false) (h1 : d.te1.inReset = false) (s : Nat) : d.engineHeld s = false := by
  unfold Die.engineHeld
  split
  · rw [h0, h1, Bool.and_false, Bool.and_false]; rfl
  · rfl

/-- The dispatcher takes its pending entry once issue is idle and every action has drained. -/
theorem Die.dispatch_served {p : Nat} (hp : d.ctx.cal.pending = some p) (hr : d.iss.run = none) (hd : d.drained = true)
    (hi : d.issueRuns = true) (he : d.engineHeld p = false) :
    d.dispatch = if (d.slot p).state = .armed ∧ d.runsContexts = true then (d.withPending none).startRun p else d.withPending none := by
  unfold Die.dispatch
  rw [hp]
  dsimp only
  rw [hr, hd, hi, he]
  rfl

theorem Die.runsContexts_iff : d.runsContexts = true ↔ (d.glb.service = 1 ∨ d.glb.service = 2) ∧ d.hbm.failed = false := by
  simp [Die.runsContexts]

/-- The planes of an engine as a run finds them. -/
def Engine.fresh (e : Engine) : Engine := { e with plane0 := e.plane0.unwritten, plane1 := e.plane1.unwritten, pend16 := [] }

/-- A run starts at bundle 0 of the slot, whatever it does to cursors and to what the post unit gathers. -/
theorem Die.startRun_segment {s : Nat} {g : Segment} (h : (d.slot s).seg = some g) : ∃ (i : Issue) (u : Post),
    i.run = some { slot := s, force0 := d.te0.forceExact, force1 := d.te1.forceExact } ∧
    d.startRun s = Die.updSlot { d with iss := i, te0 := d.te0.fresh, te1 := d.te1.fresh, fln := { d.fln with rows := [], next := 0 }, pst := u }
      s fun x => { x with runNum := nextRunNum x.runNum, marks := [] } := by
  unfold Die.startRun
  rw [h]
  exact ⟨_, _, rfl, rfl⟩

/-! ### A run ends (R444) -/

/-- The run to end is the last of the RUNS armed. -/
def Slot.lastRun (x : Slot) : Bool := decide (x.state = .armed ∧ x.runsLeft = 1)

/-- The slot after a run that held issue for `held` cycles. -/
def Slot.ranOnce (x : Slot) (held : Nat) : Slot :=
  { x with runsDone := x.runsDone + 1, lastCyc := w32 (min 0xFFFFFFFF held) }

/-- RUNS counts down; 0 is no limit. -/
def Slot.counted (x : Slot) : Slot :=
  { x with runsLeft := if x.state = .armed then x.runsLeft - (if x.runsLeft = 0 then 0 else 1) else x.runsLeft,
           state := if x.lastRun then .loaded else x.state, conf := x.conf && !x.lastRun }

theorem Slot.counted_last {x : Slot} (ha : x.state = .armed) (h : x.runsLeft = 1) :
    x.counted = { x with runsLeft := 0, state := .loaded, conf := false } := by
  simp [Slot.counted, Slot.lastRun, ha, h]

theorem Slot.counted_not_last {x : Slot} (h : x.lastRun = false) :
    x.counted = { x with runsLeft := if x.state = .armed then x.runsLeft - (if x.runsLeft = 0 then 0 else 1) else x.runsLeft } := by
  unfold Slot.counted
  rw [h, Bool.not_false, Bool.and_true]
  rfl

theorem Slot.counted_more {x : Slot} (ha : x.state = .armed) (h : 1 < x.runsLeft.toNat) : x.counted = { x with runsLeft := x.runsLeft - 1 } := by
  have h0 : x.runsLeft ≠ 0 := fun e => absurd (e ▸ h) (by decide)
  have h1 : x.runsLeft ≠ 1 := fun e => absurd (e ▸ h) (by decide)
  rw [Slot.counted_not_last (decide_eq_false fun l => h1 l.2), if_pos ha, if_neg h0]

theorem Slot.counted_unlimited {x : Slot} (ha : x.state = .armed) (h : x.runsLeft = 0) : x.counted = x := by
  rw [Slot.counted_not_last (decide_eq_false fun l => absurd (h.symm.trans l.2) (by decide)), if_pos ha, if_pos h, show x.runsLeft - 0 = x.runsLeft from BitVec.sub_zero _]

theorem Slot.counted_loaded {x : Slot} (h : x.state = .loaded) : x.counted = x := by
  have unarmed : x.state ≠ .armed := by rw [h]; decide
  rw [Slot.counted_not_last (decide_eq_false fun l => unarmed l.1), if_neg unarmed]

/-- The die as the end of run `r` leaves it, before its function is told. -/
def Die.ranOnce (d : Die) (r : Run) : Die :=
  (Die.forecast { d with iss := { d.iss with run := none } } r.slot).updSlot r.slot fun x => (x.ranOnce r.held).counted

theorem Die.endRun_drained {r : Run} (hr : d.tallyReadable.iss.run = some r) (hp : r.phase = .drain) (hd : d.tallyReadable.drained = true) :
    d.endRun = if (d.tallyReadable.slot r.slot).runCtrl.getLsbD 1 then (d.tallyReadable.ranOnce r).intr r.slot 0
      else d.tallyReadable.ranOnce r := by
  unfold Die.endRun
  dsimp only
  rw [hr]
  dsimp only
  rw [if_pos ⟨hp, hd⟩, Die.updSlot_congr (g := fun x => (x.ranOnce r.held).counted)] <;> rfl

/-- An INTR that is asked for goes out when the mainline is up, and the round of its module begins again. -/
theorem Die.intr_if (d : Die) (b : Bool) (fn v : Nat) : (if b then d.intr fn v else d) =
    { d with fab := { d.fab with modTurn := if b && d.mainline then Tab.write 3 d.fab.modTurn 0 3 else d.fab.modTurn },
             out := if b && d.mainline then .intr fn (BitVec.ofNat 8 v) :: d.out else d.out } := by
  unfold Die.intr
  cases b <;> cases d.mainline <;> rfl

theorem Die.tallyReadable_ctx (d : Die) : d.tallyReadable.ctx = d.ctx :=
  foldl_pred (P := fun e : Die => e.ctx = d.ctx) rfl fun e t _ h => (e.tallyAdd_ctx t.2 1).trans h

end Sys2Proof.Machine
end

section
/-! O45: calendar entries and runs. -/

namespace Sys2Proof.Machine

/-- Settles O45, clause by clause. -/
theorem calendarEntriesStartAndEndRuns : Obligations.CalendarEntriesStartAndEndRuns := by
  unfold Obligations.CalendarEntriesStartAndEndRuns
  refine ⟨?_, ?_, ?_⟩
  · intro s k n _ d c sl taken hn
    refine ⟨fun early => answers_calEntryDue_early hn early, fun due unarmed => ?_, fun due armed before => ?_⟩
    · have idle : (d.entryTaken k n).armedBefore sl = false :=
        Bool.eq_false_iff.2 fun h => unarmed.elim (absurd (Die.armedBefore_iff.1 h).1) (Die.armedBefore_iff.1 h).2
      exact answers_calEntryDue_due hn due (Die.entryDue_unarmed idle)
    · have ready : (d.entryTaken k n).armedBefore sl = true := Die.armedBefore_iff.2 ⟨armed, before⟩
      exact ⟨fun empty => answers_calEntryDue_due hn due (Die.entryDue_none ready empty),
        fun p full => answers_calEntryDue_due hn due (Die.entryDue_some ready full)⟩
  · intro s p g w d x hp hg hr hd hs hf hi h0 h1
    have served := Die.dispatch_served hp hr hd hi (Die.engineHeld_running h0 h1 p)
    refine ⟨fun unarmed => ?_, fun armed => ?_⟩
    · exact answers_of_act (exec_dispatchStart s) (served.trans (if_neg fun h => unarmed h.1))
    · obtain ⟨i, u, run, eq⟩ := Die.startRun_segment (d := d.withPending none) hg
      refine ⟨_, answers_of_act (exec_dispatchStart s) ((served.trans (if_pos ⟨armed, Die.runsContexts_iff.2 ⟨hs, hf⟩⟩)).trans eq), rfl, run,
        Die.updSlot_slot_self _ _ _ w, fun j hj => Die.updSlot_slot_ne _ _ _ w hj, rfl, rfl, rfl, rfl⟩
  · intro s r w d x y hr hp hd
    have ws : Tab.wf {} d.ctx.slots = true := by rw [s.die.tallyReadable_ctx]; exact w
    have own : (d.ranOnce r).slot r.slot = (x.ranOnce r.held).counted := Die.updSlot_slot_self _ _ _ ws
    refine ⟨_, answers_of_act (exec_runEnd s) ((Die.endRun_drained hr hp hd).trans (Die.intr_if ..)), rfl,
      fun ha hl => own.trans (Slot.counted_last ha hl), fun ha hl => own.trans (Slot.counted_more ha hl),
      fun ha hl => own.trans (Slot.counted_unlimited ha hl), fun hl => own.trans (Slot.counted_loaded hl),
      fun j hj => Die.updSlot_slot_ne _ _ _ ws hj, rfl, rfl⟩

end Sys2Proof.Machine
end

section
/-! O3: what an event brings beside its own effect. -/

namespace Sys2Proof.Machine

/-- GEN counts an event that changes the report while firmware runs on. -/
theorem Die.bump_gen (old new : Die) : Die.bump old new = { new with mgmt := { new.mgmt with
    gen := if old.boot.fwRuns = true ∧ new.boot.fwRuns = true ∧ old.boot.starts = new.boot.starts ∧ old.report ≠ new.report
      then new.mgmt.gen + 1 else new.mgmt.gen } } := by
  unfold Die.bump
  simp only [Bool.and_eq_true, decide_eq_true_eq, and_assoc]
  split <;> rfl

/-- The holdoff runs from when the entry conditions hold on. -/
theorem Die.holdoffFrom_since (d : Die) : d.holdoffFrom = { d with pwr := { d.pwr with
    okSince := if d.entryReady = false then none else if d.pwr.okSince.isSome = true then d.pwr.okSince else some d.time.aon.toNat } } := by
  unfold Die.holdoffFrom
  cases d.entryReady with
  | true => rw [if_pos rfl, if_neg (c := true = false) (by decide)]; split <;> rfl
  | false =>
    rw [if_neg (c := false = true) (by decide), if_pos rfl]
    split
    · rfl
    · next never => rw [← Option.not_isSome_iff_eq_none.1 never]

/-- GEN is none of the conditions for sleep. -/
theorem Die.entryReady_gen (d : Die) (g : W32) : Die.entryReady { d with mgmt := { d.mgmt with gen := g } } = d.entryReady := rfl

theorem Xfr.unread_of_read {x : Xfr} (h : ∀ c ∈ x.threads, ∀ q ∈ c.2.out, q.data.isSome = true) : x.unread = [] := by
  unfold Xfr.unread
  rw [List.flatMap_eq_nil_iff]
  intro c hc
  rw [List.filter_eq_nil_iff]
  intro q hq
  simp [Option.isSome_iff_ne_none.1 (h c hc q hq)]

/-- Of one outstanding request without a history, the source before the event is kept where the event changed it. -/
theorem Die.readable_single {old new : Die} {q : Req} (one : new.xfr.unread = [q]) (hs : q.serial < old.xfr.issued) (none : old.seen = []) :
    Die.readable old new = if old.st.source q = new.st.source q then [] else [(q.serial, [old.st.source q])] := by
  unfold Die.readable
  rw [one, none]
  by_cases h : old.st.source q = new.st.source q
  · simp [h, Tab.read, Tab.write, Tab.erase]
  · simp [h, hs, Tab.read, Tab.write, Tab.insert]

/-- Settles O3: GEN is the report's, the holdoff the power block's, and what is kept is `Die.readable`. -/
theorem eventBringsOnlyGenAndHoldoff : Obligations.EventBringsOnlyGenAndHoldoff := by
  refine ⟨fun old new => ?_, fun old new read => ?_, fun old new q one hs none => ?_⟩
  · rw [Die.afterEvent_seen]
    unfold Die.afterEvent
    rw [Die.holdoffFrom_since, Die.bump_gen, Die.entryReady_gen]
  · rw [Die.afterEvent_seen, Die.readable, Xfr.unread_of_read read, List.foldl_nil]
  · rw [Die.afterEvent_seen]
    exact Die.readable_single one hs none

end Sys2Proof.Machine
end

section
/-! O26: the steps of a thread. -/

namespace Sys2Proof.Machine

/-! ### A step that resolves no page -/

/-- No page of a walk is resolved: the step is a MOVE or a STRIDE, or the walk is outside the grant. -/
def Die.noWalk (d : Die) (x : Thread) : Prop := d.st.xkind x.pc = 1 ∨ d.st.xkind x.pc = 2 ∨ x.outside = true

section
variable {d : Die} {t : Nat}

/-- Such a step stands at its element, or is over. -/
theorem Die.settle_noWalk (h : d.noWalk (d.thread t)) (n : Nat) (walk : Access) : d.settle t (n + 1) walk =
    if (d.thread t).inStep = true ∧ (d.thread t).state = .running ∧ (d.thread t).lenRec = false ∧
      (d.elems (d.thread t) ≤ (d.thread t).elem ∨ (d.element (d.thread t)).len = 0) then d.stepOver t else d := by
  unfold Die.settle
  dsimp only
  split
  · next idle => rw [if_neg (fun k => by simp [k.1, k.2.1] at idle)]
  next busy =>
  have running : (d.thread t).inStep = true ∧ (d.thread t).state = .running := by simpa using busy
  split
  · next past =>
    have past : d.elems (d.thread t) ≤ (d.thread t).elem ∨ (d.element (d.thread t)).len = 0 := by simpa using past
    cases rec : (d.thread t).lenRec with
    | true => rw [if_pos rfl, if_neg (by simp)]
    | false => rw [if_neg (by simp), if_pos ⟨running.1, running.2, rfl, past⟩]
  · next more =>
    rw [if_neg (c := _ ∧ _) fun k => more (by simpa using k.2.2.2)]
    split
    · rfl
    · next other =>
      have outside : (d.thread t).outside = true := h.elim (fun k => absurd (.inl k) other) fun k => k.elim (fun k => absurd (.inr k) other) id
      have stays : d.resolvePage t walk = (d, true) := if_pos outside
      rw [stays]
      rfl

/-! ### A walk outside the slot's window (R367) -/

/-- The thread begins a walk outside the grant, whose requests begin with serial `n` (R365). -/
def Thread.strays (n : Nat) (x : Thread) : Thread :=
  { x with inStep := true, elem := 0, off := 0, page := none, lenRec := false, outside := true,
           pass := x.pass.map fun y => { y with from_ := n } }

theorem Die.elems_gather {x : Thread} (h : xKind (d.st.xword x.pc 0) = 3) : d.elems x = walkPages (d.st.xword x.pc 0) := by
  simp [Die.elems, h]

theorem Die.element_gather_len {x : Thread} (h : xKind (d.st.xword x.pc 0) = 3) :
    (d.element x).len = (d.template x.slot (bitsOf (d.st.xword x.pc 0) 15 8)).pgLen := by
  simp [Die.element, h]

theorem Die.walkStep_strays (w : Tab.wf {} d.xfr.threads = true) (walks : xKind (d.st.xword (d.thread t).pc 0) = 3)
    (there : d.stepAbsent (d.thread t) [d.st.xword (d.thread t).pc 1] = false)
    (far : (d.slot (d.thread t).slot).seqCount ≤ walkSeq (d.thread t) (d.st.xword (d.thread t).pc 0))
    (pages : 0 < walkPages (d.st.xword (d.thread t).pc 0))
    (bytes : 0 < (d.template (d.thread t).slot (bitsOf (d.st.xword (d.thread t).pc 0) 15 8)).pgLen) (walk : Access) :
    d.walkStep t walk = d.updThread t (Thread.strays d.xfr.issued) := by
  have own : (d.updThread t (Thread.strays d.xfr.issued)).thread t = (d.thread t).strays d.xfr.issued := Die.updThread_thread_self _ _ _ w
  have elems : (d.updThread t (Thread.strays d.xfr.issued)).elems ((d.thread t).strays d.xfr.issued) = walkPages (d.st.xword (d.thread t).pc 0) :=
    Die.elems_gather walks
  have len : ((d.updThread t (Thread.strays d.xfr.issued)).element ((d.thread t).strays d.xfr.issued)).len =
      (d.template (d.thread t).slot (bitsOf (d.st.xword (d.thread t).pc 0) 15 8)).pgLen := Die.element_gather_len walks
  have begun : d.walkStep t walk = (d.updThread t (Thread.strays d.xfr.issued)).settle t 4097 walk := by
    unfold Die.walkStep
    rw [if_neg (by rw [there]; exact Bool.false_ne_true), if_pos far]
    rfl
  rw [begun, Die.settle_noWalk (by rw [own]; exact .inr (.inr rfl)), own, elems, len]
  refine if_neg fun ⟨_, _, _, past⟩ => past.elim (fun none => ?_) fun empty => ?_
  · exact absurd none (Nat.not_le.2 pages)
  · exact absurd empty bytes.ne'

/-- A step whose words are read without an error runs. -/
theorem Die.runStep_ok {kind : Nat} (h : d.atStep t kind = true) (f : Die → Die) : d.runStep t kind .ok f = f d := by
  unfold Die.runStep
  rw [if_pos h]
  rfl
end

/-! ### The statement fails -/

/-- Two dies that a command answers have the same threads. -/
theorem Answers.xfr_eq {c : Instr} {s : State} {d e : Die} (a : Answers c s d) (b : Answers c s e) : d.xfr = e.xfr := by
  have same : Die.afterEvent s.die d = Die.afterEvent s.die e := congrArg State.die (Host.Outcome.next.inj (a.symm.trans b))
  have xfr := congrArg Die.xfr same
  rwa [Die.afterEvent_xfr, Die.afterEvent_xfr] at xfr

/-- Thread 0 at a GATHER of one page of sequence 0, with an open pass whose step's first request had serial 0. -/
def strayThread : Thread := { state := .running, pass := some { seq := 0, half := false, gen := 0, len := 0 } }

/-- Slot 0 is ARMED with a template of one byte and no sequence, so that the GATHER is outside its window; one request has been issued so
far. -/
def strayWalk : Die :=
  { st := { xprog := [(0, 3), (5, 16)], tmpl := [(4, 1)] },
    ctx := { slots := [(0, { state := .armed, seg := some { xUnits := 2, threads := 1, tmplCount := 1 } })] },
    xfr := { threads := [(0, strayThread)], issued := 1 } }

theorem strayWalk_answers : Answers (.gather 0 .ok .ok) { die := strayWalk } (strayWalk.updThread 0 (Thread.strays 1)) :=
  answers_of_act (exec_gather 0 .ok .ok _)
    ((Die.runStep_ok (by decide) _).trans (Die.walkStep_strays (by decide) (by decide) (by decide) (by decide) (by decide) (by decide) .ok))

/-- Refutes O26: a walk outside the grant that finds a pass open also notes in it the serial with which its requests begin (`strayWalk`); the
statement leaves the pass as it was. -/
theorem not_threadsTakeUpTheirSteps : ¬ Obligations.ThreadsTakeUpTheirSteps := by
  intro h
  obtain ⟨-, outside, -⟩ := h { die := strayWalk } 0 (by decide)
  have stated := outside 3 _ .ok (.inl ⟨rfl, rfl⟩) (by decide) (by decide) (by decide) (by decide) (by decide) (by decide)
  exact absurd (strayWalk_answers.xfr_eq stated) (by decide)

end Sys2Proof.Machine
end

section
/-! O29: refresh, patrol, and the loss of a channel's lock. -/

namespace Sys2Proof.Machine

/-! ### The end of every context -/

section
variable {d : Die} {i : Nat}

/-- The end of a context leaves the slots in form, and each slot's state as it was but for its own slot's, where there was a context to end. -/
theorem Die.abortSlot_slots (w : Tab.wf {} d.ctx.slots = true) (s c : Nat) : Tab.wf {} (d.abortSlot s c).ctx.slots = true ∧
    ∀ i, ((d.abortSlot s c).slot i).state = if i = s ∧ d.abortable s = true then .aborted else (d.slot i).state := by
  by_cases ha : d.abortable s = true
  · have slots : (d.abortSlot s c).ctx.slots = Tab.upd {} d.ctx.slots s fun x => { x with state := .aborted, cause := c, runsLeft := 0 } := by
      rw [Die.abortSlot_abortable ha, Die.abortTold_ctx, Die.aborted_ctx]
    refine ⟨by rw [slots]; exact Tab.wf_upd _ _ w, fun i => ?_⟩
    show (Tab.read {} (d.abortSlot s c).ctx.slots i).state = _
    rw [slots, Tab.read_upd _ _ _ w]
    by_cases e : i = s <;> simp [e, ha, Die.slot]
  · unfold Die.abortSlot
    rw [if_neg ha]
    simp only [ha, and_false, if_false, Bool.false_eq_true]
    split
    · split
      · split
        · refine ⟨Die.wf_updSlot _ _ _ w, fun i => ?_⟩
          rw [Die.updSlot_slot { d with iss := d.iss.lowerCause s c } s _ i w]
          split
          · next e => rw [e]; rfl
          · rfl
        · exact ⟨w, fun i => rfl⟩
      · exact ⟨w, fun i => rfl⟩
    · exact ⟨w, fun i => rfl⟩

theorem Die.abortable_armed {s : Nat} (h : (d.slot s).state = .armed) : d.abortable s = true := by simp [Die.abortable, h]

/-- Ending the contexts of a list of slots makes no other slot ARMED, keeps a slot that is ABORTED so, and ends every ARMED slot of the list. -/
theorem Die.foldl_abortSlot_state (c : Nat) : ∀ (l : List Nat) (d : Die), Tab.wf {} d.ctx.slots = true → ∀ i,
    let e := l.foldl (fun (d : Die) s => d.abortSlot s c) d
    ((d.slot i).state ≠ .armed → (e.slot i).state ≠ .armed) ∧ ((d.slot i).state = .aborted → (e.slot i).state = .aborted) ∧
      (i ∈ l → (d.slot i).state = .armed → (e.slot i).state = .aborted)
  | [], _, _, _ => ⟨id, id, fun h => absurd h (by simp)⟩
  | s :: l, d, w, i => by
    obtain ⟨w', step⟩ := Die.abortSlot_slots w s c
    obtain ⟨other, stays, ends⟩ := Die.foldl_abortSlot_state c l (d.abortSlot s c) w' i
    have own := step i
    refine ⟨fun h => other ?_, fun h => stays ?_, fun hi h => ?_⟩
    · rw [own]; split
      · decide
      · exact h
    · rw [own]; split
      · rfl
      · exact h
    · by_cases e : i = s
      · exact stays (by rw [own, if_pos ⟨e, Die.abortable_armed (e ▸ h)⟩])
      · exact ends ((List.mem_cons.1 hi).resolve_left e) (by rw [own, if_neg fun k => e k.1, h])

/-- No slot stays ARMED: each that was is ABORTED. -/
theorem Die.abortAll_state (w : Tab.wf {} d.ctx.slots = true) (c : Nat) (hi : i < 64) :
    ((d.abortAll c).slot i).state ≠ .armed ∧ ((d.slot i).state = .armed → ((d.abortAll c).slot i).state = .aborted) := by
  obtain ⟨other, -, ends⟩ := Die.foldl_abortSlot_state c (List.range 64) d w i
  have ended := ends (List.mem_range.2 hi)
  refine ⟨fun h => ?_, ended⟩
  by_cases armed : (d.slot i).state = .armed
  · exact absurd ((ended armed).symm.trans h) (by decide)
  · exact other armed h
end

/-! ### The events -/

/-- What the failure of a channel captures (R608): the first one stands. -/
def Hbm.failedOn (h : Hbm) (warm : Bool) (chan cause : Nat) : Hbm :=
  let h := { h with failed := true, warmAgain := warm, deadChans := h.deadChans ++ [chan] }
  if h.failValid then h else { h with failValid := true, failCause := BitVec.ofNat 3 cause, failChan := BitVec.ofNat 7 chan }

theorem Hbm.failedOn_dead (h : Hbm) (warm : Bool) (chan cause : Nat) :
    (h.failedOn warm chan cause).failed = true ∧ (h.failedOn warm chan cause).deadChans = h.deadChans ++ [chan] := by
  unfold Hbm.failedOn
  dsimp only
  split <;> exact ⟨rfl, rfl⟩

theorem Hbm.failedOn_first {h : Hbm} (first : h.failValid = false) (warm : Bool) (chan cause : Nat) :
    (h.failedOn warm chan cause).failValid = true ∧ (h.failedOn warm chan cause).failCause = BitVec.ofNat 3 cause ∧
      (h.failedOn warm chan cause).failChan = BitVec.ofNat 7 chan := by
  unfold Hbm.failedOn
  dsimp only
  rw [if_neg (by simp [first])]
  exact ⟨rfl, rfl, rfl⟩

/-- The die as the failure of a channel leaves it, before the contexts end (R236). -/
def Die.channelLost (d : Die) (chan cause : Nat) : Die :=
  let d := Die.record { d with hbm := d.hbm.failedOn d.boot.warm chan cause } 70 0x0E none chan cause 0 0
  { d with glb := { d.glb with service := 3 },
           sec := { d.sec with prots := Tab.mapVal {} (fun q : Prot => if q.sweeping then { q with sweepStuck := true } else q) d.sec.prots } }

theorem Die.channelLost_hbm (d : Die) (chan cause : Nat) : (d.channelLost chan cause).hbm = d.hbm.failedOn d.boot.warm chan cause := by
  simp [Die.channelLost]

theorem Die.channelLost_ctx (d : Die) (chan cause : Nat) : (d.channelLost chan cause).ctx = d.ctx := by simp [Die.channelLost]

theorem Die.channelFail_new {d : Die} {chan : Nat} (h : d.hbm.deadChans.contains chan = false) (cause : Nat) :
    d.channelFail chan cause = (d.channelLost chan cause).abortAll 0x0E := by
  unfold Die.channelFail
  rw [if_neg (by rw [h]; exact Bool.false_ne_true)]
  rfl

theorem Die.channelFail_dead {d : Die} {chan : Nat} (h : d.hbm.deadChans.contains chan = true) (cause : Nat) : d.channelFail chan cause = d :=
  if_pos h

/-- Settles O29: the events' equations; a channel's failure ends the contexts after it has been captured. -/
theorem hbmEventsAreCountedAndRecorded : Obligations.HbmEventsAreCountedAndRecorded := by
  refine ⟨fun s site => ?_, fun s out pat used => ?_, fun s c pop new w => ?_, fun s c dead => ?_⟩
  · exact answers_of_act (exec_hbmRefresh site s) (by simp only [Bool.and_eq_true, Bool.not_eq_true'])
  · refine answers_of_act (exec_patrolRead .ok s) (if_neg ?_)
    simpa [out, pat] using used
  · have lost := s.die.channelLost_hbm c.val 3
    obtain ⟨failed, dead⟩ := s.die.hbm.failedOn_dead s.die.boot.warm c.val 3
    refine ⟨(s.die.channelLost c.val 3).abortAll 0x0E,
      answers_of_act (exec_hbmPhyLockLoss c s) ((if_pos pop).trans (Die.channelFail_new new 3)), ?_, ?_, ?_, fun first => ?_, fun i hi => ?_⟩
    · rw [Die.abortAll_hbm, lost, failed]
    · rw [Die.abortAll_hbm, lost, dead]
    · rw [Die.abortAll_glb]; rfl
    · rw [Die.abortAll_hbm, lost]
      exact Hbm.failedOn_first first _ _ _
    · have slots : ∀ k, (s.die.channelLost c.val 3).slot k = s.die.slot k := fun k => by unfold Die.slot; rw [Die.channelLost_ctx]
      rw [← slots i]
      exact Die.abortAll_state (by rw [Die.channelLost_ctx]; exact w) _ hi
  · exact answers_of_act (exec_hbmPhyLockLoss c s) (by rw [Die.channelFail_dead dead, ite_self])

end Sys2Proof.Machine
end

section
/-! O27: requests move their bytes. -/

namespace Sys2Proof.Machine

/-! ### What a request reads and carries (R240, R257) -/

theorem nth_length {α : Type} (x : α) : ∀ l : List α, nth x l l.length = x
  | [] => rfl
  | _ :: l => nth_length x l

/-- Without an earlier instant named, a request reads its source as it stands. -/
theorem Die.reqRead_now (d : Die) (r : Req) : d.reqRead r [] =
    r.data.getD ((List.range r.len).map fun i => nth 0 (d.st.source r) i) := by
  unfold Die.reqRead
  cases r.data with
  | some b => rfl
  | none =>
    refine List.map_congr_left fun i _ => ?_
    rw [show ∀ k, nth (Tab.read [] d.seen r.serial).length [] k = (Tab.read [] d.seen r.serial).length from fun _ => rfl, nth_length]

theorem wrapNat_lt (n : Nat) (z : Int) : wrapNat n z < 2 ^ n := by
  have pos : (0 : Int) < ((2 ^ n : Nat) : Int) := by exact_mod_cast Nat.two_pow_pos n
  unfold wrapNat
  have := Int.emod_nonneg z pos.ne'
  have := Int.emod_lt_of_pos z pos
  omega

/-- A request other than a length record is of the element's rest, up to the 256-byte boundary of its source. -/
theorem Die.nextRequest_len {d : Die} {x : Thread} (h : x.lenRec = false) :
    (d.nextRequest x).len = min ((d.element x).len - x.off) (256 - wrapNat 8 ((d.element x).src + x.off)) := by
  unfold Die.nextRequest
  rw [if_neg (by simp [h])]

/-! ### A thread's list of requests -/

/-- Thread `t` has the requests `out`, of the `n` issued so far, and beside it and the counters of XFR the die is as `d`, what the stores and
the fabric hold with it. -/
structure Die.Outstanding (d : Die) (t : Nat) (out : List Req) (n : Nat) (e : Die) : Prop where
  form : Tab.wf {} e.xfr.threads = true
  own : (e.thread t).out = out
  issued : e.xfr.issued = n
  others : ∀ u, u ≠ t → e.thread u = d.thread u
  fab : e.fab = d.fab
  st : e.st = d.st

section
variable {d e : Die} {t n : Nat} {out : List Req}

/-- A change of the thread that leaves its requests. -/
theorem Die.Outstanding.updThread (h : d.Outstanding t out n e) {f : Thread → Thread} (hf : ∀ x, (f x).out = x.out) :
    d.Outstanding t out n (e.updThread t f) where
  form := Die.wf_updThread _ _ _ h.form
  own := by rw [Die.updThread_thread_self _ _ _ h.form, hf, h.own]
  issued := h.issued
  others u hu := (Die.updThread_thread_ne _ _ _ h.form hu).trans (h.others u hu)
  fab := h.fab
  st := h.st

theorem Die.Outstanding.toStep (h : d.Outstanding t out n e) (pc : Nat) : d.Outstanding t out n (e.toStep t pc) :=
  h.updThread fun x => by dsimp only; split <;> rfl

theorem Die.Outstanding.ite {c : Prop} [Decidable c] {a b : Die} (ha : d.Outstanding t out n a) (hb : d.Outstanding t out n b) :
    d.Outstanding t out n (if c then a else b) := by
  split
  · exact ha
  · exact hb

theorem Die.Outstanding.stepOver (h : d.Outstanding t out n e) : d.Outstanding t out n (e.stepOver t) := by
  unfold Die.stepOver
  dsimp only
  refine Die.Outstanding.toStep (Die.Outstanding.ite ?_ h) _
  exact h.updThread fun _ => rfl

theorem Die.Outstanding.settle (h : d.Outstanding t out n e) (hw : e.noWalk (e.thread t)) (k : Nat) (walk : Access) :
    d.Outstanding t out n (e.settle t (k + 1) walk) := by
  rw [Die.settle_noWalk hw]
  split
  · exact h.stepOver
  · exact h

/-- The step goes on past a request that it has given. -/
theorem Die.Outstanding.requestTaken (h : d.Outstanding t out n e) {len : Nat} (walk : Access)
    (hw : (e.thread t).lenRec = true ∨ e.noWalk (e.thread t) ∨ (e.thread t).off + len < (e.element (e.thread t)).len) :
    d.Outstanding t out n (e.requestTaken t len walk) := by
  unfold Die.requestTaken
  dsimp only
  split
  · have off := h.updThread (f := fun x => { x with lenRec := false }) fun _ => rfl
    split
    · exact off.stepOver
    · exact off
  · next norec =>
    split
    · exact h.updThread fun _ => rfl
    · next last =>
      refine (h.updThread (f := fun x => { x with elem := x.elem + 1, off := 0, page := none }) fun _ => rfl).settle ?_ 4096 walk
      rw [Die.updThread_thread_self _ _ _ h.form]
      exact (hw.resolve_left norec).resolve_right last
end

/-! ### A request issues (R257, R258) -/

/-- XFR_HBM_RD_BYTES is all that a count of bytes read changes. -/
theorem Die.countRead_eq (d : Die) (s : Nat) (r : Req) : ∃ v, d.countRead s r = { d with xfr := { d.xfr with rdBytes := v } } := by
  unfold Die.countRead Die.xfrCount
  split
  · split
    · exact ⟨_, rfl⟩
    · exact ⟨_, rfl⟩
  · exact ⟨_, rfl⟩

theorem Die.grantViol_eq (d : Die) (s : Nat) : ∃ v, d.grantViol s = { d with xfr := { d.xfr with grantViol := v } } := by
  unfold Die.grantViol
  split
  · exact ⟨_, rfl⟩
  · exact ⟨_, rfl⟩

/-- The source of a request is read as it issues: at once, where no bank port, failed channel or erased key is in the way. -/
def Die.readsNow (d : Die) (r : Req) (readNow : Bool) : Bool :=
  readNow && !(r.readPort.map d.portTaken).getD false && !d.onDead r.reads && (d.lost r.reads []).isNone

/-- The die with the request in the list of thread `t`, of slot `s`. -/
def Die.queued (d : Die) (t s : Nat) (r : Req) : Die :=
  let d := d.updThread t fun x => { x with out := x.out ++ [r], held := false }
  let d := { d with xfr := { d.xfr with issued := d.xfr.issued + 1, turn := Tab.write 255 d.xfr.turn (t / 256) (t % 256) } }
  let n := d.inflight
  if d.xfr.reqPeak.toNat < n then d.xfrCount s fun x => { x with reqPeak := BitVec.ofNat 16 n } else d

theorem Die.queued_eq (d : Die) (t s : Nat) (r : Req) : ∃ v, d.queued t s r = { d with xfr := { d.xfr with
    threads := Tab.upd {} d.xfr.threads t fun x => { x with out := x.out ++ [r], held := false },
    issued := d.xfr.issued + 1, turn := Tab.write 255 d.xfr.turn (t / 256) (t % 256), reqPeak := v } } := by
  unfold Die.queued Die.xfrCount
  dsimp only
  split
  · split
    · exact ⟨_, rfl⟩
    · exact ⟨_, rfl⟩
  · exact ⟨_, rfl⟩

section
variable {d e : Die} {t s : Nat} {r : Req}

theorem Die.thread_joined (w : Tab.wf {} d.xfr.threads = true)
    (threads : e.xfr.threads = Tab.upd {} d.xfr.threads t fun x => { x with out := x.out ++ [r], held := false }) :
    e.thread t = { d.thread t with out := (d.thread t).out ++ [r], held := false } := by
  rw [Die.thread, threads, Tab.read_upd_self _ _ w]
  rfl

/-- A request joins the list. -/
theorem Die.Outstanding.joined {n : Nat} (w : Tab.wf {} d.xfr.threads = true)
    (threads : e.xfr.threads = Tab.upd {} d.xfr.threads t fun x => { x with out := x.out ++ [r], held := false }) (issued : e.xfr.issued = n)
    (fab : e.fab = d.fab) (st : e.st = d.st) : d.Outstanding t ((d.thread t).out ++ [r]) n e where
  form := by rw [threads]; exact Tab.wf_upd _ _ w
  own := by rw [Die.thread_joined w threads]
  issued := issued
  others u hu := by rw [Die.thread, threads, Tab.read_upd_ne _ w hu]; rfl
  fab := fab
  st := st

/-- The request joins the list, whatever the counters of refusals and bytes read. -/
theorem Die.queued_outstanding (w : Tab.wf {} d.xfr.threads = true) (g : W32) (v : W64) (n : Nat) (walk : Access)
    (hw : (d.thread t).lenRec = true ∨ d.noWalk (d.thread t) ∨ (d.thread t).off + n < (d.element (d.thread t)).len) :
    d.Outstanding t ((d.thread t).out ++ [r]) (d.xfr.issued + 1)
      ((Die.queued { d with xfr := { d.xfr with grantViol := g, rdBytes := v } } t s r).requestTaken t n walk) := by
  obtain ⟨p, eq⟩ := Die.queued_eq { d with xfr := { d.xfr with grantViol := g, rdBytes := v } } t s r
  rw [eq]
  refine Die.Outstanding.requestTaken ?_ walk ?_
  · exact Die.Outstanding.joined w rfl rfl rfl rfl
  · rw [Die.thread_joined (d := d) (r := r) w]
    · exact hw
    · rfl

theorem Die.putOut_eq (d : Die) (t : Nat) (r : Req) (readNow : Bool) (walk : Access) : d.putOut t r readNow walk =
    let s := (d.thread t).slot
    let d := if r.srcOk && r.dstOk then d else d.grantViol s
    let r := { r with serial := d.xfr.issued }
    let now := d.readsNow r readNow
    let d := if now then d.landReadable.countRead s r else d
    let r := if now then { r with data := some (d.reqRead r []) } else r
    (d.queued t s r).requestTaken t r.len walk := rfl

/-- The request as it joins its thread's list. -/
def Die.stamped (d : Die) (r : Req) (now : Bool) : Req :=
  { r with serial := d.xfr.issued, data := if now then some (d.reqRead r []) else r.data }

/-- A request that the grants allow. -/
theorem Die.putOut_granted (w : Tab.wf {} d.xfr.threads = true) (ok : r.srcOk = true ∧ r.dstOk = true) (h : Landed d) (readNow : Bool) (walk : Access)
    (hw : (d.thread t).lenRec = true ∨ d.noWalk (d.thread t) ∨ (d.thread t).off + r.len < (d.element (d.thread t)).len) :
    d.Outstanding t ((d.thread t).out ++ [d.stamped r (d.readsNow r readNow)]) (d.xfr.issued + 1) (d.putOut t r readNow walk) := by
  rw [Die.putOut_eq]
  dsimp only
  rw [show (if r.srcOk && r.dstOk then d else d.grantViol (d.thread t).slot) = d from if_pos (by simp [ok])]
  rw [show d.readsNow { r with serial := d.xfr.issued } readNow = d.readsNow r readNow from rfl]
  cases d.readsNow r readNow with
  | false => exact Die.queued_outstanding w d.xfr.grantViol d.xfr.rdBytes _ walk hw
  | true =>
    obtain ⟨v, counted⟩ := d.countRead_eq (d.thread t).slot { r with serial := d.xfr.issued }
    simp only [if_true, Die.landReadable_landed h, counted]
    have bytes : Die.reqRead { d with xfr := { d.xfr with rdBytes := v } } { r with serial := d.xfr.issued } [] = d.reqRead r [] := by
      rw [Die.reqRead_now, Die.reqRead_now]; rfl
    rw [bytes]
    exact Die.queued_outstanding w d.xfr.grantViol v _ walk hw

/-- A request that is not read as it issues. -/
theorem Die.putOut_unread (w : Tab.wf {} d.xfr.threads = true) (walk : Access)
    (hw : (d.thread t).lenRec = true ∨ d.noWalk (d.thread t) ∨ (d.thread t).off + r.len < (d.element (d.thread t)).len) :
    d.Outstanding t ((d.thread t).out ++ [d.stamped r false]) (d.xfr.issued + 1) (d.putOut t r false walk) := by
  have refused : ∃ g v, (if r.srcOk && r.dstOk then d else d.grantViol (d.thread t).slot) =
      { d with xfr := { d.xfr with grantViol := g, rdBytes := v } } := by
    split
    · exact ⟨_, _, rfl⟩
    · obtain ⟨g, eq⟩ := d.grantViol_eq (d.thread t).slot
      exact ⟨g, _, eq⟩
  obtain ⟨g, v, eq⟩ := refused
  rw [Die.putOut_eq]
  dsimp only
  rw [eq]
  exact Die.queued_outstanding w g v _ walk hw
end

/-! ### The limits of issue (R238, R259, R466) -/

section
variable {d : Die} {t : Nat} {room readNow : Bool} {walk : Access}

theorem Die.issueRequest_waits (h : 8 ≤ (d.thread t).out.length ∨ d.clusterTurn t = false ∨ d.xfrRuns = false) :
    d.issueRequest t room readNow walk = d := by
  unfold Die.issueRequest
  dsimp only
  split
  · rfl
  · next go =>
    have full : 8 ≤ (d.thread t).out.length := h.resolve_right fun k => go (by rcases k with k | k <;> simp [k])
    rw [if_pos full]

section
variable (runs : d.xfrRuns = true) (running : (d.thread t).state = .running) (inStep : (d.thread t).inStep = true)
  (eight : (d.thread t).out.length < 8) (turn : d.clusterTurn t = true)
include runs running inStep eight turn

/-- A channel's queue has no room for the thread's next request. -/
theorem Die.issueRequest_full (full : d.mayFill (d.nextRequest (d.thread t)) = true) :
    d.issueRequest t false readNow walk = d.updThread t fun x => { x with held := true } := by
  have ready : (d.thread t).ready = true := by simp [Thread.ready, running, inStep]
  unfold Die.issueRequest
  exact (if_neg (by simp [runs, ready, turn])).trans ((if_neg (Nat.not_le.2 eight)).trans (if_pos (by simp [full])))

variable (queue : room = true ∨ d.mayFill (d.nextRequest (d.thread t)) = false) (clear : d.reqScrubbed (d.nextRequest (d.thread t)) = false)
include queue clear

/-- No limit holds it: it goes to its fabric channel, or issues. -/
theorem Die.issueRequest_free : d.issueRequest t room readNow walk =
    if (d.nextRequest (d.thread t)).dstSpace = 4 then
      match d.originRoute (d.thread t).slot (d.nextRequest (d.thread t)).fch with
      | .inl (code, dst) => (d.originMiss (d.thread t).slot code (d.nextRequest (d.thread t)).fch dst).failThread t 0x0A
      | .inr (c, p) =>
        if p = 8 then d.putOut t { d.nextRequest (d.thread t) with chan := c, port := 8 } readNow walk
        else if (d.tport p).state = .asleep then (if d.fabRuns && d.fab.assigned then d.wakePeer p else d)
        else if d.takesOwn p (d.xfr.toPort p) then d.putOut t { d.nextRequest (d.thread t) with chan := c, port := p } readNow walk
        else d
    else d.putOut t (d.nextRequest (d.thread t)) readNow walk := by
  have ready : (d.thread t).ready = true := by simp [Thread.ready, running, inStep]
  have room : ¬ (!room && d.mayFill (d.nextRequest (d.thread t))) = true := by rcases queue with k | k <;> simp [k]
  unfold Die.issueRequest
  exact (if_neg (by simp [runs, ready, turn])).trans ((if_neg (Nat.not_le.2 eight)).trans ((if_neg room).trans (if_neg (by simp [clear]))))

theorem Die.issueRequest_local (dst : (d.nextRequest (d.thread t)).dstSpace ≤ 3) :
    d.issueRequest t room readNow walk = d.putOut t (d.nextRequest (d.thread t)) readNow walk := by
  rw [Die.issueRequest_free runs running inStep eight turn queue clear, if_neg (by omega)]

variable (dst : (d.nextRequest (d.thread t)).dstSpace = 4)
include dst

theorem Die.issueRequest_miss {code : Nat} {peer : W32}
    (route : d.originRoute (d.thread t).slot (d.nextRequest (d.thread t)).fch = .inl (code, peer)) : d.issueRequest t room readNow walk =
      (d.originMiss (d.thread t).slot code (d.nextRequest (d.thread t)).fch peer).failThread t 0x0A := by
  rw [Die.issueRequest_free runs running inStep eight turn queue clear, if_pos dst, route]

theorem Die.issueRequest_route {c p : Nat} (hp : p < 8)
    (route : d.originRoute (d.thread t).slot (d.nextRequest (d.thread t)).fch = .inr (c, p)) : d.issueRequest t room readNow walk =
      if (d.tport p).state = .asleep then (if d.fabRuns && d.fab.assigned then d.wakePeer p else d)
      else if d.takesOwn p (d.xfr.toPort p) then d.putOut t { d.nextRequest (d.thread t) with chan := c, port := p } readNow walk
      else d := by
  rw [Die.issueRequest_free runs running inStep eight turn queue clear, if_pos dst, route]
  exact if_neg (by omega)
end

/-- A route miss is counted in the fabric's block alone, and recorded. -/
theorem Die.originMiss_eq (d : Die) (s code fch : Nat) (peer : W32) : d.originMiss s code fch peer =
    Die.record { d with fab := { d.fab with misses := (d.missCount (some s)).fab.misses } } 43 0x0A (some s) code peer.toNat fch 0 := by
  have count : d.missCount (some s) = { d with fab := { d.fab with misses := (d.missCount (some s)).fab.misses } } := by
    unfold Die.missCount Die.fabCount
    split <;> rfl
  rw [Die.originMiss, ← count]
end

/-! ### A request completes (R229, R240, R257, R260) -/

section
variable {d : Die} {t i n : Nat} {q : Req} {picks : List Nat}

theorem Die.barred_iff {rs ws : List (Nat × Nat)} : d.barred rs ws = false ↔ d.onDead (rs ++ ws) = false ∧ d.lost rs ws = none := by
  simp [Die.barred]

/-- What bars the writes bars the reads and writes together. -/
theorem Die.barred_writes {rs ws : List (Nat × Nat)} (h : d.barred rs ws = false) : d.barred [] ws = false := by
  obtain ⟨alive, keyed⟩ := Die.barred_iff.1 h
  refine Die.barred_iff.2 ⟨?_, ?_⟩
  · unfold Die.onDead at alive ⊢
    rw [List.any_append, Bool.and_or_distrib_left, Bool.or_eq_false_iff] at alive
    exact alive.2
  · unfold Die.lost at keyed ⊢
    rw [List.find?_append, Option.or_eq_none_iff] at keyed
    exact keyed.2

/-- An access that nothing bars and that meets nothing in error. -/
theorem Die.accessedBy_ok {rs ws : List (Nat × Nat)} (h : d.barred rs ws = false) (o : Option Nat) (r : Reader) :
    d.accessedBy .ok rs ws o r = (d, false) := by
  obtain ⟨alive, keyed⟩ := Die.barred_iff.1 h
  unfold Die.accessedBy
  rw [if_neg (by rw [alive]; exact Bool.false_ne_true)]
  dsimp only
  rw [if_neg Bool.false_ne_true, keyed]

theorem Die.portWaited_eq (d : Die) (s n : Nat) : ∃ w v, d.portWaited s n = { d with xfr := { d.xfr with portWait := w, waited := v } } := by
  unfold Die.portWaited Die.xfrCount
  split
  · exact ⟨_, _, rfl⟩
  · exact ⟨_, _, rfl⟩

/-- A request that has waited in no cycle adds nothing to the wait. -/
theorem Die.portWaited_zero (d : Die) (s : Nat) : d.portWaited s 0 = d := by
  unfold Die.portWaited Die.xfrCount
  split
  · rfl
  · simp [inc64]

theorem Die.completeRequest_waits (hq : (d.thread t).out[i]? = some q)
    (h : d.portHeld q = true ∨ d.xfrRuns = false ∨ q.dstSpace = 4 ∧ d.cellTurn (d.thread t).slot q = false) (res : Access) :
    d.completeRequest t i n picks res = d := by
  unfold Die.completeRequest
  dsimp only
  rw [hq]
  refine if_pos ?_
  rcases h with h | h | ⟨h, h'⟩
  · simp [h]
  · simp [h]
  · simp [h, h']

/-- A request that nothing holds, that no failed channel and no erased key bars, and that meets no error. -/
theorem Die.completeRequest_clear (hq : (d.thread t).out[i]? = some q) (runs : d.xfrRuns = true) (free : d.portHeld q = false)
    (turn : q.dstSpace = 4 → d.cellTurn (d.thread t).slot q = true) (clear : d.barred q.reads q.writes = false) :
    d.completeRequest t i n picks .ok = (d.portWaited (d.thread t).slot n).finishRequest t i q picks := by
  have go : ¬ (!d.xfrRuns || d.portHeld q || (decide (q.dstSpace = 4) && !d.cellTurn (d.thread t).slot q)) = true := by
    simpa [runs, free] using turn
  have alive := (Die.barred_iff.1 clear).1
  have met : d.barred (if q.data = none then q.reads else []) q.writes = false := by
    split
    · exact clear
    · exact Die.barred_writes clear
  obtain ⟨w, v, eq⟩ := d.portWaited_eq (d.thread t).slot n
  have access := Die.accessedBy_ok (d := { d with xfr := { d.xfr with portWait := w, waited := v } }) met (some (d.thread t).slot)
    { code := 1, thread := t }
  unfold Die.completeRequest
  dsimp only
  rw [hq]
  dsimp only
  rw [if_neg go, if_neg (by rw [alive]; exact Bool.false_ne_true), eq, access]
  rfl

/-- A write of an on-die store, with nothing readable still to land. -/
theorem Die.storeWrite_landed (h : Landed d) (space a : Nat) (b : List Byte) :
    d.storeWrite space a b = { d.readDue d.iss.cyc with st := d.st.write space a b } := by
  unfold Die.storeWrite
  rw [Die.landReadable_landed h]
  rfl

/-- The stores when a request from the die's stores or HBM4 to them has landed (R240). -/
def Die.delivered (d : Die) (q : Req) : Stores :=
  if q.dstOk = false then d.st
  else if q.dstSpace = 0 then { d.st with hbm := Mem.write d.st.hbm q.dstAddr (d.reqRead q []) }
  else d.st.write q.dstSpace q.dstAddr (d.reqRead q [])

/-- The reads of destinations that a write to an on-die store finds due are made before it (R128, R129). -/
def Die.readBefore (d : Die) (q : Req) : Die := if q.dstOk = true ∧ q.dstSpace ≠ 0 then d.readDue d.iss.cyc else d

/-- A request to the stores or HBM4, with nothing readable still to land. -/
theorem Die.finishRequest_local (dst : q.dstSpace ≤ 3) (h : Landed d) : ∃ r b, d.finishRequest t i q [] =
    { d.readBefore q with st := d.delivered q, xfr := { d.xfr with
      threads := Tab.upd {} d.xfr.threads t fun x => { x with out := x.out.eraseIdx i }, rdBytes := r, wrBytes := b } } := by
  obtain ⟨r, counted⟩ := d.countRead_eq (d.thread t).slot q
  have landed : (if q.data = none ∧ q.readPort.isSome = true then d.landReadable else d) = d := by
    rw [Die.landReadable_landed h, ite_self]
  unfold Die.finishRequest
  dsimp only
  rw [landed, counted, if_neg (by omega)]
  cases ok : q.dstOk with
  | false =>
    have bytes : d.delivered q = d.st := if_pos ok
    have before : d.readBefore q = d := if_neg fun k => by simp [ok] at k
    rw [if_pos (c := (!false) = true) rfl, bytes, before]
    exact ⟨r, d.xfr.wrBytes, rfl⟩
  | true =>
    rw [if_neg (c := (!true) = true) (by decide)]
    by_cases hbm : q.dstSpace = 0
    · have bytes : d.delivered q = { d.st with hbm := Mem.write d.st.hbm q.dstAddr (d.reqRead q []) } := by simp [Die.delivered, ok, hbm]
      have before : d.readBefore q = d := if_neg fun k => k.2 hbm
      rw [if_pos hbm, bytes, before]
      unfold Die.xfrCount
      split
      · exact ⟨r, d.xfr.wrBytes, rfl⟩
      · exact ⟨r, _, rfl⟩
    · have bytes : d.delivered q = d.st.write q.dstSpace q.dstAddr (d.reqRead q []) := by simp [Die.delivered, ok, hbm]
      have before : d.readBefore q = d.readDue d.iss.cyc := if_pos ⟨ok, hbm⟩
      rw [if_neg hbm, bytes, before, Die.storeWrite_landed (d := Die.takeOut { d with xfr := { d.xfr with rdBytes := r } } t i) h]
      exact ⟨r, d.xfr.wrBytes, rfl⟩

/-- A fabric request whose bytes are read leaves as a DATA cell, when its slot may send, its channel stands and its port comes to it. -/
theorem Die.finishRequest_cell {bytes : List Byte} (dst : q.dstSpace = 4) (port : q.port < 8) (read : q.data = some bytes)
    (may : d.originStop (d.thread t).slot = none) (chan : d.sendChannel (d.thread t).slot q.fch = some q.chan)
    (takes : d.takesOwn q.port 0 = true) (served : d.served q.port true = some 8) (turn : d.moduleTurn q.port = true) :
    d.finishRequest t i q picks =
      let b := (d.takeOut t i).buildCell (d.thread t).slot q.chan q.dstAddr bytes
      b.1.dataOut q.port 8 32 b.2 := by
  have landed : (if q.data = none ∧ q.readPort.isSome = true then d.landReadable else d) = d := if_neg fun k => by simp [read] at k
  have uncounted : d.countRead (d.thread t).slot q = d := if_neg (by simp [read])
  have carried : d.reqRead q picks = bytes := by rw [Die.reqRead, read]
  unfold Die.finishRequest
  dsimp only
  rw [landed, uncounted, carried, if_pos dst]
  unfold Die.sendRequest
  dsimp only
  rw [may]
  dsimp only
  rw [if_neg (not_not_intro chan), if_neg (by omega), if_pos (by simp [takes, served, turn])]
end

/-- Settles O27: the limits of issue, the request that joins its list (`Die.putOut_granted`), its completion (`Die.finishRequest_local`,
`Die.finishRequest_cell`). -/
theorem requestsMoveTheirBytes : Obligations.RequestsMoveTheirBytes := by
  refine ⟨?_, ?_, ?_, ?_, ?_, ?_, ?_, ?_, ?_⟩
  · intro s t room readNow walk h
    exact answers_of_act (exec_requestIssue t room readNow walk s) (Die.issueRequest_waits h)
  · intro s t readNow walk x runs running inStep eight turn full
    exact answers_of_act (exec_requestIssue t false readNow walk s) (Die.issueRequest_full runs running inStep eight turn full)
  · intro s t room readNow x q runs running inStep eight turn queue dst clear src ok w step now landed
    have put := Die.putOut_granted w ⟨src, ok⟩ landed readNow .ok (by simpa only [Die.noWalk, or_assoc] using step)
    refine ⟨_, _, answers_of_act (exec_requestIssue t room readNow .ok s) (Die.issueRequest_local runs running inStep eight turn queue clear dst),
      put.own, rfl, ?_, put.issued, put.others, put.st⟩
    have reads : s.die.readsNow q readNow = true ↔ now := by simp [now, Die.readsNow, and_assoc]
    rw [Die.stamped, if_congr reads rfl rfl]
  · intro d x norec
    rw [Die.nextRequest_len norec]
    have := wrapNat_lt 8 ((d.element x).src + x.off)
    omega
  · intro s t i n q x runs hq dst clear free landed d0
    obtain ⟨pw, v, waited⟩ := s.die.portWaited_eq x.slot n
    obtain ⟨r, b, eq⟩ := Die.finishRequest_local (d := { s.die with xfr := { s.die.xfr with portWait := pw, waited := v } }) (t := t.val) (i := i) dst landed
    refine ⟨_, answers_of_act (exec_requestComplete t i n .ok [] s)
      ((Die.completeRequest_clear hq runs free (fun k => absurd dst (by omega)) clear).trans ((congrArg (fun d : Die => d.finishRequest t.val i q []) waited).trans eq)),
      rfl, rfl, ?_⟩
    by_cases store : q.dstOk = true ∧ q.dstSpace ≠ 0
    · rw [Die.readBefore, if_pos store, show d0 = s.die.readDue s.die.iss.cyc from if_pos store]
      rfl
    · rw [Die.readBefore, if_neg store, show d0 = s.die from if_neg store]
  · intro d q i unread hi
    rw [Die.reqRead_now, unread, Option.getD_none, nth_map_range _ _ hi]
  · intro s t i n q picks res hq h
    exact answers_of_act (exec_requestComplete t i n res picks s) (Die.completeRequest_waits hq h res)
  · intro s t room readNow x q waits runs running inStep eight turn queue dst clear
    refine ⟨fun code peer route => ?_, fun c p route hp => ⟨fun asleep => ?_, fun awake none => ?_, fun awake takes src step w => ?_⟩⟩
    · refine answers_of_act (exec_requestIssue t room readNow .ok s)
        ((Die.issueRequest_miss runs running inStep eight turn queue clear dst route).trans ?_)
      rw [Die.originMiss_eq]
      rfl
    · exact answers_of_act (exec_requestIssue t room readNow .ok s)
        ((Die.issueRequest_route runs running inStep eight turn queue clear dst hp route).trans (if_pos asleep))
    · exact answers_of_act (exec_requestIssue t room readNow .ok s) ((Die.issueRequest_route runs running inStep eight turn queue clear dst hp route).trans
        ((if_neg awake).trans (if_neg (by rw [none]; exact Bool.false_ne_true))))
    · have put := Die.putOut_unread (r := { q with chan := c, port := p }) w .ok
        (step.elim (fun more => .inr (.inr more)) fun kind => .inr (.inl (kind.imp_right .inl)))
      exact ⟨_, _, answers_of_act (exec_requestIssue t room false .ok s) ((Die.issueRequest_route runs running inStep eight turn queue clear dst hp route).trans
        ((if_neg awake).trans (if_pos takes))), put.own, rfl, put.fab, put.st⟩
  · intro s t i q bytes x runs hq dst port read clear turn may chan takes served module_ b
    have held : s.die.portHeld q = false := by simp [Die.portHeld, Req.writePort, read, dst, port.ne]
    have unwritten : q.writes = [] := if_neg fun k => by omega
    refine answers_of_act (exec_requestComplete t i 0 .ok [] s) ?_
    exact (Die.completeRequest_clear hq runs held (fun _ => turn) (by rw [unwritten]; exact clear)).trans
      ((congrArg (fun d : Die => d.finishRequest t.val i q []) (s.die.portWaited_zero _)).trans
        (Die.finishRequest_cell dst port read may chan takes served module_))

end Sys2Proof.Machine
end

section
/-! O47: DATA cells for the die. -/

namespace Sys2Proof.Machine

/-! ### A cell is taken from its link (R458, R459) -/

/-- A port that has taken a numbered cell in sequence. -/
def FabPort.took (cell : List Byte) (x : FabPort) : FabPort :=
  { ({ x with rxSeq := cellLseq cell, unackedRx := x.unackedRx + 1 } : FabPort).takeAck cell with rxCells := inc64 x.rxCells 1 }

theorem FabPort.takeAck_rxCells (x : FabPort) (cell : List Byte) : (x.takeAck cell).rxCells = x.rxCells := by
  unfold FabPort.takeAck
  dsimp only
  repeat' split
  all_goals rfl

theorem FabPort.takeAck_ret0 (x : FabPort) (cell : List Byte) : (x.takeAck cell).ret0 = x.ret0 := by
  unfold FabPort.takeAck
  dsimp only
  repeat' split
  all_goals rfl

section
variable {d : Die} {p : Nat} {cell : List Byte}

/-- A DATA cell in sequence, without a NAK, on an UP port. -/
theorem Die.onCell_inSequence (w : Tab.wf {} d.fab.ports = true) (runs : d.fabRuns = true) (there : d.portPresent p = true)
    (up : (d.tport p).state = .up) (cls : cellClass cell = 4) (kind : cellKind cell = 0) (crc : cellCrcGood cell = true)
    (next : cellLseq cell = ((d.tport p).rxSeq + 1) % 4096) (nak : cellNak cell = false) (f : Die → Die) :
    d.onCell p 0 cell f = f (d.updTport p (FabPort.took cell)) := by
  have whole : d.cutOnward p cell = d := if_neg (by simp [crc])
  have accepted : d.acceptCell p cell =
      (d.updTport p fun x => ({ x with rxSeq := cellLseq cell, unackedRx := x.unackedRx + 1 } : FabPort).takeAck cell, true) := by
    unfold Die.acceptCell
    rw [if_neg (by simp [crc]), if_neg (not_not_intro up), if_neg (not_not_intro next)]
    unfold Die.takeAck
    dsimp only
    rw [if_neg (by simp [nak]), Die.updTport_updTport _ _ _ _ w]
  unfold Die.onCell
  rw [if_pos ⟨runs, there, cls, kind, .inl up⟩]
  dsimp only
  rw [if_pos rfl, whole, accepted, if_pos rfl, Die.rxCount, Die.updTport_updTport _ _ _ _ w]
  refine congrArg f (Die.updTport_congr _ _ _ _ ?_)
  rw [FabPort.takeAck_rxCells]
  rfl

theorem Die.routeCell_own (assigned : d.fab.assigned = true) (own : cellDst cell = d.fab.addr) :
    d.routeCell p cell = (d.receiveCell cell).creditBack p false := by
  unfold Die.routeCell
  rw [if_neg (by simp [assigned]), if_pos own]

/-- The credit of a cell that the port took. -/
theorem Die.took_creditBack (w : Tab.wf {} d.fab.ports = true) : (d.updTport p (FabPort.took cell)).creditBack p false =
    d.updTport p fun x => { ({ x with rxSeq := cellLseq cell, unackedRx := x.unackedRx + 1 } : FabPort).takeAck cell with
      rxCells := inc64 x.rxCells 1, ret0 := x.ret0 + 1 } := by
  rw [Die.creditBack, Die.updTport_updTport _ _ _ _ w]
  refine Die.updTport_congr _ _ _ _ ?_
  simp only [FabPort.took, FabPort.takeAck_ret0, Bool.false_eq_true, if_false]

/-! ### A cell lands (R468) -/

/-- An increment of a tally is the issue unit's alone. -/
theorem Die.logTallyAdd_eq (d : Die) (s l n : Nat) : d.logTallyAdd s l n = { d with iss := (d.logTallyAdd s l n).iss } := by
  unfold Die.logTallyAdd
  split
  · unfold Die.tallyAdd
    dsimp only
    split <;> rfl
  · rfl

/-- It looks at the issue unit and the slots. -/
theorem Die.logTallyAdd_iss_congr {d e : Die} (hi : d.iss = e.iss) (hc : d.ctx = e.ctx) (s l n : Nat) :
    (d.logTallyAdd s l n).iss = (e.logTallyAdd s l n).iss := by
  have phys : d.physTally s l = e.physTally s l := by unfold Die.physTally Die.slot; rw [hc]
  unfold Die.logTallyAdd
  rw [phys]
  split
  · unfold Die.tallyAdd Die.updTally Die.tally
    dsimp only
    rw [hi]
    split <;> rfl
  · exact hi

/-- A cell's bytes in an on-die store that its slot is granted, with nothing readable still to land. -/
theorem Die.landBytes_store {s space a : Nat} {bytes : List Byte} (h : Landed d) (hs : space ≠ 0) (g : d.granted s space a bytes.length = true) :
    d.landBytes s space a bytes = { d.readDue d.iss.cyc with st := d.st.write space a bytes } := by
  unfold Die.landBytes
  rw [if_neg hs, if_pos g, Die.storeWrite_landed h]

/-- A tally is added to or not: the issue unit alone tells. -/
theorem Die.logTallyAdd_if {e : Die} (c : Prop) [Decidable c] (hi : e.iss = d.iss) (hc : e.ctx = d.ctx) (s l n : Nat) :
    (if c then e.logTallyAdd s l n else e) = { e with iss := if c then (d.logTallyAdd s l n).iss else d.iss } := by
  split
  · rw [Die.logTallyAdd_eq, Die.logTallyAdd_iss_congr hi hc]
  · rw [← hi]

/-- The die when a cell has landed in its channel's window (R467, R468). -/
def Die.cellLanded (d : Die) (cell : List Byte) : Die :=
  let c := d.channel (cellRch cell)
  { d.readDue d.iss.cyc with
    st := d.st.write c.space (c.winBase + cellOffset cell) ((cellPayload cell).take (cellLen cell)),
    fab := { d.fab with channels := Tab.upd {} d.fab.channels (cellRch cell) fun x => { x with w := setNth x.w 7 (c.landed + 1) } },
    iss := if c.sigCells ≠ 0 ∧ (c.landed + 1).toNat % c.sigCells = 0 then (d.logTallyAdd c.slotOf c.tallyOf 1).iss else d.iss }

theorem Die.cellLanded_channel_self (wc : Tab.wf {} d.fab.channels = true) : (d.cellLanded cell).channel (cellRch cell) =
    { d.channel (cellRch cell) with w := setNth (d.channel (cellRch cell)).w 7 ((d.channel (cellRch cell)).landed + 1) } :=
  Tab.read_upd_self (cellRch cell) (fun x : Channel => { x with w := setNth x.w 7 ((d.channel (cellRch cell)).landed + 1) }) wc

theorem Die.cellLanded_channel_ne (wc : Tab.wf {} d.fab.channels = true) {m : Nat} (h : m ≠ cellRch cell) :
    (d.cellLanded cell).channel m = d.channel m :=
  Tab.read_upd_ne (fun x : Channel => { x with w := setNth x.w 7 ((d.channel (cellRch cell)).landed + 1) }) wc h

/-- What a port holds has no part in it. -/
theorem Die.cellLanded_updTport (d : Die) (p : Nat) (f : FabPort → FabPort) (cell : List Byte) :
    (d.updTport p f).cellLanded cell = (d.cellLanded cell).updTport p f := by
  have tally := Die.logTallyAdd_iss_congr (d := d.updTport p f) (e := d) rfl rfl (d.channel (cellRch cell)).slotOf (d.channel (cellRch cell)).tallyOf 1
  unfold Die.cellLanded
  dsimp only
  rw [show (d.updTport p f).channel (cellRch cell) = d.channel (cellRch cell) from rfl, tally]
  rfl

/-! ### The receive checks (R467) -/

/-- A cell is discarded: the count and its code. -/
def Die.discarding (d : Die) (code : Nat) : Die :=
  { d with fab := { d.fab with discards := satInc32 d.fab.discards 1, lastDisc := BitVec.ofNat 4 code } }

theorem Die.rxDiscard_counted {o : Option Nat} (h : (o.map d.isConf).getD false = false) (code : Nat) : d.rxDiscard o code = d.discarding code := by
  unfold Die.rxDiscard Die.fabCount
  rw [if_neg (by rw [h]; exact Bool.false_ne_true)]
  rfl

theorem Die.receiveCell_noChannel (h : (d.channel (cellRch cell)).isRecv = false) : d.receiveCell cell = d.discarding 1 := by
  unfold Die.receiveCell
  rw [if_pos (by simp [h]), Die.rxDiscard_counted rfl]

section
variable (recv : (d.channel (cellRch cell)).isRecv = true) (assigned : d.fab.assigned = true)
  (open_ : d.isConf (d.channel (cellRch cell)).slotOf = false)
include recv assigned open_

theorem Die.receiveCell_notArmed (h : (d.slot (d.channel (cellRch cell)).slotOf).state ≠ .armed) : d.receiveCell cell = d.discarding 2 := by
  unfold Die.receiveCell
  rw [if_neg (by simp [recv, assigned]), if_pos h, Die.rxDiscard_counted (o := some _) open_]

variable (armed : (d.slot (d.channel (cellRch cell)).slotOf).state = .armed)
include armed

theorem Die.receiveCell_notPeer (h : cellSrc cell ≠ (d.channel (cellRch cell)).peer) : d.receiveCell cell = d.discarding 3 := by
  unfold Die.receiveCell
  rw [if_neg (by simp [recv, assigned]), if_neg (not_not_intro armed), if_pos h, Die.rxDiscard_counted (o := some _) open_]

variable (peer : cellSrc cell = (d.channel (cellRch cell)).peer)
include peer

theorem Die.receiveCell_notJob (h : cellJob cell ≠ (d.slot (d.channel (cellRch cell)).slotOf).jobId) : d.receiveCell cell = d.discarding 4 := by
  unfold Die.receiveCell
  rw [if_neg (by simp [recv, assigned]), if_neg (not_not_intro armed), if_neg (not_not_intro peer), if_pos h, Die.rxDiscard_counted (o := some _) open_]

variable (job : cellJob cell = (d.slot (d.channel (cellRch cell)).slotOf).jobId) (plain : cellEnc cell = false) (wc : Tab.wf {} d.fab.channels = true)
include job plain wc

/-- A cell that passes the checks up to the window's: the channel stands as it was. -/
theorem Die.receiveCell_passed : d.receiveCell cell =
    if (d.channel (cellRch cell)).inWindow cell = false then d.discarding 6
    else
      let c := d.channel (cellRch cell)
      let e := (d.landBytes c.slotOf c.space (c.winBase + cellOffset cell) ((cellPayload cell).take (cellLen cell))).updChannel (cellRch cell)
        fun x => { x with w := setNth x.w 7 (c.landed + 1) }
      if c.sigCells ≠ 0 ∧ (c.landed + 1).toNat % c.sigCells = 0 then e.logTallyAdd c.slotOf c.tallyOf 1 else e := by
  have auth : d.cellAuth (cellRch cell) cell = some (cellPayload cell, d.channel (cellRch cell)) := by
    unfold Die.cellAuth
    rw [if_neg (by simp [plain]), if_neg (by simp [open_])]
  have same : d.updChannel (cellRch cell) (fun _ => d.channel (cellRch cell)) = d := by
    unfold Die.updChannel
    rw [Tab.upd_const_read _ _ wc rfl]
  unfold Die.receiveCell
  rw [if_neg (by simp [recv, assigned]), if_neg (not_not_intro armed), if_neg (not_not_intro peer), if_neg (not_not_intro job), auth]
  dsimp only
  rw [same, Die.rxDiscard_counted (o := some _) open_]
  simp only [Bool.not_eq_true']

variable (inside : (d.channel (cellRch cell)).inWindow cell = true) (landed : Landed d) (store : (d.channel (cellRch cell)).space ≠ 0)
  (granted : d.granted (d.channel (cellRch cell)).slotOf (d.channel (cellRch cell)).space
    ((d.channel (cellRch cell)).winBase + cellOffset cell : Nat) ((cellPayload cell).take (cellLen cell)).length = true)
include inside landed store granted

/-- A cell that passes every check. -/
theorem Die.receiveCell_lands : d.receiveCell cell = d.cellLanded cell := by
  rw [Die.receiveCell_passed recv assigned open_ armed peer job plain wc, if_neg (by rw [inside]; decide)]
  dsimp only
  rw [Die.landBytes_store landed store granted]
  refine (Die.logTallyAdd_if (d := d) _ ?_ ?_ _ _ _).trans rfl
  · rfl
  · rfl
end
end

/-! ### The command -/

section
variable {s : State} {p : Fin 8} {cell : List Byte}

/-- A cell in sequence for the die itself, whose bank port is free: it is taken and its credit goes back. -/
theorem answers_dataCell_own (w : Tab.wf {} s.die.fab.ports = true) (runs : s.die.fabRuns = true) (there : s.die.portPresent p.val = true)
    (up : (s.die.tport p.val).state = .up) (cls : cellClass cell = 4) (kind : cellKind cell = 0) (crc : cellCrcGood cell = true)
    (next : cellLseq cell = ((s.die.tport p.val).rxSeq + 1) % 4096) (nak : cellNak cell = false) (assigned : s.die.fab.assigned = true)
    (own : cellDst cell = s.die.fab.addr) (free : s.die.landHeld (cellRch cell) (cellOffset cell) (cellLen cell) = false) :
    Answers (.dataCell p cell) s (((s.die.updTport p.val (FabPort.took cell)).receiveCell cell).creditBack p.val false) := by
  refine answers_of_act (exec_dataCell p cell s) ?_
  rw [if_neg fun k => by simp [free] at k, Die.onCell_inSequence w runs there up cls kind crc next nak]
  exact Die.routeCell_own assigned own

/-- One whose bank port the cycle's slot actions use is not taken yet. -/
theorem answers_dataCell_held (runs : s.die.fabRuns = true) (own : cellDst cell = s.die.fab.addr)
    (held : s.die.landHeld (cellRch cell) (cellOffset cell) (cellLen cell) = true) : Answers (.dataCell p cell) s s.die :=
  answers_of_act (exec_dataCell p cell s) (if_pos ⟨runs, own, held⟩)
end

/-- Settles O47: the cell is taken from its link (`answers_dataCell_own`), and each check of `Die.receiveCell` gives one clause. -/
theorem dataCellsLandOrAreDiscarded : Obligations.DataCellsLandOrAreDiscarded := by
  intro s p cell w wc there up cls kind crc next nak address own free runs d n ch got discarded
  have assigned : d.fab.assigned = true := by simpa [Fab.assigned] using address
  have taken := answers_dataCell_own w runs there up cls kind crc next nak assigned own free
  have port : (d.updTport p.val (FabPort.took cell)).creditBack p.val false = got := Die.took_creditBack w
  have discards {code : Nat} (h : (d.updTport p.val (FabPort.took cell)).receiveCell cell = (d.updTport p.val (FabPort.took cell)).discarding code) :
      Answers (.dataCell p cell) s (discarded (BitVec.ofNat 4 code)) := by
    rw [h] at taken
    exact (congrArg (Answers (.dataCell p cell) s) (congrArg (fun d : Die => d.discarding code) port)).mp taken
  refine ⟨fun closed => discards (Die.receiveCell_noChannel closed), fun recv open_ => ⟨fun unarmed => ?_, fun armed src => ?_, fun armed src job => ?_,
    fun armed src job plain => ⟨fun out => ?_, fun inside landed store granted whole => ?_⟩⟩, fun cell' own' held => answers_dataCell_held runs own' held⟩
  · exact discards (Die.receiveCell_notArmed recv assigned open_ unarmed)
  · exact discards (Die.receiveCell_notPeer recv assigned open_ armed src)
  · exact discards (Die.receiveCell_notJob recv assigned open_ armed src job)
  · have passed := Die.receiveCell_passed (d := d.updTport p.val (FabPort.took cell)) recv assigned open_ armed src job plain wc
    exact discards (passed.trans (if_pos out))
  · have bytes : d.granted ch.slotOf ch.space (ch.winBase + cellOffset cell : Nat) ((cellPayload cell).take (cellLen cell)).length = true := by
      rw [List.length_take, whole]
      exact_mod_cast granted
    have lands := Die.receiveCell_lands (d := d.updTport p.val (FabPort.took cell)) recv assigned open_ armed src job plain wc inside landed store bytes
    rw [lands, Die.cellLanded_updTport, Die.took_creditBack (d := d.cellLanded cell) w] at taken
    exact ⟨_, taken, rfl, Die.cellLanded_channel_self wc, fun m hm => Die.cellLanded_channel_ne wc hm, rfl, rfl, rfl⟩

end Sys2Proof.Machine
end

section
/-! Camera ingress: what a packet makes of its stream, of the line buffers and of the tallies, beside Nightwatch (R275 to R279, R411). -/

namespace Sys2Proof.Machine

/-! ### Nightwatch's part in a packet is its own state -/

theorem Die.nwtSync_only (d : Die) : d.nwtSync = { d with nwt := d.nwtSync.nwt } := by
  unfold Die.nwtSync
  dsimp only
  split <;> rfl

theorem Die.nwtSof_only (d : Die) : d.nwtSof = { d with nwt := d.nwtSof.nwt } := by
  unfold Die.nwtSof
  rw [Die.nwtSync_only]
  dsimp only
  split <;> rfl

theorem Die.nwtRow_only (d : Die) (luma : List Nat) : d.nwtRow luma = { d with nwt := (d.nwtRow luma).nwt } := by
  unfold Die.nwtRow
  split <;> rfl

theorem Die.nwtDropped_only (d : Die) : d.nwtDropped = { d with nwt := d.nwtDropped.nwt } := by
  unfold Die.nwtDropped
  dsimp only
  split <;> rfl

theorem Die.nwtTake_only (d : Die) (sof : Nat) (luma : List Byte) : d.nwtTake sof luma = { d with nwt := (d.nwtTake sof luma).nwt } := by
  unfold Die.nwtTake
  dsimp only
  split
  · split <;> rfl
  · rfl

theorem Die.nwtIngress_only (d : Die) (fmt w h : Nat) : d.nwtIngress fmt w h = { d with nwt := (d.nwtIngress fmt w h).nwt } := by
  unfold Die.nwtIngress
  rw [Die.nwtSync_only]
  dsimp only
  split
  · split
    · rw [Die.nwtTake_only]
    · rfl
  · rfl

/-- What only Nightwatch's state shows of a conditional step of Nightwatch. -/
theorem Die.nwt_if {c : Prop} [Decidable c] {d e : Die} (h : e = { d with nwt := e.nwt }) :
    (if c then e else d) = { d with nwt := (if c then e else d).nwt } := by
  split
  · exact h
  · rfl

/-! ### What a packet touches -/

/-- The die with other line buffers, streams, issue unit and Nightwatch. -/
def Die.ingressed (d : Die) (lb : Tab Byte) (iss : Issue) (streams : Tab Stream) (nwt : Nwt) : Die :=
  { d with st := { d.st with lb := lb }, iss := iss, ing := { d.ing with streams := streams }, nwt := nwt }

/-- Its streams and Nightwatch alone. -/
theorem Die.streams_only {d e : Die} {m : Nat} {f : Stream → Stream} {n : Nwt} (h : e = { d.updStream m f with nwt := n }) :
    e = { d with ing := { d.ing with streams := e.ing.streams }, nwt := e.nwt } := by rw [h]; rfl

theorem Die.ingressed_only {d e : Die} {lb : Tab Byte} {streams : Tab Stream} {n : Nwt} (h : e = d.ingressed lb d.iss streams n) :
    e = { d with st := { d.st with lb := e.st.lb }, ing := { d.ing with streams := e.ing.streams }, nwt := e.nwt } := by rw [h]; rfl

theorem Die.ingressed_frame {d e : Die} {lb : Tab Byte} {i : Issue} {streams : Tab Stream} {n : Nwt} (h : e = d.ingressed lb i streams n) :
    e = { d with st := { d.st with lb := e.st.lb }, iss := e.iss, ing := { d.ing with streams := e.ing.streams }, nwt := e.nwt } := by
  rw [h]; rfl

/-! ### A frame opens -/

/-- A stream whose frame opens at the die time `t`. -/
def Stream.opened (x : Stream) (frame : W32) (ts t : W64) : Stream :=
  { x with open_ := true, dropped := false, frame := frame, frameNo := x.frameNo + 1, sensorTs := ts, sofTime := t,
           row := 0, rowPos := 0, rowBegun := false, rowBytes := [], lineTimes := [], timeStep := false, handed := 0 }

section
variable {d : Die} {m : Nat}

theorem Die.openFrame_eq (frame : W32) (ts : W64) :
    d.openFrame m frame ts =
      { d.updStream m fun x => x.opened frame ts d.time.reading with nwt := (d.openFrame m frame ts).nwt } :=
  Die.nwt_if (Die.nwtSof_only _)

theorem Die.openFrame_stream (w : Tab.wf {} d.ing.streams = true) (frame : W32) (ts : W64) :
    (d.openFrame m frame ts).stream m = (d.stream m).opened frame ts d.time.reading := by
  rw [Die.openFrame_eq]
  exact Die.updStream_stream_self d m _ w

/-- An SOF that matches its enabled stream, between frames and with no VOID stripe waiting. -/
theorem Die.sof_opens (w : Tab.wf {} d.ing.streams = true) (present : d.streamPresent m = true) (enabled : (d.stream m).enabled = true)
    (closed : (d.stream m).open_ = false) (quiet : (d.stream m).voidQ = []) (frame : W32) (ts : W64) :
    d.sof m frame ts (d.stream m).width (d.stream m).height (d.stream m).fmt false = d.openFrame m frame ts := by
  unfold Die.sof
  simp only [present, enabled, closed, Die.openFrame_stream w, Bool.not_true, Bool.false_eq_true, if_false]
  simp [Stream.opened, quiet, Stream.width, Stream.height, Stream.fmt]

/-! ### A LINE packet -/

/-- What the stripe header says of the stripe that the row belongs to. -/
def Stream.stripeInfo (x : Stream) : StripeInfo :=
  { frame := x.frame, frameNo := x.frameNo, stripe := x.row / x.stripe, void := false, timeStep := x.timeStep,
    sofTime := x.sofTime, sensorTs := x.sensorTs, times := (List.range 64).map fun i => Tab.read 0 x.lineTimes i }

/-- A stream that takes a packet of its next row at the die time `t` (R278). -/
def Stream.taken (x : Stream) (off : Nat) (pay : List Byte) (t : W64) : Stream :=
  { (if x.row % x.stripe = 0 then x.occupy (x.row / x.stripe % x.slots) x.frameNo (x.row / x.stripe) else x) with
    lineTimes := if x.rowBegun = false then Tab.write 0 x.lineTimes (x.row % x.stripe) t else x.lineTimes,
    rowBegun := true, rowPos := off + pay.length, rowBytes := x.rowBytes ++ pay }

/-- Its registers and its place in the frame stay. -/
theorem Stream.taken_eq (x : Stream) (off : Nat) (pay : List Byte) (t : W64) : x.taken off pay t =
    { x with occ := (x.taken off pay t).occ, lineTimes := (x.taken off pay t).lineTimes,
             rowBegun := true, rowPos := off + pay.length, rowBytes := x.rowBytes ++ pay } := by
  unfold Stream.taken
  split <;> rfl

section
variable (x : Stream) (off : Nat) (pay : List Byte) (t : W64)

theorem Stream.taken_header (h : StripeInfo) : (x.taken off pay t).header h = x.header h := by rw [Stream.taken_eq]; rfl

theorem Stream.taken_headerAddr (k : Nat) : (x.taken off pay t).headerAddr k = x.headerAddr k := by rw [Stream.taken_eq]; rfl

theorem Stream.taken_slot : (x.taken off pay t).stripeInfo.stripe % (x.taken off pay t).slots = x.row / x.stripe % x.slots := by
  rw [Stream.taken_eq]; rfl

theorem Stream.taken_stripeInfo : (x.taken off pay t).stripeInfo =
    { x.stripeInfo with times := (List.range 64).map fun i => Tab.read 0 (x.taken off pay t).lineTimes i } := by
  rw [Stream.taken_eq]; rfl

theorem Stream.taken_slotOf : (x.taken off pay t).slotOf = x.slotOf := by rw [Stream.taken_eq]; rfl

theorem Stream.taken_readyTally : (x.taken off pay t).readyTally = x.readyTally := by rw [Stream.taken_eq]; rfl

/-- The row is not yet the stripe's last one. -/
def Stream.midStripe (x : Stream) : Prop := ¬ (x.row % x.stripe + 1 = x.stripe ∨ x.row + 1 = x.height)

theorem Stream.taken_midStripe : (x.taken off pay t).midStripe ↔ x.midStripe := by rw [Stream.taken_eq]; rfl
end

/-- The ring slot of the row's stripe is free when the stripe begins. -/
def Stream.mayBegin (x : Stream) : Prop :=
  x.rowBegun = false → x.row % x.stripe = 0 → x.slotFree (x.row / x.stripe % x.slots) x.frameNo (x.row / x.stripe) = true

theorem Die.lineIn_next (off : Nat) (pay : List Byte) (inside : (d.stream m).row < (d.stream m).height) (next : off = (d.stream m).rowPos)
    (fits : off + pay.length ≤ wireBytes (d.stream m).fmt (d.stream m).width) (room : (d.stream m).mayBegin) :
    d.lineIn m (d.stream m).row off pay =
      if off + pay.length = wireBytes (d.stream m).fmt (d.stream m).width
      then (d.updStream m fun _ => (d.stream m).taken off pay d.time.reading).rowDone m
      else d.updStream m fun _ => (d.stream m).taken off pay d.time.reading := by
  have free : ¬ ((!(d.stream m).rowBegun && decide ((d.stream m).row % (d.stream m).stripe = 0) &&
      !(d.stream m).slotFree ((d.stream m).row / (d.stream m).stripe % (d.stream m).slots) (d.stream m).frameNo
        ((d.stream m).row / (d.stream m).stripe)) = true) := by
    simp only [Bool.and_eq_true, Bool.not_eq_true', decide_eq_true_eq]
    rintro ⟨⟨begins, first⟩, full⟩
    rw [room begins first] at full
    cases full
  refine (if_neg (by omega)).trans ((if_neg free).trans
    (congrArg (fun e : Die => if off + pay.length = wireBytes (d.stream m).fmt (d.stream m).width then e.rowDone m else e)
      (Die.updStream_congr d m _ _ ?_)))
  generalize d.stream m = x
  unfold Stream.taken
  cases begun : x.rowBegun
  · by_cases first : x.row % x.stripe = 0
    · simp only [if_pos first]; rfl
    · simp only [if_neg first]; rfl
  · by_cases first : x.row % x.stripe = 0
    · simp only [if_pos first]; rfl
    · simp only [if_neg first]; rfl

/-! ### A stripe is handed over (R275, R276) -/

/-- A stream that hands a stripe over. -/
def Stream.handing (x : Stream) (h : StripeInfo) : Stream :=
  { x.occupy (h.stripe % x.slots) h.frameNo h.stripe with
    seq := x.seq + 1, held := x.held ++ [(h.frameNo, h.stripe, decide (h.stripe + 1 = x.stripes))] }

/-- An increment at a die with the issue unit and the slots of `d`. -/
theorem Die.logTallyAdd_of {e : Die} (hi : e.iss = d.iss) (hc : e.ctx = d.ctx) (s l n : Nat) :
    e.logTallyAdd s l n = { e with iss := (d.logTallyAdd s l n).iss } := by
  rw [Die.logTallyAdd_eq, Die.logTallyAdd_iss_congr hi hc]

theorem Die.handOver_eq (h : StripeInfo) : d.handOver m h =
    { d.updStream m fun x => x.handing h with
      st := { d.st with lb := Mem.write d.st.lb ((d.stream m).headerAddr (h.stripe % (d.stream m).slots)) ((d.stream m).header h) },
      iss := (d.logTallyAdd (d.stream m).slotOf (d.stream m).readyTally 1).iss } :=
  Die.logTallyAdd_of (d := d) (e := { d.updStream m fun x => x.handing h with
      st := { d.st with lb := Mem.write d.st.lb ((d.stream m).headerAddr (h.stripe % (d.stream m).slots)) ((d.stream m).header h) } })
    rfl rfl (d.stream m).slotOf (d.stream m).readyTally 1

/-- A hand-over that is followed by a change of the stream. -/
theorem Die.handOver_then (w : Tab.wf {} d.ing.streams = true) (h : StripeInfo) (g : Stream → Stream) :
    (d.handOver m h).updStream m g = { d.updStream m fun x => g (x.handing h) with
      st := { d.st with lb := Mem.write d.st.lb ((d.stream m).headerAddr (h.stripe % (d.stream m).slots)) ((d.stream m).header h) },
      iss := (d.logTallyAdd (d.stream m).slotOf (d.stream m).readyTally 1).iss } := by
  rw [Die.handOver_eq]
  exact congrArg (fun t : Tab Stream => { d with
    st := { d.st with lb := Mem.write d.st.lb ((d.stream m).headerAddr (h.stripe % (d.stream m).slots)) ((d.stream m).header h) },
    iss := (d.logTallyAdd (d.stream m).slotOf (d.stream m).readyTally 1).iss,
    ing := { d.ing with streams := t } }) (Tab.upd_upd m (fun x => x.handing h) g w)

/-! ### A row is complete -/

/-- A stream whose row is complete, with the row's saturations; a confidential one does not count them. -/
def Stream.rowEnded (x : Stream) (conf : Bool) : Stream :=
  { x with row := x.row + 1, rowPos := 0, rowBegun := false, rowBytes := [],
           sat := if conf then x.sat else satInc32 x.sat (x.storeRow x.rowBytes).2 }

/-- Nightwatch takes the row's luma. -/
def Die.rowNwt (d : Die) (m : Nat) : Nwt :=
  (if m = d.nwt.stream.toNat then d.nwtRow (lumaRow (d.stream m).fmt (d.stream m).width (d.stream m).rowBytes) else d).nwt

/-- The die with the row in the ring slot of its stripe. -/
def Die.rowStored (d : Die) (m : Nat) : Die :=
  let x := d.stream m
  d.ingressed (Mem.write d.st.lb (x.rowAddr (x.row / x.stripe % x.slots) (x.row % x.stripe)) (x.storeRow x.rowBytes).1) d.iss
    (Tab.upd {} d.ing.streams m fun x => x.rowEnded (d.streamConf m)) (d.rowNwt m)

theorem Die.rowDone_eq (d : Die) (m : Nat) : d.rowDone m =
    if (d.stream m).row % (d.stream m).stripe + 1 = (d.stream m).stripe ∨ (d.stream m).row + 1 = (d.stream m).height then
      ((d.rowStored m).handOver m (d.stream m).stripeInfo).updStream m fun x =>
        { x with handed := (d.stream m).row / (d.stream m).stripe + 1, lineTimes := [], timeStep := false }
    else d.rowStored m := by
  have stored : Die.updStream (if m = d.nwt.stream.toNat then Die.nwtRow { d with st := { d.st with
        lb := Mem.write d.st.lb ((d.stream m).rowAddr ((d.stream m).row / (d.stream m).stripe % (d.stream m).slots)
          ((d.stream m).row % (d.stream m).stripe)) ((d.stream m).storeRow (d.stream m).rowBytes).1 } }
        (lumaRow (d.stream m).fmt (d.stream m).width (d.stream m).rowBytes)
      else { d with st := { d.st with
        lb := Mem.write d.st.lb ((d.stream m).rowAddr ((d.stream m).row / (d.stream m).stripe % (d.stream m).slots)
          ((d.stream m).row % (d.stream m).stripe)) ((d.stream m).storeRow (d.stream m).rowBytes).1 } }) m
        (fun x => { x with
          sat := if d.streamConf m then x.sat else satInc32 x.sat ((d.stream m).storeRow (d.stream m).rowBytes).2, row := x.row + 1,
          rowPos := 0, rowBegun := false, rowBytes := [] }) = d.rowStored m := by
    unfold Die.rowStored Die.rowNwt Die.nwtRow
    split
    · split <;> rfl
    · rfl
  exact congrArg (fun e : Die =>
    if (d.stream m).row % (d.stream m).stripe + 1 = (d.stream m).stripe ∨ (d.stream m).row + 1 = (d.stream m).height then
      (e.handOver m (d.stream m).stripeInfo).updStream m fun x =>
        { x with handed := (d.stream m).row / (d.stream m).stripe + 1, lineTimes := [], timeStep := false }
    else e) stored

/-- A row that does not complete its stripe. -/
theorem Die.rowDone_within (h : (d.stream m).midStripe) : d.rowDone m = d.rowStored m := (Die.rowDone_eq d m).trans (if_neg h)

theorem Die.rowStored_stream (w : Tab.wf {} d.ing.streams = true) : (d.rowStored m).stream m = (d.stream m).rowEnded (d.streamConf m) :=
  Die.updStream_stream_self d m _ w

theorem Die.rowStored_streams : (d.rowStored m).ing.streams = Tab.upd {} d.ing.streams m fun x => x.rowEnded (d.streamConf m) := rfl

theorem Die.wf_rowStored (w : Tab.wf {} d.ing.streams = true) : Tab.wf {} (d.rowStored m).ing.streams = true :=
  Die.rowStored_streams ▸ Tab.wf_upd m _ w

/-- A stream after the hand-over of the stripe that its row completed. -/
def Stream.stripeEnded (x y : Stream) : Stream :=
  { y.handing x.stripeInfo with handed := x.row / x.stripe + 1, lineTimes := [], timeStep := false }

/-- The packet that completes the stripe has no part in what is held and in the frame's place. -/
theorem Stream.taken_stripeEnded (x : Stream) (off : Nat) (pay : List Byte) (t : W64) (conf : Bool) :
    let y := x.taken off pay t
    let j := x.row / x.stripe
    let e := y.stripeEnded (y.rowEnded conf)
    e.held = x.held ++ [(x.frameNo, j, decide (j + 1 = x.stripes))] ∧ e.seq = x.seq + 1 ∧ e.handed = j + 1 ∧ e.row = x.row + 1 ∧
      e.open_ = x.open_ := by
  dsimp only
  rw [Stream.taken_eq]
  exact ⟨rfl, rfl, rfl, rfl, rfl⟩

/-- The die that hands the completed stripe over. -/
def Die.stripeDone (d : Die) (m : Nat) : Die :=
  let x := d.stream m
  let h := x.stripeInfo
  d.ingressed (Mem.write (d.rowStored m).st.lb (x.headerAddr (h.stripe % x.slots)) (x.header h))
    (d.logTallyAdd x.slotOf x.readyTally 1).iss ((d.rowStored m).updStream m x.stripeEnded).ing.streams (d.rowNwt m)

theorem Die.stripeDone_lb : (d.stripeDone m).st.lb = Mem.write (d.rowStored m).st.lb
    ((d.stream m).headerAddr ((d.stream m).stripeInfo.stripe % (d.stream m).slots)) ((d.stream m).header (d.stream m).stripeInfo) := by
  dsimp only [Die.stripeDone, Die.ingressed]

theorem Die.stripeDone_iss : (d.stripeDone m).iss = (d.logTallyAdd (d.stream m).slotOf (d.stream m).readyTally 1).iss := rfl

/-- A row that completes its stripe: the stripe's header goes to its slot, and READY increments. -/
theorem Die.rowDone_stripe (w : Tab.wf {} d.ing.streams = true)
    (h : ¬ (d.stream m).midStripe) : d.rowDone m = d.stripeDone m := by
  have tally := Die.logTallyAdd_iss_congr (d := d.rowStored m) (e := d) rfl rfl (d.stream m).slotOf (d.stream m).readyTally 1
  rw [Die.rowDone_eq, if_pos (not_not.1 h), Die.handOver_then (Die.wf_rowStored w), Die.rowStored_stream w]
  exact congrArg (fun i : Issue => { d.stripeDone m with iss := i }) tally

theorem Die.stripeDone_stream (w : Tab.wf {} d.ing.streams = true) :
    (d.stripeDone m).stream m = (d.stream m).stripeEnded ((d.stream m).rowEnded (d.streamConf m)) :=
  (Die.updStream_stream_self (d.rowStored m) m _ (Die.wf_rowStored w)).trans (congrArg _ (Die.rowStored_stream w))

/-! ### The packet that completes a row -/

/-- The die when the row's last packet is in. -/
def Die.rowIn (d : Die) (m off : Nat) (pay : List Byte) : Die := d.updStream m fun _ => (d.stream m).taken off pay d.time.reading

section
variable (w : Tab.wf {} d.ing.streams = true) (off : Nat) (pay : List Byte)
include w

theorem Die.rowIn_stream : (d.rowIn m off pay).stream m = (d.stream m).taken off pay d.time.reading := Die.updStream_stream_self d m _ w

theorem Die.wf_rowIn : Tab.wf {} (d.rowIn m off pay).ing.streams = true := Die.wf_updStream d m _ w

theorem Die.rowIn_streamConf : (d.rowIn m off pay).streamConf m = d.streamConf m := by
  unfold Die.streamConf
  rw [Die.rowIn_stream w, Stream.taken_eq]
  rfl

/-- The row's place in the ring and its bytes are those of the stream before the packet. -/
theorem Die.rowIn_stored_lb : ((d.rowIn m off pay).rowStored m).st.lb =
    Mem.write d.st.lb ((d.stream m).rowAddr ((d.stream m).row / (d.stream m).stripe % (d.stream m).slots) ((d.stream m).row % (d.stream m).stripe))
      ((d.stream m).storeRow ((d.stream m).rowBytes ++ pay)).1 := by
  unfold Die.rowStored
  rw [Die.rowIn_stream w, Stream.taken_eq]
  rfl

theorem Die.rowIn_stored_stream : ((d.rowIn m off pay).rowStored m).stream m =
    { (d.stream m).taken off pay d.time.reading with
      row := (d.stream m).row + 1, rowPos := 0, rowBegun := false, rowBytes := [],
      sat := if d.streamConf m then (d.stream m).sat
        else satInc32 (d.stream m).sat ((d.stream m).storeRow ((d.stream m).rowBytes ++ pay)).2 } := by
  rw [Die.rowStored_stream (Die.wf_rowIn w off pay), Die.rowIn_streamConf w, Die.rowIn_stream w, Stream.taken_eq]
  rfl

theorem Die.rowIn_stripe_lb : ((d.rowIn m off pay).stripeDone m).st.lb =
    Mem.write ((d.rowIn m off pay).rowStored m).st.lb ((d.stream m).headerAddr ((d.stream m).row / (d.stream m).stripe % (d.stream m).slots))
      ((d.stream m).header ((d.stream m).taken off pay d.time.reading).stripeInfo) := by
  rw [Die.stripeDone_lb, Die.rowIn_stream w, Stream.taken_header, Stream.taken_headerAddr, Stream.taken_slot]

theorem Die.rowIn_stripe_iss : ((d.rowIn m off pay).stripeDone m).iss =
    (d.logTallyAdd (d.stream m).slotOf (d.stream m).readyTally 1).iss := by
  rw [Die.stripeDone_iss, Die.rowIn_stream w, Stream.taken_slotOf, Stream.taken_readyTally]
  exact Die.logTallyAdd_iss_congr (d := d.rowIn m off pay) (e := d) rfl rfl _ _ _

theorem Die.rowIn_stripe_stream :
    let x := d.stream m
    let j := x.row / x.stripe
    let e := ((d.rowIn m off pay).stripeDone m).stream m
    e.held = x.held ++ [(x.frameNo, j, decide (j + 1 = x.stripes))] ∧ e.seq = x.seq + 1 ∧ e.handed = j + 1 ∧ e.row = x.row + 1 ∧
      e.open_ = x.open_ := by
  dsimp only
  rw [Die.stripeDone_stream (Die.wf_rowIn w off pay), Die.rowIn_streamConf w, Die.rowIn_stream w]
  exact Stream.taken_stripeEnded _ off pay _ _
end

/-! ### A frame ends -/

/-- A stream whose frame is admitted; a confidential one does not count it. -/
def Stream.admitted (x : Stream) (conf : Bool) : Stream :=
  { x with open_ := false, frames := if conf then x.frames else satInc32 x.frames 1, dropCnt := 0, first := false }

def Die.admitted (d : Die) (m : Nat) : Die :=
  { d with ing := { d.ing with
      streams := Tab.upd {} d.ing.streams m fun x => x.admitted (d.streamConf m),
      pixels := d.ing.pixels + BitVec.ofNat 64 ((d.stream m).width * (d.stream m).height) } }

/-- Nightwatch takes the frame when it is the designated stream's. -/
def Die.admittedNwt (d : Die) (m : Nat) : Die :=
  if m = d.nwt.stream.toNat then (d.admitted m).nwtIngress (d.stream m).fmt (d.stream m).width (d.stream m).height else d.admitted m

theorem Die.eofIn_whole (h : (d.stream m).height ≤ (d.stream m).row) : d.eofIn m = d.admittedNwt m := if_neg (Nat.not_lt.mpr h)

theorem Die.admittedNwt_only : d.admittedNwt m = { d.admitted m with nwt := (d.admittedNwt m).nwt } := Die.nwt_if (Die.nwtIngress_only _ _ _ _)

/-- A stream whose open frame is dropped; `more` when packets of it may still follow. -/
def Stream.droppedFor (x : Stream) (cause : Nat) (more conf : Bool) : Stream :=
  { x with
    lastCause := BitVec.ofNat 4 cause, drops := if conf then x.drops else satInc32 x.drops 1,
    open_ := false, dropped := more, rowBytes := [], rowPos := 0, rowBegun := false, lineTimes := [], timeStep := false,
    voidQ := if cause = dropSleep ∨ x.stripes ≤ x.handed then x.voidQ else x.voidQ ++
      [{ frame := x.frame, frameNo := x.frameNo, sensorTs := x.sensorTs, sofTime := x.sofTime, from_ := x.handed, timeStep := x.timeStep }],
    dropCnt := BitVec.ofNat 16 (satAdd 0xFFFF x.dropCnt.toNat 1) }

/-- The die that drops a frame for its format. -/
def Die.formatDropped (d : Die) (m : Nat) (more : Bool) : Die := d.updStream m fun x => x.droppedFor dropFormat more (d.streamConf m)

theorem Die.dropFrame_format (more : Bool) : d.dropFrame m dropFormat more =
    if m = d.nwt.stream.toNat then (d.formatDropped m more).nwtDropped else d.formatDropped m more := rfl

theorem Die.dropFrame_format_only (more : Bool) :
    d.dropFrame m dropFormat more = { d.formatDropped m more with nwt := (d.dropFrame m dropFormat more).nwt } :=
  Die.nwt_if (Die.nwtDropped_only _)

theorem Die.eofIn_short (h : (d.stream m).row < (d.stream m).height) : d.eofIn m = d.dropFrame m dropFormat false := if_pos h

/-- Behind an EOF nothing of its frame follows. -/
def Stream.frameOver (x : Stream) : Stream := { x with dropped := false }

/-- A change of a stream that has changed already. -/
theorem Die.updStream_after {e : Die} {f : Stream → Stream} (w : Tab.wf {} d.ing.streams = true)
    (h : e.ing.streams = Tab.upd {} d.ing.streams m f) (g : Stream → Stream) : (e.updStream m g).stream m = g (f (d.stream m)) := by
  rw [Die.updStream_stream_self e m g (h ▸ Tab.wf_upd m f w)]
  unfold Die.stream
  rw [h, Tab.read_upd_self m f w]

theorem Die.admittedNwt_over_stream (w : Tab.wf {} d.ing.streams = true) :
    ((d.admittedNwt m).updStream m Stream.frameOver).stream m = ((d.stream m).admitted (d.streamConf m)).frameOver :=
  Die.updStream_after w (f := fun x => x.admitted (d.streamConf m)) (by rw [Die.admittedNwt_only]; rfl) _

theorem Die.dropFrame_over_stream (w : Tab.wf {} d.ing.streams = true) (more : Bool) :
    ((d.dropFrame m dropFormat more).updStream m Stream.frameOver).stream m =
      ((d.stream m).droppedFor dropFormat more (d.streamConf m)).frameOver :=
  Die.updStream_after w (f := fun x => x.droppedFor dropFormat more (d.streamConf m)) (by rw [Die.dropFrame_format_only]; rfl) _

/-! ### The commands -/

section
variable {s : State} {m : Fin 16} (runs : s.die.ingRuns = true) (present : s.die.streamPresent m.val = true)
  (enabled : (s.die.stream m.val).enabled = true)

include present enabled in
theorem Die.framePacket_open (opened : (s.die.stream m.val).open_ = true) (f : Die → Die) : s.die.framePacket m.val f = f s.die :=
  (if_neg (by simp [present, enabled])).trans (if_pos opened)

include runs

theorem answers_sof (frame : W32) (ts : W64) (w h : BitVec 16) (fmt : Byte) (full : Bool) :
    Answers (.sof m frame ts w h fmt full) s (s.die.sof m.val frame ts w.toNat h.toNat fmt.toNat full) :=
  answers_of_act (exec_sof m frame ts w h fmt full s) (if_pos runs)

include present enabled

theorem answers_line (opened : (s.die.stream m.val).open_ = true) (row off : Nat) (pay : List Byte) :
    Answers (.line m row off pay false) s (s.die.lineIn m.val row off pay) :=
  answers_of_act (exec_line m row off pay false s)
    ((if_pos runs).trans (Die.framePacket_open present enabled opened _))

theorem answers_eof (opened : (s.die.stream m.val).open_ = true) :
    Answers (.eof m false) s ((s.die.eofIn m.val).updStream m.val Stream.frameOver) :=
  answers_of_act (exec_eof m false s)
    ((if_pos runs).trans (congrArg (fun d : Die => d.updStream m.val Stream.frameOver)
      (Die.framePacket_open present enabled opened _)))
end
end

section
variable {s : State} {m : Fin 16} (runs : s.die.ingRuns = true) (present : s.die.streamPresent m.val = true)
  (enabled : (s.die.stream m.val).enabled = true) (opened : (s.die.stream m.val).open_ = true)
  {off : Nat} {pay : List Byte}
include runs present enabled opened

section
variable (inside : (s.die.stream m.val).row < (s.die.stream m.val).height) (next : off = (s.die.stream m.val).rowPos)
  (room : (s.die.stream m.val).mayBegin)
include inside next room

/-- A packet that leaves its row incomplete. -/
theorem answers_line_part (short : off + pay.length < wireBytes (s.die.stream m.val).fmt (s.die.stream m.val).width) :
    Answers (.line m (s.die.stream m.val).row off pay false) s
      (s.die.updStream m.val fun _ => (s.die.stream m.val).taken off pay s.die.time.reading) := by
  have answer := answers_line runs present enabled opened (s.die.stream m.val).row off pay
  rwa [Die.lineIn_next off pay inside next (by omega) room, if_neg (by omega)] at answer

variable (whole : off + pay.length = wireBytes (s.die.stream m.val).fmt (s.die.stream m.val).width)
include whole

/-- A packet that completes its row. -/
theorem answers_line_whole :
    Answers (.line m (s.die.stream m.val).row off pay false) s ((s.die.rowIn m.val off pay).rowDone m.val) := by
  have answer := answers_line runs present enabled opened (s.die.stream m.val).row off pay
  rwa [Die.lineIn_next off pay inside next (by omega) room, if_pos whole] at answer
end

end

section
variable {s : State} {m : Fin 16} (runs : s.die.ingRuns = true) (present : s.die.streamPresent m.val = true)
  (enabled : (s.die.stream m.val).enabled = true) (opened : (s.die.stream m.val).open_ = true)
include runs present enabled opened

/-- EOF after the last row. -/
theorem answers_eof_whole (done : (s.die.stream m.val).height ≤ (s.die.stream m.val).row) :
    Answers (.eof m false) s ((s.die.admittedNwt m.val).updStream m.val Stream.frameOver) := by
  have answer := answers_eof runs present enabled opened
  rwa [Die.eofIn_whole done] at answer

/-- EOF before the last row. -/
theorem answers_eof_short (short : (s.die.stream m.val).row < (s.die.stream m.val).height) :
    Answers (.eof m false) s ((s.die.dropFrame m.val dropFormat false).updStream m.val Stream.frameOver) := by
  have answer := answers_eof runs present enabled opened
  rwa [Die.eofIn_short short] at answer
end

/-- Settles O30: a packet of an enabled stream goes to `Die.sof`, `Die.lineIn` or `Die.eofIn`, whose equations say the rest. -/
theorem framePacketsFillTheRing : Obligations.FramePacketsFillTheRing := by
  intro s m runs present w d x only
  refine ⟨fun cls => answers_of_act (exec_reservedClassMessage cls s) ?_, fun frame ts wd ht fmt enabled closed quiet hw hh hf => ?_,
    fun off pay enabled opened inside next room => ?_, fun enabled opened done => ?_, fun enabled opened short => ?_⟩
  · by_cases reserved : cls.toNat = 0 ∨ 5 ≤ cls.toNat
    · exact (if_pos (by simpa [runs, BitVec.toNat_eq] using reserved)).trans (if_pos reserved).symm
    · exact (if_neg (by simpa [runs, BitVec.toNat_eq] using reserved)).trans (if_neg reserved).symm
  · have answer := answers_sof (m := m) runs frame ts wd ht fmt false
    rw [hw, hh, hf, Die.sof_opens w present enabled closed quiet] at answer
    exact ⟨_, answer, Die.streams_only (Die.openFrame_eq frame ts), by rw [Die.openFrame_eq]; rfl⟩
  · intro q
    refine ⟨answers_line_part runs present enabled opened inside next room, fun whole mid more => ?_, fun whole last => ?_⟩
    · have answer := answers_line_whole runs present enabled opened inside next room whole
      have row := Die.rowIn_stream (m := m.val) w off pay
      rw [Die.rowDone_within (by rw [row, Stream.taken_midStripe]; exact not_or.2 ⟨mid, more⟩)] at answer
      exact ⟨_, answer, Die.rowIn_stored_lb w off pay, Die.rowIn_stored_stream w off pay, Die.ingressed_only rfl⟩
    · have answer := answers_line_whole runs present enabled opened inside next room whole
      have row := Die.rowIn_stream (m := m.val) w off pay
      rw [Die.rowDone_stripe (Die.wf_rowIn w off pay) (by rw [row, Stream.taken_midStripe]; exact not_not.2 last)] at answer
      obtain ⟨held, seq, handed, after, still⟩ := Die.rowIn_stripe_stream (m := m.val) w off pay
      refine ⟨_, answer, ?_, held, seq, handed, after, still.trans opened, Die.rowIn_stripe_iss w off pay, Die.ingressed_frame rfl⟩
      rw [Die.rowIn_stripe_lb w, Die.rowIn_stored_lb w, Stream.taken_stripeInfo]
      exact congrArg (Mem.write _ _) (congrArg x.header rfl)
  · exact ⟨_, answers_eof_whole runs present enabled opened done, Die.admittedNwt_over_stream w, by rw [Die.admittedNwt_only]; rfl,
      by rw [Die.admittedNwt_only]; rfl⟩
  · have stream := Die.dropFrame_over_stream (m := m.val) w false
    exact ⟨_, answers_eof_short runs present enabled opened short, by rw [Die.dropFrame_format_only]; rfl,
      congrArg Stream.open_ stream, congrArg Stream.lastCause stream, congrArg Stream.drops stream⟩

end Sys2Proof.Machine
end

section
/-! O31: stripes are freed and handed over, streams are enabled and disabled. -/

namespace Sys2Proof.Machine

section
variable {d : Die} {m : Nat}

/-! ### A stripe is freed (R277) -/

/-- A stream whose oldest stripe, of frame `f`, is freed. -/
def Stream.freeing (x : Stream) (f : Nat) (rest : List (Nat × Nat × Bool)) : Stream :=
  { x with held := rest, freed := Tab.write 0 x.freed f (Tab.read 0 x.freed f + 1) }

theorem Die.freeStripe_held {f j : Nat} {l : Bool} {rest : List (Nat × Nat × Bool)} {p : Nat} (held : (d.stream m).held = (f, j, l) :: rest)
    (phys : d.physTally (d.stream m).slotOf (d.stream m).freeTally = some p) (enabled : (d.stream m).enabled = true) :
    d.freeStripe m = if (d.tally p).value.toNat = 0 ∨ d.bundleTakes p = true ∨ d.threadTakes p = true then d else
      (d.updTally p fun t => { t with value := t.value - 1 }).updStream m fun x => x.freeing f rest := by
  unfold Die.freeStripe
  dsimp only
  rw [held, phys]
  dsimp only
  rw [enabled]
  by_cases kept : (d.tally p).value.toNat = 0 ∨ d.bundleTakes p = true ∨ d.threadTakes p = true
  · rw [if_pos kept, if_neg]
    rcases kept with h | h | h <;> simp [h]
  · rw [if_neg kept, if_pos]
    · rfl
    · obtain ⟨h0, hb, ht⟩ := not_or.1 kept |>.imp_right not_or.1
      simp [hb, ht, Nat.pos_of_ne_zero h0]

/-! ### A VOID stripe is handed over (R279) -/

/-- What the header of a VOID stripe says. -/
def VoidFrame.info (v : VoidFrame) : StripeInfo :=
  { frame := v.frame, frameNo := v.frameNo, stripe := v.from_, void := true, timeStep := v.timeStep,
    sofTime := v.sofTime, sensorTs := v.sensorTs, times := List.replicate 64 0 }

/-- The stripes of the dropped frame that still wait. -/
def Stream.voidLeft (x : Stream) (v : VoidFrame) (rest : List VoidFrame) : Stream :=
  { x with voidQ := if v.from_ + 1 < x.stripes then { v with from_ := v.from_ + 1, timeStep := false } :: rest else rest }

theorem Die.voidStripe_free {v : VoidFrame} {rest : List VoidFrame} (waits : (d.stream m).voidQ = v :: rest)
    (enabled : (d.stream m).enabled = true) (free : (d.stream m).slotFree (v.from_ % (d.stream m).slots) v.frameNo v.from_ = true) :
    d.voidStripe m = (d.handOver m v.info).updStream m fun x => x.voidLeft v rest := by
  unfold Die.voidStripe
  dsimp only
  rw [waits]
  dsimp only
  rw [enabled, free]
  exact if_pos rfl

theorem Stream.voidLeft_handing_held (x : Stream) (v : VoidFrame) (rest : List VoidFrame) (h : StripeInfo) :
    ((x.handing h).voidLeft v rest).held = x.held ++ [(h.frameNo, h.stripe, decide (h.stripe + 1 = x.stripes))] := rfl

theorem Stream.voidLeft_handing_voidQ (x : Stream) (v : VoidFrame) (rest : List VoidFrame) (h : StripeInfo) :
    ((x.handing h).voidLeft v rest).voidQ =
      if v.from_ + 1 < x.stripes then { v with from_ := v.from_ + 1, timeStep := false } :: rest else rest := rfl

/-! ### A stream is enabled and disabled (R283, R284) -/

/-- The writable fields of a write of ING_STRm_CTRL. -/
def Stream.written (x : Stream) (v : W32) : Stream := { x with ctrl := v &&& 0x370 }

section
variable {v : W32} (w : Tab.wf {} d.ing.streams = true) (present : d.streamPresent m = true) (off : (d.stream m).enabled = false)
  (set : v.getLsbD 0 = true)
include w present off set

/-- The checks see the stream with its new fields. -/
theorem Die.streamCtrlWrite_enable : d.streamCtrlWrite m v =
    if (d.updStream m fun _ => (d.stream m).written v).streamCheck m ((d.stream m).written v) = 0 then
      ((d.updStream m fun _ => (d.stream m).written v).updStream m Stream.fresh).nwtSync
    else (d.updStream m fun _ => (d.stream m).written v).updStream m fun x =>
      { x with cfgErr := BitVec.ofNat 4 ((d.updStream m fun _ => (d.stream m).written v).streamCheck m ((d.stream m).written v)) } := by
  have read : (d.updStream m fun _ => (d.stream m).written v).stream m = (d.stream m).written v := Die.updStream_stream_self d m _ w
  have checked : d.streamCtrlWrite m v =
      (let e := d.updStream m fun _ => (d.stream m).written v
       let c := e.streamCheck m (e.stream m)
       if c = 0 then (e.updStream m Stream.fresh).nwtSync else e.updStream m fun x => { x with cfgErr := BitVec.ofNat 4 c }) := by
    unfold Die.streamCtrlWrite
    rw [present, off, set]
    rfl
  rw [checked]
  dsimp only
  rw [read]

theorem Die.streamCtrlWrite_refused
    (bad : (d.updStream m fun _ => (d.stream m).written v).streamCheck m ((d.stream m).written v) ≠ 0) :
    d.streamCtrlWrite m v = d.updStream m fun _ => { (d.stream m).written v with
      cfgErr := BitVec.ofNat 4 ((d.updStream m fun _ => (d.stream m).written v).streamCheck m ((d.stream m).written v)) } := by
  rw [Die.streamCtrlWrite_enable w present off set, if_neg bad, Die.updStream_updStream _ _ _ _ w]

theorem Die.streamCtrlWrite_starts
    (good : (d.updStream m fun _ => (d.stream m).written v).streamCheck m ((d.stream m).written v) = 0) :
    d.streamCtrlWrite m v = (d.updStream m fun _ => ((d.stream m).written v).fresh).nwtSync := by
  rw [Die.streamCtrlWrite_enable w present off set, if_pos good, Die.updStream_updStream _ _ _ _ w]
end

theorem Die.streamCtrlWrite_disable {v : W32} (present : d.streamPresent m = true) (on : (d.stream m).enabled = true) (clear : v.getLsbD 0 = false) :
    d.streamCtrlWrite m v = (d.updStream m Stream.stop).nwtSync := by
  unfold Die.streamCtrlWrite
  rw [present, on, clear]
  rfl

theorem Stream.fresh_enabled (x : Stream) : x.fresh.enabled = true := by
  simp [Stream.fresh, Stream.enabled]

theorem Stream.stop_enabled (x : Stream) : x.stop.enabled = false := by
  simp [Stream.stop, Stream.enabled]

theorem Die.nwtSync_streams_only {f : Stream → Stream} : (d.updStream m f).nwtSync =
    { d with ing := { d.ing with streams := (d.updStream m f).nwtSync.ing.streams }, nwt := (d.updStream m f).nwtSync.nwt } :=
  Die.streams_only (Die.nwtSync_only _)
end

/-! ### The commands -/

section
variable {s : State} {m : Fin 16} (p : Prompt s 0) (ho : s.die.hostOpen = true) (val : W32)
include p ho

theorem answers_ingStreamEnable (set : val.getLsbD 0 = true) : Answers (.ingStreamEnable 0 m val) s (s.die.streamCtrlWrite m.val val) :=
  answers_of_act (exec_ingStreamEnable 0 m val s) ((if_pos set).trans (Die.pfWr_prompt p ho _ _ _))

theorem answers_ingStreamDisable (clear : val.getLsbD 0 = false) : Answers (.ingStreamDisable 0 m val) s (s.die.streamCtrlWrite m.val val) :=
  answers_of_act (exec_ingStreamDisable 0 m val s) ((if_neg (by rw [clear]; decide)).trans (Die.pfWr_prompt p ho _ _ _))
end

/-- Settles O31: each command is one operation on its stream, and a hand-over is `Die.handOver_then`. -/
theorem stripesChangeHandsOverTallies : Obligations.StripesChangeHandsOverTallies := by
  intro s m w d x
  refine ⟨fun f j l rest p runs held phys enabled => ?_, fun v rest runs waits enabled free => ?_, fun val p ho present off set => ?_,
    fun val p ho present on clear => ?_⟩
  · exact answers_of_act (exec_stripeFree m s) ((if_pos runs).trans (Die.freeStripe_held held phys enabled))
  · intro h
    have answer : Answers (.voidStripeHandover m) s (d.voidStripe m.val) := answers_of_act (exec_voidStripeHandover m s) (if_pos runs)
    rw [Die.voidStripe_free waits enabled free, Die.handOver_then w] at answer
    have stream := Die.updStream_stream_self d m.val (fun x => (x.handing v.info).voidLeft v rest) w
    exact ⟨_, answer, rfl, congrArg Stream.held stream, congrArg Stream.voidQ stream, rfl, rfl⟩
  · intro y d1
    have answer := answers_ingStreamEnable (m := m) p ho val set
    refine ⟨fun bad => ?_, fun good => ?_⟩
    · exact Die.streamCtrlWrite_refused w present off set bad ▸ answer
    · rw [Die.streamCtrlWrite_starts w present off set good] at answer
      have stream := (Die.nwtSync_stream _ _).trans (Die.updStream_stream_self d m.val (fun _ => y.fresh) w)
      exact ⟨_, answer, (congrArg Stream.enabled stream).trans (Stream.fresh_enabled _), congrArg Stream.cfgErr stream,
        congrArg Stream.held stream, congrArg Stream.first stream, Die.nwtSync_streams_only⟩
  · have answer := answers_ingStreamDisable (m := m) p ho val clear
    rw [Die.streamCtrlWrite_disable present on clear] at answer
    have stream := (Die.nwtSync_stream _ _).trans (Die.updStream_stream_self d m.val Stream.stop w)
    exact ⟨_, answer, (congrArg Stream.enabled stream).trans (Stream.stop_enabled _), congrArg Stream.open_ stream,
      (congrArg Stream.drops stream).trans rfl, Die.nwtSync_streams_only⟩

end Sys2Proof.Machine
end

section
/-! Nightwatch: its source, the frames it takes, the reduction of a frame, and the gesture it reports (R411 to R418). -/

namespace Sys2Proof.Machine

/-! ### A frame is taken (R416) -/

/-- Nightwatch when it takes a frame. -/
def Nwt.tookFrame (n : Nwt) (sof : Nat) (luma : List Byte) : Nwt :=
  { n with lastSof := some sof, work := some luma, frames := satInc32 n.frames 1, taken := n.taken + 1 }

/-- Nightwatch when it passes a frame over. -/
def Nwt.skip (n : Nwt) : Nwt := { n with skipped := satInc32 n.skipped 1 }

/-- What the gap to the last frame taken makes of a whole frame. -/
def Nwt.take (n : Nwt) (sof : Nat) (luma : List Byte) : Nwt :=
  match n.lastSof with
  | none => n.tookFrame sof luma
  | some l =>
    if sof < l + nwtMinGap then n.skip
    else (if l + nwtRestartGap < sof then n.restart else n).tookFrame sof luma

theorem Die.nwtTake_eq (d : Die) (sof : Nat) (luma : List Byte) : d.nwtTake sof luma = { d with nwt := d.nwt.take sof luma } := by
  unfold Die.nwtTake Nwt.take
  dsimp only
  generalize d.nwt.lastSof = last
  cases last with
  | none => rfl
  | some l =>
    dsimp only
    split
    · rfl
    · split <;> rfl

/-! ### The source (R410, R412) -/

theorem Die.nwtSync_same {d : Die} (h : d.nwtSideband = d.nwt.sideband) : d.nwtSync = d := if_pos h

/-- A change of the designated stream that leaves ENABLE leaves the source. -/
theorem Die.nwtSync_updated {d e : Die} (h : d.nwtSideband = d.nwt.sideband) (hp : e.pwr = d.pwr) (hn : e.nwt = d.nwt)
    (hc : (e.stream d.nwt.stream.toNat).ctrl = (d.stream d.nwt.stream.toNat).ctrl) : e.nwtSync = e := by
  refine Die.nwtSync_same ?_
  rw [hn, ← h]
  unfold Die.nwtSideband
  rw [hp, hn, hc]

theorem Nwt.runs_iff (n : Nwt) : n.runs = true ↔ n.enable = true ∧ n.pkg = 1 := by
  simp [Nwt.runs]

theorem Nwt.runs_off {n : Nwt} (h : n.enable = false ∨ n.pkg ≠ 1) : n.runs = false := by
  refine Bool.eq_false_iff.2 fun r => ?_
  obtain ⟨enabled, loaded⟩ := n.runs_iff.1 r
  rcases h with h | h
  · rw [h] at enabled; cases enabled
  · exact h loaded

/-! ### Watch messages -/

theorem Die.watchMsg_taken {d : Die} (same : d.nwtSideband = d.nwt.sideband) (runs : d.nwt.runs = true) (side : d.nwt.sideband = true)
    (sof eof : Bool) (f : Die → Die) : d.watchMsg sof eof f = f d := by
  unfold Die.watchMsg
  rw [Die.nwtSync_same same]
  simp [runs, side]

theorem Die.watchMsg_idle {d : Die} (same : d.nwtSideband = d.nwt.sideband) (idle : d.nwt.runs = false) (sof eof : Bool) (f : Die → Die) :
    d.watchMsg sof eof f = d := by
  unfold Die.watchMsg
  rw [Die.nwtSync_same same]
  simp [idle]

/-! ### The reduction (R411) -/

/-- Round half to even: the nearest integer, the even one of two. -/
theorem rneDiv_nearest (a : Int) {b : Int} (hb : 0 < b) :
    2 * (a - rneDiv a b * b).natAbs ≤ b ∧ (2 * (a - rneDiv a b * b).natAbs = b → rneDiv a b % 2 = 0) := by
  have split := Int.mul_ediv_add_emod a b
  have low := Int.emod_nonneg a (Int.ne_of_gt hb)
  have high := Int.emod_lt_of_pos a hb
  have next : (a / b + 1) * b = b * (a / b) + b := by ring
  have here : a / b * b = b * (a / b) := Int.mul_comm _ _
  unfold rneDiv
  dsimp only
  split
  · rw [next]; omega
  · rw [here]; omega

theorem rneDiv_nonneg {a b : Int} (ha : 0 ≤ a) (hb : 0 < b) : 0 ≤ rneDiv a b := by
  have q := Int.ediv_nonneg ha hb.le
  unfold rneDiv
  dsimp only
  split <;> omega

theorem foldl_add_eq_sum (f : Nat → Nat) : ∀ (l : List Nat) (a : Nat), l.foldl (fun n i => n + f i) a = a + (l.map f).sum
  | [], a => by simp
  | i :: l, a => by rw [List.foldl_cons, foldl_add_eq_sum f l, List.map_cons, List.sum_cons, Nat.add_assoc]

/-- The sum of the block of `bx` by `bY` pixels whose corner is at column `x` and row `y`. -/
def blockSum (rows : Array (Array Nat)) (x y bx bY : Nat) : Nat :=
  ((List.range bY).map fun v => ((List.range bx).map fun u => (rows.getD (y + v) #[]).getD (x + u) 0).sum).sum

theorem blockSum_foldl (rows : Array (Array Nat)) (x y bx bY : Nat) :
    (List.range bY).foldl (fun (n : Nat) v =>
      (List.range bx).foldl (fun (n : Nat) u => n + (rows.getD (y + v) #[]).getD (x + u) 0) n) 0 = blockSum rows x y bx bY := by
  have rowSum : (fun (n : Nat) (v : Nat) => (List.range bx).foldl (fun (n : Nat) u => n + (rows.getD (y + v) #[]).getD (x + u) 0) n) =
      fun n v => n + ((List.range bx).map fun u => (rows.getD (y + v) #[]).getD (x + u) 0).sum :=
    funext fun n => funext fun v => foldl_add_eq_sum _ _ n
  rw [rowSum, foldl_add_eq_sum, Nat.zero_add, blockSum]

/-- One pixel of the reduced frame. -/
def reducedPixel (rows : Array (Array Nat)) (w h bx bY i : Nat) : Byte :=
  BitVec.ofInt 8 (rneDiv (blockSum rows ((w - 160 * bx) / 2 + i % 160 * bx) ((h - 120 * bY) / 2 + i / 160 * bY) bx bY : Nat) (bx * bY : Nat))

theorem nwtReduce_eq (raw : Bool) (rows : Array (Array Nat)) (w h : Nat) :
    nwtReduce raw rows w h = if nwtBlock raw w 160 = 0 ∨ nwtBlock raw h 120 = 0 then none
      else some ((List.range 19200).map (reducedPixel rows w h (nwtBlock raw w 160) (nwtBlock raw h 120))) := by
  unfold nwtReduce
  dsimp only
  refine if_congr Iff.rfl rfl (congrArg some (List.map_congr_left fun i _ => ?_))
  rw [reducedPixel, ← blockSum_foldl]

/-- A pixel is its block's mean, rounded half to even. -/
theorem reducedPixel_mean (rows : Array (Array Nat)) (w h bx bY i : Nat) (hb : 0 < bx * bY) :
    let sum := blockSum rows ((w - 160 * bx) / 2 + i % 160 * bx) ((h - 120 * bY) / 2 + i / 160 * bY) bx bY
    ∃ v : Nat, reducedPixel rows w h bx bY i = BitVec.ofNat 8 v ∧ 2 * ((sum : Int) - v * (bx * bY : Nat)).natAbs ≤ bx * bY ∧
      (2 * ((sum : Int) - v * (bx * bY : Nat)).natAbs = bx * bY → v % 2 = 0) := by
  intro sum
  have pos : (0 : Int) < (bx * bY : Nat) := by exact_mod_cast hb
  obtain ⟨v, hv⟩ := Int.eq_ofNat_of_zero_le (rneDiv_nonneg (Int.natCast_nonneg sum) pos)
  have near := rneDiv_nearest sum pos
  rw [hv] at near
  refine ⟨v, ?_, by exact_mod_cast near.1, fun tie => by exact_mod_cast near.2 (by exact_mod_cast tie)⟩
  rw [reducedPixel, hv]
  exact BitVec.ofInt_natCast 8 v

/-- There is no reduction when a block is empty; else each pixel of it is its block's mean. -/
theorem nwtReduce_means (raw : Bool) (rows : Array (Array Nat)) (w h : Nat) :
    (nwtReduce raw rows w h = none ↔ nwtBlock raw w 160 = 0 ∨ nwtBlock raw h 120 = 0) ∧
    ∀ luma, nwtReduce raw rows w h = some luma → luma.length = 19200 ∧ ∀ i, i < 19200 →
      let bx := nwtBlock raw w 160
      let bY := nwtBlock raw h 120
      let sum := blockSum rows ((w - 160 * bx) / 2 + i % 160 * bx) ((h - 120 * bY) / 2 + i / 160 * bY) bx bY
      ∃ v : Nat, nth 0 luma i = BitVec.ofNat 8 v ∧ 2 * ((sum : Int) - v * (bx * bY : Nat)).natAbs ≤ bx * bY ∧
        (2 * ((sum : Int) - v * (bx * bY : Nat)).natAbs = bx * bY → v % 2 = 0) := by
  rw [nwtReduce_eq]
  by_cases empty : nwtBlock raw w 160 = 0 ∨ nwtBlock raw h 120 = 0
  · rw [if_pos empty]
    exact ⟨iff_of_true rfl empty, fun _ none => nomatch none⟩
  · rw [if_neg empty]
    refine ⟨iff_of_false (Option.some_ne_none _) empty, fun luma some => ?_⟩
    obtain rfl := Option.some.inj some
    refine ⟨by rw [List.length_map, List.length_range], fun i hi => ?_⟩
    have pos : 0 < nwtBlock raw w 160 * nwtBlock raw h 120 :=
      Nat.mul_pos (Nat.pos_of_ne_zero (not_or.1 empty).1) (Nat.pos_of_ne_zero (not_or.1 empty).2)
    rw [nth_map_range 0 _ hi]
    exact reducedPixel_mean rows w h _ _ i pos

/-! ### The greatest gesture logit (R418) -/

theorem argmaxInt_keep : ∀ (l : List Int) (i : Nat) (b : Nat × Int), (∀ j, j < l.length → nth 0 l j ≤ b.2) → argmaxInt l i b = b
  | [], _, _, _ => rfl
  | z :: t, i, b, h => by
    have head : ¬ b.2 < z := Int.not_lt.mpr (h 0 (by simp))
    rw [argmaxInt, if_neg head]
    exact argmaxInt_keep t (i + 1) b fun j hj => h (j + 1) (by simpa using hj)

theorem argmaxInt_at : ∀ (l : List Int) (i k : Nat) (b : Nat × Int), k < l.length → (∀ j, j < l.length → nth 0 l j ≤ nth 0 l k) →
    (∀ j, j < k → nth 0 l j < nth 0 l k) → b.2 < nth 0 l k → argmaxInt l i b = (i + k, nth 0 l k)
  | z :: t, i, 0, b, _, top, _, more => by
    rw [argmaxInt, if_pos (show b.2 < z from more)]
    exact argmaxInt_keep t (i + 1) (i, z) fun j hj => top (j + 1) (by simpa using hj)
  | z :: t, i, k + 1, b, hk, top, first, more => by
    have below : (if b.2 < z then (i, z) else b).2 < nth 0 t k := by
      split
      · exact first 0 (Nat.succ_pos k)
      · exact more
    rw [argmaxInt, argmaxInt_at t (i + 1) k _ (by simpa using hk) (fun j hj => top (j + 1) (by simpa using hj))
      (fun j hj => first (j + 1) (by omega)) below]
    exact Prod.ext (by dsimp only; omega) rfl

/-- The value found bounds every value. -/
theorem argmaxInt_le (x : Int) : ∀ (l : List Int) (i : Nat) (b : Nat × Int), (argmaxInt l i b).2 ≤ x ↔ b.2 ≤ x ∧ ∀ y ∈ l, y ≤ x
  | [], _, b => by simp [argmaxInt]
  | z :: t, i, b => by
    rw [argmaxInt, argmaxInt_le x t]
    simp only [List.mem_cons, forall_eq_or_imp, ← and_assoc]
    refine and_congr_left fun _ => ?_
    split <;> omega

/-- The report of class `c`, whose logit is `v`, is due. -/
def Nwt.holdOver (n : Nwt) (p : Array Byte) (c : Nat) : Bool :=
  match n.lastRept with
  | some (cls, k) => decide (cls ≠ c) || decide (pU p (nwtThresh + 12) 2 ≤ n.taken - 1 - k)
  | none => true

theorem Nwt.holdOver_iff (n : Nwt) (p : Array Byte) (c : Nat) : n.holdOver p c = true ↔
    n.lastRept = none ∨ ∃ was k, n.lastRept = some (was, k) ∧ (was ≠ c ∨ pU p (nwtThresh + 12) 2 ≤ n.taken - 1 - k) := by
  unfold Nwt.holdOver
  cases n.lastRept with
  | none => simp
  | some r => obtain ⟨was, k⟩ := r; simp

/-- The greatest logit of a frame is reported when it is a gesture's, leads by the margin, and is not held. -/
def Nwt.reports (n : Nwt) (p : Array Byte) (gs : List Int) (c : Nat) : Prop :=
  c < 8 ∧ (∀ j, j < gs.length → j ≠ c → pI32 p (nwtThresh + 8) ≤ nth 0 gs c - nth 0 gs j) ∧ n.holdOver p c = true

/-- Nightwatch when it reports class `c`. -/
def Nwt.reported (n : Nwt) (c : Nat) : Nwt :=
  { n with pend := n.pend ||| (1#8 <<< c), lastRept := some (c, n.taken - 1),
           last := w32 (0x80000000 + c * 2 ^ 24 + (n.taken - 1) % 2 ^ 24) }

section
variable {gs : List Int} {c : Nat} (here : c < gs.length) (top : ∀ j, j < gs.length → nth 0 gs j ≤ nth 0 gs c)
  (first : ∀ j, j < c → nth 0 gs j < nth 0 gs c)
include here top first

theorem argmaxInt_top {z : Int} {t : List Int} (h : gs = z :: t) : argmaxInt t 1 (0, z) = (c, nth 0 gs c) := by
  subst h
  cases c with
  | zero => exact argmaxInt_keep t 1 (0, z) fun j hj => top (j + 1) (by simpa using hj)
  | succ k =>
    rw [argmaxInt_at t 1 k (0, z) (by simpa using here) (fun j hj => top (j + 1) (by simpa using hj))
      (fun j hj => first (j + 1) (by omega)) (first 0 (Nat.succ_pos k)), Nat.add_comm]
    rfl
end

/-- The best of the other logits leaves the margin exactly when each of them does. -/
theorem argmaxInt_others {gs r : List Int} {o x : Int} {c : Nat} (h : gs.eraseIdx c = o :: r) (v : Int) :
    x ≤ v - (argmaxInt r 1 (0, o)).2 ↔ ∀ j, j < gs.length → j ≠ c → x ≤ v - nth 0 gs j := by
  have bound : x ≤ v - (argmaxInt r 1 (0, o)).2 ↔ ∀ y ∈ gs.eraseIdx c, y ≤ v - x := by
    rw [h, List.forall_mem_cons, ← argmaxInt_le (v - x) r 1 (0, o)]
    omega
  rw [bound]
  constructor
  · intro all j hj ne
    have := all gs[j] (List.mem_eraseIdx_iff_getElem.2 ⟨j, hj, ne, rfl⟩)
    rw [nth_eq_getD, List.getD_eq_getElem _ _ hj]
    omega
  · intro all y hy
    obtain ⟨j, hj, ne, rfl⟩ := List.mem_eraseIdx_iff_getElem.1 hy
    have := all j hj ne
    rw [nth_eq_getD, List.getD_eq_getElem _ _ hj] at this
    omega

open Classical in
theorem Nwt.gesture_eq (n : Nwt) (p : Array Byte) {gs : List Int} {c : Nat} (many : 2 ≤ gs.length) (here : c < gs.length)
    (top : ∀ j, j < gs.length → nth 0 gs j ≤ nth 0 gs c) (first : ∀ j, j < c → nth 0 gs j < nth 0 gs c) :
    n.gesture p gs = if n.reports p gs c then n.reported c else n := by
  cases hg : gs with
  | nil => simp [hg] at many
  | cons z t =>
    have found := argmaxInt_top here top first hg
    cases ho : gs.eraseIdx c with
    | nil =>
      have := congrArg List.length ho
      rw [List.length_eraseIdx_of_lt here] at this
      simp at this; omega
    | cons o r =>
      have lead := argmaxInt_others (x := pI32 p (nwtThresh + 8)) ho (nth 0 gs c)
      unfold Nwt.gesture
      dsimp only
      rw [found, ← hg]
      dsimp only
      rw [ho]
      dsimp only
      refine if_congr (and_congr Iff.rfl (and_congr lead Iff.rfl)) rfl rfl

/-! ### A frame's outputs land (R415, R423) -/

/-- The source's frame is computed, and its background kept. -/
def Nwt.computed (n : Nwt) (luma : List Byte) : Nwt :=
  { n with bg := (n.background luma.toArray).1, fresh := false, work := none }

/-- What the network makes of a frame. -/
def Nwt.outputs (n : Nwt) (luma : List Byte) : Int × List Int := nwtNetwork n.param.toArray (n.background luma.toArray).2

/-- The presence outputs of a logit. -/
def Nwt.sawPresence (n : Nwt) (z : Int) : Nwt :=
  { n with logit := BitVec.ofInt 32 z,
           present := if pI32 n.param.toArray nwtThresh ≤ z then true
             else if z < pI32 n.param.toArray (nwtThresh + 4) then false else n.present }

theorem Nwt.result_warm {n : Nwt} (h : n.warmup ≠ 0) (luma : List Byte) : n.result luma =
    { n with bg := (n.background luma.toArray).1, fresh := false, work := none, warmup := n.warmup - 1 } := by
  unfold Nwt.result
  generalize n.background luma.toArray = b
  exact if_pos h

/-- The background is all that such a frame writes beside its count. -/
theorem Nwt.warm_only {n e : Nwt} {b : Tab Nat} (h : e = { n with bg := b, fresh := false, work := none, warmup := n.warmup - 1 }) :
    e = { n with bg := e.bg, fresh := false, work := none, warmup := n.warmup - 1 } := by rw [h]

theorem Nwt.result_shown {n : Nwt} (h : n.warmup = 0) (luma : List Byte) :
    n.result luma = ((n.computed luma).sawPresence (n.outputs luma).1).gesture n.param.toArray (n.outputs luma).2 := by
  unfold Nwt.result Nwt.outputs Nwt.computed
  generalize n.background luma.toArray = b
  dsimp only
  generalize nwtNetwork n.param.toArray b.2 = o
  exact if_neg (not_not_intro h)

theorem nwtNetwork_length (p : Array Byte) (m : NwtImage) : (nwtNetwork p m).2.length = 9 := by
  simp [nwtNetwork]

/-- The check code's findings outside HBM4 leave Nightwatch as it is. -/
theorem Die.ecc_nwt (r : Reader) : ∀ (e : Ecc) (d : Die), (∀ w ∈ e, w.store < 7) → (d.ecc e none r).nwt = d.nwt
  | [], _, _ => rfl
  | w :: e, d, h => by
    have small : ¬ 7 ≤ w.store := Nat.not_le.mpr (h w (by simp))
    rw [Die.ecc_cons, Die.ecc_nwt r e _ fun x hx => h x (by simp [hx])]
    unfold Die.eccContext Die.eccUncorr
    rw [if_neg small, if_neg small]
    split
    · exact Die.eccCapture_nwt _ _ _ _ _ _ _
    · exact Die.eccCorr_nwt _ _ _ _ _

theorem Nwt.outputs_length (n : Nwt) (luma : List Byte) : (n.outputs luma).2.length = 9 := by
  unfold Nwt.outputs
  exact nwtNetwork_length _ _

/-- Nightwatch when the presence outputs of a frame have landed. -/
def Nwt.shown (n : Nwt) (luma : List Byte) : Nwt := (n.computed luma).sawPresence (n.outputs luma).1

theorem Nwt.shown_eq (n : Nwt) (luma : List Byte) : n.shown luma =
    { n with
      bg := (n.shown luma).bg, fresh := false, work := none, logit := BitVec.ofInt 32 (n.outputs luma).1,
      present := if pI32 n.param.toArray nwtThresh ≤ (n.outputs luma).1 then true
        else if (n.outputs luma).1 < pI32 n.param.toArray (nwtThresh + 4) then false else n.present } := by
  unfold Nwt.shown Nwt.computed
  generalize n.outputs luma = o
  generalize n.background luma.toArray = b
  rfl

theorem Nwt.reports_congr {m n : Nwt} (hl : m.lastRept = n.lastRept) (ht : m.taken = n.taken) (p : Array Byte) (gs : List Int) (c : Nat) :
    m.reports p gs c ↔ n.reports p gs c := by
  unfold Nwt.reports Nwt.holdOver
  rw [hl, ht]

theorem Nwt.shown_reports (n : Nwt) (luma : List Byte) (p : Array Byte) (gs : List Int) (c : Nat) :
    (n.shown luma).reports p gs c ↔ n.reports p gs c :=
  Nwt.reports_congr (by rw [Nwt.shown_eq]) (by rw [Nwt.shown_eq]) p gs c

/-- The greatest gesture logit of a frame decides whether it is reported. -/
theorem Nwt.result_reports {n : Nwt} (h : n.warmup = 0) (luma : List Byte) {c : Nat} (here : c < 9)
    (top : ∀ j, j < 9 → nth 0 (n.outputs luma).2 j ≤ nth 0 (n.outputs luma).2 c)
    (first : ∀ j, j < c → nth 0 (n.outputs luma).2 j < nth 0 (n.outputs luma).2 c) :
    (n.reports n.param.toArray (n.outputs luma).2 c → n.result luma = (n.shown luma).reported c) ∧
    (¬ n.reports n.param.toArray (n.outputs luma).2 c → n.result luma = n.shown luma) := by
  have nine := n.outputs_length luma
  have gesture := Nwt.gesture_eq (n.shown luma) n.param.toArray (gs := (n.outputs luma).2) (c := c) (by omega) (by omega)
    (by rwa [nine]) first
  rw [Nwt.result_shown h]
  exact ⟨fun r => gesture.trans (if_pos ((n.shown_reports ..).2 r)), fun r => gesture.trans (if_neg (mt (n.shown_reports ..).1 r))⟩

/-- What lands with a frame whose network gives `o`. -/
theorem Nwt.result_lands {n : Nwt} {luma : List Byte} {o : Int × List Int} {c : Nat}
    (ho : nwtNetwork n.param.toArray (n.background luma.toArray).2 = o) (h : n.warmup = 0) (here : c < 9)
    (top : ∀ j, j < 9 → nth 0 o.2 j ≤ nth 0 o.2 c) (first : ∀ j, j < c → nth 0 o.2 j < nth 0 o.2 c) :
    let e := n.result luma
    e.work = none ∧ e.warmup = 0 ∧ e.logit = BitVec.ofInt 32 o.1 ∧
      e.present = (if pI32 n.param.toArray nwtThresh ≤ o.1 then true else if o.1 < pI32 n.param.toArray (nwtThresh + 4) then false else n.present) ∧
      (n.reports n.param.toArray o.2 c → e.pend = n.pend ||| (1#8 <<< c) ∧ e.lastRept = some (c, n.taken - 1) ∧
        e.last = w32 (0x80000000 + c * 2 ^ 24 + (n.taken - 1) % 2 ^ 24)) ∧
      (¬ n.reports n.param.toArray o.2 c → e.pend = n.pend ∧ e.lastRept = n.lastRept ∧ e.last = n.last) := by
  have out : n.outputs luma = o := ho
  obtain ⟨report, quiet⟩ := Nwt.result_reports h luma here (by rwa [out]) (by rwa [out])
  have shown := n.shown_eq luma
  rw [out] at report quiet shown
  intro e
  by_cases r : n.reports n.param.toArray o.2 c
  · have land : e = (n.shown luma).reported c := report r
    rw [land, shown]
    exact ⟨rfl, h, rfl, rfl, fun _ => ⟨rfl, rfl, rfl⟩, fun no => absurd r no⟩
  · have land : e = n.shown luma := quiet r
    rw [land, shown]
    exact ⟨rfl, h, rfl, rfl, fun yes => absurd yes r, fun _ => ⟨rfl, rfl, rfl⟩⟩

/-- What the check code found, in the Nightwatch store. -/
def nwtWords (e : Ecc) : Ecc := e.map fun w => { w with store := 6 }

section
variable {s : State} {luma : List Byte} (runs : s.die.nwt.runs = true) (work : s.die.nwt.work = some luma)
include runs work

theorem answers_nwtFrameResult_ok : Answers (.nwtFrameResult .ok) s { s.die with nwt := s.die.nwt.result luma } := by
  refine answers_of_act (exec_nwtFrameResult .ok s) ?_
  dsimp only
  rw [if_pos runs, work]
  rfl

theorem answers_nwtFrameResult_bad {e : Ecc} (bad : eccBad e = true) : Answers (.nwtFrameResult e) s
    { s.die.ecc (nwtWords e) none { code := 3 } with
      nwt := (s.die.ecc (nwtWords e) none { code := 3 }).nwt.storeError (((nwtWords e).filter fun w => w.uncorr).map fun w => w.off) } := by
  refine answers_of_act (exec_nwtFrameResult e s) ?_
  dsimp only
  rw [if_pos runs, work]
  refine if_neg ?_
  obtain ⟨w, hw, hu⟩ := List.any_eq_true.1 bad
  rw [List.isEmpty_iff, List.filter_eq_nil_iff]
  intro none
  exact none _ (List.mem_map_of_mem hw) hu
end

theorem answers_nwtFrameResult_idle {s : State} (idle : s.die.nwt.runs = false) (e : Ecc) : Answers (.nwtFrameResult e) s s.die :=
  answers_of_act (exec_nwtFrameResult e s) (if_neg (by rw [idle]; decide))

/-- A word of the weight area among those found. -/
theorem nwtWords_weightArea_iff (e : Ecc) :
    ((((nwtWords e).filter fun w => w.uncorr).map fun w => w.off).any fun off => decide (off < nwtWeightBytes)) = true ↔
      ∃ w ∈ e, w.uncorr = true ∧ w.off < 15936 := by
  simp only [List.any_eq_true, nwtWords, List.mem_map, List.mem_filter, decide_eq_true_eq]
  constructor
  · rintro ⟨_, ⟨_, ⟨⟨w, hw, rfl⟩, hu⟩, rfl⟩, ho⟩
    exact ⟨w, hw, hu, ho⟩
  · rintro ⟨w, hw, hu, ho⟩
    exact ⟨_, ⟨_, ⟨⟨w, hw, rfl⟩, hu⟩, rfl⟩, ho⟩

/-! ### The designated stream (R411) -/

section
variable {d : Die} {m : Nat} (designated : m = d.nwt.stream.toNat) (w : Tab.wf {} d.ing.streams = true)

theorem Die.admitted_stream (w : Tab.wf {} d.ing.streams = true) : (d.admitted m).stream m = (d.stream m).admitted (d.streamConf m) :=
  Tab.read_upd_self m (fun x : Stream => x.admitted (d.streamConf m)) w

include designated

section
variable (same : d.nwtSideband = d.nwt.sideband)
include same w

theorem Die.openFrame_nwt (side : d.nwt.sideband = false) (frame : W32) (ts : W64) :
    (d.openFrame m frame ts).nwt = { d.nwt with inOpen := true, inRows := [], sofAt := d.time.aon.toNat } := by
  subst designated
  have sync := Die.nwtSync_updated (e := d.updStream d.nwt.stream.toNat fun x => x.opened frame ts d.time.reading) same rfl rfl
    (by rw [Die.updStream_stream_self d _ _ w]; rfl)
  have opens : d.openFrame d.nwt.stream.toNat frame ts = (d.updStream d.nwt.stream.toNat fun x => x.opened frame ts d.time.reading).nwtSof :=
    if_pos rfl
  rw [opens, Die.nwtSof, sync]
  exact (congrArg Die.nwt (if_neg (by simp [side]))).trans rfl
end

include w in
/-- The row that a packet completes joins the frame. -/
theorem Die.rowDone_nwt (inOpen : d.nwt.inOpen = true) (off : Nat) (pay : List Byte) : ((d.rowIn m off pay).rowDone m).nwt =
    { d.nwt with inRows := lumaRow (d.stream m).fmt (d.stream m).width ((d.stream m).rowBytes ++ pay) :: d.nwt.inRows } := by
  have done : ((d.rowIn m off pay).rowDone m).nwt = (d.rowIn m off pay).rowNwt m := by
    by_cases mid : ((d.rowIn m off pay).stream m).midStripe
    · rw [Die.rowDone_within mid]; rfl
    · rw [Die.rowDone_stripe (Die.wf_rowIn w off pay) mid]; rfl
  rw [done, Die.rowNwt, Die.rowIn_stream w, Stream.taken_eq]
  exact (congrArg Die.nwt (if_pos designated)).trans (congrArg Die.nwt (if_pos inOpen))

/-- Nightwatch when the frame from ingress is over. -/
def Nwt.closed (n : Nwt) : Nwt := { n with inRows := [], inOpen := false }

variable (runs : d.nwt.runs = true) (inOpen : d.nwt.inOpen = true)
include runs inOpen

/-- The frame that Nightwatch was receiving is dropped. -/
theorem Die.dropFrame_nwt (more : Bool) : (d.dropFrame m dropFormat more).nwt = d.nwt.closed.skip := by
  rw [Die.dropFrame_format]
  exact (congrArg Die.nwt (if_pos designated)).trans ((congrArg Die.nwt (if_pos (Bool.and_eq_true_iff.2 ⟨runs, inOpen⟩))).trans rfl)

include w in
/-- The frame that Nightwatch was receiving is whole. -/
theorem Die.admittedNwt_nwt (same : d.nwtSideband = d.nwt.sideband) : (d.admittedNwt m).nwt =
    match nwtReduce (decide ((d.stream m).fmt ≤ 2)) ((d.nwt.inRows.map fun r => r.toArray).reverse).toArray (d.stream m).width
        (d.stream m).height with
    | some luma => d.nwt.closed.take d.nwt.sofAt luma
    | none => d.nwt.closed.skip := by
  have sync : (d.admitted m).nwtSync = d.admitted m := Die.nwtSync_updated same rfl rfl
    (designated ▸ (congrArg Stream.ctrl (Die.admitted_stream w)).trans rfl)
  have takes : d.admittedNwt m = (d.admitted m).nwtIngress (d.stream m).fmt (d.stream m).width (d.stream m).height := if_pos designated
  rw [takes, Die.nwtIngress, sync]
  refine (congrArg Die.nwt (if_pos (Bool.and_eq_true_iff.2 ⟨runs, inOpen⟩))).trans ?_
  generalize hp : nwtReduce (decide ((d.stream m).fmt ≤ 2)) ((d.nwt.inRows.map fun r => r.toArray).reverse).toArray (d.stream m).width
    (d.stream m).height = picture
  have seen : nwtReduce (decide ((d.stream m).fmt ≤ 2)) (((d.admitted m).nwt.inRows.map fun r => r.toArray).reverse).toArray
      (d.stream m).width (d.stream m).height = picture := hp
  dsimp only
  rw [seen]
  cases picture with
  | none => rfl
  | some luma => exact congrArg Die.nwt (Die.nwtTake_eq _ _ _)
end

end Sys2Proof.Machine
end

section
/-! O38: Nightwatch. -/

namespace Sys2Proof.Machine

/-! ### The sideband's messages -/

section
variable {s : State} (same : s.die.nwtSideband = s.die.nwt.sideband)
include same

theorem answers_watch_idle (idle : s.die.nwt.runs = false) :
    (∀ num, Answers (.watchSof num) s s.die) ∧ (∀ info data, Answers (.watchData info data) s s.die) ∧ Answers .watchEof s s.die :=
  ⟨fun num => answers_of_act (exec_watchSof num s) (Die.watchMsg_idle same idle _ _ _),
   fun info data => answers_of_act (exec_watchData info data s) (Die.watchMsg_idle same idle _ _ _),
   answers_of_act (exec_watchEof s) (Die.watchMsg_idle same idle _ _ _)⟩

variable (runs : s.die.nwt.runs = true) (side : s.die.nwt.sideband = true)
include runs side

theorem answers_watchSof (num : W32) (closed : s.die.nwt.sbOpen = false) : Answers (.watchSof num) s { s.die with nwt := { s.die.nwt with
    sbOpen := true, sbSkip := false, sbBytes := [], sofAt := s.die.time.aon.toNat } } := by
  refine answers_of_act (exec_watchSof num s) ((Die.watchMsg_taken same runs side _ _ _).trans ?_)
  dsimp only
  rw [closed]
  rfl

theorem answers_watchData (info : BitVec 16) (data : W64) (opened : s.die.nwt.sbOpen = true) : Answers (.watchData info data) s
    (if s.die.nwt.sbBytes.length < 19200 ∧ 8 * info.toNat = s.die.nwt.sbBytes.length then
      { s.die with nwt := { s.die.nwt with sbBytes := s.die.nwt.sbBytes ++ leBytes 8 data.toNat } } else s.die.watchBad true) :=
  answers_of_act (exec_watchData info data s) ((Die.watchMsg_taken same runs side _ _ _).trans (if_pos opened))

theorem answers_watchEof (opened : s.die.nwt.sbOpen = true) : Answers .watchEof s
    (if s.die.nwt.sbBytes.length = 19200 then
      Die.nwtTake { s.die with nwt := { s.die.nwt with sbOpen := false, sbBytes := [] } } s.die.nwt.sofAt s.die.nwt.sbBytes
     else s.die.watchBad false) :=
  answers_of_act (exec_watchEof s) ((Die.watchMsg_taken same runs side _ _ _).trans (if_pos opened))
end

/-! ### ENABLE (R425) -/

theorem toNat_ofNat_wbits (v : W32) : (BitVec.ofNat 4 (wbits v 19 16)).toNat = wbits v 19 16 :=
  Nat.mod_eq_of_lt (Nat.mod_lt _ (by decide))

/-- A write that sets ENABLE of a disabled Nightwatch with a package, for a stream that the part has. -/
theorem Die.nwtCtrlWrite_starts {d : Die} {v : W32} (set : v.getLsbD 31 = true) (off : d.nwt.enable = false) (loaded : d.nwt.pkg = 1)
    (there : wbits v 19 16 < d.variant.streams) : ∃ n : Nwt, d.nwtCtrlWrite v = Die.nwtSync { d with nwt := n } ∧
      n.enable = true ∧ n.warmup = 8 ∧ n.present = false ∧ n.stream = BitVec.ofNat 4 (wbits v 19 16) := by
  unfold Die.nwtCtrlWrite
  simp only [off, set, loaded, toNat_ofNat_wbits, there, Bool.false_eq_true, if_false, Bool.false_or, Bool.true_and, decide_true,
    Bool.not_false, Bool.and_false, beq_self_eq_true, if_true]
  exact ⟨_, rfl, rfl, rfl, rfl, rfl⟩

theorem Die.nwtSync_started (d : Die) : d.nwtSync.nwt.enable = d.nwt.enable ∧ d.nwtSync.nwt.warmup = d.nwt.warmup ∧
    d.nwtSync.nwt.present = d.nwt.present ∧ d.nwtSync.nwt.stream = d.nwt.stream := by
  unfold Die.nwtSync
  dsimp only
  split
  · exact ⟨rfl, rfl, rfl, rfl⟩
  · exact ⟨rfl, rfl, rfl, rfl⟩

/-- Settles O38: each message is one operation of Nightwatch, whose equation says what it makes of Nightwatch's state. -/
theorem nightwatchTakesWholeFrames : Obligations.NightwatchTakesWholeFrames := by
  refine ⟨fun s same => ?_, fun raw rows w h => ?_, fun s luma on loaded work warm => ?_, fun s luma c on loaded work shown => ?_,
    fun s luma ecc on loaded work bad => ?_, fun s val p ho set off loaded there => ?_⟩
  · intro n nwt bad taken
    have takes (m : Nwt) (luma : List Byte) (hl : m.lastSof = n.lastSof) (hf : m.frames = n.frames) (ht : m.taken = n.taken)
        (hs : m.skipped = n.skipped) : m.take n.sofAt luma = taken m luma := by
      unfold Nwt.take nwtMinGap nwtRestartGap
      rw [hl]
      simp only [taken]
      cases n.lastSof with
      | none => rw [Nwt.tookFrame, hf, ht]
      | some l =>
        by_cases near : n.sofAt < l + 1200000
        · simp only [if_pos near, Nwt.skip, hs]
        · by_cases far : l + 38400000 < n.sofAt
          · simp only [if_neg near, if_pos far, Nwt.tookFrame, Nwt.restart, hf, ht]
          · simp only [if_neg near, if_neg far, Nwt.tookFrame, hf, ht]
    refine ⟨fun run side => ⟨fun num closed => ?_, fun info data opened => ?_, fun opened short => ?_, fun opened whole => ?_⟩, fun idle => ?_,
      fun m on loaded side hm ing present w => ?_⟩
    · exact answers_watchSof same (n.runs_iff.2 run) side num closed
    · exact answers_watchData same (n.runs_iff.2 run) side info data opened
    · have answer := answers_watchEof same (n.runs_iff.2 run) side opened
      rwa [if_neg short] at answer
    · have answer := answers_watchEof same (n.runs_iff.2 run) side opened
      rw [if_pos whole, Die.nwtTake_eq] at answer
      exact takes { n with sbOpen := false, sbBytes := [] } n.sbBytes rfl rfl rfl rfl ▸ answer
    · have off := Nwt.runs_off idle
      obtain ⟨sof, data, eof⟩ := answers_watch_idle same off
      exact ⟨sof, data, eof, answers_nwtFrameResult_idle off⟩
    · intro x gives closed enabled
      have runs := n.runs_iff.2 ⟨on, loaded⟩
      refine ⟨fun frame ts wd ht fmt shut quiet hw hh hf => ?_, fun pay opened inside room whole rows => ?_,
        fun opened rows => ⟨fun short => ?_, fun all => ?_⟩⟩
      · have answer := answers_sof (m := m) ing frame ts wd ht fmt false
        rw [hw, hh, hf, Die.sof_opens w present enabled shut quiet] at answer
        exact ⟨_, answer, Die.openFrame_nwt hm w same side frame ts⟩
      · exact ⟨_, answers_line_whole ing present enabled opened inside rfl room whole, Die.rowDone_nwt hm w rows x.rowPos pay⟩
      · exact ⟨_, answers_eof_short ing present enabled opened short, Die.dropFrame_nwt hm runs rows false⟩
      · intro picture
        have answer := answers_eof_whole ing present enabled opened all
        have after := Die.admittedNwt_nwt hm w runs rows same
        refine ⟨fun none => ⟨_, answer, after.trans ?_⟩, fun luma some => ⟨_, answer, after.trans ?_⟩⟩
        · rw [show nwtReduce _ _ _ _ = _ from none]; rfl
        · rw [show nwtReduce _ _ _ _ = _ from some]; exact takes closed luma rfl rfl rfl rfl
  · exact nwtReduce_means raw rows w h
  · exact ⟨_, answers_nwtFrameResult_ok ((Nwt.runs_iff _).2 ⟨on, loaded⟩) work, Nwt.warm_only (Nwt.result_warm warm luma), rfl⟩
  · intro n p o z hc top first reports
    have answer := answers_nwtFrameResult_ok (n.runs_iff.2 ⟨on, loaded⟩) work
    obtain ⟨work, warm, logit, present, report, quiet⟩ := Nwt.result_lands (o := o) rfl shown hc top first
    have due : n.reports p o.2 c ↔ reports :=
      and_congr Iff.rfl (and_congr (by rw [show o.2.length = 9 from nwtNetwork_length _ _]) (n.holdOver_iff p c))
    exact ⟨_, answer, rfl, work, warm, logit, present, fun r => report (due.2 r), fun no => quiet (mt due.1 no)⟩
  · have answer := answers_nwtFrameResult_bad ((Nwt.runs_iff _).2 ⟨on, loaded⟩) work bad
    rw [Die.ecc_nwt _ _ _ fun w hw => by obtain ⟨_, _, rfl⟩ := List.mem_map.1 hw; exact (by decide : 6 < 7)] at answer
    refine ⟨_, answer, ?_⟩
    have halts := nwtWords_weightArea_iff ecc
    by_cases area : ∃ w ∈ ecc, w.uncorr = true ∧ w.off < 15936
    · have halted := (if_pos (halts.2 area) : s.die.nwt.storeError _ = _)
      exact ⟨congrArg Nwt.work halted, fun _ => congrArg Nwt.pkg halted, fun other => by
        obtain ⟨w, hw, hu, ho⟩ := area
        exact absurd (other w hw hu) (Nat.not_le.mpr ho)⟩
    · have restarts := (if_neg (mt halts.1 area) : s.die.nwt.storeError _ = _)
      exact ⟨congrArg Nwt.work restarts, fun found => absurd found area, fun _ =>
        ⟨(congrArg Nwt.pkg restarts).trans loaded, congrArg Nwt.warmup restarts, congrArg Nwt.present restarts⟩⟩
  · obtain ⟨n, write, enable, warmup, present, stream⟩ := Die.nwtCtrlWrite_starts set off loaded there
    have answer : Answers (.nwtEnable 0 val) s (s.die.nwtCtrlWrite val) :=
      answers_of_act (exec_nwtEnable 0 val s) ((if_pos set).trans (Die.pfWr_prompt p ho _ _ _))
    obtain ⟨enable', warmup', present', stream'⟩ := Die.nwtSync_started { s.die with nwt := n }
    rw [write] at answer
    exact ⟨_, answer, enable'.trans enable, warmup'.trans warmup, present'.trans present,
      by rw [stream', stream, toNat_ofNat_wbits], Die.nwtSync_only _⟩

end Sys2Proof.Machine
end

section
/-! FACTS. What leaves the power block as it is: a landing, a command of a slot, every register message but one to PWR or
SEC_RESET_CTRL, and every memory message. -/

namespace Sys2Proof.Machine

@[simp] theorem foldl_pwr {α : Type} {f : Die → α → Die} (h : ∀ d x, (f d x).pwr = d.pwr) (l : List α) (d : Die) : (l.foldl f d).pwr = d.pwr :=
  foldl_pred (P := fun e : Die => e.pwr = d.pwr) rfl fun e x _ he => (h e x).trans he
@[simp] theorem forUpto_pwr {f : Nat → Die → Die} (h : ∀ k d, (f k d).pwr = d.pwr) (n : Nat) (d : Die) : (forUpto n f d).pwr = d.pwr :=
  forUpto_keeps Die.pwr h n d

/-! ### Results that land -/

@[simp] theorem Die.tallyReadable_pwr (d : Die) : d.tallyReadable.pwr = d.pwr := by simp [Die.tallyReadable]
@[simp] theorem Die.readDue_pwr (d : Die) (m : Nat) : (d.readDue m).pwr = d.pwr := rfl
@[simp] theorem Die.updTe_pwr (d : Die) (n : Nat) (f : Engine → Engine) : (d.updTe n f).pwr = d.pwr := by unfold Die.updTe; split <;> rfl
@[simp] theorem Die.landRow_pwr (d : Die) (te : Nat) (r : RowFlight) : (d.landRow te r).pwr = d.pwr := by
  unfold Die.landRow
  dsimp only
  repeat' split
  all_goals simp
@[simp] theorem Die.rowComplete_pwr (d : Die) (te : Nat) (e : Ecc) : (d.rowComplete te e).pwr = d.pwr := by
  unfold Die.rowComplete
  repeat' split
  all_goals simp
@[simp] theorem Die.flintLand_pwr (d : Die) (r : RowFlight) : (d.flintLand r).pwr = d.pwr := by
  unfold Die.flintLand
  dsimp only
  repeat' split
  all_goals rfl
@[simp] theorem Die.flintComplete_pwr (d : Die) (e : Ecc) : (d.flintComplete e).pwr = d.pwr := by
  unfold Die.flintComplete
  repeat' split
  all_goals simp
@[simp] theorem Die.vectorLand_pwr (d : Die) (e : Ecc) : (d.vectorLand e).pwr = d.pwr := by
  unfold Die.vectorLand
  dsimp only
  split
  · rfl
  · simp
@[simp] theorem Die.micaLand_pwr (d : Die) (e : Ecc) : (d.micaLand e).pwr = d.pwr := by
  unfold Die.micaLand
  split
  · rfl
  · simp
@[simp] theorem Die.landPost_pwr (bad : List Nat) (d : Die) (j : PostJob) : (Die.landPost bad d j).pwr = d.pwr := by
  unfold Die.landPost
  dsimp only
  repeat' split
  all_goals rfl
@[simp] theorem Die.postLand_pwr (d : Die) (e : Ecc) : (d.postLand e).pwr = d.pwr := by
  unfold Die.postLand
  dsimp only
  repeat' split
  all_goals simp
@[simp] theorem Die.landFirst_pwr (d : Die) : d.landFirst.pwr = d.pwr := by
  unfold Die.landFirst
  dsimp only
  repeat' split
  all_goals simp
@[simp] theorem Die.landReadable_pwr (d : Die) : d.landReadable.pwr = d.pwr := by
  rw [Die.landReadable, Die.tallyReadable_pwr]
  exact forUpto_pwr (fun _ e => e.landFirst_pwr) _ d
@[simp] theorem Die.settled_pwr (d : Die) (off : Nat) : (d.settled off).pwr = d.pwr := by
  unfold Die.settled; split <;> simp

/-! ### Reads of registers -/

@[simp] theorem Die.readEffect_pwr (d : Die) (off : Nat) : (d.readEffect off).pwr = d.pwr := by simp [Die.readEffect, apply_ite Die.pwr]
@[simp] theorem Die.regTake_pwr (d : Die) (fn off : Nat) : (d.regTake fn off).1.pwr = d.pwr := by
  unfold Die.regTake
  repeat' split
  all_goals simp
@[simp] theorem Die.regRead_pwr (d : Die) (fn off : Nat) : (d.regRead fn off).1.pwr = d.pwr := by
  unfold Die.regRead; split <;> simp
@[simp] theorem Die.rdMsg_pwr (d : Die) (fn : Nat) (tag : BitVec 16) (off bytes : Nat) : (d.rdMsg fn tag off bytes).pwr = d.pwr := by
  unfold Die.rdMsg; split <;> simp

/-! ### Commands of a slot, and writes of registers -/

@[simp] theorem Die.wrGlb_pwr (d : Die) (o : Nat) (v : W32) : (d.wrGlb o v).pwr = d.pwr := by simp [Die.wrGlb, apply_ite Die.pwr]
@[simp] theorem Die.ctxDone_pwr (d : Die) (s status : Nat) : (d.ctxDone s status).pwr = d.pwr := rfl
@[simp] theorem Die.kvGrant_pwr (d : Die) (s : Nat) : (d.kvGrant s).pwr = d.pwr := rfl
@[simp] theorem Die.grantDone_pwr (d : Die) (s : Nat) : (d.grantDone s).pwr = d.pwr := by simp [Die.grantDone, apply_ite Die.pwr]
@[simp] theorem Die.grantSlot_pwr (d : Die) (s : Nat) : (d.grantSlot s).pwr = d.pwr := by simp [Die.grantSlot, apply_ite Die.pwr]
@[simp] theorem Die.loadSlot_pwr (d : Die) (s : Nat) : (d.loadSlot s).pwr = d.pwr := by simp [Die.loadSlot, apply_ite Die.pwr]
@[simp] theorem Die.disarmSlot_pwr (d : Die) (s : Nat) : (d.disarmSlot s).pwr = d.pwr := rfl
@[simp] theorem Die.unloadSlot_pwr (d : Die) (fn s : Nat) (release : Bool) : (d.unloadSlot fn s release).pwr = d.pwr := by
  unfold Die.unloadSlot; dsimp only; split <;> simp
@[simp] theorem Die.ctxAct_pwr (d : Die) (fn s op : Nat) : (d.ctxAct fn s op).pwr = d.pwr := by simp [Die.ctxAct, apply_ite Die.pwr]
@[simp] theorem Die.ctxCmd_pwr (d : Die) (fn s op : Nat) : (d.ctxCmd fn s op).pwr = d.pwr := by simp [Die.ctxCmd, apply_ite Die.pwr]
@[simp] theorem Die.channelsArm_pwr (d : Die) (s : Nat) : (d.channelsArm s).pwr = d.pwr := rfl
@[simp] theorem Die.armNow_pwr (d : Die) (s runs : Nat) (conf : Bool) : (d.armNow s runs conf).pwr = d.pwr := by
  unfold Die.armNow; dsimp only; split <;> simp [apply_ite Die.pwr]
@[simp] theorem Die.armSlot_pwr (d : Die) (fn s : Nat) (runs : W32) : (d.armSlot fn s runs).pwr = d.pwr := by
  simp [Die.armSlot, apply_ite Die.pwr]
@[simp] theorem Die.calCtrlWrite_pwr (d : Die) (v : W32) : (d.calCtrlWrite v).pwr = d.pwr := rfl
@[simp] theorem Die.calSwapWrite_pwr (d : Die) (v : W32) : (d.calSwapWrite v).pwr = d.pwr := by unfold Die.calSwapWrite; split <;> rfl
@[simp] theorem Die.wrCtx_pwr (d : Die) (fn o : Nat) (v : W32) : (d.wrCtx fn o v).pwr = d.pwr := by simp [Die.wrCtx, apply_ite Die.pwr]
@[simp] theorem Die.wrXfr_pwr (d : Die) (o : Nat) (v : W32) : (d.wrXfr o v).pwr = d.pwr := by simp [Die.wrXfr, apply_ite Die.pwr]
@[simp] theorem Die.wrAux_pwr (d : Die) (o : Nat) (v : W32) : (d.wrAux o v).pwr = d.pwr := by simp [Die.wrAux, apply_ite Die.pwr]
@[simp] theorem Die.wrPst_pwr (d : Die) (o : Nat) (v : W32) : (d.wrPst o v).pwr = d.pwr := by simp [Die.wrPst, apply_ite Die.pwr]
@[simp] theorem Die.kvEnter_pwr (d : Die) (fn s op : Nat) (arg2 : W32) : (d.kvEnter fn s op arg2).pwr = d.pwr := by
  simp [Die.kvEnter, apply_ite Die.pwr]
@[simp] theorem Die.kvGo_pwr (d : Die) (fn s op : Nat) : (d.kvGo fn s op).pwr = d.pwr := by simp [Die.kvGo, apply_ite Die.pwr]
@[simp] theorem Die.kvPublishWrite_pwr (d : Die) (fn s : Nat) (len : W32) : (d.kvPublishWrite fn s len).pwr = d.pwr := by
  simp [Die.kvPublishWrite, apply_ite Die.pwr]
@[simp] theorem Die.wrKvp_pwr (d : Die) (fn o : Nat) (v : W32) : (d.wrKvp fn o v).pwr = d.pwr := by simp [Die.wrKvp, apply_ite Die.pwr]
@[simp] theorem Die.streamCtrlWrite_pwr (d : Die) (m : Nat) (v : W32) : (d.streamCtrlWrite m v).pwr = d.pwr := by
  simp [Die.streamCtrlWrite, apply_ite Die.pwr]
@[simp] theorem Die.wrIng_pwr (d : Die) (o : Nat) (v : W32) : (d.wrIng o v).pwr = d.pwr := by simp [Die.wrIng, apply_ite Die.pwr]
@[simp] theorem Die.dropFrames_pwr (d : Die) (n : Nat) : (d.dropFrames n).pwr = d.pwr := rfl
@[simp] theorem Die.loopOff_pwr (d : Die) (n : Nat) : (d.loopOff n).pwr = d.pwr := rfl
@[simp] theorem Die.loopOn_pwr (d : Die) (n : Nat) : (d.loopOn n).pwr = d.pwr := by simp [Die.loopOn, apply_ite Die.pwr]
@[simp] theorem Die.bindWrite_pwr (d : Die) (n : Nat) (v : W32) : (d.bindWrite n v).pwr = d.pwr := by simp [Die.bindWrite, apply_ite Die.pwr]
@[simp] theorem Die.portCtrlWrite_pwr (d : Die) (p : Nat) (v : W32) : (d.portCtrlWrite p v).pwr = d.pwr := by
  simp [Die.portCtrlWrite, apply_ite Die.pwr]
@[simp] theorem Die.hbPeriodWrite_pwr (d : Die) (v : W32) : (d.hbPeriodWrite v).pwr = d.pwr :=
  forUpto_pwr (fun p e => e.updFport_pwr p _) 4 _
@[simp] theorem Die.wrFld_pwr (d : Die) (o : Nat) (v : W32) : (d.wrFld o v).pwr = d.pwr := by simp [Die.wrFld, apply_ite Die.pwr]
@[simp] theorem Die.nwtCtrlWrite_pwr (d : Die) (v : W32) : (d.nwtCtrlWrite v).pwr = d.pwr := by simp [Die.nwtCtrlWrite]
@[simp] theorem Die.wrNwt_pwr (d : Die) (o : Nat) (v : W32) : (d.wrNwt o v).pwr = d.pwr := by simp [Die.wrNwt, apply_ite Die.pwr]
@[simp] theorem Die.wrFab_pwr (d : Die) (o : Nat) (v : W32) : (d.wrFab o v).pwr = d.pwr := by simp [Die.wrFab, apply_ite Die.pwr]
@[simp] theorem Die.secDone_pwr (d : Die) (s status : Nat) : (d.secDone s status).pwr = d.pwr := rfl
@[simp] theorem Die.rotateBusy_pwr (d : Die) (s : Nat) (mgmt : Bool) : (d.rotateBusy s mgmt).pwr = d.pwr := by simp [Die.rotateBusy]
theorem Die.newKey_pwr {d : Die} {k : Die × Nat} (h : d.newKey = some k) : k.1.pwr = d.pwr := by
  unfold Die.newKey at h
  split at h
  · cases h; rfl
  · cases h
@[simp] theorem Die.rotate_pwr (d : Die) (s : Nat) (mgmt : Bool) : (d.rotate s mgmt).1.pwr = d.pwr := by
  unfold Die.rotate
  dsimp only
  split
  · split <;> simp
  · split
    · rfl
    · next k hk => exact Die.newKey_pwr (k := k) hk
@[simp] theorem Die.secCmd_pwr (d : Die) (fn s op : Nat) : (d.secCmd fn s op).pwr = d.pwr := by simp [Die.secCmd, apply_ite Die.pwr]
@[simp] theorem Die.writeCtl_pwr (d : Die) (f : BootCtl → BootCtl) : (d.writeCtl f).pwr = d.pwr := rfl
@[simp] theorem Die.arbCheck_pwr (d : Die) : d.arbCheck.pwr = d.pwr := by unfold Die.arbCheck; split <;> rfl
@[simp] theorem Die.confirmWrite_pwr (d : Die) (v : W32) : (d.confirmWrite v).pwr = d.pwr := by simp [Die.confirmWrite, apply_ite Die.pwr]
@[simp] theorem Die.loopsWarm_pwr (d : Die) : d.loopsWarm.pwr = d.pwr := rfl
@[simp] theorem Die.newTableKey_pwr (d : Die) : d.newTableKey.pwr = d.pwr := by
  unfold Die.newTableKey
  split
  · next k hk => exact Die.newKey_pwr (k := k) hk
  · rfl
@[simp] theorem Die.engineReset_pwr (d : Die) (n : Nat) : (d.engineReset n).pwr = d.pwr := by simp [Die.engineReset, apply_ite Die.pwr]
@[simp] theorem Die.recClear_pwr (d : Die) (i : Nat) (v : W32) : (d.recClear i v).pwr = d.pwr := by simp [Die.recClear, apply_ite Die.pwr]
@[simp] theorem Die.wrErr_pwr (d : Die) (o : Nat) (v : W32) : (d.wrErr o v).pwr = d.pwr := by simp [Die.wrErr, apply_ite Die.pwr]

/-! ### Memory messages -/

@[simp] theorem Die.memRefused_pwr (d : Die) : d.memRefused.pwr = d.pwr := rfl
@[simp] theorem Die.takeBlock_pwr (d : Die) (n : Nat) (cipher : List Byte) : (d.takeBlock n cipher).pwr = d.pwr :=
  Die.takeBlock_ind (P := fun e => e.pwr = d.pwr) rfl n cipher (fun _ => rfl) fun _ => rfl
@[simp] theorem Die.accessedBy_pwr (d : Die) (acc : Access) (rs ws : List (Nat × Nat)) (owner : Option Nat) (r : Reader) :
    (d.accessedBy acc rs ws owner r).1.pwr = d.pwr := by
  unfold Die.accessedBy
  dsimp only
  repeat' split
  all_goals simp
@[simp] theorem Die.accessed_pwr (d : Die) (acc : Access) (rs ws : List (Nat × Nat)) (owner : Option Nat) :
    (d.accessed acc rs ws owner).1.pwr = d.pwr := d.accessedBy_pwr acc rs ws owner otherReader
@[simp] theorem Die.reservedMsg_pwr (d : Die) (kind : Nat) : (d.reservedMsg kind).pwr = d.pwr := by unfold Die.reservedMsg; split <;> rfl

end Sys2Proof.Machine
end

section
/-! Levels, and the thermal floor and trip (R543 to R548). -/

namespace Sys2Proof.Machine

/-! ### Levels (R543, R544, R546) -/

/-- `e` is `d` but for the level in force, the transition to another, VID, and what the die has sent. -/
def Die.LevelOf (d e : Die) : Prop :=
  ∃ c g k v o, e = { d with pwr := { d.pwr with cur := c, changing := g, chgTicks := k, vid := v }, out := o }

section
variable {d e f : Die}

theorem Die.LevelOf.refl (d : Die) : Die.LevelOf d d := ⟨_, _, _, _, _, rfl⟩

theorem Die.LevelOf.trans (h : Die.LevelOf d e) (h' : Die.LevelOf e f) : Die.LevelOf d f := by
  obtain ⟨_, _, _, _, _, rfl⟩ := h
  obtain ⟨_, _, _, _, _, rfl⟩ := h'
  exact ⟨_, _, _, _, _, rfl⟩

theorem Die.LevelOf.ite {c : Prop} [Decidable c] (he : Die.LevelOf d e) (hf : Die.LevelOf d f) : Die.LevelOf d (if c then e else f) := by
  split
  · exact he
  · exact hf

theorem Die.levelSet_levelOf (d : Die) (l : Nat) : Die.LevelOf d (d.levelSet l) := .ite (.refl d) ⟨_, _, _, _, _, rfl⟩

theorem Die.levelBack_levelOf (d : Die) : Die.LevelOf d d.levelBack := d.levelSet_levelOf _

theorem Die.levelCheck_levelOf (d : Die) : Die.LevelOf d d.levelCheck :=
  .ite (.refl d) (.ite (d.levelSet_levelOf _) (.ite ⟨_, _, _, _, _, rfl⟩ ⟨_, _, _, _, _, rfl⟩))

/-- The level that is wanted is in force. -/
theorem Die.levelCheck_inForce (h : d.pwr.cur.toNat = d.levelWanted) : d.levelCheck = d := by
  unfold Die.levelCheck
  simp [h]

/-- In full service a transition to another level starts: to a faster one once its VID has gone out. -/
theorem Die.levelCheck_starts (ha : d.awake = true) (hc : d.pwr.changing = none) (ht : d.pwr.tripped = false) (hr : d.boot.resetN = true)
    (hf : d.boot.full = true) (hn : d.pwr.cur.toNat ≠ d.levelWanted) :
    d.levelCheck =
      (let d' : Die := { d with pwr := { d.pwr with changing := some (BitVec.ofNat 3 d.levelWanted), chgTicks := 0 } }
       if d.levelWanted < d.pwr.cur.toNat then d'.vid d.levelWanted else d') := by
  have h : (!d.awake || d.pwr.changing.isSome || d.pwr.tripped || !d.boot.resetN || decide (d.pwr.cur.toNat = d.levelWanted)) = false := by
    simp [ha, hc, ht, hr, hn]
  unfold Die.levelCheck
  simp only [h, hf, Bool.not_true, Bool.false_eq_true, if_false]

theorem Die.levelWanted_full (h : d.boot.full = true) : d.levelWanted = max (min 5 d.pwr.req.toNat) d.pwr.floor.toNat := by
  unfold Die.levelWanted
  rw [if_pos h]

/-- A transition whose pause is not over goes on. -/
theorem Die.levelDone_early {l : BitVec 3} (hc : d.pwr.changing = some l) (h : d.pwr.chgTicks < d.pwr.pauseFrom l + pauseCycles) :
    d.levelDone = d := by
  unfold Die.levelDone
  rw [hc]
  exact if_pos h

/-- A transition to the level that is wanted ends with its pause. -/
theorem Die.levelDone_ends {l : BitVec 3} (hc : d.pwr.changing = some l) (h : d.pwr.pauseFrom l + pauseCycles ≤ d.pwr.chgTicks)
    (hf : d.boot.full = true) (hl : l.toNat = max (min 5 d.pwr.req.toNat) d.pwr.floor.toNat) :
    d.levelDone =
      (let p : Pwr := { d.pwr with changing := none, cur := l }
       if d.pwr.cur.toNat < l.toNat then Die.send { d with pwr := { p with vid := some l } } (.vid l) else { d with pwr := p }) := by
  have wanted : ∀ v o, Die.levelCheck { d with pwr := { d.pwr with changing := none, cur := l, vid := v }, out := o } =
      { d with pwr := { d.pwr with changing := none, cur := l, vid := v }, out := o } := fun v o => by
    refine Die.levelCheck_inForce (hl.trans (Eq.symm ?_))
    exact Die.levelWanted_full hf
  unfold Die.levelDone
  rw [hc]
  refine (if_neg (Nat.not_lt.2 h)).trans ?_
  simp only [decide_eq_true_eq]
  split
  · refine (wanted _ _).trans ?_
    rw [BitVec.ofNat_toNat, BitVec.setWidth_eq]
    rfl
  · exact wanted d.pwr.vid d.out
end

/-! ### The hottest reading (R547) -/

/-- `b` is the highest of the readings with the first sensor that gives it. -/
def Hottest (temps : List Int) (b : Int × Nat) : Prop :=
  (∀ u ∈ temps, u ≤ b.1) ∧ temps.findIdx? (fun u => decide (u = b.1)) = some b.2

theorem Hottest.snoc {temps : List Int} {b : Int × Nat} (h : Hottest temps b) (t : Int) :
    Hottest (temps ++ [t]) (if b.1 < t then (t, temps.length) else b) := by
  obtain ⟨top, first⟩ := h
  split
  · next hot =>
    have none_yet : temps.findIdx? (fun u => decide (u = t)) = none :=
      List.findIdx?_eq_none_iff.2 fun u hu => decide_eq_false (by have := top u hu; omega)
    refine ⟨fun u hu => ?_, ?_⟩
    · rcases List.mem_append.1 hu with hu | hu
      · have := top u hu
        dsimp only
        omega
      · exact le_of_eq (List.mem_singleton.1 hu)
    · simp [List.findIdx?_append, none_yet]
  · next cool =>
    refine ⟨fun u hu => ?_, ?_⟩
    · rcases List.mem_append.1 hu with hu | hu
      · exact top u hu
      · rw [List.mem_singleton.1 hu]
        omega
    · simp [List.findIdx?_append, first]

theorem hottest_spec : ∀ (r temps : List Int) {b : Int × Nat}, Hottest temps b → Hottest (temps ++ r) (hottest r temps.length b)
  | [], temps, b, h => by simpa [hottest] using h
  | t :: r, temps, b, h => by
    have ih := hottest_spec r (temps ++ [t]) (h.snoc t)
    rwa [List.append_assoc, List.singleton_append, List.length_append, List.length_singleton] at ih

theorem hottest_cons (t : Int) (r : List Int) : Hottest (t :: r) (hottest r 1 (t, 0)) :=
  hottest_spec r [t] ⟨fun u hu => le_of_eq (List.mem_singleton.1 hu), by simp⟩

/-- The highest reading is the only one that no other exceeds. -/
theorem Hottest.eq {temps : List Int} {b : Int × Nat} (h : Hottest temps b) {t : Int} (ht : t ∈ temps) (top : ∀ u ∈ temps, u ≤ t) :
    b.1 = t := by
  obtain ⟨hn, hb, -⟩ := List.findIdx?_eq_some_iff_getElem.1 h.2
  exact le_antisymm (of_decide_eq_true hb ▸ top _ (List.getElem_mem hn)) (h.1 t ht)

/-- Sixteen sensors fit the field that names one. -/
theorem Hottest.sensor {temps : List Int} {b : Int × Nat} (h : Hottest temps b) :
    temps.findIdx? (fun u => decide (u = b.1)) = some (BitVec.ofNat 4 b.2).toNat ∨ 16 < temps.length := by
  obtain ⟨hn, -⟩ := List.findIdx?_eq_some_iff_getElem.1 h.2
  by_cases big : 16 < temps.length
  · exact .inr big
  · left
    rw [h.2, BitVec.toNat_ofNat, Nat.mod_eq_of_lt (by omega)]

end Sys2Proof.Machine
end

section
/-! The thermal floor and the thermal trip (R547, R548). -/

namespace Sys2Proof.Machine

/-! ### The floor (R547) -/

/-- The floor is one level slower, and the move is counted. -/
def Pwr.FloorUp (p q : Pwr) : Prop := q.floor = p.floor + 1 ∧ q.throttles = satInc32 p.throttles 1
/-- The floor is one level faster, and the move is counted. -/
def Pwr.FloorDown (p q : Pwr) : Prop := q.floor = p.floor - 1 ∧ q.throttles = satInc32 p.throttles 1
/-- The floor has not moved. -/
def Pwr.FloorStays (p q : Pwr) : Prop := q.floor = p.floor ∧ q.throttles = p.throttles

section
variable (p : Pwr) {t : Int} {now : Nat}

/-- A floor that may still rise does, at 100 or more. -/
theorem Pwr.floorUp_if {q : Pwr} (hf : q.floor = (if p.floor.toNat < 5 then p.floorMove true else p).floor)
    (ht : q.throttles = (if p.floor.toNat < 5 then p.floorMove true else p).throttles) :
    (p.floor.toNat < 5 → p.FloorUp q) ∧ (5 ≤ p.floor.toNat → p.FloorStays q) :=
  ⟨fun h => ⟨by rw [hf, if_pos h]; rfl, by rw [ht, if_pos h]; rfl⟩,
   fun h => ⟨by rw [hf, if_neg (Nat.not_lt.2 h)], by rw [ht, if_neg (Nat.not_lt.2 h)]⟩⟩

/-- A floor that may still fall does, below 95. -/
theorem Pwr.floorDown_if {q : Pwr} (hf : q.floor = (if 0 < p.floor.toNat then p.floorMove false else p).floor)
    (ht : q.throttles = (if 0 < p.floor.toNat then p.floorMove false else p).throttles) :
    (0 < p.floor.toNat → p.FloorDown q) ∧ (p.floor = 0 → p.FloorStays q) :=
  ⟨fun h => ⟨by rw [hf, if_pos h]; rfl, by rw [ht, if_pos h]; rfl⟩,
   fun h => ⟨by rw [hf, if_neg (by rw [h]; decide)], by rw [ht, if_neg (by rw [h]; decide)]⟩⟩

theorem Pwr.thermal_hot (h : 100 ≤ t) : (p.thermal t now).coolSince = none ∧
    (p.hotSince = none → (p.thermal t now).hotSince = some now ∧
      (p.floor.toNat < 5 → p.FloorUp (p.thermal t now)) ∧ (5 ≤ p.floor.toNat → p.FloorStays (p.thermal t now))) ∧
    (∀ c, p.hotSince = some c → (now < c + 38400 → (p.thermal t now).hotSince = some c ∧ p.FloorStays (p.thermal t now)) ∧
      (c + 38400 ≤ now → (p.thermal t now).hotSince = some (c + 38400) ∧
        (p.floor.toNat < 5 → p.FloorUp (p.thermal t now)) ∧ (5 ≤ p.floor.toNat → p.FloorStays (p.thermal t now)))) := by
  have warm : ¬ t < 95 := by omega
  unfold Pwr.thermal
  simp only [h, warm, if_true, if_false]
  refine ⟨trivial, fun hn => ?_, fun c hc => ⟨fun early => ?_, fun late => ?_⟩⟩
  · rw [hn]
    exact ⟨rfl, p.floorUp_if rfl rfl⟩
  · rw [hc]
    dsimp only
    rw [if_neg (by unfold aonMs; omega)]
    exact ⟨hc, rfl, rfl⟩
  · rw [hc]
    dsimp only
    rw [if_pos (by unfold aonMs; omega)]
    exact ⟨rfl, p.floorUp_if rfl rfl⟩

theorem Pwr.thermal_warm (h : 95 ≤ t) (h' : t < 100) :
    (p.thermal t now).hotSince = none ∧ (p.thermal t now).coolSince = none ∧ p.FloorStays (p.thermal t now) := by
  unfold Pwr.thermal
  rw [if_neg (by omega), if_neg (by omega)]
  exact ⟨rfl, rfl, rfl, rfl⟩

theorem Pwr.thermal_cool (h : t < 95) : (p.thermal t now).hotSince = none ∧
    (p.coolSince = none → (p.thermal t now).coolSince = some now ∧ p.FloorStays (p.thermal t now)) ∧
    (∀ c, p.coolSince = some c → (now < c + 384000 → (p.thermal t now).coolSince = some c ∧ p.FloorStays (p.thermal t now)) ∧
      (c + 384000 ≤ now → (p.thermal t now).coolSince = some (c + 384000) ∧
        (0 < p.floor.toNat → p.FloorDown (p.thermal t now)) ∧ (p.floor = 0 → p.FloorStays (p.thermal t now)))) := by
  have cold : ¬ 100 ≤ t := by omega
  unfold Pwr.thermal
  simp only [h, cold, if_true, if_false]
  refine ⟨?_, fun hn => ?_, fun c hc => ⟨fun early => ?_, fun late => ?_⟩⟩
  · split
    · rfl
    · split
      · dsimp only
        split <;> rfl
      · rfl
  · rw [hn]
    exact ⟨rfl, rfl, rfl⟩
  · rw [hc]
    dsimp only
    rw [if_neg (by unfold aonMs; omega)]
    exact ⟨rfl, rfl, rfl⟩
  · rw [hc]
    dsimp only
    rw [if_pos (by unfold aonMs; omega)]
    exact ⟨rfl, p.floorDown_if (by dsimp only; split <;> rfl) (by dsimp only; split <;> rfl)⟩

/-- The floor's rule at 100 or more. -/
def Pwr.hotRule (p : Pwr) (t : Int) (now : Nat) : Pwr :=
  if 100 ≤ t then
    match p.hotSince with
    | none => { (if p.floor.toNat < 5 then p.floorMove true else p) with hotSince := some now }
    | some h =>
      if h + aonMs ≤ now then { (if p.floor.toNat < 5 then p.floorMove true else p) with hotSince := some (h + aonMs) } else p
  else { p with hotSince := none }

/-- The floor's rule below 95. -/
def Pwr.coolRule (p : Pwr) (t : Int) (now : Nat) : Pwr :=
  if t < 95 then
    match p.coolSince with
    | none => { p with coolSince := some now }
    | some c =>
      if c + 10 * aonMs ≤ now then { (if 0 < p.floor.toNat then p.floorMove false else p) with coolSince := some (c + 10 * aonMs) }
      else p
  else { p with coolSince := none }

theorem Pwr.thermal_eq (t : Int) (now : Nat) : p.thermal t now = (p.hotRule t now).coolRule t now := rfl

@[simp] theorem Pwr.thermal_tripped (t : Int) (now : Nat) : (p.thermal t now).tripped = p.tripped := by
  have hot : (p.hotRule t now).tripped = p.tripped := by
    unfold Pwr.hotRule
    repeat' split
    all_goals rfl
  have cool : ∀ q : Pwr, (q.coolRule t now).tripped = q.tripped := fun q => by
    unfold Pwr.coolRule
    repeat' split
    all_goals rfl
  rw [Pwr.thermal_eq]
  exact (cool _).trans hot
end

/-! ### The trip (R548) -/

theorem Tab.read_all {α : Type} {P : α → Prop} {dflt : α} (h : P dflt) :
    ∀ {t : List (Nat × α)} (k : Nat), (∀ c ∈ t, P c.2) → P (Tab.read dflt t k)
  | [], _, _ => h
  | (j, v) :: t, k, ht => by
    unfold Tab.read
    split
    · exact ht (j, v) List.mem_cons_self
    · split
      · exact h
      · exact Tab.read_all h k fun c hc => ht c (List.mem_cons_of_mem _ hc)

/-- Every entry of a table that has been mapped is an image. -/
theorem Tab.read_mapVal_all {α : Type} [DecidableEq α] {P : α → Prop} {dflt : α} (h : P dflt) {f : α → α} (hf : ∀ v, P (f v))
    (t : List (Nat × α)) (k : Nat) : P (Tab.read dflt (Tab.mapVal dflt f t) k) :=
  Tab.read_all h k fun c hc => by
    obtain ⟨x, -, rfl⟩ := List.mem_map.1 (List.mem_filter.1 hc).1
    exact hf x.2

section
variable (d : Die) (sensor : Nat) (t : Int)

theorem Die.entryEnd_pwr : d.entryEnd.pwr = { d.pwr with entry := none } := by
  unfold Die.entryEnd
  split
  · rfl
  · next h =>
    have none_yet : d.pwr.entry = none := by simpa using h
    rw [← none_yet]

@[simp] theorem Die.entryEnd_glb : d.entryEnd.glb = d.glb := by unfold Die.entryEnd; split <;> rfl
@[simp] theorem Die.entryEnd_kvp : d.entryEnd.kvp = d.kvp := by unfold Die.entryEnd; split <;> rfl
@[simp] theorem Die.entryEnd_fab : d.entryEnd.fab = d.fab := by unfold Die.entryEnd; split <;> rfl

theorem Die.thermalTrip_pwr : (d.thermalTrip sensor t).pwr = { d.pwr with tripped := true, changing := none, entry := none } := by
  simp [Die.thermalTrip, Die.entryEnd_pwr, Die.fabOff, Die.xfrOff]

theorem Die.thermalTrip_glb : (d.thermalTrip sensor t).glb = { d.glb with service := 3 } := by
  simp [Die.thermalTrip, Die.fabOff, Die.xfrOff]

theorem Die.thermalTrip_selfRef : (d.thermalTrip sensor t).hbm.selfRef = true := by
  simp [Die.thermalTrip]

theorem Die.thermalTrip_queue : (d.thermalTrip sensor t).kvp.queue = [] := by
  simp [Die.thermalTrip, Die.fabOff, Die.xfrOff]

theorem Die.fabOff_tport (p : Nat) : (d.fabOff.tport p).state = .disabled := by
  unfold Die.tport Die.fabOff
  dsimp only
  refine Tab.read_mapVal_all (P := fun x : FabPort => x.state = .disabled) (dflt := {}) rfl (fun x => ?_) d.fab.ports p
  rfl

theorem Die.thermalTrip_fab :
    (d.thermalTrip sensor t).fab = ((d.record 72 0x10 none sensor (wrapNat 32 t) 0 0).abortAll 0x10).tellAborts.xfrOff.fabOff.fab := by
  simp only [Die.thermalTrip, Die.nwtSync_fab, Die.entryEnd_fab]

theorem Die.tport_congr {e : Die} (h : e.fab = d.fab) (p : Nat) : e.tport p = d.tport p := by
  unfold Die.tport
  rw [h]

theorem Die.thermalTrip_tport (p : Nat) : ((d.thermalTrip sensor t).tport p).state = .disabled :=
  (congrArg FabPort.state (Die.tport_congr _ (d.thermalTrip_fab sensor t) p)).trans (Die.fabOff_tport _ p)
end

end Sys2Proof.Machine
end

section
/-! THERMAL_SAMPLE (R547, R548). -/

namespace Sys2Proof.Machine

/-- How the floor and its marks of time move from `p` to `q` at a highest reading `t` (R547). -/
def Pwr.FloorMoves (p : Pwr) (t : Int) (now : Nat) (q : Pwr) : Prop :=
  (100 ≤ t → q.coolSince = none ∧
    (p.hotSince = none → q.hotSince = some now ∧ (p.floor.toNat < 5 → p.FloorUp q) ∧ (5 ≤ p.floor.toNat → p.FloorStays q)) ∧
    (∀ h, p.hotSince = some h → (now < h + 38400 → q.hotSince = some h ∧ p.FloorStays q) ∧
      (h + 38400 ≤ now → q.hotSince = some (h + 38400) ∧ (p.floor.toNat < 5 → p.FloorUp q) ∧ (5 ≤ p.floor.toNat → p.FloorStays q)))) ∧
  (95 ≤ t → t < 100 → q.hotSince = none ∧ q.coolSince = none ∧ p.FloorStays q) ∧
  (t < 95 → q.hotSince = none ∧ (p.coolSince = none → q.coolSince = some now ∧ p.FloorStays q) ∧
    (∀ c, p.coolSince = some c → (now < c + 384000 → q.coolSince = some c ∧ p.FloorStays q) ∧
      (c + 384000 ≤ now → q.coolSince = some (c + 384000) ∧ (0 < p.floor.toNat → p.FloorDown q) ∧ (p.floor = 0 → p.FloorStays q))))

theorem Pwr.thermal_moves (p : Pwr) (t : Int) (now : Nat) : p.FloorMoves t now (p.thermal t now) :=
  ⟨p.thermal_hot, p.thermal_warm, p.thermal_cool⟩

theorem Pwr.FloorMoves.congr {p q r : Pwr} {t : Int} {now : Nat} (h : p.FloorMoves t now q) (hf : r.floor = q.floor)
    (ht : r.throttles = q.throttles) (hh : r.hotSince = q.hotSince) (hc : r.coolSince = q.coolSince) : p.FloorMoves t now r := by
  unfold Pwr.FloorMoves Pwr.FloorUp Pwr.FloorDown Pwr.FloorStays at h ⊢
  rw [hf, ht, hh, hc]
  exact h

section
variable {d : Die} {temps : List Int} {t : Int}

/-- The die after a reading: its highest value and the floor that follows from it. -/
def Die.sampled (d : Die) (t : Int) (n : Nat) : Die :=
  { d with pwr := { d.pwr.thermal t d.time.aon.toNat with temp := t, sensor := BitVec.ofNat 4 n } }

/-- A reading of the sensors: the hottest, the trip at 110, and the level that follows. -/
theorem Die.thermalSample_eq (d : Die) (ht : t ∈ temps) (top : ∀ u ∈ temps, u ≤ t) : ∃ n, Hottest temps (t, n) ∧
    d.thermalSample temps =
      Die.levelCheck (if 110 ≤ t ∧ (d.sampled t n).pwr.tripped = false then (d.sampled t n).thermalTrip n t else d.sampled t n) := by
  cases temps with
  | nil => cases ht
  | cons t₀ r =>
    have hot := hottest_cons t₀ r
    generalize hb : hottest r 1 (t₀, 0) = b at hot
    obtain ⟨t', n⟩ := b
    obtain rfl : t' = t := hot.eq ht top
    refine ⟨n, hot, ?_⟩
    unfold Die.thermalSample
    dsimp only
    rw [hb]
    rfl

/-- Below 110 a reading moves the floor, and the level after it, only. -/
theorem Die.thermalSample_below (d : Die) (ht : t ∈ temps) (top : ∀ u ∈ temps, u ≤ t) (h : ¬ (110 ≤ t ∧ d.pwr.tripped = false)) :
    ∃ n, Hottest temps (t, n) ∧ Die.LevelOf (d.sampled t n) (d.thermalSample temps) := by
  obtain ⟨n, hn, he⟩ := d.thermalSample_eq ht top
  have kept : (d.sampled t n).pwr.tripped = d.pwr.tripped := Pwr.thermal_tripped _ _ _
  rw [kept, if_neg h] at he
  exact ⟨n, hn, he ▸ Die.levelCheck_levelOf _⟩

/-- At 110 or more a die that has not tripped trips. -/
theorem Die.thermalSample_trips (d : Die) (ht : t ∈ temps) (top : ∀ u ∈ temps, u ≤ t) (h : 110 ≤ t ∧ d.pwr.tripped = false) :
    ∃ n, Hottest temps (t, n) ∧ Die.LevelOf ((d.sampled t n).thermalTrip n t) (d.thermalSample temps) := by
  obtain ⟨n, hn, he⟩ := d.thermalSample_eq ht top
  have kept : (d.sampled t n).pwr.tripped = d.pwr.tripped := Pwr.thermal_tripped _ _ _
  rw [kept, if_pos h] at he
  exact ⟨n, hn, he ▸ Die.levelCheck_levelOf _⟩

/-- What a reading says of the sensors and the floor, tripped or not. -/
theorem Die.thermalSample_reading (d : Die) (ht : t ∈ temps) (top : ∀ u ∈ temps, u ≤ t) :
    (d.thermalSample temps).pwr.temp = t ∧
    (temps.findIdx? (fun u => decide (u = t)) = some (d.thermalSample temps).pwr.sensor.toNat ∨ 16 < temps.length) ∧
    d.pwr.FloorMoves t d.time.aon.toNat (d.thermalSample temps).pwr := by
  have moves := d.pwr.thermal_moves t d.time.aon.toNat
  by_cases h : 110 ≤ t ∧ d.pwr.tripped = false
  · obtain ⟨n, hn, c, g, k, v, o, he⟩ := d.thermalSample_trips ht top h
    rw [he]
    dsimp only
    rw [Die.thermalTrip_pwr]
    exact ⟨rfl, hn.sensor, moves.congr rfl rfl rfl rfl⟩
  · obtain ⟨n, hn, c, g, k, v, o, he⟩ := d.thermalSample_below ht top h
    rw [he]
    exact ⟨rfl, hn.sensor, moves.congr rfl rfl rfl rfl⟩

theorem Die.thermalSample_tripped (d : Die) (ht : t ∈ temps) (top : ∀ u ∈ temps, u ≤ t) (hot : 110 ≤ t) (h : d.pwr.tripped = false) :
    let e := d.thermalSample temps
    e.pwr.tripped = true ∧ e.glb.service = 3 ∧ e.hbm.selfRef = true ∧ e.st = d.st ∧ e.pwr.entry = none ∧ e.fabPowered = false ∧
      (∀ p, (e.tport p).state = .disabled) ∧ e.kvp.queue = [] := by
  obtain ⟨n, -, level⟩ := d.thermalSample_trips ht top ⟨hot, h⟩
  have off := (d.sampled t n).thermalTrip_tport n t
  have queue := (d.sampled t n).thermalTrip_queue n t
  have self := (d.sampled t n).thermalTrip_selfRef n t
  have glb := (d.sampled t n).thermalTrip_glb n t
  have pwr := (d.sampled t n).thermalTrip_pwr n t
  have st : ((d.sampled t n).thermalTrip n t).st = d.st := Die.thermalTrip_st _ n t
  intro e
  generalize (d.sampled t n).thermalTrip n t = x at *
  obtain ⟨c, g, k, v, o, he⟩ := level
  have tripped : e.pwr.tripped = true := by rw [show e = _ from he]; dsimp only; rw [pwr]
  refine ⟨tripped, ?_, ?_, ?_, ?_, ?_, fun p => ?_, ?_⟩
  · rw [show e = _ from he]; dsimp only; rw [glb]
  · rw [show e = _ from he]; exact self
  · rw [show e = _ from he]; exact st
  · rw [show e = _ from he]; dsimp only; rw [pwr]
  · rw [Die.fabPowered, tripped, Bool.not_true, Bool.and_false]
  · rw [show e = _ from he]; exact off p
  · rw [show e = _ from he]; exact queue

theorem Die.thermalSample_cooler (d : Die) (ht : t ∈ temps) (top : ∀ u ∈ temps, u ≤ t) (h : t < 110) :
    let e := d.thermalSample temps
    e.pwr.tripped = d.pwr.tripped ∧ e.glb = d.glb ∧ e.st = d.st ∧ e.iss = d.iss := by
  obtain ⟨n, -, c, g, k, v, o, he⟩ := d.thermalSample_below ht top fun b => by omega
  dsimp only
  rw [he]
  exact ⟨Pwr.thermal_tripped _ _ _, rfl, rfl, rfl⟩
end

end Sys2Proof.Machine
end

section
/-! Entry into sleep, and the wake sources (R551 to R556, R560, R561). -/

namespace Sys2Proof.Machine

section
variable {d : Die} {t : Sleep}

/-! ### The window (R554, R555) -/

theorem Die.windowClose_due (he : d.pwr.entry = some (t, false)) (h : d.pwr.seqStart + 12 ≤ d.time.aon.toNat) :
    d.windowClose =
      (let e : Die := { d with pwr := { d.pwr with entry := some (t, true) } }
       if t.deep then (forUpto 16 (fun m d => d.streamSleep m) e).nwtSync else e) := by
  unfold Die.windowClose
  rw [he]
  exact if_pos h

theorem Die.streamSleep_disabled {m : Nat} (h : (d.stream m).enabled = false) : d.streamSleep m = d :=
  if_neg (by rw [h]; exact Bool.false_ne_true)

/-- With no stream enabled, and the source of R410 as it should be, nothing stops. -/
theorem Die.streamsSleep_quiet (hs : ∀ m, (d.stream m).enabled = false) (hb : d.nwtSideband = d.nwt.sideband) :
    (forUpto 16 (fun m d => d.streamSleep m) d).nwtSync = d := by
  rw [forUpto_fixed (f := fun m (d : Die) => d.streamSleep m) fun m => Die.streamSleep_disabled (hs m), Die.nwtSync_same hb]

theorem Die.windowClose_quiet (he : d.pwr.entry = some (t, false)) (h : d.pwr.seqStart + 12 ≤ d.time.aon.toNat)
    (hs : ∀ m, (d.stream m).enabled = false) (hb : d.nwtSideband = d.nwt.sideband) :
    d.windowClose = { d with pwr := { d.pwr with entry := some (t, true) } } := by
  have quiet := Die.streamsSleep_quiet (d := { d with pwr := { d.pwr with entry := some (t, true) } }) hs hb
  rw [Die.windowClose_due he h]
  dsimp only
  rw [quiet, ite_self]

/-! ### The steps of an entry (R554) -/

/-- The die in the state of an entry, but for the source of Nightwatch's frames. -/
def Die.reached (d : Die) (t : Sleep) : Die :=
  { d with
    pwr := { d.pwr.countEntry t with state := t, entry := none },
    time := if t = .midnight then { d.time with valid := false } else d.time,
    out := .dieState t false (decide (t = .dusk)) :: d.out }

/-- The state of an entry whose window has closed is reached at its cycle: the steps that have come due, then the state. -/
theorem Die.stateReached_due (he : d.pwr.entry = some (t, true)) (h : d.pwr.seqStart + entryCycles t ≤ d.time.aon.toNat) :
    d.stateReached = (d.seqRun.reached t).nwtSync := by
  unfold Die.stateReached
  rw [he]
  refine (if_pos h).trans (congrArg Die.nwtSync ?_)
  unfold Die.reached
  dsimp only
  split <;> rfl

theorem Die.seqRun_entry (he : d.pwr.entry = some (t, true)) : d.seqRun =
    (let e := ((entrySteps t).filter fun c => decide (d.pwr.seqDone < c ∧ c ≤ d.seqAt)).foldl (fun (d : Die) c => d.entryStep t c) d
     { e with pwr := { e.pwr with seqDone := max d.pwr.seqDone d.seqAt } }) := by
  unfold Die.seqRun
  rw [he]
  rfl

/-- Where no step of the entry is due, it only marks the cycle that it has come to. -/
theorem Die.seqRun_entry_done (he : d.pwr.entry = some (t, true)) (h : ∀ c ∈ entrySteps t, c ≤ d.pwr.seqDone) :
    d.seqRun = { d with pwr := { d.pwr with seqDone := max d.pwr.seqDone d.seqAt } } := by
  have none_due : ((entrySteps t).filter fun c => decide (d.pwr.seqDone < c ∧ c ≤ d.seqAt)) = [] :=
    List.filter_eq_nil_iff.2 fun c hc => by
      have := h c hc
      rw [decide_eq_true_eq]
      omega
  rw [Die.seqRun_entry he, none_due]
  rfl

/-- An entry whose steps are all due takes them all. -/
theorem Die.seqRun_entry_all (he : d.pwr.entry = some (t, true)) (h : ∀ c ∈ entrySteps t, d.pwr.seqDone < c ∧ c ≤ d.seqAt) :
    d.seqRun =
      (let e := (entrySteps t).foldl (fun (d : Die) c => d.entryStep t c) d
       { e with pwr := { e.pwr with seqDone := max d.pwr.seqDone d.seqAt } }) := by
  have all_due : ((entrySteps t).filter fun c => decide (d.pwr.seqDone < c ∧ c ≤ d.seqAt)) = entrySteps t :=
    List.filter_eq_self.2 fun c hc => decide_eq_true (h c hc)
  rw [Die.seqRun_entry he, all_due]

/-- The die with engines, AUX, ING, FAB and FLD off and the stacks in self-refresh. -/
def Die.deepOff (d : Die) (t : Sleep) : Die := ((d.enginesOff t).refreshSelf true).storesOff

theorem Die.entrySteps_night (d : Die) : (entrySteps .night).foldl (fun (d : Die) c => d.entryStep .night c) d = d.deepOff .night := rfl

theorem Die.entrySteps_midnight (d : Die) :
    (entrySteps .midnight).foldl (fun (d : Die) c => d.entryStep .midnight c) d = (d.deepOff .midnight).vcore false := rfl

theorem Die.vcore_only (d : Die) (high : Bool) : ∃ o, d.vcore high = { d with pwr := { d.pwr with vcoreEn := some high }, out := o } := by
  unfold Die.vcore
  split
  · next h => exact ⟨d.out, by rw [← h]⟩
  · exact ⟨_, rfl⟩

/-- On the way to Night or Midnight the domains go off; VCORE_EN falls on the way to Midnight. -/
theorem Die.seqRun_deep (ht : t = .night ∨ t = .midnight) (he : d.pwr.entry = some (t, true)) (h : d.pwr.seqDone < 16)
    (hn : entryCycles t ≤ d.seqAt) : ∃ n v o, d.seqRun = { d.deepOff t with
      pwr := { (d.deepOff t).pwr with seqDone := n, vcoreEn := v }, out := o } ∧ (t = .midnight → v = some false) := by
  rcases ht with rfl | rfl
  · have due : ∀ c ∈ entrySteps .night, d.pwr.seqDone < c ∧ c ≤ d.seqAt := by
      simp only [entrySteps, List.mem_cons, List.not_mem_nil, or_false, entryCycles] at hn ⊢
      rintro c (rfl | rfl | rfl) <;> omega
    rw [Die.seqRun_entry_all he due, Die.entrySteps_night]
    exact ⟨_, _, _, rfl, fun h => by cases h⟩
  · have due : ∀ c ∈ entrySteps .midnight, d.pwr.seqDone < c ∧ c ≤ d.seqAt := by
      simp only [entrySteps, List.mem_cons, List.not_mem_nil, or_false, entryCycles] at hn ⊢
      rintro c (rfl | rfl | rfl | rfl) <;> omega
    obtain ⟨o, ho⟩ := (d.deepOff .midnight).vcore_only false
    rw [Die.seqRun_entry_all he due, Die.entrySteps_midnight, ho]
    exact ⟨_, _, _, rfl, fun _ => rfl⟩

/-- Only the retained banks of a working store keep their bytes. -/
theorem Die.deepOff_ws0 (d : Die) (t : Sleep) (w : Memory.wf d.st.ws0 = true) (a : Nat) :
    Tab.read 0 (d.deepOff t).st.ws0 a =
      if (d.selectedBanks.take (retainMax t)).contains (bankOfByte 0 a) = true then Tab.read 0 d.st.ws0 a else 0 :=
  Tab.read_filter_key (fun a => (d.selectedBanks.take (retainMax t)).contains (bankOfByte 0 a)) a w
end

end Sys2Proof.Machine
end

section
/-! The exit from sleep (R556, R557, R559), and the messages that wait for it. -/

namespace Sys2Proof.Machine

/-! ### The steps of an exit (R559) -/

/-- Self-refresh ends where `l` holds its step of an exit from `s`. -/
def Sleep.refreshAt (s : Sleep) (l : List Nat) (h : Hbm) : Hbm :=
  if s.deep = true ∧ refreshBack s ∈ l then { h with selfRef := false } else h

/-- The reference runs again where `l` holds its step of an exit from `s`. -/
def Sleep.referenceAt (s : Sleep) (l : List Nat) (t : Time) : Time :=
  if s = .midnight ∧ refBack ∈ l then { t with refRunning := true } else t

/-- The die after the steps `l` of an exit, but for the level. -/
def Die.exited (d : Die) (l : List Nat) : Die :=
  { d with hbm := d.pwr.state.refreshAt l d.hbm, time := d.pwr.state.referenceAt l d.time }

theorem Sleep.refreshAt_cons (s : Sleep) (n : Nat) (l : List Nat) (h : Hbm) :
    s.refreshAt l (s.refreshAt [n] h) = s.refreshAt (n :: l) h := by
  unfold Sleep.refreshAt
  by_cases hd : s.deep = true <;> by_cases hn : refreshBack s = n <;> simp [hd, hn]

theorem Sleep.referenceAt_cons (s : Sleep) (n : Nat) (l : List Nat) (t : Time) :
    s.referenceAt l (s.referenceAt [n] t) = s.referenceAt (n :: l) t := by
  unfold Sleep.referenceAt
  by_cases hs : s = .midnight <;> by_cases hn : refBack = n <;> simp [hs, hn]

section
variable {d e : Die}

theorem Die.exited_nil (d : Die) : d.exited [] = d := by
  simp [Die.exited, Sleep.refreshAt, Sleep.referenceAt]

/-- The steps of an exit do not depend on the level. -/
theorem Die.LevelOf.exited (h : Die.LevelOf d e) (l : List Nat) : Die.LevelOf (d.exited l) (e.exited l) := by
  obtain ⟨_, _, _, _, _, rfl⟩ := h
  exact ⟨_, _, _, _, _, rfl⟩

theorem Die.exited_cons (d : Die) (n : Nat) (l : List Nat) : (d.exited [n]).exited l = d.exited (n :: l) := by
  show { d with hbm := _, time := _ } = ({ d with hbm := _, time := _ } : Die)
  rw [← Sleep.refreshAt_cons, ← Sleep.referenceAt_cons]
  rfl

/-- What the step at cycle n does to the stacks. -/
def Die.refreshStep (d : Die) (n : Nat) : Die :=
  if d.pwr.state.deep && decide (n = refreshBack d.pwr.state) then d.refreshSelf false else d

/-- What the step at cycle n does to the reference clock. -/
def Die.referenceStep (d : Die) (n : Nat) : Die :=
  if d.pwr.state = .midnight ∧ n = refBack then { d with time := { d.time with refRunning := true } } else d

theorem Die.exitStep_eq (d : Die) (n : Nat) :
    d.exitStep n = (let e := (d.refreshStep n).referenceStep n; if n = aclkBack e.pwr.state then e.levelBack else e) := rfl

theorem Die.refreshStep_eq (d : Die) (n : Nat) : d.refreshStep n = { d with hbm := d.pwr.state.refreshAt [n] d.hbm } := by
  unfold Die.refreshStep Sleep.refreshAt
  simp only [List.mem_singleton, Bool.and_eq_true, decide_eq_true_eq, eq_comm (a := n)]
  split <;> rfl

theorem Die.referenceStep_eq (d : Die) (n : Nat) : d.referenceStep n = { d with time := d.pwr.state.referenceAt [n] d.time } := by
  unfold Die.referenceStep Sleep.referenceAt
  simp only [List.mem_singleton, eq_comm (a := n)]
  split <;> rfl

theorem Die.exitStep_before (d : Die) (n : Nat) : (d.refreshStep n).referenceStep n = d.exited [n] := by
  rw [Die.referenceStep_eq, Die.refreshStep_eq]
  rfl

theorem Die.exitStep_levelOf (d : Die) (n : Nat) : Die.LevelOf (d.exited [n]) (d.exitStep n) := by
  rw [Die.exitStep_eq, Die.exitStep_before]
  exact .ite (Die.levelBack_levelOf _) (.refl _)

/-- The steps of an exit end self-refresh, start the reference and set the level: nothing else. -/
theorem Die.exitSteps_levelOf : ∀ (l : List Nat) (d : Die), Die.LevelOf (d.exited l) (l.foldl Die.exitStep d)
  | [], d => by rw [Die.exited_nil]; exact .refl d
  | n :: l, d => by
    have first := (d.exitStep_levelOf n).exited l
    rw [Die.exited_cons] at first
    exact first.trans (Die.exitSteps_levelOf l _)

/-- The steps of the exit in progress that have come due. -/
def Die.exitsDue (d : Die) : List Nat := (exitSteps d.pwr.state).filter fun c => decide (d.pwr.seqDone < c ∧ c ≤ d.seqAt)

theorem Die.seqRun_exit (he : d.pwr.entry = none) (hx : d.pwr.exiting = true) (ht : d.pwr.tripped = false) :
    ∃ n e, Die.LevelOf (d.exited d.exitsDue) e ∧ d.seqRun = { e with pwr := { e.pwr with seqDone := n } } := by
  refine ⟨max d.pwr.seqDone d.seqAt, d.exitsDue.foldl Die.exitStep d, Die.exitSteps_levelOf _ d, ?_⟩
  unfold Die.seqRun
  simp only [he, hx, ht, Bool.not_false, Bool.and_self, if_true, Bool.not_true, Bool.false_eq_true, if_false]
  rfl

/-! ### The die wakes (R559, R476) -/

/-- The active state, with the ports whose wake was held in training. -/
def Die.activated (d : Die) : Die :=
  { d with
    pwr := { d.pwr with state := .active, exiting := false, hostWake := false },
    fab := { d.fab with ports := Tab.mapVal {} FabPort.wakeUp d.fab.ports } }

theorem Die.wakeUp_eq (d : Die) : d.wakeUp = ((d.seqRun.activated.dieState .active false true).nwtSync).levelBack.levelCheck := rfl

/-- A die that has woken, up to the level: the steps of its exit, the active state, and Nightwatch's source. -/
def Die.woken (d : Die) (n : Nat) (w : Nwt) : Die :=
  let e := (d.exited d.exitsDue).activated
  { e with pwr := { e.pwr with seqDone := n }, nwt := w }

theorem Die.wakeUp_levelOf (he : d.pwr.entry = none) (hx : d.pwr.exiting = true) (ht : d.pwr.tripped = false) :
    ∃ n w, Die.LevelOf (d.woken n w) d.wakeUp := by
  obtain ⟨n, x, ⟨c, g, k, v, o, rfl⟩, hs⟩ := Die.seqRun_exit he hx ht
  have synced := (d.seqRun.activated.dieState .active false true).nwtSync_only
  generalize (d.seqRun.activated.dieState .active false true).nwtSync.nwt = w at synced
  rw [hs] at synced
  refine ⟨n, w, ?_⟩
  rw [Die.wakeUp_eq, hs]
  exact .trans ⟨c, g, k, v, _, synced⟩ ((Die.levelBack_levelOf _).trans (Die.levelCheck_levelOf _))
end

end Sys2Proof.Machine
end

section
/-! The messages that waited for the end of an exit, and the reset that did (R556, R559, R583). -/

namespace Sys2Proof.Machine

/-- The die is active with no entry under way, and no reset waits for the end of a sleep. -/
def Pwr.Active (p : Pwr) : Prop := p.state = .active ∧ p.entry = none ∧ p.heldReset = false ∧ p.heldWarm = false

section
variable {d e : Die}

/-! ### Register messages leave an active die active -/

theorem Die.ite_active {c : Prop} [Decidable c] {x y : Die} (hx : x.pwr.Active) (hy : y.pwr.Active) : (if c then x else y).pwr.Active := by
  split
  · exact hx
  · exact hy

theorem Die.LevelOf.active (h : Die.LevelOf d e) (ha : d.pwr.Active) : e.pwr.Active := by
  obtain ⟨_, _, _, _, _, rfl⟩ := h
  exact ha

theorem Die.warmStart_pwr (d : Die) : d.warmStart.pwr = { d.pwr with heldWarm := false } := by
  simp [Die.warmStart]

/-- A warm reset that an active die is asked for is not held. -/
theorem Die.warmRequest_active (h : d.pwr.Active) : d.warmRequest.pwr.Active := by
  obtain ⟨hs, he, hr, hw⟩ := h
  unfold Die.warmRequest
  split
  · exact ⟨hs, he, hr, hw⟩
  · rw [if_pos ⟨hs, he⟩, Die.warmStart_pwr]
    exact ⟨hs, he, hr, rfl⟩

theorem Die.resetCtrlWrite_active (h : d.pwr.Active) (v : W32) : (d.resetCtrlWrite v).pwr.Active := by
  have engines (c c' : Prop) [Decidable c] [Decidable c'] :
      (let e := if c then d.engineReset 0 else d; if c' then e.engineReset 1 else e).pwr.Active := by
    refine Die.ite_active ?_ ?_
    · rw [Die.engineReset_pwr]
      exact Die.ite_active (by rw [Die.engineReset_pwr]; exact h) h
    · exact Die.ite_active (by rw [Die.engineReset_pwr]; exact h) h
  unfold Die.resetCtrlWrite
  exact Die.ite_active h (Die.ite_active (Die.warmRequest_active h) (Die.ite_active h (engines _ _)))

theorem Die.wrSec_active (h : d.pwr.Active) (fn o : Nat) (v : W32) : (d.wrSec fn o v).pwr.Active := by
  unfold Die.wrSec
  dsimp only
  repeat' split
  all_goals simp [h, Die.resetCtrlWrite_active]

/-- PWR's writable registers name no state, no entry and no reset. -/
theorem Die.wrPwr_active (h : d.pwr.Active) (o : Nat) (v : W32) : (d.wrPwr o v).pwr.Active := by
  have level : (d.plevelWrite v).pwr.Active := (Die.levelCheck_levelOf _).active h
  unfold Die.wrPwr
  exact Die.ite_active h <| Die.ite_active h <| Die.ite_active h <| Die.ite_active level <| Die.ite_active h <| Die.ite_active h <|
    Die.ite_active h <| Die.ite_active h <| Die.ite_active (Die.ite_active h h) <| Die.ite_active h <| Die.ite_active h <|
    Die.ite_active h <| Die.ite_active h <| Die.ite_active h <| Die.ite_active h h

theorem Die.wrRegion_active (h : d.pwr.Active) (fn off : Nat) (v : W32) : (d.wrRegion fn off v).pwr.Active := by
  have settled : (d.settled off).pwr.Active := by rw [Die.settled_pwr]; exact h
  have same {e : Die} (he : e.pwr = (d.settled off).pwr) : e.pwr.Active := he ▸ settled
  unfold Die.wrRegion
  exact Die.ite_active (same (Die.wrCtx_pwr _ _ _ _)) <| Die.ite_active (same (Die.wrXfr_pwr _ _ _)) <| Die.ite_active settled <|
    Die.ite_active (Die.ite_active settled settled) <| Die.ite_active (same (Die.wrAux_pwr _ _ _)) <|
    Die.ite_active (same (Die.wrPst_pwr _ _ _)) <| Die.ite_active (same (Die.wrKvp_pwr _ _ _ _)) <|
    Die.ite_active (same (Die.wrIng_pwr _ _ _)) <| Die.ite_active (same (Die.wrFld_pwr _ _ _)) <|
    Die.ite_active (same (Die.wrNwt_pwr _ _ _)) <| Die.ite_active (same (Die.wrFab_pwr _ _ _)) <|
    Die.ite_active (Die.wrSec_active settled _ _ _) <| Die.ite_active (Die.wrPwr_active settled _ _) <|
    Die.ite_active (same (Die.wrErr_pwr _ _ _)) settled

theorem Die.regWrite_active (h : d.pwr.Active) (fn off : Nat) (v : W32) : (d.regWrite fn off v).pwr.Active := by
  unfold Die.regWrite
  repeat' split
  all_goals simp [h, Die.wrRegion_active]

/-! ### Memory messages -/

theorem Die.memMsg_pwr {m : HostMsg} {fn addr len : Nat} {res : Access} {write : Bool} {fail : Die → Die} {ok : Die → Nat → Die}
    (hf : ∀ e, (fail e).pwr = e.pwr) (ho : ∀ e p, (ok e p).pwr = e.pwr) : (d.memMsg m fn addr len res write fail ok).pwr = d.pwr := by
  unfold Die.memMsg
  dsimp only
  repeat' split
  all_goals simp [hf, ho]

theorem Die.memRdMsg_pwr (d : Die) (fn : Nat) (tag : BitVec 16) (addr len : Nat) (res : Access) :
    (d.memRdMsg fn tag addr len res).pwr = d.pwr := Die.memMsg_pwr (fun _ => rfl) fun _ _ => rfl

theorem Die.memWrMsg_pwr (d : Die) (fn addr : Nat) (data : List Byte) (res : Access) : (d.memWrMsg fn addr data res).pwr = d.pwr :=
  Die.memMsg_pwr (fun _ => rfl) fun _ _ => rfl

theorem Die.message_active (h : d.pwr.Active) (m : HostMsg) : (d.message m).pwr.Active := by
  cases m with
  | rd fn tag off bytes => exact (Die.rdMsg_pwr d fn tag off bytes).symm ▸ h
  | wr fn off bytes v => exact Die.ite_active (Die.regWrite_active h _ _ _) h
  | memRd fn tag addr len res => exact (Die.memRdMsg_pwr d fn tag addr len res).symm ▸ h
  | memWr fn addr data res => exact (Die.memWrMsg_pwr d fn addr data res).symm ▸ h
  | reserved kind => exact (Die.reservedMsg_pwr d kind).symm ▸ h

theorem Die.messages_active (h : d.pwr.Active) (ms : List HostMsg) : (d.messages ms).pwr.Active :=
  foldl_pred (P := fun e : Die => e.pwr.Active) h fun e m _ he =>
    Die.ite_active (x := { e with ctx := { e.ctx with held := e.ctx.held ++ [m] } }) he (Die.message_active he m)

/-- Where no reset is held, none follows the messages. -/
theorem Die.heldReset_active (h : d.pwr.Active) : d.heldReset = d := by
  obtain ⟨-, -, hr, hw⟩ := h
  unfold Die.heldReset
  rw [hr, hw]
  rfl

end

end Sys2Proof.Machine
end

section
/-! SLEEP_EXIT_DONE (R476, R556, R559, R583). -/

namespace Sys2Proof.Machine

section
variable {d e : Die}

/-- `e` is a die at the end of its exit, before the messages that waited. -/
def Die.Awoken (d e : Die) : Prop :=
  ∃ n w, Die.LevelOf { d.woken n w with pwr := { (d.woken n w).pwr with held := [] } } e

/-- An exit that is complete: the die wakes, the messages that waited take effect, and so does a reset. -/
theorem Die.exitEnd_due (he : d.pwr.entry = none) (hx : d.pwr.exiting = true) (ht : d.pwr.tripped = false)
    (h : d.pwr.seqStart + exitCycles d.pwr.state ≤ d.time.aon.toNat) :
    ∃ e, Die.Awoken d e ∧ d.exitEnd = (e.messages d.pwr.held).heldReset := by
  have due : d.exitEndDue = true := by simp [Die.exitEndDue, hx, ht, h]
  obtain ⟨n, w, c, g, k, v, o, hw⟩ := Die.wakeUp_levelOf he hx ht
  refine ⟨_, ⟨n, w, c, g, k, v, o, rfl⟩, ?_⟩
  unfold Die.exitEnd
  rw [due, hw]
  rfl

theorem Die.exitEnd_early (h : d.exitEndDue = false) : d.exitEnd = d := if_neg (by rw [h]; exact Bool.false_ne_true)

theorem Die.exitEndDue_false (h : ¬ (d.pwr.exiting = true ∧ d.pwr.entry = none ∧ d.pwr.tripped = false ∧
    d.pwr.seqStart + exitCycles d.pwr.state ≤ d.time.aon.toNat)) (he : d.pwr.entry = none) : d.exitEndDue = false := by
  simpa [Die.exitEndDue, he] using h

theorem Die.Awoken.active (h : Die.Awoken d e) (he : d.pwr.entry = none) (hr : d.pwr.heldReset = false) (hw : d.pwr.heldWarm = false) :
    e.pwr.Active := by
  obtain ⟨n, w, level⟩ := h
  exact level.active ⟨rfl, he, hr, hw⟩

/-- The power block of a die that has woken: its state, and the resets that it held. -/
theorem Die.Awoken.pwr (h : Die.Awoken d e) : e.pwr.state = .active ∧ e.pwr.exiting = false ∧ e.pwr.hostWake = false ∧ e.pwr.held = [] ∧
    e.pwr.entry = d.pwr.entry ∧ e.pwr.tripped = d.pwr.tripped ∧ e.pwr.heldReset = d.pwr.heldReset ∧ e.pwr.heldWarm = d.pwr.heldWarm := by
  obtain ⟨n, w, c, g, k, v, o, rfl⟩ := h
  exact ⟨rfl, rfl, rfl, rfl, rfl, rfl, rfl, rfl⟩

theorem Die.Awoken.kept (h : Die.Awoken d e) :
    e.st = d.st ∧ e.ctx = d.ctx ∧ e.iss = d.iss ∧ e.sec = d.sec ∧ e.kvp = d.kvp ∧ e.boot = d.boot := by
  obtain ⟨n, w, c, g, k, v, o, rfl⟩ := h
  exact ⟨rfl, rfl, rfl, rfl, rfl, rfl⟩

/-- The steps of an exit whose time has passed are all due, when none has been taken. -/
theorem Die.mem_exitsDue {c : Nat} (hc : c ∈ exitSteps d.pwr.state) (pos : 0 < c) (last : c ≤ exitCycles d.pwr.state)
    (h : d.pwr.seqStart + exitCycles d.pwr.state ≤ d.time.aon.toNat) (h0 : d.pwr.seqDone = 0) : c ∈ d.exitsDue :=
  List.mem_filter.2 ⟨hc, decide_eq_true ⟨by omega, by unfold Die.seqAt; omega⟩⟩

theorem Die.Awoken.hbm (h : Die.Awoken d e) : e.hbm = d.pwr.state.refreshAt d.exitsDue d.hbm := by
  obtain ⟨n, w, c, g, k, v, o, rfl⟩ := h
  rfl

theorem Die.Awoken.time (h : Die.Awoken d e) : e.time = d.pwr.state.referenceAt d.exitsDue d.time := by
  obtain ⟨n, w, c, g, k, v, o, rfl⟩ := h
  rfl

theorem Die.Awoken.hbm_dusk (h : Die.Awoken d e) (hs : d.pwr.state = .dusk) : e.hbm = d.hbm := by
  rw [h.hbm, hs]
  exact if_neg fun b => by cases b.1

/-- The stacks have left self-refresh at the end of an exit from Night or Midnight. -/
theorem Die.Awoken.hbm_deep (h : Die.Awoken d e) (hs : d.pwr.state = .night ∨ d.pwr.state = .midnight) (h0 : d.pwr.seqDone = 0)
    (hd : d.pwr.seqStart + exitCycles d.pwr.state ≤ d.time.aon.toNat) : e.hbm = { d.hbm with selfRef := false } := by
  have due : refreshBack d.pwr.state ∈ d.exitsDue := by
    refine Die.mem_exitsDue ?_ ?_ ?_ hd h0
    all_goals rcases hs with hs | hs <;> rw [hs] <;> decide
  rw [h.hbm]
  exact if_pos ⟨by rcases hs with hs | hs <;> rw [hs] <;> rfl, due⟩

theorem Die.Awoken.reference (h : Die.Awoken d e) (hs : d.pwr.state = .midnight) (h0 : d.pwr.seqDone = 0)
    (hd : d.pwr.seqStart + exitCycles d.pwr.state ≤ d.time.aon.toNat) : e.time.refRunning = true := by
  have due : refBack ∈ d.exitsDue := by
    refine Die.mem_exitsDue ?_ (by decide) ?_ hd h0
    all_goals rw [hs]; decide
  rw [h.time]
  exact congrArg Time.refRunning (if_pos ⟨hs, due⟩)

theorem Die.Awoken.trains (h : Die.Awoken d e) {p : Nat} (hs : (d.tport p).state = .asleep) (hw : (d.tport p).wakeHeld = true)
    (w : Tab.wf {} d.fab.ports = true) : (e.tport p).state = .training := by
  have woken : e.tport p = (d.tport p).wakeUp := by
    obtain ⟨n, x, c, g, k, v, o, rfl⟩ := h
    exact Tab.read_mapVal FabPort.wakeUp rfl p w
  rw [woken]
  exact congrArg FabPort.state (if_pos ⟨hw, hs⟩)

/-! ### A memory write that waited -/

/-- What bars an access: dead channels, and the keys of the blocks. -/
theorem Die.barred_congr (hd : e.hbm.deadChans = d.hbm.deadChans) (hg : e.hbm.groups = d.hbm.groups) (hf : e.fuses = d.fuses)
    (hl : e.glb = d.glb) (hk : e.kvp = d.kvp) (hc : e.ctx = d.ctx) (hs : e.sec = d.sec) (rs ws : List (Nat × Nat)) :
    e.barred rs ws = d.barred rs ws := by
  have tables : e.inTables = d.inTables := by funext a; unfold Die.inTables; rw [hk]
  have slots : e.slot = d.slot := by funext n; unfold Die.slot; rw [hc]
  have prots : e.prot = d.prot := by funext n; unfold Die.prot; rw [hs]
  have region : e.regionOf = d.regionOf := by funext n a; unfold Die.regionOf Die.poolBase; rw [hk, slots]
  have owner : e.ownerOf = d.ownerOf := by funext a; unfold Die.ownerOf; rw [hk, slots]
  have carve : e.inCarve = d.inCarve := by funext a; unfold Die.inCarve; rw [hs]
  have key : e.blockKey = d.blockKey := by
    funext a
    unfold Die.blockKey
    rw [carve, tables, owner, prots, region, hs]
  have chan : e.channelOf = d.channelOf := by
    funext a
    unfold Die.channelOf Hbm.groupsInUse Die.popSites Die.variant
    rw [hg, hl, hf]
  unfold Die.barred Die.onDead Die.lost
  rw [hd, chan, tables, key]

/-- What an access may reach does not depend on the level, the clocks, the ports or self-refresh. -/
theorem Die.Awoken.barred (h : Die.Awoken d e) (rs ws : List (Nat × Nat)) : e.barred rs ws = d.barred rs ws := by
  have kept : e.hbm.deadChans = d.hbm.deadChans ∧ e.hbm.groups = d.hbm.groups := by
    rw [h.hbm]
    unfold Sleep.refreshAt
    split <;> exact ⟨rfl, rfl⟩
  obtain ⟨dead, groups⟩ := kept
  obtain ⟨n, w, c, g, k, v, o, rfl⟩ := h
  exact Die.barred_congr dead groups rfl rfl rfl rfl rfl rs ws

theorem Die.memWrMsg_free {fn a q : Nat} {v : List Byte} (hq : d.memPhys fn a v.length = some q) (hs : d.scrubbing q v.length = false)
    (hb : d.barred [] [(q, v.length)] = false) :
    d.memWrMsg fn a v .ok = { d with st := { d.st with hbm := Mem.write d.st.hbm q v } } := by
  unfold Die.memWrMsg Die.memMsg
  rw [hq]
  dsimp only
  rw [hs]
  simp only [Bool.false_eq_true, if_false, if_true]
  rw [Die.accessed_free hb]
  rfl

/-- A memory write that waited alone lands as the exit ends. -/
theorem Die.Awoken.memWr (h : Die.Awoken d e) (hc : d.ctx.held = []) {fn a q : Nat} {v : List Byte} (hq : d.memPhys fn a v.length = some q)
    (hs : d.scrubbing q v.length = false) (hb : d.barred [] [(q, v.length)] = false) :
    e.messages [.memWr fn a v .ok] = { e with st := { e.st with hbm := Mem.write d.st.hbm q v } } := by
  obtain ⟨st, ctx, -, sec, kvp, -⟩ := h.kept
  have phys : e.memPhys fn a v.length = some q := by
    rw [← hq]
    unfold Die.memPhys Die.prot Die.slot
    rw [ctx, sec]
  have scrubs : e.scrubbing q v.length = false := by
    rw [← hs]
    unfold Die.scrubbing Die.poolBase
    rw [sec, kvp]
  have alone : e.messages [.memWr fn a v .ok] = e.memWrMsg fn a v .ok := if_neg (by rw [ctx, hc]; exact Bool.false_ne_true)
  rw [alone, Die.memWrMsg_free phys scrubs ((h.barred _ _).trans hb), st]

/-! ### A warm reset that waited -/

theorem Die.heldReset_warm (hr : d.pwr.heldReset = false) (hw : d.pwr.heldWarm = true) (hs : d.pwr.state = .active) (he : d.pwr.entry = none)
    (hb : d.boot.warm = false) (hf : d.boot.full = true) (ht : d.pwr.tripped = false) : d.heldReset = d.warmStart := by
  unfold Die.heldReset Die.warmRequest
  simp [hr, hw, hs, he, hb, hf, ht]

theorem Die.warmStart_facts (d : Die) : d.warmStart.boot.warm = true ∧ d.warmStart.glb.service = 0 ∧ d.warmStart.pwr.heldWarm = false ∧
    d.warmStart.st = { hbm := d.st.hbm } := by
  refine ⟨?_, ?_, ?_, ?_⟩
  · simp [Die.warmStart]
  · simp [Die.warmStart]
  · rw [Die.warmStart_pwr]
  · simp [Die.warmStart]
end

end Sys2Proof.Machine
end

section
/-! O58: levels, votes, sleep and wake. -/

namespace Sys2Proof.Machine

section
variable {s : State} {val : W32}

/-! ### Levels -/

/-- The level that a write of REQ makes wanted. -/
theorem Die.levelWanted_req {d : Die} (hf : d.boot.full = true) (v : W32) :
    Die.levelWanted { d with pwr := { d.pwr with req := v.setWidth 3 } } = max (min 5 (v.toNat % 8)) d.pwr.floor.toNat := by
  refine (Die.levelWanted_full (d := { d with pwr := { d.pwr with req := v.setWidth 3 } }) hf).trans ?_
  dsimp only
  rw [BitVec.toNat_setWidth]

theorem Die.plevelWrite_inForce {d : Die} (hf : d.boot.full = true) (v : W32)
    (h : max (min 5 (v.toNat % 8)) d.pwr.floor.toNat = d.pwr.cur.toNat) :
    d.plevelWrite v = { d with pwr := { d.pwr with req := v.setWidth 3 } } :=
  Die.levelCheck_inForce (h.symm.trans (Die.levelWanted_req hf v).symm)

theorem Die.plevelWrite_starts {d : Die} (ha : d.awake = true) (hc : d.pwr.changing = none) (ht : d.pwr.tripped = false)
    (hr : d.boot.resetN = true) (hf : d.boot.full = true) (v : W32) {l : Nat} (hl : max (min 5 (v.toNat % 8)) d.pwr.floor.toNat = l)
    (hn : d.pwr.cur.toNat ≠ l) :
    d.plevelWrite v =
      (let d' : Die := { d with pwr := { d.pwr with req := v.setWidth 3, changing := some (BitVec.ofNat 3 l), chgTicks := 0 } }
       if l < d.pwr.cur.toNat then d'.vid l else d') := by
  have wanted := (Die.levelWanted_req hf v).trans hl
  have starts := Die.levelCheck_starts (d := { d with pwr := { d.pwr with req := v.setWidth 3 } }) ha hc ht hr hf (by rw [wanted]; exact hn)
  rw [wanted] at starts
  exact starts
end

section
variable {d : Die} {t : Sleep}

/-! ### Sleep states -/

/-- A state reached: the steps that were due, and the state. -/
theorem Die.stateReached_only (he : d.pwr.entry = some (t, true)) (h : d.pwr.seqStart + entryCycles t ≤ d.time.aon.toNat) :
    ∃ w, d.stateReached = { d.seqRun.reached t with nwt := w } :=
  ⟨_, (Die.stateReached_due he h).trans (Die.nwtSync_only _)⟩

/-- Dusk keeps every store: it is reached with no step. -/
theorem Die.stateReached_dusk (he : d.pwr.entry = some (.dusk, true)) (h : d.pwr.seqStart + 16 ≤ d.time.aon.toNat) :
    ∃ w, d.stateReached = { d with
      pwr := { d.pwr with
        state := .dusk, entry := none, entDusk := satInc32 d.pwr.entDusk 1, seqDone := max d.pwr.seqDone (d.time.aon.toNat - d.pwr.seqStart) },
      out := .dieState .dusk false true :: d.out, nwt := w } := by
  obtain ⟨w, e⟩ := Die.stateReached_only he h
  rw [Die.seqRun_entry_done he fun c hc => absurd hc List.not_mem_nil] at e
  exact ⟨w, e⟩

theorem Pwr.countEntry_vcoreEn (p : Pwr) (t : Sleep) : (p.countEntry t).vcoreEn = p.vcoreEn := by
  unfold Pwr.countEntry
  split
  · rfl
  · split <;> rfl

theorem Die.stateReached_stepped (ht : t = .night ∨ t = .midnight) (he : d.pwr.entry = some (t, true))
    (h : d.pwr.seqStart + entryCycles t ≤ d.time.aon.toNat) (done : 160 ≤ d.pwr.seqDone) :
    d.stateReached.pwr.state = t ∧ d.stateReached.pwr.entry = none ∧ d.stateReached.st = d.st ∧ d.stateReached.hbm = d.hbm ∧
      d.stateReached.pwr.vcoreEn = d.pwr.vcoreEn := by
  have past : ∀ c ∈ entrySteps t, c ≤ d.pwr.seqDone := by
    rcases ht with rfl | rfl
    all_goals
      intro c hc
      simp only [entrySteps, List.mem_cons, List.not_mem_nil, or_false] at hc
      omega
  obtain ⟨w, e⟩ := Die.stateReached_only he h
  rw [Die.seqRun_entry_done he past] at e
  rw [e]
  exact ⟨rfl, rfl, rfl, rfl, Pwr.countEntry_vcoreEn _ t⟩

/-- Night and Midnight keep HBM4 and the retained banks; the domains' own stores are lost. -/
theorem Die.stateReached_deep (ht : t = .night ∨ t = .midnight) (he : d.pwr.entry = some (t, true))
    (h : d.pwr.seqStart + entryCycles t ≤ d.time.aon.toNat) (fresh : d.pwr.seqDone < 16) : ∃ n v o w, d.stateReached =
      { Die.reached { d.deepOff t with pwr := { (d.deepOff t).pwr with seqDone := n, vcoreEn := v }, out := o } t with nwt := w } ∧
      (t = .midnight → v = some false) := by
  obtain ⟨n, v, o, run, low⟩ := Die.seqRun_deep ht he fresh (by unfold Die.seqAt; omega)
  obtain ⟨w, e⟩ := Die.stateReached_only he h
  rw [run] at e
  exact ⟨n, v, o, w, e, low⟩

/-! ### Wake sources -/

theorem Pwr.edge_outside {p : Pwr} (h : p.inWindow = false) (n : Nat) : p.edge n = { p with latched := p.latched ||| (1#7 <<< n) } :=
  if_neg (by rw [h]; exact Bool.false_ne_true)

theorem Pwr.edge_inside {p : Pwr} (h : p.inWindow = true) (n : Nat) : p.edge n = p := if_pos h

theorem answers_wakeNAssert {s : State} (h : s.die.pwr.wakeN = true) {p : Pwr}
    (hp : (let q : Pwr := { s.die.pwr with wakeN := false }; if q.pinEdge then q.edge 4 else q) = p) :
    Answers .wakeNAssert s { s.die with pwr := p } := by
  subst hp
  exact answers_of_act (exec_wakeNAssert s) (if_pos h)

/-- An exit that is due is recorded, and VCORE_EN rises on the way out of Midnight. -/
theorem Die.exitStart_due (h : d.exitDue = true) : ∃ v o r, d.exitStart = { d with out := o, pwr := { d.pwr with
      exiting := true, seqStart := d.time.aon.toNat, seqDone := 0, lastExit := r, vcoreEn := v } } ∧
    (d.pwr.state = .midnight → v = some true) ∧ (d.pwr.state ≠ .midnight → o = d.out ∧ v = d.pwr.vcoreEn) := by
  unfold Die.exitStart
  rw [if_pos h]
  dsimp only
  split
  · next deep =>
    obtain ⟨o, e⟩ := Die.vcore_only { d with pwr := { d.pwr with
        exiting := true, seqStart := d.time.aon.toNat, seqDone := 0,
        lastExit := w32 (0x80000000 + d.wakeEnabled * 2 ^ 16 + b2n (decide (d.permitted < d.pwr.state.code)) * 2 ^ 8 + d.pwr.state.code) } } true
    exact ⟨_, _, _, e, fun _ => rfl, fun shallow => absurd deep shallow⟩
  · next shallow => exact ⟨_, _, _, rfl, fun deep => absurd deep shallow, fun _ => ⟨rfl, rfl⟩⟩
end

/-- Settles O58: each clause is what its command does to the power block; a reading and an exit by what they leave beside the
level. -/
theorem levelsVotesSleepAndWake : Obligations.LevelsVotesSleepAndWake := by
  intro s fn val temps
  refine ⟨?_, ?_, ?_, ?_, ?_, ?_, ?_, ?_, ?_, ?_, ?_, ?_, ?_, ?_, ?_, ?_, ?_, ?_, ?_⟩
  · intro p _ hn
    have other : fn.val ≠ 0 := fun h => hn (Fin.ext h)
    exact ⟨answers_of_act (exec_voteSet fn val s) (Die.pfWr_other p other _ _ _),
      answers_of_act (exec_voteClr fn val s) (Die.pfWr_other p other _ _ _),
      answers_of_act (exec_plevelWrite fn val s) (Die.pfWr_other p other _ _ _)⟩
  · intro p ho
    exact ⟨answers_of_act (exec_voteSet 0 val s) (Die.pfWr_prompt p ho _ _ _),
      answers_of_act (exec_voteClr 0 val s) (Die.pfWr_prompt p ho _ _ _)⟩
  · intro p ho hf hr ht hc
    have ha : s.die.awake = true := (Bool.and_eq_true_iff.1 p.1).1
    have written {e : Die} (h : s.die.plevelWrite val = e) : Answers (.plevelWrite 0 val) s e :=
      answers_of_act (exec_plevelWrite 0 val s) ((Die.pfWr_prompt p ho _ _ _).trans h)
    refine ⟨fun h => written (Die.plevelWrite_inForce hf val h), fun h => written ?_, fun h => written ?_⟩
    · exact (Die.plevelWrite_starts ha hc ht hr hf val rfl (Nat.ne_of_gt h)).trans (if_pos h)
    · exact (Die.plevelWrite_starts ha hc ht hr hf val rfl (Nat.ne_of_lt h)).trans (if_neg (Nat.not_lt.2 (Nat.le_of_lt h)))
  · intro l hc
    exact ⟨fun h => answers_of_act (exec_levelTransitionComplete s) (Die.levelDone_early hc h),
      fun h hl hf => answers_of_act (exec_levelTransitionComplete s) (Die.levelDone_ends hc h hf hl)⟩
  · exact answers_of_act (exec_thermalSample [] s) rfl
  · intro t ht top
    obtain ⟨temp, sensor, moves⟩ := s.die.thermalSample_reading ht top
    exact ⟨s.die.thermalSample temps, answers_of_act (exec_thermalSample temps s) rfl, temp, sensor, moves,
      fun hot h => s.die.thermalSample_tripped ht top hot h, fun h => s.die.thermalSample_cooler ht top h⟩
  · intro h
    exact answers_of_act (exec_sleepEntryStart s) (if_pos h)
  · intro h
    exact answers_of_act (exec_sleepEntryStart s) (if_neg (by rw [h]; exact Bool.false_ne_true))
  · intro t he h
    refine ⟨?_, fun _ hs hb => answers_of_act (exec_entryWindowClose s) (Die.windowClose_quiet he h hs hb)⟩
    rintro rfl
    exact answers_of_act (exec_entryWindowClose s) (Die.windowClose_due he h)
  · intro he h
    obtain ⟨w, e⟩ := Die.stateReached_dusk he h
    exact ⟨_, answers_of_act (exec_sleepStateReached s) e, rfl, rfl, rfl⟩
  · intro t n hn he h wf
    have deep : t = .night ∨ t = .midnight := hn.imp And.left And.left
    have cycles : s.die.pwr.seqStart + entryCycles t ≤ s.die.time.aon.toNat := by
      rcases hn with ⟨rfl, rfl⟩ | ⟨rfl, rfl⟩ <;> exact h
    refine ⟨fun done => ⟨_, answers_of_act (exec_sleepStateReached s) rfl, Die.stateReached_stepped deep he cycles done⟩, fun fresh => ?_⟩
    obtain ⟨k, v, o, w, e, low⟩ := Die.stateReached_deep deep he cycles fresh
    exact ⟨_, answers_of_act (exec_sleepStateReached s) e, rfl, rfl, rfl, rfl, rfl, rfl, rfl, rfl, rfl, rfl, rfl, s.die.deepOff_ws0 t wf,
      rfl, rfl, rfl, rfl, rfl, rfl, fun mid => (Pwr.countEntry_vcoreEn _ t).trans (low mid)⟩
  · intro h
    exact answers_of_act (exec_hostWake s) (if_pos h)
  · intro hw hp ho
    exact answers_wakeNAssert hw ((if_pos hp).trans (Pwr.edge_outside (p := { s.die.pwr with wakeN := false }) ho 4))
  · intro hw hp
    refine answers_wakeNAssert hw ?_
    dsimp only
    split
    · next pin =>
      have inside : s.die.pwr.inWindow = true := hp.resolve_left (by rw [pin]; exact Bool.noConfusion)
      exact Pwr.edge_inside (p := { s.die.pwr with wakeN := false }) inside 4
    · rfl
  · exact answers_of_act (exec_wakeNRise s) rfl
  · intro ht ho
    exact answers_of_act (exec_pwrTimerMatch s) ((if_pos ht).trans (by rw [Pwr.edge_outside ho]; rfl))
  · intro h
    obtain ⟨v, o, r, e, deep, shallow⟩ := Die.exitStart_due h
    exact ⟨_, answers_of_act (exec_sleepExitStart s) e, rfl, deep, shallow⟩
  · refine ⟨?_, ?_, ?_, ?_⟩
    · rintro ⟨hx, he, ht, hd⟩ hr hw
      obtain ⟨e, awoken, e'⟩ := Die.exitEnd_due he hx ht hd
      rw [Die.heldReset_active (Die.messages_active (awoken.active he hr hw) _)] at e'
      refine ⟨e, ?_, answers_of_act (exec_sleepExitDone s) e'⟩
      obtain ⟨state, exiting, wake, held, -⟩ := awoken.pwr
      obtain ⟨st, ctx, iss, -⟩ := awoken.kept
      exact ⟨state, exiting, wake, held, st, ctx, iss, awoken.hbm_dusk, fun deep h0 => awoken.hbm_deep deep h0 hd,
        fun mid h0 => awoken.reference mid h0 hd, fun _ asleep waits w => awoken.trains asleep waits w⟩
    · rintro a v ⟨hx, he, ht, hd⟩ hr hw held none_held q hq hs hb
      obtain ⟨e, awoken, e'⟩ := Die.exitEnd_due he hx ht hd
      rw [Die.heldReset_active (Die.messages_active (awoken.active he hr hw) _), held, awoken.memWr none_held hq hs hb] at e'
      exact ⟨_, answers_of_act (exec_sleepExitDone s) e', rfl, awoken.pwr.1⟩
    · rintro ⟨hx, he, ht, hd⟩ hr hw held hb hf
      obtain ⟨e, awoken, e'⟩ := Die.exitEnd_due he hx ht hd
      obtain ⟨state, -, -, -, entry, tripped, reset, warm⟩ := awoken.pwr
      obtain ⟨st, -, -, -, -, boot⟩ := awoken.kept
      have starts : e.heldReset = e.warmStart := Die.heldReset_warm (reset.trans hr) (warm.trans hw) state (entry.trans he)
        (by rw [boot, hb]) (by rw [boot, hf]) (tripped.trans ht)
      rw [held] at e'
      obtain ⟨inWarm, service, taken, kept⟩ := e.warmStart_facts
      exact ⟨_, answers_of_act (exec_sleepExitDone s) (e'.trans starts), inWarm, service, taken, by rw [kept, st]⟩
    · intro h he
      exact answers_of_act (exec_sleepExitDone s) (Die.exitEnd_early (Die.exitEndDue_false h he))
  · exact answers_of_act (exec_referenceClockStop s) rfl

end Sys2Proof.Machine
end
